-- ==== Sys2Proof/Word.lean ====
section
/-! DEFINITION. The register word, the byte, and the sparse table every addressed store of the module is held in. -/
namespace Sys2Proof

/-- A register of the module aperture (R28: registers are 32 bits wide). -/
abbrev Word := BitVec 32

/-- A byte of a frame, a message or a memory. -/
abbrev Byte := BitVec 8

/-- A sparse table: pairs of a key and a value, keys strictly rising, and no entry equal to what an unlisted key reads as.
`Machine.tget` and `Machine.tset` are the only ways it is read and written. -/
abbrev Tbl (α : Type) := List (Nat × α)

end Sys2Proof
end

