-- ==== Sys2Proof/Syntax.lean ====
section
/-! DEFINITION. The commands of the OX48 row controller module: one constructor of `Instr` for each row of the command table, with
the operands a sender gives it, and the small types those operands use. -/
namespace Sys2Proof

/-- A Seif lane. -/
inductive LaneId | a | b
  deriving DecidableEq, Repr

/-- A die with its own operating point, droop flag and throttle durations (R59–R66). -/
inductive DieId | xoide | hervi
  deriving DecidableEq, Repr

/-- The governed classes of R53 in priority order. -/
inductive GovClass | lane | valve | pump | lpddr | erg | eth
  deriving DecidableEq, Repr

/-- A governed item: its class and instance number. -/
structure GovItem where
  cls : GovClass
  inst : Nat
  deriving DecidableEq, Repr

/-- A block with a STATE machine (R33, R34): a page's block, a pump channel, or a Caravan port. -/
inductive BlockId
  | page (p : BitVec 8)
  | pump (n : Fin 4)
  | port (p : Fin 2)
  deriving DecidableEq, Repr

/-- How a register write reaches its page (R38): directly from Hervi, or applied by the lanes from the mailbox. -/
inductive Via | direct | mailbox
  deriving DecidableEq, Repr

/-- The width of an access in bytes (R28). -/
inductive AccSize | b1 | b2 | b4 | b8
  deriving DecidableEq, Repr

/-- What a front-end converter gives in its slot (R97): the electrical quantity (nA, µV or mΩ, by the channel's kind), or the edges a
pulse counter received in the tick with the timestamps of the first and the last in sensor ADC cycles. -/
inductive Sample
  | elec (e : Int)
  | edges (n tFirst tLast : Nat)
  deriving DecidableEq, Repr

/-- A map segment of R107: its header fields, its summary codes (a and b of each hot spot) and its point codes. -/
structure MapSeg where
  version : Nat
  typ : Nat
  endpoint : Nat
  mapSeq : Nat
  seg : Nat
  segLast : Nat
  npoints : Nat
  flags : Nat
  hotspots : Nat
  sec : Nat
  ns : Nat
  summary : List Nat
  points : List Nat
  tag : Option Nat
  deriving DecidableEq, Repr

/-- What Playa samples to detect armature movement (R246, R247): the largest current since BOOST began and the present sample, 10 mA; or
window i of PEAK with the mean coil voltages V(i−2), V(i−1), V(i), 0.1 V. -/
inductive DetSample
  | dip (m sample : Nat)
  | kink (i : Nat) (v0 v1 v2 : Int)
  deriving DecidableEq, Repr

/-- A PWM output (R254). -/
inductive OutId
  | fan (c : Fin 48)
  | pump (n : Fin 4)
  deriving DecidableEq, Repr


/-- An entry of the job table (R176). -/
structure JobEnt where
  kind : Nat
  safety : Bool
  after : Nat
  tileFirst : Nat
  tileCount : Nat
  budget : Nat
  replay : Nat
  pkgFirst : Nat
  pkgCount : Nat
  slots : Nat
  inList : Nat
  outList : Nat
  head : Nat
  deriving DecidableEq, Repr

/-- A tile image of a model set: the tile, the LPDDR6 address it is copied from, its first tile word, its number of words, and its SHA-256 digest
(R326). -/
structure TileImg where
  tile : Nat
  xa : Nat
  word : Nat
  words : Nat
  digest : Nat
  deriving DecidableEq, Repr

/-- A layer of a model (R180): dense by its K and N; a convolution by its kernel, stride and channels in and out; a max-pool by its window;
element-wise add; a vector function of R152; any other kind. -/
inductive LayerKind
  | dense (k n : Nat)
  | conv (kernel stride cin cout : Nat)
  | maxPool (window : Nat)
  | add
  | vector
  | other
  deriving DecidableEq, Repr

/-- A path from a package's inputs to its outputs (R180): its layers in order, each with whether it runs in bound mode, and whether the path
ends at HI, LO, HI3 or RISE. -/
structure PathShape where
  layers : List (LayerKind × Bool)
  toBound : Bool
  deriving DecidableEq, Repr

/-- An input of a package's model (R180): the map as a grid, hot-spot reading pairs, the cap in force, the supply temperature, recurrent
state, or anything else. -/
inductive ModelInput
  | map (rows cols : Nat)
  | hotspots (pairs : Nat)
  | cap
  | supplyTemp
  | recurrent
  | other
  deriving DecidableEq, Repr

/-- The shape of one package's model (R180): its inputs, paths, bytes of recurrent state, layers of its residual heads with each head's
hidden units and format code, and the points and frames of its predicted map. -/
structure PkgShape where
  inputs : List ModelInput
  paths : List PathShape
  stateBytes : Nat
  heads : List (List LayerKind × Nat × Nat)
  points : Nat
  frames : Nat
  deriving DecidableEq, Repr

/-- Where a package's residual head lives (R186): the tile, the tile words of its two copies, its length in words, its LPDDR6 address in the
adaptation state, and the steps a candidate takes before its check. -/
structure HeadMap where
  pkg : Nat
  tile : Nat
  copy0 : Nat
  copy1 : Nat
  words : Nat
  xa : Nat
  steps : Nat
  deriving DecidableEq, Repr

/-- What the manifest of a model set says (R176, R180, R181): the set's identifier, the bytes of its image (R325), of which the body is the manifest,
and what the manifest says, to which the spec gives no layout: its jobs, the shape of each package's model, its feedforward slots, its tile images, the bytes of program and of data each tile needs, its job space and
model space bytes, and its residual heads. -/
structure Manifest where
  setId : Nat
  img : List Nat
  jobs : List JobEnt
  shapes : List PkgShape
  slots : Nat
  images : List TileImg
  tileUse : List (Nat × Nat × Nat)
  jobSpace : Nat
  modelSpace : Nat
  heads : List HeadMap
  deriving DecidableEq, Repr, Inhabited

/-- An occurrence a block reports (R343, R345): class, origin, unit page, sub-unit, operation, event code within the unit, argument. -/
structure EvIn where
  cls : Nat
  origin : Nat
  unit : Nat
  sub : Nat
  op : Nat
  code : Nat
  arg : Nat
  deriving DecidableEq, Repr


/-- The header of a Caravan frame (R297). -/
structure CHdr where
  version : BitVec 8
  typ : BitVec 8
  dst : BitVec 6
  bcast : Bool
  src : BitVec 6
  ttl : BitVec 8
  rseq : BitVec 32
  rgen : BitVec 16
  deriving DecidableEq, Repr

/-- What a Sync brings besides its offset (R322, R324): the mean path delay, ns, and the grandmaster's second at the present boundary. -/
structure SyncIn where
  path : Nat
  sec : BitVec 48
  deriving DecidableEq, Repr

/-- An entry of a DISC list (R302). -/
structure DiscEnt where
  uid : Nat
  last : Nat
  lastValid : Bool
  pref : Nat
  prefEn : Bool
  pairEn : Bool
  onEast : Bool
  cdu : Nat
  deriving DecidableEq, Repr

/-- An entry of an ASSIGN (R303). -/
structure AsgEnt where
  uid : Nat
  addr : Nat
  assigned : Bool
  deriving DecidableEq, Repr

/-- The header of a UCIe flit as it arrives (R315): module, CRC intact, TAG, FSEQ, ACKSEQ, NAK, CREDITS. -/
structure FlitHdr where
  mod : Fin 2
  crcOk : Bool
  tag : BitVec 8
  fseq : BitVec 12
  ackseq : BitVec 12
  nak : Bool
  credits : BitVec 8
  deriving DecidableEq, Repr

/-- A resource of the Redfish service (R320). -/
inductive RedRes
  | root | chassis | sensorPair (k : Fin 6) | sensorCh (g : Fin 8) (n : Fin 32) | sensorFeed (b : Bool) | sensorIin | assembly
  | rack (r : Fin 24) | budget (r : Fin 24) | pkg (r : Fin 24) (s : Fin 96) | manager | events | subscriptions | update | hall | other
  deriving DecidableEq, Repr

/-- What one sampler finds at the service panel (R335, R337, R338). -/
structure PanelIn where
  button : Bool
  jumper : Bool
  closed : Bool
  deriving DecidableEq, Repr
/-- The commands, one constructor for each row of spec/opcode_table.json. -/
inductive Instr where
  /-- R17. Each tick boundary (128 AON cycles) starts a lane's fixed-phase work of the tick, from P0 commit through P7 emission. -/
  | tickBoundary (stA stB : Fin 6) (rotA rotB : Option (Fin 7))
  /-- R82. A STANDBY lane takes authority with GEN + 1 when the authority lane is silent 2 ticks, shows claim 0000h or ST_FAIL, or a command names it. -/
  | takeover (lane : LaneId)
  /-- R14. A lane that finds AONCLK absent or off nominal switches to its own crystal within 2 ticks. -/
  | aonclkLoss (lane : LaneId)
  /-- R71. While AONCLK is lost, the higher-claim lane's tick marker aligns the other lane's tick boundaries. -/
  | tickMark (rcv : LaneId) (ok : Bool)
  /-- R20. At a frame boundary Xoide swaps ingest buffers, activates the job table and starts the frame's work. -/
  | frameBoundary
  /-- R20. At AON cycle 880 the power microcontroller requests self-refresh exit for all quadrants. -/
  | selfRefreshExitRequest
  /-- R20. At AON cycle 896 + 17k the power microcontroller requests erg k's clock start. -/
  | ergClockStartRequest (erg : Fin 8)
  /-- R190. 16 DMA cycles after every SAFETY job ends, Xoide posts the advisory on both lanes' links. -/
  | advisoryPost (aon : Fin 1024)
  /-- R188. A lane receives an advisory whole and checks its CRC-32, discarding a failing copy. -/
  | advisory (rcv : LaneId) (ok : Bool)
  /-- R22. A lane discards an advisory 24 ticks after latching it unless a newer one replaced it. -/
  | advisoryExpiry
  /-- R289. CONSERV clears when the eighth consecutive agreed advisory has been latched. -/
  | conservClear
  /-- R185. ADAPT and CHECK jobs start after both advisories are posted when adaptation is allowed. -/
  | adaptationStart
  /-- R185. Adaptation jobs still running after SHARE AON cycles or at AON cycle 831 are stopped and their work discarded. -/
  | adaptationStop
  /-- R51. The power microcontroller releases an erg to sleep when it has no job left in the frame. -/
  | ergSleep (erg : Fin 8)
  /-- R41. Writing SYS_MBOX_CMD with GO = 1 starts a mailbox batch of N entries and sets BUSY. -/
  | mboxGo (n : BitVec 4) (tag : BitVec 16)
  /-- R41. A batch reaches both lanes 512 Hervi uncore cycles after its GO, fixing tick T. -/
  | mboxBatchArrival
  /-- R71. Voting lanes exchange per-entry verdicts over the cross-lane link in P3 of tick T+1. -/
  | mboxVerdict (rcv : LaneId) (ok : Bool)
  /-- R41. An accepted batch is applied by every voting lane in P0 of tick T+2. -/
  | mboxApply
  /-- R42. If no deciding lane latches a batch within 2 ticks, the SYS page completes it with NO_LANE. -/
  | mboxNoLane
  /-- R38. A direct write to a register without a row of its own is applied or refused by its access code. -/
  | registerWrite (addr : BitVec 20) (size : AccSize) (data : BitVec 64)
  /-- R47. An access whose target does not respond within 1,024 uncore cycles completes with zeros and is counted in SYS_BUS_ERR. -/
  | busTimeout (addr : BitVec 20) (write : Bool)
  /-- R29. A read of the lower word of a wide register latches the upper word for the next upper-word read. -/
  | hiLoReadLatch (addr : BitVec 20) (size : AccSize)
  /-- R33. Writing PG_CTRL.EN = 1 moves an OFF block to STARTING, or sets PEND while it is STOPPING. -/
  | blockEnable (blk : BlockId) (via : Via)
  /-- R33. Writing PG_CTRL.EN = 0 moves a block to STOPPING, or clears a pending enable. -/
  | blockDisable (blk : BlockId) (via : Via)
  /-- R33. Writing PG_CTRL.RST_REQ = 1 resets the block to OFF. -/
  | blockReset (blk : BlockId) (via : Via)
  /-- R35. Writing PG_CTRL.FORCE_SAFE holds the block in its safe state, or releases it at the next tick boundary. -/
  | forceSafe (blk : BlockId) (on : Bool) (via : Via)
  /-- R33. A STARTING block that becomes ready, admission included, moves to RUN. -/
  | blockReady (blk : BlockId)
  /-- R33. A STOPPING block whose shutdown completes moves to OFF. -/
  | blockStopComplete (blk : BlockId)
  /-- R34. One block clock after reaching OFF with PEND set, the block becomes STARTING and PEND clears. -/
  | pendingEnableStart (blk : BlockId)
  /-- R33. A detected fault moves a block to FAULT, taking precedence over any simultaneous cause. -/
  | blockFault (blk : BlockId)
  /-- R31. Writing 1 to PG_IRQ bits clears them unless an event sets them in the same cycle. -/
  | irqClear (page : BitVec 8) (bits same : Word)
  /-- R32. Writing PG_ERR_CNT.CLR sets COUNT and LAST_CODE to 0. -/
  | errCntClear (page : BitVec 8) (same : Option (BitVec 8))
  /-- R47. Writing SYS_BUS_ERR.CLR sets the bus error count to 0. -/
  | busErrClear
  /-- R54. In each sequencer cycle the governor removes ended costs, queues sampled requests and admits queue heads by priority. -/
  | governorCycle (iin : BitVec 12)
  /-- R54. A governed requester raises an admission request, sampled at the next sequencer cycle edge. -/
  | inrushRequest (item : GovItem)
  /-- R54. The grant reaches the requester 2 sequencer cycles after admission and its wake latency starts. -/
  | grant (item : GovItem)
  /-- R53. An admitted item's surge cost leaves the ledger when its surge window ends. -/
  | surgeWindowEnd (item : GovItem)
  /-- R55. A class's spacing interval ends and its next head may be admitted. -/
  | spacingIntervalEnd (cls : GovClass)
  /-- R56. An urgent standby pump start is admitted in the cycle it is sampled whatever the budget and spacing. -/
  | bypassStart (pump : Fin 4)
  /-- R57. When PWR_IIN exceeds the budget for 16 cycles the governor sets HOLD and admits only lane-class requests. -/
  | inrushHold
  /-- R57. HOLD clears once PWR_IIN has stayed at or below 11.50 A for 16 cycles. -/
  | inrushHoldClear
  /-- R58. On loss of the Xoide–Hervi rail the governor drops every queued Xoide request and erg or quadrant ledger entry. -/
  | packageRailLoss
  /-- R49. A woken domain accepts work once its wake latency has run from the grant. -/
  | domainWakeComplete (dom : Fin 41)
  /-- R60. Every 4,096 power microcontroller cycles Xoide's power is estimated and the cap limit moves. -/
  | powerEvalInterval (tXoide tHervi : Nat)
  /-- R62. At 115 °C every erg stops, the frame's jobs are abandoned and the ergs restart next frame at OPP7. -/
  | ergThermalStop (tMax : Nat)
  /-- R61. An operating point step completes 1,024 power microcontroller cycles after it starts. -/
  | dvfsStepComplete (die : DieId)
  /-- R63. The ORed input crossing LOW_TH sets or clears SUPPLY_LOW and the supply limits. -/
  | supplyLowChange (vinA vinB : BitVec 12)
  /-- R64. A supply below the point voltage by more than the threshold sets the droop flag and starts the clock stretcher. -/
  | droopDetect (die : DieId) (mv pointMv : Nat)
  /-- R64. The clock stretcher releases 32 cycles after the droop flag clears. -/
  | droopRelease (die : DieId)
  /-- R65. A DVFS step waiting on droop is taken once the flag has been clear for 256 cycles. -/
  | droopWaitEnd (die : DieId)
  /-- R66. Writing CLK_HERVI_FRAME_DONE marks Hervi's per-frame work complete and stops its FRAME_OVERRUN count. -/
  | frameDone
  /-- R52. Writing INRUSH_LEDGER.PEAK_CLR sets PEAK to the present ledger. -/
  | ledgerPeakClear
  /-- R106. A lane receives the other lane's INPUT message with its sample block, advisory digest and calibration phase. -/
  | input (rcv : LaneId) (ok : Bool)
  /-- R83. A lane receives the other lane's comparison self-test verdict. -/
  | selftest (rcv : LaneId) (ok : Bool)
  /-- R88. A returning lane receives and applies one 16 KiB chunk of the authority lane's state. -/
  | snapshot (rcv : LaneId) (ok : Bool)
  /-- R395. In MERGE a lane receives the other lane's decision record for the merge. -/
  | record (rcv : LaneId) (ok : Bool)
  /-- R88. A returning lane receives and applies the authority lane's state words written in the tick. -/
  | log (rcv : LaneId) (ok : Bool)
  /-- R72. A lane receives the other lane's STATUS with claim, state, flags, hashes and rotation index. -/
  | status (rcv : LaneId) (ok : Bool)
  /-- R93. A lane in BOOT, RESYNC or OUT receives a command that names it and executes it in P0 of T+2. -/
  | cmd (rcv : LaneId) (ok : Bool)
  /-- R73. A lane sets LINK_DOWN when the other lane's STATUS is missing in two consecutive ticks. -/
  | linkDown (lane : LaneId)
  /-- R73. LINK_DOWN clears after 8 intact STATUS messages and the lower-claim lane resynchronises. -/
  | linkDownClear (lane : LaneId)
  /-- R87. MERGE ends after 8,192 consecutive equal RHASH comparisons or on a claim 0000h. -/
  | mergeEnd (lane : LaneId)
  /-- R87. In MERGE the comparison self-test repeats every 64 ticks. -/
  | mergeSelftestRepeat (lane : LaneId) (item : Fin 6)
  /-- R354. A lane that completes boot resolves authority and goes to AUTHORITY or RESYNC. -/
  | bootComplete (lane : LaneId)
  /-- R354. Lane B boot-complete for 64 ticks with lane A still in BOOT takes AUTHORITY itself. -/
  | laneBBootWait
  /-- R88. After 16 snapshot ticks the returning lane computes in step and enters PROBATION. -/
  | resyncComplete (lane : LaneId)
  /-- R81. A PROBATION lane becomes STANDBY after 8,192 consecutive equal hashes. -/
  | probationPass (lane : LaneId)
  /-- R90. A rotation not complete 600 s after it began sets OVERDUE and records an event. -/
  | rotationOverdue (lane : LaneId)
  /-- R93. LANE_CMD RESTART moves a lane in OUT to BOOT. -/
  | laneCmdRestart (lane : LaneId)
  /-- R81. LANE_CMD DEMOTE sends a lane to OUT. -/
  | laneCmdDemote (lane : LaneId)
  /-- R82. LANE_CMD TAKEOVER makes the named STANDBY lane take authority. -/
  | laneCmdTakeover (lane : LaneId)
  /-- R93. A command to a non-voting lane unreported by P1 of T+4 ends REFUSED_STATE, or for RESTART resets the lane. -/
  | commandReportTimeout (lane : LaneId)
  /-- R77. Each lane's per-tick claim beacon is received by agents and receivers. -/
  | claimBeacon (endpoint : Fin 2304) (lane : LaneId) (port : Fin 2)
  /-- R79. A receiver acts on a held lower-claim frame when its 32 AON cycle hold ends. -/
  | receiverHoldExpiry (endpoint : Fin 2304)
  /-- R79. A receiver forgets AUTH after 1 s without an acted frame. -/
  | receiverAuthForget (endpoint : Fin 2304)
  /-- R80. At each tick boundary a Playa chip chooses the frame of the higher claim and applies its items. -/
  | playaTickBoundary (chip : Fin 2) (cur rails : List Nat)
  /-- R249. A Playa chip receives a lane's actuator frame and applies its fan and pump duties on receipt. -/
  | actuatorFrame (chip : Fin 2) (lane : LaneId) (crcOk : Bool)
  /-- R124. A Playa chip receives a LOOP_OUT message and applies its duty on receipt. -/
  | loopOut (chip : Fin 2) (lane : LaneId) (idx : BitVec 6) (crcOk : Bool)
  /-- R251. Each lane receives a Playa chip's per-tick status report. -/
  | playaStatusReport (chip : Fin 2) (lane : LaneId) (crcOk : Bool)
  /-- R357. A Playa reset releases its outputs, marks positions UNKNOWN and sets POS_LOST until the first chosen frame. -/
  | playaReset (chip : Fin 2)
  /-- R97. A front-end converter samples a channel at its fixed slot in the tick. -/
  | sensorSample (fe : LaneId) (group : Fin 8) (ch : Fin 32) (x : Sample)
  /-- R99. A channel out of range for 16 consecutive ticks enters FAULT. -/
  | rangeFault (group : Fin 8) (ch : Fin 32)
  /-- R99. A FAULT channel in range for 8,192 consecutive ticks returns to VALID. -/
  | rangeRecovery (group : Fin 8) (ch : Fin 32)
  /-- R99. Owner and cross copies differing for 2,048 ticks make the channel SUSPECT with cause PATH. -/
  | pathSuspect (group : Fin 8) (ch : Fin 32)
  /-- R99. A PATH-SUSPECT channel whose copies agree for 8,192 ticks returns to VALID. -/
  | pathRecovery (group : Fin 8) (ch : Fin 32)
  /-- R99. Pair sensors differing beyond the band for 2,048 ticks both become SUSPECT with cause PAIR. -/
  | pairSuspect (pair : Fin 6)
  /-- R99. A SUSPECT pair within its band for 8,192 ticks clears to VALID. -/
  | pairRecovery (pair : Fin 6)
  /-- R101. A path reading WET or SHORT for 8 consecutive ticks latches a leak verdict for the rack or CDU position. -/
  | leakVerdict (rope : Fin 32)
  /-- R101. OPEN or SHORT for 16 consecutive ticks puts a leak channel in FAULT and its rack in PROT_BLIND. -/
  | leakRopeFault (rope : Fin 32)
  /-- R101. Writing SENS_LEAK_CLR clears a leak verdict whose both paths read DRY. -/
  | sensLeakClr (bits : Word)
  /-- R104. Every 64 ticks the bus owner polls one dew point sensor with function code 04h. -/
  | dewPoll
  /-- R104. A dew point sensor's reply is latched and checked for CRC and status. -/
  | dewReply (bus : Fin 2) (crcOk : Bool) (dewPoint : BitVec 16) (status : BitVec 16)
  /-- R104. A poll with no reply within 40 ticks counts as missing. -/
  | dewReplyTimeout (bus : Fin 2)
  /-- R105. Supply temperature below the dew point floor for 8 ticks makes a dew-point verdict stand. -/
  | dewPointVerdict
  /-- R107. A package thermal map segment arrives on EtherType 88B5h. -/
  | mapSegment (port : Fin 2) (seg : MapSeg)
  /-- R110. The port controller forwards a segment 0's hot-spot summary to both lanes as a common-source item. -/
  | hotspotSummary
  /-- R111. Hot-spot sensors disagreeing in every summary for 2,048 ticks become SUSPECT and the margin steps. -/
  | hotspotSuspect (endpoint : Fin 2304) (spot : Fin 8)
  /-- R111. SUSPECT hot-spot marks clear after 8,192 ticks of agreeing summaries. -/
  | hotspotClear (endpoint : Fin 2304) (spot : Fin 8)
  /-- R108. A package agent without beacons from its home port for 4 ticks sends its maps to the other port. -/
  | agentPortFailover (endpoint : Fin 2304)
  /-- R114. LCAL_CMD STAGE clears the staging area and sets PHASE to STAGING. -/
  | lcalStage
  /-- R114. Writing LCAL_WDATA_k stores its word at LCAL_OFF + 4k of the staged image. -/
  | lcalWdata (k : Fin 7) (data : Word)
  /-- R114. LCAL_CMD COMMIT starts the check and flash write of the staged calibration set. -/
  | lcalCommit
  /-- R114. LCAL_CMD COMMIT_FOREIGN commits an image whose SERIAL differs from the module's. -/
  | lcalCommitForeign
  /-- R114. LCAL_CMD ABORT discards the staged calibration image. -/
  | lcalAbort
  /-- R114. A lane that has checked, written and read back the staged set shows READY. -/
  | calReady (lane : LaneId) (flashOk : Bool)
  /-- R114. Both lanes switch to the new set in the tick after both show READY with equal generation and CRC. -/
  | calSwitch
  /-- R114. Without a switch 2,048 ticks after the apply tick the lanes discard the staged image with FAILED. -/
  | calTimeout
  /-- R116. SENS_CAL_CMD ENTER puts one channel in CAL unless its partner or another CAL channel forbids it. -/
  | calEnter (group : Fin 8) (ch : Fin 32)
  /-- R116. SENS_CAL_CMD LEAVE commits a set with the channel's new constants and puts it in RETURN. -/
  | calLeave (group : Fin 8) (ch : Fin 32)
  /-- R116. SENS_CAL_CMD CANCEL returns the channel to RETURN with its old constants. -/
  | calCancel (group : Fin 8) (ch : Fin 32)
  /-- R116. A channel in CAL for 3,600 s without LEAVE returns to RETURN with its old constants. -/
  | calAbandon (group : Fin 8) (ch : Fin 32)
  /-- R116. A RETURN channel becomes VALID after 2,048 consecutive agreeing or in-range ticks. -/
  | returnValid (group : Fin 8) (ch : Fin 32)
  /-- R126. Writing LENG_FE_CLR clears a loop's following-error trip and FE_CNT in P0. -/
  | lengFeClr (hi : Bool) (bits : Word)
  /-- R130. LENG_BANK_CMD CHECK runs the bank check and sets CHECKED on a pass. -/
  | bankCmdCheck
  /-- R130. LENG_BANK_CMD SWAP checks the edit bank and swaps at the next boundary if its CRC matches. -/
  | bankCmdSwap
  /-- R130. LENG_BANK_CMD SWAP_AT arms a checked swap at LENG_SWAP_TICK. -/
  | bankCmdSwapAt
  /-- R130. LENG_BANK_CMD CANCEL clears an armed SWAP_AT. -/
  | bankCmdCancel
  /-- R130. LENG_BANK_CMD COPY copies the active bank into the edit bank. -/
  | bankCmdCopy
  /-- R130. At the swap boundary the edit bank becomes active, CHECKED clears and the banks are written to flash. -/
  | bankSwap
  /-- R128. Writing LENG_LUT_S stores a gain table entry in the edit bank and advances IDX under INC. -/
  | lutEntryWrite (slope : Word)
  /-- R134. LENG_TRC_CTRL ARM starts recording into the circular trace buffer. -/
  | traceArm
  /-- R135. LENG_TRC_CTRL FORCE triggers the trace. -/
  | traceForce
  /-- R134. LENG_TRC_CTRL STOP returns the trace to IDLE. -/
  | traceStop
  /-- R163. NOP holds the sequencer for CNT + 1 cycles. -/
  | nop (t : Fin 576)
  /-- R163. JMP transfers control to the target instruction. -/
  | jmp (t : Fin 576)
  /-- R163. BRZ branches when LC0 is zero. -/
  | brz (t : Fin 576)
  /-- R163. LOOP decrements a loop counter and branches while it is nonzero. -/
  | loop (t : Fin 576)
  /-- R163. SETR writes a sequencer register. -/
  | setr (t : Fin 576)
  /-- R163. BAR waits until every tile of the job in the erg reaches it and its transfers are complete. -/
  | bar (t : Fin 576)
  /-- R177. END ends the tile's program for the job. -/
  | xEnd (t : Fin 576)
  /-- R143. LDW loads a weight block into WB0 or WB1 over port W. -/
  | ldw (t : Fin 576)
  /-- R142. MM streams activation rows through a weight block and accumulates into the accumulator file. -/
  | mm (t : Fin 576)
  /-- R163. ACLR clears G accumulator rows. -/
  | aclr (t : Fin 576)
  /-- R152. VADD adds vectors or intervals. -/
  | vadd (t : Fin 576)
  /-- R152. VSUB subtracts vectors or intervals. -/
  | vsub (t : Fin 576)
  /-- R152. VMUL multiplies vectors or intervals. -/
  | vmul (t : Fin 576)
  /-- R152. VMULC multiplies by a point constant. -/
  | vmulc (t : Fin 576)
  /-- R152. VMAX takes the element-wise maximum. -/
  | vmax (t : Fin 576)
  /-- R152. VMIN takes the element-wise minimum. -/
  | vmin (t : Fin 576)
  /-- R152. VRELU applies ReLU element-wise. -/
  | vrelu (t : Fin 576)
  /-- R152. VCLAMP clamps elements. -/
  | vclamp (t : Fin 576)
  /-- R152. VFMA performs a fused multiply-add, illegal in bound mode. -/
  | vfma (t : Fin 576)
  /-- R152. VEXP computes the exponential in FP32. -/
  | vexp (t : Fin 576)
  /-- R152. VLOG2 computes the base-2 logarithm in FP32. -/
  | vlog2 (t : Fin 576)
  /-- R152. VRCP computes the reciprocal in FP32. -/
  | vrcp (t : Fin 576)
  /-- R152. VRSQRT computes the reciprocal square root in FP32. -/
  | vrsqrt (t : Fin 576)
  /-- R152. VSIG computes the sigmoid in FP32. -/
  | vsig (t : Fin 576)
  /-- R152. VTANH computes the hyperbolic tangent in FP32. -/
  | vtanh (t : Fin 576)
  /-- R157. VRMAX reduces a vector to its maximum. -/
  | vrmax (t : Fin 576)
  /-- R152. VRSUM reduces a vector by the fixed pairwise tree sum. -/
  | vrsum (t : Fin 576)
  /-- R150. CVT converts values or accumulator rows to a destination format. -/
  | cvt (t : Fin 576)
  /-- R179. XLD moves data into tile SRAM from shared SRAM or another tile. -/
  | xld (t : Fin 576)
  /-- R161. XST moves data out of the tile only when no residue verdict is outstanding. -/
  | xst (t : Fin 576)
  /-- R159. A residue checker's verdict arrives D + 3 or 2 cycles after its result. -/
  | residueVerdict (t : Fin 576) (half : Fin 4) (ok : Bool)
  /-- R182. 8 cycles after outstanding verdicts arrive, the tile re-issues every instruction whose verdict was outstanding. -/
  | replay (t : Fin 576)
  /-- R165. A STARTING erg clears its SRAM and runs its known-answer test, reaching RUN or FAULT. -/
  | ergStartComplete (erg : Fin 8) (bad : Option (Fin 72))
  /-- R165. An awake erg whose PLL loses lock enters FAULT. -/
  | ergPllUnlock (erg : Fin 8)
  /-- R177. A job starts at the frame boundary or when its AFTER job reaches DONE, running its stage-in list first. -/
  | jobStart (job : Fin 1024)
  /-- R178. A job whose tiles all reach END runs its stage-out list and commits its recurrent state. -/
  | jobDone (job : Fin 1024) (layerOk envOk mseOk : Bool)
  /-- R183. A run ended by a second mismatch, uncorrectable read, illegal instruction or failed transfer restarts or becomes FAILED. -/
  | jobRunEnd (job : Fin 1024)
  /-- R171. The scrubber reads, corrects and writes back memory words in idle port cycles each frame. -/
  | scrub
  /-- R191. XJOB_CMD LOAD fits the model set named in XJOB_SET against the inactive table. -/
  | xjobLoad (m : Manifest)
  /-- R181. Fitting ends ACCEPTED or REFUSED with its first failing code. -/
  | fittingComplete
  /-- R191. XJOB_CMD ARM arms the accepted set to swap in at frame F. -/
  | xjobArm
  /-- R192. XJOB_CMD CANCEL before frame F−1 withdraws the ARM. -/
  | xjobCancel
  /-- R191. In frame F−1 after the advisory the ergs stay awake and copy the new set's images from LPDDR6. -/
  | swapWindow
  /-- R192. A copy incomplete at AON cycle 1015 or a quadrant leaving RUN abandons the swap. -/
  | swapAbandon
  /-- R170. Writing XECC_INJECT_XA_HI arms an error injection into the named word. -/
  | xeccInjectArm (hi : BitVec 8)
  /-- R359. PG_CTRL.RST_REQ of page 088 resets Xoide with LPDDR6 held in self-refresh. -/
  | xoideReset
  /-- R207. A receiver acts on its rack's CAP frame and takes its record. -/
  | capFrame (endpoint : Fin 2304) (lane : LaneId) (port : Fin 2) (locked : Bool)
  /-- R210. A receiver applies its DROP entry on receipt. -/
  | dropFrame (endpoint : Fin 2304) (lane : LaneId) (port : Fin 2) (seg : BitVec 8)
  /-- R210. A receiver in a named rack drops to DROP_CAP once per HSEQ. -/
  | haboobFrame (endpoint : Fin 2304) (lane : LaneId) (port : Fin 2)
  /-- R208. At the apply instant or SEQ a receiver applies CAP_NEXT, lowest of the values acted on. -/
  | capApply (endpoint : Fin 2304) (sec ns : Word)
  /-- R214. After 64 ms without CAP frames a receiver lowers C to HOLD_CAP. -/
  | receiverSilenceHold (endpoint : Fin 2304)
  /-- R214. After 1 s of silence a receiver reverts to the package's own thermal protection. -/
  | receiverSilenceRevert (endpoint : Fin 2304)
  /-- R201. A package below TSUP + IDLE_DT for DWELL seconds becomes idle and may receive a warm floor. -/
  | idleDwell (endpoint : Fin 2304)
  /-- R217. Writing CAPC_TBL_WDATA_k stores a table word for endpoint IDX + k, held while GATHER is 1. -/
  | capcTblWdata (k : Fin 7) (data : Word)
  /-- R218. GATHER clears itself 8,192 ticks after it was last written 1 and releases the held words. -/
  | gatherTimeout
  /-- R216. Each frame Hervi reads CAPC_OFF and sends shutdown request events for new bits. -/
  | shutdownRelay
  /-- R223. Both lanes receive a receiver's ACK for the pending epoch. -/
  | ack (endpoint : Fin 2304) (epoch : Word) (cap : BitVec 16)
  /-- R224. The acknowledgement timer expires in P2 of tick A−2. -/
  | ackDeadline
  /-- R227. A receiver discards CAP_NEXT on acting on an ABORT for its pending epoch before the apply instant. -/
  | abortFrame (endpoint : Fin 2304) (lane : LaneId) (port : Fin 2) (seg : BitVec 8)
  /-- R221. SLIP_HREQ_CMD SUBMIT queues a host request to commit the named pages' shadow values. -/
  | slipSubmit (swap : Bool)
  /-- R221. SLIP_HREQ_CMD WITHDRAW withdraws a waiting host request. -/
  | slipWithdraw
  /-- R225. SLIP_HREQ_CMD ABORT aborts the pending transaction with cause 05h. -/
  | slipAbort
  /-- R243. The head of a bank's queue starts its profile when no channel is in BOOST or PEAK, holds fit and the rail is ready. -/
  | profileStart (bank : Fin 12) (rail : BitVec 10)
  /-- R234. BOOST ends when the current reaches BOOST_I or after BOOST_T, recording TTP and starting PEAK. -/
  | boostEnd (ch : Fin 96) (ttp : Option (BitVec 8))
  /-- R234. PEAK ends PEAK_T ms after BOOST and HOLD begins. -/
  | peakEnd (ch : Fin 96)
  /-- R234. HOLD ends HOLD_T ms after PEAK and the channel switches off. -/
  | holdEnd (ch : Fin 96)
  /-- R234. Playa ends a profile 250 ms after it started and sets DIAG.CUT. -/
  | profileCut (ch : Fin 96)
  /-- R237. Current below 0.20 A at 6 TU after BOOST switches the channel off into FAULT. -/
  | openCoil (ch : Fin 96) (cur : BitVec 12)
  /-- R237. Channel current above 7.5 A for 32 cycles switches the channel off into FAULT. -/
  | channelOvercurrent (ch : Fin 96) (cur : BitVec 12)
  /-- R237. Switch current above 10.0 A for 32 cycles turns every channel off and puts the bank in FAULT. -/
  | switchOvercurrent (bank : Fin 12) (cur : BitVec 12)
  /-- R237. A rail above 69.0 V turns the converter off and puts the bank in FAULT. -/
  | railOvervoltage (bank : Fin 12) (rail : BitVec 10)
  /-- R244. A command waiting over 2.0 ms is refused REFUSED_RAIL or REFUSED_BUSY. -/
  | commandWaitTimeout (ch : Fin 96)
  /-- R248. A current dip or voltage kink gives MOVED and toggles the tracked position. -/
  | moveVerdict (ch : Fin 96) (d : DetSample) (t : BitVec 16)
  /-- R238. A rail below 63.0 V makes the bank's converter request admission to recharge. -/
  | boostRechargeRequest (bank : Fin 12) (rail : BitVec 10)
  /-- R238. The recharge ends when the rail reaches 65.0 V and its cost leaves the ledger. -/
  | boostRechargeEnd (bank : Fin 12) (rail : BitVec 10)
  /-- R252. A STARTING bank whose rail has not reached 64.0 V 2 s after admission enters FAULT. -/
  | bankStartTimeout (bank : Fin 12) (rail : BitVec 10)
  /-- R237. Writing VBANK_CH_CLR clears a channel's FAULT. -/
  | vbankChClr (bank : Fin 12) (bits : BitVec 8)
  /-- R248. VBANK_POS_SET GO sets the tracked position of an idle channel. -/
  | vbankPosSet (bank : Fin 12) (ch : Fin 8) (pos : BitVec 2)
  /-- R254. A new duty loads into the channel's compare register 8 sequencer cycles after its update. -/
  | dutyLoad (out : OutId)
  /-- R259. A tachometer falling edge is timestamped in PWM cycles. -/
  | tachEdge (out : OutId) (ts : Nat)
  /-- R261. A fan's 2 s start window ends without 2 edges, leading to KICK or TACH_LOST. -/
  | fanStartWindowEnd (ch : Fin 48)
  /-- R261. A running fan with no edge for 500 ms goes to KICK or TACH_LOST. -/
  | fanEdgeTimeout (ch : Fin 48)
  /-- R261. A 500 ms kick ends without 2 edges, moving to the next kick or BLOCKED. -/
  | fanKickEnd (ch : Fin 48)
  /-- R261. A TACH_LOST fan with regular edges for 1 s returns to RUN. -/
  | fanTachRecovery (ch : Fin 48)
  /-- R261. A TACH_LOST fan at stall current for 16 ticks starts kick 1. -/
  | fanStall (ch : Fin 48)
  /-- R261. Writing FAN_CLR clears BLOCKED and restarts the channel's start window. -/
  | fanClr (group : Fin 3) (bits : BitVec 16)
  /-- R263. After 16,384 ticks without a chosen frame Playa sets WDOG and releases fan and pump outputs. -/
  | playaWatchdog (chip : Fin 2)
  /-- R265. A STARTING pump below RUN_RPM TIME seconds after its grant enters FAULT. -/
  | pumpStartTimeout (pump : Fin 4)
  /-- R265. A STOPPING pump reaches OFF 30 s after its applied duty reached 0. -/
  | pumpStopTimeout (pump : Fin 4)
  /-- R265. A pump tachometer without edges for 8,192 ticks while the drive reports running marks TACH_LOST. -/
  | pumpTachLost (pump : Fin 4)
  /-- R266. At a boundary with SEQ mod 64 = 0 Playa sends a Modbus status read to one pump. -/
  | pumpPoll (chip : Fin 2)
  /-- R266. A pump drive's reply is latched and checked for CRC and exception. -/
  | modbusReply (chip : Fin 2) (crcOk exc : Bool) (regs : List Nat)
  /-- R266. A pump poll with no reply in 40 ticks counts as missing; three set MB_LOST. -/
  | modbusReplyTimeout (chip : Fin 2)
  /-- R268. A pump's first poll after reset and hourly reads the lost-command registers and may set LOSS_CFG_BAD. -/
  | lossConfigRead (pump : Fin 4) (act ms : BitVec 16)
  /-- R268. PUMP_MB_CMD SET_LOSS writes the lost-command action and time and reads them back. -/
  | pumpMbSetLoss (pump : Fin 4) (ms : BitVec 9)
  /-- R268. PUMP_MB_CMD WRITE sends function code 06h with PUMP_MB_WR's register and value. -/
  | pumpMbWrite (pump : Fin 4)
  /-- R269. Low inlet pressure and low power for 2,048 ticks latch a dry-run verdict and stop the pump. -/
  | dryRunVerdict (pump : Fin 4)
  /-- R269. Writing PUMP_DRY_CLR clears a pump's dry-run verdict. -/
  | pumpDryClr (bits : BitVec 4)
  /-- R270. A fan below 70 % of its curve for 8,192 ticks sets SLOW. -/
  | fanSlow (ch : Fin 48)
  /-- R270. SLOW clears after 8,192 ticks at or above 70 %. -/
  | fanSlowClear (ch : Fin 48)
  /-- R277. Flow below 20 % of Q_cmd for 41 ticks enters FLOW_STOP with a Haboob and urgent standby start. -/
  | flowStop
  /-- R278. Flow at or above 50 % of Q_cmd for 8 ticks ends FLOW_STOP. -/
  | flowRestored
  /-- R279. A sustained flow decline enters FLOW_DECL, starts the standby pump and steps ceilings down. -/
  | flowDecl
  /-- R279. FLOW_DECL ends after 8,192 ticks without the estimator condition. -/
  | flowDeclEnd
  /-- R284. Supply pressure at or above HI for 8 ticks sets the over-pressure verdict and ramps pumps down. -/
  | pressHi
  /-- R284. PRESS_HI ends after 8 ticks below HI − HYST. -/
  | pressHiEnd
  /-- R284. Pressure at or above MAX for 8 ticks starts a pressure Haboob and the shutdown timer. -/
  | pressMax
  /-- R285. Supply temperature at or above SUP_MAX for 8 ticks starts a Haboob, full fans and the shutdown timer. -/
  | supOver
  /-- R273. A Haboob ends when its condition has ended and ceilings move again. -/
  | haboobConditionEnd
  /-- R274. A condition still in force 16,384 ticks after entry sets RACK_OFF for all configured racks. -/
  | shutdownTimer
  /-- R273. PROT_CMD HABOOB starts an operator Haboob on PROT_CMD_RACKS. -/
  | protCmdHaboob (racks : BitVec 24)
  /-- R273. PROT_CMD HABOOB_END ends the operator Haboob. -/
  | protCmdHaboobEnd
  /-- R275. PROT_CMD RESTORE clears a rack's OFF state and reopens it if no condition remains. -/
  | protCmdRestore (rack : Fin 24)
  /-- R278. PROT_CMD STANDBY_RET returns the standby pump to standby. -/
  | protCmdStandbyRet
  /-- R286. A package at or above TRIP for 8 ticks at its floor gets OFF in its record. -/
  | packageOff (endpoint : Fin 2304)
  /-- R286. OFF clears after 8,192 ticks below TRIP − MARGIN. -/
  | packageOffClear (endpoint : Fin 2304)
  /-- R287. The dew setpoint override ends after 8,192 ticks without a verdict. -/
  | dewOverrideEnd
  /-- R287. Supply temperature below the highest dew point for 8 ticks raises DEW_BREACH. -/
  | dewBreach
  /-- R291. A single feed outside 36–50 V sets ONE_FEED and records an event. -/
  | oneFeed (vinA vinB : BitVec 12)
  /-- R292. Both feeds below 30.0 V for 64 sequencer cycles assert HOLDUP, drop caps and abort the pending transaction. -/
  | holdup (vinA vinB : BitVec 12)
  /-- R292. In tick H+384 the lanes write GEN, valve positions, epoch and events to flash and stop emitting. -/
  | holdupFlashWrite
  /-- R293. A feed back within range for 1,024 cycles clears HOLDUP. -/
  | holdupClear (vinA vinB : BitVec 12)
  /-- R294. When both Caravan ports have woken they run a 16 AON cycle loopback check and energise the relays. -/
  | portLoopbackCheck (eastOk westOk : Bool)
  /-- R294. Both monitoring contacts reporting energised move the ports to RUN. -/
  | relayConfirm
  /-- R294. A contact not confirming within 4,096 AON cycles puts the port in FAULT and bypasses the module. -/
  | relayConfirmTimeout (port : Fin 2)
  /-- R294. A contact disagreeing with its command in RUN puts the port in FAULT. -/
  | relayDisagree (port : Fin 2)
  /-- R294. A port waiting 16 ticks with WAIT_PEER records an event and sets BLOCK_IRQ bit 13. -/
  | waitPeerTimeout (port : Fin 2)
  /-- R295. Loss of the lane rail de-energises both relays and releases FIELD_OWN_N. -/
  | laneRailLoss
  /-- R300. A port receives its neighbour's per-tick LINK frame. -/
  | link (port : Fin 2) (ok : Bool) (hdr : CHdr) (leaving held : Bool)
  /-- R300. LINK_UP sets after 4 consecutive ticks with intact LINK frames and block lock. -/
  | caravanLinkUp (port : Fin 2)
  /-- R300. LINK_UP clears on lost lock, LEAVING or 4 ticks without LINK frames. -/
  | caravanLinkDown (port : Fin 2)
  /-- R300. A port's PCS loses block lock. -/
  | blockLockLoss (port : Fin 2)
  /-- R301. 8 ticks after the last LINK_UP change a node initiates a discovery with DISC frames. -/
  | discoveryStart
  /-- R302. A node receiving a DISC discards it, or appends its entry and forwards it. -/
  | disc (port : Fin 2) (ok : Bool) (hdr : CHdr) (init : BitVec 64) (rgen : BitVec 16) (list : List DiscEnt)
  /-- R302. A DISC_END from a line end returns the list toward the initiator. -/
  | discEnd (port : Fin 2) (ok : Bool) (hdr : CHdr) (init : BitVec 64) (rgen : BitVec 16) (list : List DiscEnt)
  /-- R303. A node receiving ASSIGN adopts its address, RGEN and node order and forwards it. -/
  | assign (port : Fin 2) (ok : Bool) (hdr : CHdr) (init : BitVec 64) (rgen : BitVec 16) (line : Bool) (list : List AsgEnt)
  /-- R302. A discovery not complete 4 ticks after its DISCs fails; 8 failures set DISC_FAIL. -/
  | discoveryFail
  /-- R306. The running module receives a twin's pairing request. -/
  | pairReq (port : Fin 2) (ok : Bool) (hdr : CHdr) (lane : LaneId) (gen : BitVec 8)
  /-- R367. The twin receives ACCEPT and its lanes leave BOOT for RESYNC. -/
  | pairAccept (port : Fin 2) (ok : Bool) (hdr : CHdr) (lane : LaneId) (gen : BitVec 8)
  /-- R367. The twin's lanes apply one snapshot chunk from the running module. -/
  | pairSnap (port : Fin 2) (ok : Bool) (hdr : CHdr) (lane : LaneId) (chunk : BitVec 16)
  /-- R367. The twin's lanes apply the running module's LOG of a tick. -/
  | pairLog (port : Fin 2) (ok : Bool) (hdr : CHdr) (lane : LaneId)
  /-- R367. The twin receives the running module's INPUT message for path agreement. -/
  | pairInput (port : Fin 2) (ok : Bool) (hdr : CHdr) (lane : LaneId) (elec : List (Nat × Int))
  /-- R367. The twin compares its mirrored RHASH with the running lane's STATUS. -/
  | pairStatus (port : Fin 2) (ok : Bool) (hdr : CHdr) (lane : LaneId) (claim : BitVec 16) (rhash : BitVec 64) (seq : Word)
  /-- R368. The running module latches HANDOVER and chooses boundary B, staging no further transactions. -/
  | pairHandover (port : Fin 2) (ok : Bool) (hdr : CHdr) (lane : LaneId) (gen : BitVec 8)
  /-- R368. The twin latches the announced boundary B, final when FINAL = 1. -/
  | pairBSet (port : Fin 2) (ok : Bool) (hdr : CHdr) (lane : LaneId) (seq : Word) (fin : Bool)
  /-- R307. At its frame slot the Caravan core broadcasts a HALL frame with the row's state. -/
  | hallBroadcast
  /-- R307. A node receives and keeps another node's HALL report. -/
  | hall (port : Fin 2) (ok : Bool) (hdr : CHdr) (bytes : List (BitVec 8))
  /-- R298. A DATA frame is delivered, forwarded or removed by the routing rules. -/
  | data (port : Fin 2) (ok : Bool) (hdr : CHdr) (bytes : List (BitVec 8))
  /-- R298. An ECHO is returned by its destination with DST and SRC exchanged. -/
  | echo (port : Fin 2) (ok : Bool) (hdr : CHdr) (ts now : BitVec 64)
  /-- R304. CRVN_TX_CMD GO sends CRVN_TX_BUF as a DATA frame routed by the adopted order. -/
  | crvnTxGo (dst : BitVec 6) (bcast : Bool) (len : BitVec 10)
  /-- R298. CRVN_RX_POP discards the shown DATA frame and shows the next. -/
  | crvnRxPop
  /-- R298. CRVN_ECHO GO sends an ECHO to DST and measures its round trip. -/
  | crvnEchoGo (dst : BitVec 6) (now : BitVec 64)
  /-- R298. An ECHO without reply within 4 ticks ends with RESULT 2. -/
  | echoTimeout
  /-- R320. The Redfish service returns a listed resource. -/
  | redfishGet (res : RedRes)
  /-- R320. A Budget PATCH writes a rack's shares under one GATHER through the mailbox. -/
  | redfishBudgetPatch (rack : Fin 24) (share : Option (BitVec 16))
  /-- R321. A package Control PATCH writes one share and answers by mailbox outcome. -/
  | redfishPkgPatch (rack : Fin 24) (slot : Fin 96) (share : Option (BitVec 16))
  /-- R320. A POST creates an event subscription. -/
  | redfishSubscribe (kinds : BitVec 3) (racks : BitVec 24)
  /-- R320. A DELETE removes an event subscription. -/
  | redfishUnsubscribe (id : Nat)
  /-- R363. The SimpleUpdate action delivers a firmware or model image. -/
  | redfishSimpleUpdate (img : List (BitVec 8))
  /-- R315. A REG_RD flit reads a Xoide page register. -/
  | regRd (h : FlitHdr) (addr : BitVec 20)
  /-- R315. A REG_WR flit writes a Xoide page register. -/
  | regWr (h : FlitHdr) (addr : BitVec 20) (data : Word)
  /-- R315. A REG_CPL flit returns a register access's completion. -/
  | regCpl (h : FlitHdr)
  /-- R312. A MEM_RD flit reads Xoide memory, waking a sleeping quadrant or erg if needed. -/
  | memRd (h : FlitHdr) (xa : BitVec 40) (len : BitVec 16)
  /-- R312. A MEM_WR flit writes Xoide memory. -/
  | memWr (h : FlitHdr) (xa : BitVec 40) (bytes : List (BitVec 8))
  /-- R315. A MEM_CPL flit returns memory read data or status. -/
  | memCpl (h : FlitHdr)
  /-- R315. An IRQ flit carries a change of a Xoide page's interrupt request. -/
  | irq (h : FlitHdr) (page : BitVec 8)
  /-- R315. An IDLE flit carries acknowledgements and credits only. -/
  | idle (h : FlitHdr) (toHervi : Bool) (kind : BitVec 8)
  /-- R316. On a NAK the sender replays every flit after ACKSEQ. -/
  | flitReplay (mod : Fin 2) (toHervi : Bool) (ackseq : BitVec 12)
  /-- R316. A module losing lock or sending 8 NAKs retrains, moving its flits to the other module. -/
  | ucieRetrain (mod : Fin 2)
  /-- R312. A memory access not completed in 65,536 cycles completes with zeros and counts in UCIE_TIMEOUT. -/
  | ucieMemoryTimeout (tag : BitVec 8)
  /-- R313. A quadrant woken by Hervi returns to sleep 1,024 cycles after the last access. -/
  | quadrantIdleTimeout (quad : Fin 5)
  /-- R324. A Sync message updates the offset and the LOCKED state. -/
  | ptpSync (port : Fin 2) (offset : Int) (sync : SyncIn)
  /-- R324. 4 s without a Sync clears LOCKED. -/
  | ptpSyncTimeout
  /-- R322. A PTP event or general message other than Sync is processed by the selected profile. -/
  | ptpMessage (port : Fin 2) (gm : Bool) (state0 state1 : BitVec 4) (path : Option Nat)
  /-- R329. SEC_CMD ENROLL enrols an owner key hash in the next free slot. -/
  | secEnroll (key : BitVec 3072)
  /-- R329. SEC_CMD REVOKE revokes an owner key slot. -/
  | secRevoke (key : BitVec 3072)
  /-- R339. SEC_CMD TAMPER_CLR verifies the token and clears the tamper latches. -/
  | secTamperClr (key : BitVec 3072)
  /-- R331. SEC_CMD RAISE_SVN raises a kind's fused SVN floor. -/
  | secRaiseSvn
  /-- R333. SEC_CMD ATTEST starts an attestation report. -/
  | secAttest
  /-- R333. Hervi signs the report once every die's signature is collected. -/
  | attestationComplete
  /-- R340. SEC_CMD DBG_OPEN opens debug for Hervi or Xoide. -/
  | secDbgOpen (die : Fin 2)
  /-- R341. SEC_CMD DBG_KILL blows the DBG_KILL fuse of Hervi or Xoide. -/
  | secDbgKill (die : Fin 2)
  /-- R339. LSEC_CMD TAMPER_CLR clears a lane's tamper latch within its window with the loop closed. -/
  | lsecTamperClr
  /-- R340. LSEC_CMD DBG_OPEN opens debug for a lane in OUT or an idle Playa. -/
  | lsecDbgOpen (target : Fin 4)
  /-- R341. LSEC_CMD DBG_KILL blows a lane's or Playa's DBG_KILL fuse. -/
  | lsecDbgKill (target : Fin 4)
  /-- R333. LSEC_CMD ATTEST makes each lane and its Playa sign their die blocks. -/
  | lsecAttest
  /-- R341. A DBG_KILL blow completes 8,192 AON cycles after it starts. -/
  | fuseBlowComplete (die : Fin 6)
  /-- R335. At AON cycle 64 of each tick the sequencer and lanes sample button, jumper and seal. -/
  | panelSample (seq a b : PanelIn)
  /-- R335. A press reaching 3 s opens the presence window for 120 s. -/
  | presenceOpen
  /-- R335. The presence window closes when its 983,040 ticks end. -/
  | presenceWindowExpiry
  /-- R335. A press of 8–8,191 ticks ending in release closes the window. -/
  | buttonRelease
  /-- R335. A press reaching 32 s closes the window and sets STUCK. -/
  | buttonStuck
  /-- R337. A jumper fitted for 8 ticks is accepted or refused and may hold the window open. -/
  | jumperFitted
  /-- R337. A jumper removed for 8 ticks closes a jumper-held window. -/
  | jumperRemoved
  /-- R335. Writing PRES_CTRL.CLOSE closes the window at the next boundary. -/
  | presCtrlClose
  /-- R338. The seal loop open for 8 ticks latches the tamper event. -/
  | sealOpen
  /-- R338. At power-up and hourly the seal serial is read and a mismatch or silence latches tamper. -/
  | sealRead (seq a b : Option Word)
  /-- R347. An occurrence enters a recorder, is counted and is coalesced or opens a new entry. -/
  | eventOccurrence (o : EvIn)
  /-- R345. An open entry closes after 8,192 ticks without an occurrence of its key. -/
  | entryClose
  /-- R349. When the main recorder starts, each lane redelivers every entry it holds. -/
  | recorderStartRedelivery
  /-- R350. Writing REC_CURSOR copies the named entry into the window. -/
  | recCursor (seq : Word)
  /-- R350. A read of REC_WIN_15 with AUTO advances the cursor and starts the next copy. -/
  | recWinAutoRead
  /-- R347. Writing REC_FIFO.PEAK_CLR sets PEAK to DEPTH. -/
  | recFifoPeakClr
  /-- R352. INV_CMD SET installs a new serial and resets an inventory item's counts. -/
  | invSet
  /-- R351. Every 60 s the inventory counts are written to the sequencer store and lane flash. -/
  | inventoryFlush
  /-- R342. Every 8,192 ticks each lane writes its 1,024 latest closed entries to flash. -/
  | laneFlashLog (lane : LaneId)
  /-- R353. A feed within 36–50 V starts the sequencer supply, FLL lock and hold-up charging. -/
  | feedUp (vinA vinB : BitVec 12)
  /-- R353. With the storage charged the lane rail is enabled and tick 0 releases Playa and requests lane admission. -/
  | laneRailUp (slot peerLow present : Bool)
  /-- R360. LUPD_CMD STAGE prepares the inactive bank for an image. -/
  | lupdStage (lane : LaneId)
  /-- R360. Writing LUPD_WDATA_k stores a word at LUPD_OFF + 4k of the inactive bank. -/
  | lupdWdata (lane : LaneId) (k : Fin 7) (data : Word)
  /-- R360. LUPD_CMD VERIFY checks the staged image and its state layout. -/
  | lupdVerify (lane : LaneId)
  /-- R360. Verification ends VERIFIED or FAILED within 4,096 ticks. -/
  | lupdVerifyComplete (lane : LaneId) (eraseOk flashOk : Bool)
  /-- R360. LUPD_CMD ACTIVATE restarts the STANDBY lane from the staged bank as TRIAL and locks lane pages. -/
  | lupdActivate (lane : LaneId)
  /-- R360. LUPD_CMD ROLLBACK restarts a STANDBY or OUT lane from its other bank. -/
  | lupdRollback (lane : LaneId)
  /-- R360. LUPD_CMD ABORT abandons the staged update. -/
  | lupdAbort (lane : LaneId)
  /-- R360. A trial lane not STANDBY 3,600 s after ACTIVATE reboots from its previous bank. -/
  | trialTimeout (lane : LaneId)
  /-- R363. New Hervi firmware without Redfish up in 60 s is reset to the previous bank. -/
  | herviTrialTimeout
  /-- R368. TWIN_CMD HANDOVER on a paired twin sends PAIR HANDOVER naming GEN + 1. -/
  | twinHandover
  /-- R368. TWIN_CMD CANCEL withdraws a handover before B. -/
  | twinCancel
  /-- R366. A second-slot module takes the field after PEER_OWN_N has stayed high for 2 s. -/
  | secondSlotWait
  /-- R367. ROLE becomes PAIRED when both twin lanes are STANDBY and readings agreed for 2,048 ticks. -/
  | paired
  /-- R367. PAIR STATUS missing for 16 ticks sends the twin's lanes to OUT and BOOT. -/
  | pairStatusLoss
  /-- R367. PEER_OWN_N going high lets a paired twin take the field at the next boundary. -/
  | peerOwnChange (low : Bool)
  /-- R369. At boundary B the running module releases the field and the twin takes authority with GEN + 1. -/
  | handoverBoundary
  /-- R389. PEER_OWN_N low for 8 ticks while owning the field records an event and a second-slot module releases. -/
  | peerOwnConflict
  /-- R390. SLOT_PRES_N going high clears IN_SLOT and records a class 6 event. -/
  | slotRemoval
  /-- R290. The Hervi die restarts by firmware reset or its watchdog, losing the SYS page's mailbox reply while the lanes keep the row. -/
  | herviRestart
  /-- R358. A lane's own watchdog expires and restarts the lane, which then boots and returns under R88 and R89. -/
  | laneWatchdogReset (lane : LaneId)
  /-- R353. Hervi finishes verifying its image and starts the main recorder and the Redfish service, then loads Xoide's firmware. -/
  | herviBootComplete
  /-- R359. Xoide finishes verifying its firmware, or refuses it, and Hervi then starts the quadrants and ergs and reloads the active set. -/
  | xoideBootComplete
  /-- R316. A UCIe module's retrain ends after 40 µs and flits return to it, or both modules stay down and the link retries every 65,536 uncore cycles. -/
  | ucieRetrainComplete (mod : Fin 2) (ok : Bool)
  /-- R91. A QSFP56 port loses its link, or receives no EtherType 88B5h frame for 4 ticks, so PATH_OK clears and all frames continue on the other port. -/
  | ethLinkLoss (port : Fin 2) (noLink : Bool)
  deriving DecidableEq, Repr

end Sys2Proof
end

