-- ==== Sys2Proof/Config.lean ====
section
/-! DEFINITION. What the spec leaves open: every constant here has no body, so that no proof can see its value and a statement about
it holds whatever it is. Each is named in a log entry. -/
namespace Sys2Proof

/-- The CODE bytes of an event kind (the spec gives no event codes). -/
opaque Config.eventCode : Nat → Nat
/-- The AON cycle within its tick at which an occurrence is recorded, by tick: commands carry no time within a tick. -/
opaque Config.occAon : Nat → Nat
/-- The temperature of an origin die at a tick. -/
opaque Config.dieTemp : Nat → Nat → Nat
/-- The core rail of an origin die at a tick, mV. -/
opaque Config.dieRail : Nat → Nat → Nat
/-- Whether a quotient that is not whole is rounded up when it is stored as Q32 (R98 states no rounding), by its numerator and
denominator. -/
opaque Config.roundUp : Int → Int → Bool
/-- The factor, in 1/65,536, by which static power at a die temperature that is not a whole number of 20 °C steps from 85 °C exceeds
its value at the step below (R67), by degrees above 85 °C. -/
opaque Config.staticBetween : Int → Nat
/-- A fresh free value of a width, by the counter `State.freeCtr`. -/
opaque Config.freeWord : Nat → Nat

/-- The slew limit, the default limit and the lowest power state the integrator configured in a cap receiver (R207, R209, R210, R214), by
endpoint, 0.25 W. -/
opaque Config.recvSlew : Nat → Nat
opaque Config.recvLimit : Nat → Nat
opaque Config.recvLowest : Nat → Nat
/-- A QSFP56 port's own fused MAC address (R370). -/
opaque Config.fusedMac : Nat → BitVec 48
/-- The return temperature trim loop of a rack (R201), which no rule names; 64 or more for none. -/
opaque Config.trimLoop : Nat → Nat
/-- Q_cmd while no rack is configured, where R276 divides 0 by 0, by max(N, QMIN) (log entry 86). -/
opaque Config.flowUnconf : Int → Int

/-- Where a tile finds what R142–R157 leave out of the instruction word: the byte address of the activation scale read with a row (by the
row's word address), of the weight scale of a column (by the block's word address), of the scale a conversion to MX writes (by the
destination's word address and block), and the word address of a vector instruction's constant, limits or third operand (by the
instruction word and the operand). -/
opaque Config.mxActScale : Nat → Nat
opaque Config.mxWeightScale : Nat → Nat → Nat
opaque Config.mxDestScale : Nat → Nat → Nat
opaque Config.vecConst : Nat → Nat → Nat
/-- Whether a pass that pairs FP16 with BF16 accumulates by the exact sum of FP16 (R147 allows the pair, R148 lists them apart). -/
opaque Config.mixed16Exact : Bool
/-- VFMA on Q32 operands, whose result the spec does not state. -/
opaque Config.vfmaQ32 : Int → Int → Int → Int
/-- Where within 2 units in the last place a transcendental's result lies (R152), by function and operand. -/
opaque Config.transPick : Nat → Nat → Nat
/-- The manifest that XJOB_SET names when LOAD is written to XJOB_CMD directly (R191), by the counter `State.freeCtr`. -/
opaque Config.manifestAt : Nat → Manifest

end Sys2Proof
end

