-- ==== Sys2Proof/Machine/RegMap.lean ====
section
/-! DEFINITION. The register tables of the spec: for every page of R27 its registers, and for every field its bits, access code,
reset value, Min, Max and whether raising or lowering it raises a safety limit. -/
namespace Sys2Proof.Machine

/-- The access codes of R8. -/
inductive Acc | ro | rw | w1c | wo | rws | rwp | rwl
  deriving DecidableEq, Repr

/-- Which change of a field raises a safety limit (R43, PRESENCE): none, raising it, lowering it, or any change. -/
inductive Guard | none | up | down | any
  deriving DecidableEq, Repr

/-- One field of a register table: least bit, width, access, reset value, Min and Max (R40), whether Min and Max are of a signed
value, and its safety-limit direction. -/
structure FieldDesc where
  lo : Nat
  w : Nat
  acc : Acc
  rst : Nat
  min : Nat
  max : Nat
  sgn : Bool
  guard : Guard
  deriving DecidableEq, Repr

/-- One register of a page, or an array of `n1` by `n2` registers at strides `s1` and `s2` from offset `off`. -/
structure RegDesc where
  off : Nat
  s1 : Nat
  n1 : Nat
  s2 : Nat
  n2 : Nat
  fields : List FieldDesc
  deriving DecidableEq, Repr

/-- A named field: the aperture offset of its register (lane A's for the lane pages), its least bit and its width. -/
structure Fld where
  off : Nat
  lo : Nat
  w : Nat
  deriving DecidableEq, Repr

/-- The shadow copy of an RWS field stands 700h above it (R36). -/
def Fld.sh (f : Fld) : Fld := { f with off := f.off + 0x700 }

def RegMap.page000 : List RegDesc := [
  ⟨0x100, 0x0, 1, 0x0, 1, [⟨0, 3, .ro, 0, 0, 0x7, false, .none⟩, ⟨3, 10, .ro, 0, 0, 0x3ff, false, .none⟩]⟩, -- SYS_TIME_TICK
  ⟨0x104, 0x0, 1, 0x0, 1, [⟨0, 32, .ro, 0, 0, 0xffffffff, false, .none⟩]⟩, -- SYS_TIME_SEC
  ⟨0x108, 0x0, 1, 0x0, 1, [⟨0, 16, .ro, 0, 0, 0xffff, false, .none⟩, ⟨31, 1, .wo, 0, 0, 0x1, false, .none⟩]⟩, -- SYS_BUS_ERR
  ⟨0x10c, 0x0, 1, 0x0, 1, [⟨0, 20, .ro, 0, 0, 0xfffff, false, .none⟩, ⟨31, 1, .ro, 0, 0, 0x1, false, .none⟩]⟩, -- SYS_BUS_ERR_ADDR
  ⟨0x110, 0x0, 1, 0x0, 1, [⟨0, 32, .ro, 0, 0, 0xffffffff, false, .none⟩]⟩, -- SYS_TICK_COUNT
  ⟨0x200, 0x0, 1, 0x0, 1, [⟨0, 1, .wo, 0, 0, 0x1, false, .none⟩, ⟨8, 4, .wo, 0, 0, 0xf, false, .none⟩, ⟨16, 16, .wo, 0, 0, 0xffff, false, .none⟩]⟩, -- SYS_MBOX_CMD
  ⟨0x204, 0x0, 1, 0x0, 1, [⟨0, 1, .ro, 0, 0, 0x1, false, .none⟩, ⟨1, 1, .ro, 0, 0, 0x1, false, .none⟩, ⟨2, 1, .ro, 0, 0, 0x1, false, .none⟩, ⟨4, 3, .ro, 0, 0, 0x7, false, .none⟩, ⟨8, 4, .ro, 0, 0, 0xf, false, .none⟩, ⟨16, 16, .ro, 0, 0, 0xffff, false, .none⟩]⟩, -- SYS_MBOX_STAT
  ⟨0x208, 0x0, 1, 0x0, 1, [⟨0, 32, .ro, 0, 0, 0xffffffff, false, .none⟩]⟩, -- SYS_MBOX_APPLY_TICK
  ⟨0x20c, 0x0, 1, 0x0, 1, [⟨0, 4, .ro, 0, 0, 0xf, false, .none⟩, ⟨4, 4, .ro, 0, 0, 0xf, false, .none⟩, ⟨8, 4, .ro, 0, 0, 0xf, false, .none⟩, ⟨12, 4, .ro, 0, 0, 0xf, false, .none⟩, ⟨16, 4, .ro, 0, 0, 0xf, false, .none⟩, ⟨20, 4, .ro, 0, 0, 0xf, false, .none⟩, ⟨24, 4, .ro, 0, 0, 0xf, false, .none⟩, ⟨28, 4, .ro, 0, 0, 0xf, false, .none⟩]⟩, -- SYS_MBOX_REPLY_A
  ⟨0x210, 0x0, 1, 0x0, 1, [⟨0, 4, .ro, 0, 0, 0xf, false, .none⟩, ⟨4, 4, .ro, 0, 0, 0xf, false, .none⟩, ⟨8, 4, .ro, 0, 0, 0xf, false, .none⟩, ⟨12, 4, .ro, 0, 0, 0xf, false, .none⟩, ⟨16, 4, .ro, 0, 0, 0xf, false, .none⟩, ⟨20, 4, .ro, 0, 0, 0xf, false, .none⟩, ⟨24, 4, .ro, 0, 0, 0xf, false, .none⟩, ⟨28, 4, .ro, 0, 0, 0xf, false, .none⟩]⟩, -- SYS_MBOX_REPLY_B
  ⟨0x220, 0x10, 8, 0x0, 1, [⟨2, 18, .rw, 0, 0, 0x3ffff, false, .none⟩]⟩, -- SYS_MBOX_ADDR
  ⟨0x224, 0x10, 8, 0x0, 1, [⟨0, 32, .rw, 0, 0, 0xffffffff, false, .none⟩]⟩, -- SYS_MBOX_DATA
  ⟨0x228, 0x10, 8, 0x0, 1, [⟨0, 32, .rw, 0, 0, 0xffffffff, false, .none⟩]⟩ -- SYS_MBOX_MASK
 ]

def RegMap.page001 : List RegDesc := [
  ⟨0x100, 0x0, 1, 0x0, 1, [⟨0, 32, .ro, 0, 0, 0xffffffff, false, .none⟩]⟩, -- CLK_DOM_RUN_LO
  ⟨0x104, 0x0, 1, 0x0, 1, [⟨0, 8, .ro, 0, 0, 0xff, false, .none⟩]⟩, -- CLK_DOM_RUN_HI
  ⟨0x108, 0x0, 1, 0x0, 1, [⟨0, 1, .ro, 0, 0, 0x1, false, .none⟩, ⟨1, 1, .ro, 1, 0, 0x1, false, .none⟩, ⟨16, 10, .ro, 0, 0, 0x3ff, false, .none⟩]⟩, -- CLK_AON
  ⟨0x10c, 0x0, 1, 0x0, 1, [⟨0, 4, .rw, 8, 0, 0xf, false, .none⟩, ⟨8, 4, .ro, 8, 0, 0xf, false, .none⟩]⟩, -- CLK_HERVI_OPP
  ⟨0x110, 0x0, 1, 0x0, 1, [⟨0, 4, .rw, 5, 0, 0xf, false, .none⟩, ⟨16, 16, .ro, 0, 0, 0xffff, false, .none⟩]⟩, -- CLK_HERVI_DROOP
  ⟨0x114, 0x0, 1, 0x0, 1, [⟨0, 1, .wo, 0, 0, 0x1, false, .none⟩]⟩, -- CLK_HERVI_FRAME_DONE
  ⟨0x120, 0x0, 1, 0x0, 1, [⟨0, 32, .ro, 0, 0, 0xffffffff, false, .none⟩]⟩, -- CLK_HERVI_THR_THERM_LO
  ⟨0x124, 0x0, 1, 0x0, 1, [⟨0, 32, .ro, 0, 0, 0xffffffff, false, .none⟩]⟩, -- CLK_HERVI_THR_THERM_HI
  ⟨0x128, 0x0, 1, 0x0, 1, [⟨0, 32, .ro, 0, 0, 0xffffffff, false, .none⟩]⟩, -- CLK_HERVI_THR_CAP_LO
  ⟨0x12c, 0x0, 1, 0x0, 1, [⟨0, 32, .ro, 0, 0, 0xffffffff, false, .none⟩]⟩, -- CLK_HERVI_THR_CAP_HI
  ⟨0x130, 0x0, 1, 0x0, 1, [⟨0, 32, .ro, 0, 0, 0xffffffff, false, .none⟩]⟩, -- CLK_HERVI_THR_DROOP_LO
  ⟨0x134, 0x0, 1, 0x0, 1, [⟨0, 32, .ro, 0, 0, 0xffffffff, false, .none⟩]⟩, -- CLK_HERVI_THR_DROOP_HI
  ⟨0x138, 0x0, 1, 0x0, 1, [⟨0, 32, .ro, 0, 0, 0xffffffff, false, .none⟩]⟩, -- CLK_HERVI_THR_INRUSH_LO
  ⟨0x13c, 0x0, 1, 0x0, 1, [⟨0, 32, .ro, 0, 0, 0xffffffff, false, .none⟩]⟩, -- CLK_HERVI_THR_INRUSH_HI
  ⟨0x140, 0x0, 1, 0x0, 1, [⟨0, 32, .ro, 0, 0, 0xffffffff, false, .none⟩]⟩, -- CLK_HERVI_THR_SUPPLY_LO
  ⟨0x144, 0x0, 1, 0x0, 1, [⟨0, 32, .ro, 0, 0, 0xffffffff, false, .none⟩]⟩, -- CLK_HERVI_THR_SUPPLY_HI
  ⟨0x148, 0x0, 1, 0x0, 1, [⟨0, 32, .ro, 0, 0, 0xffffffff, false, .none⟩]⟩, -- CLK_HERVI_THR_FRAME_OVERRUN_LO
  ⟨0x14c, 0x0, 1, 0x0, 1, [⟨0, 32, .ro, 0, 0, 0xffffffff, false, .none⟩]⟩ -- CLK_HERVI_THR_FRAME_OVERRUN_HI
 ]

def RegMap.page002 : List RegDesc := [
  ⟨0x100, 0x0, 1, 0x0, 1, [⟨0, 12, .ro, 0, 0, 0xfff, false, .none⟩, ⟨12, 1, .ro, 0, 0, 0x1, false, .none⟩, ⟨16, 12, .ro, 0, 0, 0xfff, false, .none⟩, ⟨28, 1, .ro, 0, 0, 0x1, false, .none⟩]⟩, -- PWR_VIN
  ⟨0x104, 0x0, 1, 0x0, 1, [⟨0, 12, .ro, 0, 0, 0xfff, false, .none⟩]⟩, -- PWR_IIN
  ⟨0x108, 0x0, 1, 0x0, 1, [⟨0, 12, .rw, 0x76c, 0, 0xfff, false, .none⟩]⟩, -- PWR_SUPPLY_CFG
  ⟨0x10c, 0x0, 1, 0x0, 1, [⟨0, 1, .ro, 0, 0, 0x1, false, .none⟩, ⟨1, 1, .ro, 0, 0, 0x1, false, .none⟩]⟩ -- PWR_STAT
 ]

def RegMap.page003 : List RegDesc := [
  ⟨0x100, 0x0, 1, 0x0, 1, [⟨0, 11, .ro, 0x4b0, 0, 0x7ff, false, .none⟩]⟩, -- INRUSH_BUDGET
  ⟨0x104, 0x0, 1, 0x0, 1, [⟨0, 11, .ro, 0x12c, 0, 0x7ff, false, .none⟩, ⟨16, 11, .ro, 0x12c, 0, 0x7ff, false, .none⟩, ⟨31, 1, .wo, 0, 0, 0x1, false, .none⟩]⟩, -- INRUSH_LEDGER
  ⟨0x108, 0x0, 1, 0x0, 1, [⟨0, 24, .ro, 0, 0, 0xffffff, false, .none⟩]⟩, -- INRUSH_PEND
  ⟨0x10c, 0x0, 1, 0x0, 1, [⟨0, 3, .ro, 0, 0, 0x7, false, .none⟩, ⟨4, 1, .ro, 0, 0, 0x1, false, .none⟩, ⟨5, 1, .ro, 0, 0, 0x1, false, .none⟩]⟩, -- INRUSH_BLOCK
  ⟨0x110, 0x0, 1, 0x0, 1, [⟨0, 21, .ro, 0, 0, 0x1fffff, false, .none⟩]⟩, -- INRUSH_PUMP_GAP
  ⟨0x114, 0x0, 1, 0x0, 1, [⟨0, 16, .ro, 0, 0, 0xffff, false, .none⟩]⟩, -- INRUSH_BYPASS
  ⟨0x118, 0x0, 1, 0x0, 1, [⟨0, 32, .ro, 0, 0, 0xffffffff, false, .none⟩]⟩, -- INRUSH_WAIT_LO
  ⟨0x11c, 0x0, 1, 0x0, 1, [⟨0, 32, .ro, 0, 0, 0xffffffff, false, .none⟩]⟩ -- INRUSH_WAIT_HI
 ]

def RegMap.page010 : List RegDesc := [
  ⟨0x100, 0x0, 1, 0x0, 1, [⟨0, 16, .ro, 0, 0, 0xffff, false, .none⟩, ⟨16, 16, .ro, 0, 0, 0xffff, false, .none⟩]⟩, -- LANE_CLAIM
  ⟨0x104, 0x0, 1, 0x0, 1, [⟨0, 4, .ro, 0, 0, 0xf, false, .none⟩, ⟨4, 1, .ro, 0, 0, 0x1, false, .none⟩, ⟨5, 1, .ro, 0, 0, 0x1, false, .none⟩, ⟨6, 1, .ro, 0, 0, 0x1, false, .none⟩, ⟨7, 1, .ro, 0, 0, 0x1, false, .none⟩, ⟨8, 1, .ro, 0, 0, 0x1, false, .none⟩, ⟨9, 1, .ro, 0, 0, 0x1, false, .none⟩]⟩, -- LANE_STATE
  ⟨0x108, 0x0, 1, 0x0, 1, [⟨0, 32, .ro, 0, 0, 0xffffffff, false, .none⟩]⟩, -- LANE_SEQ
  ⟨0x10c, 0x0, 1, 0x0, 1, [⟨0, 32, .ro, 0, 0, 0xffffffff, false, .none⟩]⟩, -- LANE_HASH_LO
  ⟨0x110, 0x0, 1, 0x0, 1, [⟨0, 32, .ro, 0, 0, 0xffffffff, false, .none⟩]⟩, -- LANE_HASH_HI
  ⟨0x114, 0x0, 1, 0x0, 1, [⟨0, 16, .ro, 0, 0, 0xffff, false, .none⟩, ⟨16, 14, .ro, 0, 0, 0x3fff, false, .none⟩]⟩, -- LANE_CMP
  ⟨0x118, 0x0, 1, 0x0, 1, [⟨0, 16, .ro, 0, 0, 0xffff, false, .none⟩, ⟨16, 8, .ro, 0, 0, 0xff, false, .none⟩, ⟨24, 8, .ro, 0, 0, 0xff, false, .none⟩]⟩, -- LANE_SELFTEST
  ⟨0x11c, 0x0, 1, 0x0, 1, [⟨0, 8, .ro, 0, 0, 0xff, false, .none⟩, ⟨8, 2, .ro, 0, 0, 0x3, false, .none⟩, ⟨16, 16, .ro, 0, 0, 0xffff, false, .none⟩]⟩, -- LANE_TAKEOVER
  ⟨0x120, 0x0, 1, 0x0, 1, [⟨0, 4, .rwl, 0, 0, 0x3, false, .none⟩, ⟨4, 4, .ro, 0, 0, 0xf, false, .none⟩]⟩ -- LANE_CMD
 ]

def RegMap.page011 : List RegDesc := [
  ⟨0x100, 0x0, 1, 0x0, 1, [⟨0, 22, .ro, 0, 0, 0x3fffff, false, .none⟩]⟩, -- LHLTH_ROT
  ⟨0x104, 0x0, 1, 0x0, 1, [⟨0, 16, .ro, 0, 0, 0xffff, false, .none⟩, ⟨16, 16, .ro, 0, 0, 0xffff, false, .none⟩]⟩, -- LHLTH_ROT_DONE
  ⟨0x108, 0x0, 1, 0x0, 1, [⟨0, 7, .ro, 0, 0, 0x7f, false, .none⟩]⟩, -- LHLTH_ITEMS
  ⟨0x10c, 0x0, 1, 0x0, 1, [⟨0, 1, .ro, 0, 0, 0x1, false, .none⟩, ⟨1, 1, .ro, 0, 0, 0x1, false, .none⟩, ⟨2, 2, .ro, 0, 0, 0x3, false, .none⟩]⟩, -- LHLTH_STAT
  ⟨0x110, 0x0, 1, 0x0, 1, [⟨0, 16, .ro, 0, 0, 0xffff, false, .none⟩, ⟨16, 16, .ro, 0, 0, 0xffff, false, .none⟩]⟩ -- LHLTH_LINK_ERR
 ]

def RegMap.page012 : List RegDesc := [
  ⟨0x100, 0x0, 1, 0x0, 1, [⟨0, 32, .ro, 0, 0, 0xffffffff, false, .none⟩]⟩, -- LCAL_GEN
  ⟨0x104, 0x0, 1, 0x0, 1, [⟨0, 1, .ro, 0, 0, 0x1, false, .none⟩, ⟨1, 3, .ro, 0, 0, 0x7, false, .none⟩, ⟨8, 8, .ro, 0, 0, 0xff, false, .none⟩, ⟨16, 16, .ro, 0, 0, 0xffff, false, .none⟩]⟩, -- LCAL_STAT
  ⟨0x108, 0x0, 1, 0x0, 1, [⟨0, 4, .rwl, 0, 0, 0x4, false, .none⟩, ⟨4, 4, .ro, 0, 0, 0xf, false, .none⟩]⟩, -- LCAL_CMD
  ⟨0x10c, 0x0, 1, 0x0, 1, [⟨2, 11, .rwl, 0, 0, 0x7ff, false, .none⟩]⟩, -- LCAL_OFF
  ⟨0x110, 0x4, 7, 0x0, 1, [⟨0, 32, .rwl, 0, 0, 0xffffffff, false, .none⟩]⟩, -- LCAL_WDATA
  ⟨0x130, 0x4, 8, 0x0, 1, [⟨0, 32, .ro, 0, 0, 0xffffffff, false, .none⟩]⟩ -- LCAL_RDATA
 ]

def RegMap.page013_0 : List RegDesc := [
  ⟨0x100, 0x0, 1, 0x0, 1, [⟨0, 1, .rwl, 0, 0, 0x1, false, .none⟩]⟩, -- LENG_CTRL
  ⟨0x104, 0x0, 1, 0x0, 1, [⟨0, 1, .ro, 0, 0, 0x1, false, .none⟩, ⟨1, 1, .ro, 0, 0, 0x1, false, .none⟩, ⟨2, 1, .ro, 0, 0, 0x1, false, .none⟩, ⟨8, 4, .ro, 0, 0, 0xf, false, .none⟩, ⟨16, 6, .ro, 0, 0, 0x3f, false, .none⟩]⟩, -- LENG_BANK
  ⟨0x108, 0x0, 1, 0x0, 1, [⟨0, 4, .rwl, 0, 0, 0x5, false, .none⟩, ⟨4, 4, .ro, 0, 0, 0xf, false, .none⟩]⟩, -- LENG_BANK_CMD
  ⟨0x10c, 0x0, 1, 0x0, 1, [⟨0, 32, .rwl, 0, 0, 0xffffffff, false, .none⟩]⟩, -- LENG_SWAP_TICK
  ⟨0x110, 0x0, 1, 0x0, 1, [⟨0, 32, .rwl, 0, 0, 0xffffffff, false, .none⟩]⟩, -- LENG_SWAP_CRC
  ⟨0x114, 0x0, 1, 0x0, 1, [⟨0, 32, .ro, 0, 0, 0xffffffff, false, .none⟩]⟩, -- LENG_BANK_CRC
  ⟨0x118, 0x0, 1, 0x0, 1, [⟨0, 32, .ro, 0, 0, 0xffffffff, false, .none⟩]⟩, -- LENG_SWAP_COUNT
  ⟨0x120, 0x0, 1, 0x0, 1, [⟨0, 6, .rwl, 0, 0, 0x3f, false, .none⟩, ⟨16, 6, .rwl, 0, 0, 0x3f, false, .none⟩, ⟨31, 1, .rwl, 0, 0, 0x1, false, .none⟩]⟩, -- LENG_LUT_PTR
  ⟨0x124, 0x0, 1, 0x0, 1, [⟨0, 32, .rwl, 0, 0, 0x7fffffff, true, .none⟩]⟩, -- LENG_LUT_X
  ⟨0x128, 0x0, 1, 0x0, 1, [⟨0, 32, .rwl, 0, 0, 0x7fffffff, true, .none⟩]⟩, -- LENG_LUT_G
  ⟨0x12c, 0x0, 1, 0x0, 1, [⟨0, 32, .rwl, 0, 0, 0xffffffff, false, .none⟩]⟩, -- LENG_LUT_S
  ⟨0x130, 0x0, 1, 0x0, 1, [⟨0, 32, .ro, 0, 0, 0xffffffff, false, .none⟩]⟩, -- LENG_FE_TRIP_LO
  ⟨0x134, 0x0, 1, 0x0, 1, [⟨0, 32, .ro, 0, 0, 0xffffffff, false, .none⟩]⟩, -- LENG_FE_TRIP_HI
  ⟨0x138, 0x0, 1, 0x0, 1, [⟨0, 32, .rwl, 0, 0, 0xffffffff, false, .none⟩]⟩, -- LENG_FE_CLR_LO
  ⟨0x13c, 0x0, 1, 0x0, 1, [⟨0, 32, .rwl, 0, 0, 0xffffffff, false, .none⟩]⟩, -- LENG_FE_CLR_HI
  ⟨0xc00, 0x4, 8, 0x0, 1, [⟨0, 6, .rwl, 0, 0, 0x3f, false, .none⟩, ⟨8, 3, .rwl, 0, 0, 0x7, false, .none⟩, ⟨15, 1, .rwl, 0, 0, 0x1, false, .none⟩]⟩, -- LENG_TRC_SRC
  ⟨0xc20, 0x0, 1, 0x0, 1, [⟨0, 3, .rwl, 0, 0, 0x6, false, .none⟩, ⟨4, 3, .rwl, 0, 0, 0x7, false, .none⟩, ⟨7, 1, .rwl, 0, 0, 0x1, false, .none⟩, ⟨8, 6, .rwl, 0, 0, 0x3f, false, .none⟩]⟩, -- LENG_TRC_TRIG
  ⟨0xc24, 0x0, 1, 0x0, 1, [⟨0, 32, .rwl, 0, 0, 0xffffffff, false, .none⟩]⟩, -- LENG_TRC_LEVEL
  ⟨0xc28, 0x0, 1, 0x0, 1, [⟨0, 4, .rwl, 0, 0, 0x3, false, .none⟩, ⟨16, 12, .rwl, 0, 0, 0xfff, false, .none⟩]⟩, -- LENG_TRC_CTRL
  ⟨0xc2c, 0x0, 1, 0x0, 1, [⟨0, 2, .ro, 0, 0, 0x3, false, .none⟩]⟩ -- LENG_TRC_STAT
 ]

def RegMap.page013_1 : List RegDesc := [
  ⟨0xc30, 0x0, 1, 0x0, 1, [⟨0, 32, .ro, 0, 0, 0xffffffff, false, .none⟩]⟩, -- LENG_TRC_T
  ⟨0xc38, 0x0, 1, 0x0, 1, [⟨0, 3, .rwl, 0, 0, 0x7, false, .none⟩, ⟨3, 1, .rwl, 0, 0, 0x1, false, .none⟩, ⟨6, 6, .rwl, 0, 0, 0x3f, false, .none⟩]⟩, -- LENG_TRC_RD
  ⟨0xc3c, 0x0, 1, 0x0, 1, [⟨0, 3, .ro, 0, 0, 0x7, false, .none⟩, ⟨6, 6, .ro, 0, 0, 0x3f, false, .none⟩]⟩, -- LENG_TRC_RD_POS
  ⟨0xd00, 0x4, 64, 0x0, 1, [⟨0, 32, .ro, 0, 0, 0xffffffff, false, .none⟩]⟩ -- LENG_TRC_DATA
 ]

def RegMap.page013 : List RegDesc := RegMap.page013_0 ++ RegMap.page013_1

def RegMap.page014_0 : List RegDesc := [
  ⟨0x100, 0x4, 16, 0x0, 1, [⟨0, 32, .rws, 0, 0, 0xffffffff, false, .none⟩]⟩, -- LOOP_SP
  ⟨0x140, 0x4, 16, 0x0, 1, [⟨0, 32, .rws, 0, 0, 0xffffffff, false, .none⟩]⟩, -- LOOP_MAN_OUT
  ⟨0x180, 0x60, 16, 0x0, 1, [⟨0, 1, .rwl, 0, 0, 0x1, false, .none⟩, ⟨1, 2, .rwl, 0, 0, 0x3, false, .none⟩, ⟨3, 1, .rwl, 0, 0, 0x1, false, .none⟩, ⟨4, 1, .rwl, 0, 0, 0x1, false, .none⟩, ⟨5, 1, .rwl, 0, 0, 0x1, false, .none⟩, ⟨8, 6, .rwl, 0, 0, 0x2f, false, .none⟩, ⟨16, 4, .rwl, 0, 0, 0xa, false, .none⟩, ⟨24, 7, .rwl, 0, 0, 0x40, false, .none⟩]⟩, -- LOOP_CFG
  ⟨0x184, 0x60, 16, 0x0, 1, [⟨0, 16, .rwl, 0, 0, 0xffff, false, .none⟩, ⟨16, 16, .rwl, 0, 0, 0xffff, false, .none⟩]⟩, -- LOOP_SRC
  ⟨0x188, 0x60, 16, 0x0, 1, [⟨0, 16, .rwl, 0, 0, 0xffff, false, .none⟩, ⟨16, 10, .rwl, 0, 0, 0x3ff, false, .none⟩]⟩, -- LOOP_FFSRC
  ⟨0x18c, 0x60, 16, 0x0, 1, [⟨0, 5, .rwl, 0, 0, 0x1f, false, .none⟩, ⟨5, 5, .rwl, 0, 0, 0x1f, false, .none⟩, ⟨10, 5, .rwl, 0, 0, 0x1f, false, .none⟩, ⟨15, 5, .rwl, 0, 0, 0x1f, false, .none⟩, ⟨20, 5, .rwl, 0, 0, 0x1f, false, .none⟩]⟩, -- LOOP_SHIFT
  ⟨0x190, 0x60, 16, 0x0, 1, [⟨0, 32, .rwl, 0, 0, 0xffffffff, false, .none⟩]⟩, -- LOOP_KP
  ⟨0x194, 0x60, 16, 0x0, 1, [⟨0, 32, .rwl, 0, 0, 0xffffffff, false, .none⟩]⟩, -- LOOP_KI
  ⟨0x198, 0x60, 16, 0x0, 1, [⟨0, 32, .rwl, 0, 0, 0xffffffff, false, .none⟩]⟩, -- LOOP_KD
  ⟨0x19c, 0x60, 16, 0x0, 1, [⟨0, 32, .rwl, 0, 0, 0xffffffff, false, .none⟩]⟩, -- LOOP_KF
  ⟨0x1a0, 0x60, 16, 0x0, 1, [⟨0, 32, .rwl, 0, 0, 0xffffffff, false, .none⟩]⟩, -- LOOP_I_MIN
  ⟨0x1a4, 0x60, 16, 0x0, 1, [⟨0, 32, .rwl, 0, 0, 0xffffffff, false, .none⟩]⟩, -- LOOP_I_MAX
  ⟨0x1a8, 0x60, 16, 0x0, 1, [⟨0, 32, .rwl, 0, 0, 0xffffffff, false, .none⟩]⟩, -- LOOP_OUT_MIN
  ⟨0x1ac, 0x60, 16, 0x0, 1, [⟨0, 32, .rwl, 0, 0, 0xffffffff, false, .none⟩]⟩, -- LOOP_OUT_MAX
  ⟨0x1b0, 0x60, 16, 0x0, 1, [⟨0, 32, .rwl, 0, 0, 0x7fffffff, true, .none⟩]⟩, -- LOOP_OUT_SLEW
  ⟨0x1b4, 0x60, 16, 0x0, 1, [⟨0, 32, .rwl, 0, 0, 0x7fffffff, true, .none⟩]⟩, -- LOOP_DEADBAND
  ⟨0x1b8, 0x60, 16, 0x0, 1, [⟨0, 32, .rwl, 0, 0, 0x7fffffff, true, .none⟩]⟩, -- LOOP_FE_LIM
  ⟨0x1bc, 0x60, 16, 0x0, 1, [⟨0, 16, .rwl, 0, 1, 0xffff, false, .none⟩, ⟨16, 2, .rwl, 0, 0, 0x2, false, .none⟩]⟩, -- LOOP_FE_CTL
  ⟨0x1c0, 0x60, 16, 0x0, 1, [⟨0, 32, .rwl, 0, 0, 0xffffffff, false, .none⟩]⟩, -- LOOP_OUT_SAFE
  ⟨0x1c4, 0x60, 16, 0x0, 1, [⟨0, 32, .rwl, 0, 0, 0xffffffff, false, .none⟩]⟩ -- LOOP_FF_CONS
 ]

def RegMap.page014_1 : List RegDesc := [
  ⟨0x1c8, 0x60, 16, 0x0, 1, [⟨0, 3, .rwl, 0, 0, 0x3, false, .none⟩]⟩, -- LOOP_MODE
  ⟨0x1cc, 0x60, 16, 0x0, 1, [⟨0, 32, .ro, 0, 0, 0xffffffff, false, .none⟩]⟩, -- LOOP_OUT
  ⟨0x1d0, 0x60, 16, 0x0, 1, [⟨0, 32, .ro, 0, 0, 0xffffffff, false, .none⟩]⟩, -- LOOP_I
  ⟨0x1d4, 0x60, 16, 0x0, 1, [⟨0, 32, .ro, 0, 0, 0xffffffff, false, .none⟩]⟩, -- LOOP_ERR
  ⟨0x1d8, 0x60, 16, 0x0, 1, [⟨0, 32, .ro, 0, 0, 0xffffffff, false, .none⟩]⟩, -- LOOP_PV
  ⟨0x1dc, 0x60, 16, 0x0, 1, [⟨0, 2, .ro, 0, 0, 0x3, false, .none⟩, ⟨2, 1, .ro, 0, 0, 0x1, false, .none⟩, ⟨3, 1, .ro, 0, 0, 0x1, false, .none⟩, ⟨4, 1, .ro, 0, 0, 0x1, false, .none⟩, ⟨5, 1, .ro, 0, 0, 0x1, false, .none⟩, ⟨6, 1, .ro, 0, 0, 0x1, false, .none⟩, ⟨7, 1, .ro, 0, 0, 0x1, false, .none⟩, ⟨8, 1, .ro, 0, 0, 0x1, false, .none⟩, ⟨9, 1, .ro, 0, 0, 0x1, false, .none⟩, ⟨12, 3, .ro, 0, 0, 0x7, false, .none⟩, ⟨16, 16, .ro, 0, 0, 0xffff, false, .none⟩]⟩ -- LOOP_STAT
 ]

def RegMap.page014 : List RegDesc := RegMap.page014_0 ++ RegMap.page014_1

def RegMap.page018 : List RegDesc := [
  ⟨0x100, 0x0, 1, 0x0, 1, [⟨0, 6, .rwl, 0, 0, 0x3f, false, .any⟩, ⟨16, 16, .rwl, 0x3e8, 100, 0x1d4c, false, .down⟩]⟩, -- PROT_FLOW
  ⟨0x104, 0x0, 1, 0x0, 1, [⟨0, 8, .rwl, 0x14, 5, 0x64, false, .up⟩, ⟨8, 8, .rwl, 0x14, 5, 0xc8, false, .up⟩, ⟨16, 12, .rwl, 0x10, 1, 0x900, false, .up⟩]⟩, -- PROT_DECL
  ⟨0x108, 0x0, 1, 0x0, 1, [⟨0, 16, .rwl, 0x140, 4, 0xfa0, false, .down⟩]⟩, -- PROT_DECL2
  ⟨0x10c, 0x0, 1, 0x0, 1, [⟨0, 16, .rwl, 0xfa0, 1000, 0x2710, false, .up⟩, ⟨16, 16, .rwl, 0x1388, 0, 0x2710, false, .up⟩]⟩, -- PROT_PRESS
  ⟨0x110, 0x0, 1, 0x0, 1, [⟨0, 16, .rwl, 0xc8, 50, 0x3e8, false, .down⟩]⟩, -- PROT_PRESS2
  ⟨0x114, 0x0, 1, 0x0, 1, [⟨0, 8, .rwl, 0x32, 20, 0x3c, false, .up⟩, ⟨8, 8, .rwl, 0x2d, 18, 0x3c, false, .down⟩]⟩, -- PROT_TEMP
  ⟨0x118, 0x0, 1, 0x0, 1, [⟨0, 6, .rwl, 0, 0, 0x3f, false, .any⟩, ⟨8, 8, .rwl, 0xa, 5, 0x32, false, .down⟩]⟩, -- PROT_DEW
  ⟨0x11c, 0x0, 1, 0x0, 1, [⟨0, 14, .rwl, 0x1770, 2000, 0x2710, false, .up⟩]⟩, -- PROT_LEAK
  ⟨0x120, 0x0, 1, 0x0, 1, [⟨0, 4, .rwl, 0, 0, 0x4, false, .none⟩, ⟨4, 4, .ro, 0, 0, 0xf, false, .none⟩, ⟨8, 5, .rwl, 0, 0, 0x17, false, .none⟩]⟩, -- PROT_CMD
  ⟨0x124, 0x0, 1, 0x0, 1, [⟨0, 24, .rwl, 0, 0, 0xffffff, false, .none⟩]⟩, -- PROT_CMD_RACKS
  ⟨0x140, 0x0, 1, 0x0, 1, [⟨0, 1, .ro, 0, 0, 0x1, false, .none⟩, ⟨1, 1, .ro, 0, 0, 0x1, false, .none⟩, ⟨2, 1, .ro, 0, 0, 0x1, false, .none⟩, ⟨3, 1, .ro, 0, 0, 0x1, false, .none⟩, ⟨4, 1, .ro, 0, 0, 0x1, false, .none⟩, ⟨5, 1, .ro, 0, 0, 0x1, false, .none⟩, ⟨6, 1, .ro, 0, 0, 0x1, false, .none⟩, ⟨7, 1, .ro, 0, 0, 0x1, false, .none⟩, ⟨8, 1, .ro, 0, 0, 0x1, false, .none⟩, ⟨9, 1, .ro, 0, 0, 0x1, false, .none⟩, ⟨10, 1, .ro, 0, 0, 0x1, false, .none⟩, ⟨11, 1, .ro, 0, 0, 0x1, false, .none⟩, ⟨16, 16, .ro, 0, 0, 0xffff, false, .none⟩]⟩, -- PROT_STAT
  ⟨0x144, 0x0, 1, 0x0, 1, [⟨0, 24, .ro, 0, 0, 0xffffff, false, .none⟩]⟩, -- PROT_ISO
  ⟨0x148, 0x0, 1, 0x0, 1, [⟨0, 24, .ro, 0, 0, 0xffffff, false, .none⟩]⟩, -- PROT_BLIND
  ⟨0x14c, 0x0, 1, 0x0, 1, [⟨0, 16, .ro, 0, 0, 0xffff, false, .none⟩, ⟨16, 6, .ro, 0, 0, 0x3f, false, .none⟩]⟩, -- PROT_FLOW_STAT
  ⟨0x150, 0x0, 1, 0x0, 1, [⟨0, 9, .ro, 0, 0, 0x1ff, false, .none⟩, ⟨16, 16, .ro, 0, 0, 0xffff, false, .none⟩]⟩, -- PROT_HOLDUP
  ⟨0x154, 0x0, 1, 0x0, 1, [⟨0, 12, .ro, 0, 0, 0xfff, false, .none⟩]⟩ -- PROT_OFF_EP
 ]

def RegMap.page019 : List RegDesc := [
  ⟨0x100, 0x0, 1, 0x0, 1, [⟨0, 1, .ro, 0, 0, 0x1, false, .none⟩, ⟨1, 1, .ro, 0, 0, 0x1, false, .none⟩, ⟨2, 1, .ro, 0, 0, 0x1, false, .none⟩, ⟨3, 1, .ro, 0, 0, 0x1, false, .none⟩, ⟨4, 1, .ro, 0, 0, 0x1, false, .none⟩, ⟨5, 1, .ro, 0, 0, 0x1, false, .none⟩, ⟨6, 1, .ro, 0, 0, 0x1, false, .none⟩, ⟨7, 1, .ro, 0, 0, 0x1, false, .none⟩, ⟨8, 7, .ro, 0, 0, 0x7f, false, .none⟩, ⟨16, 4, .ro, 0, 0, 0xf, false, .none⟩]⟩, -- LSEC_STAT
  ⟨0x104, 0x0, 1, 0x0, 1, [⟨0, 4, .rwl, 0, 0, 0x4, false, .none⟩, ⟨4, 2, .rwl, 0, 0, 0x3, false, .none⟩]⟩, -- LSEC_CMD
  ⟨0x120, 0x4, 8, 0x0, 1, [⟨0, 32, .rwl, 0, 0, 0xffffffff, false, .none⟩]⟩, -- LSEC_NONCE
  ⟨0x140, 0x4, 8, 0x0, 1, [⟨0, 32, .ro, 0, 0, 0xffffffff, false, .none⟩]⟩, -- LSEC_MEAS
  ⟨0x200, 0x4, 96, 0x0, 1, [⟨0, 32, .ro, 0, 0, 0xffffffff, false, .none⟩]⟩, -- LSEC_SIG
  ⟨0x400, 0x4, 96, 0x0, 1, [⟨0, 32, .ro, 0, 0, 0xffffffff, false, .none⟩]⟩ -- LSEC_PSIG
 ]

def RegMap.page01A : List RegDesc := [
  ⟨0x100, 0x0, 1, 0x0, 1, [⟨0, 13, .ro, 0, 0, 0x1fff, false, .none⟩, ⟨16, 7, .ro, 0, 0, 0x7f, false, .none⟩]⟩, -- LREC_STAT
  ⟨0x104, 0x0, 1, 0x0, 1, [⟨0, 30, .ro, 0, 0, 0x3fffffff, false, .none⟩]⟩, -- LREC_LSEQ_SH
  ⟨0x108, 0x0, 1, 0x0, 1, [⟨0, 30, .ro, 0, 0, 0x3fffffff, false, .none⟩]⟩, -- LREC_LSEQ_OWN
  ⟨0x140, 0x4, 8, 0x0, 1, [⟨0, 32, .ro, 0, 0, 0xffffffff, false, .none⟩]⟩, -- LREC_SH
  ⟨0x160, 0x4, 8, 0x0, 1, [⟨0, 32, .ro, 0, 0, 0xffffffff, false, .none⟩]⟩, -- LREC_OWN
  ⟨0x180, 0x4, 8, 0x0, 1, [⟨0, 32, .ro, 0, 0, 0xffffffff, false, .none⟩]⟩ -- LREC_LOST
 ]

def RegMap.page01B : List RegDesc := [
  ⟨0x100, 0x0, 1, 0x0, 1, [⟨0, 1, .ro, 0, 0, 0x1, false, .none⟩, ⟨1, 3, .ro, 0, 0, 0x7, false, .none⟩, ⟨8, 8, .ro, 0, 0, 0xff, false, .none⟩, ⟨16, 7, .ro, 0, 0, 0x7f, false, .none⟩]⟩, -- LUPD_STAT
  ⟨0x104, 0x0, 1, 0x0, 1, [⟨0, 4, .rwl, 0, 0, 0x5, false, .none⟩, ⟨4, 4, .ro, 0, 0, 0xf, false, .none⟩]⟩, -- LUPD_CMD
  ⟨0x108, 0x0, 1, 0x0, 1, [⟨2, 20, .rwl, 0, 0, 0xbffff, false, .none⟩]⟩, -- LUPD_OFF
  ⟨0x10c, 0x4, 7, 0x0, 1, [⟨0, 32, .rwl, 0, 0, 0xffffffff, false, .none⟩]⟩ -- LUPD_WDATA
 ]

def RegMap.page01C : List RegDesc := [
  ⟨0x100, 0x0, 1, 0x0, 1, [⟨0, 3, .ro, 0, 0, 0x7, false, .none⟩, ⟨3, 1, .ro, 0, 0, 0x1, false, .none⟩, ⟨4, 1, .ro, 0, 0, 0x1, false, .none⟩, ⟨5, 1, .ro, 0, 0, 0x1, false, .none⟩, ⟨8, 6, .ro, 0, 0, 0x3f, false, .none⟩, ⟨16, 14, .ro, 0, 0, 0x3fff, false, .none⟩]⟩, -- TWIN_STAT
  ⟨0x104, 0x0, 1, 0x0, 1, [⟨0, 4, .rwl, 0, 0, 0x2, false, .none⟩, ⟨4, 4, .ro, 0, 0, 0xf, false, .none⟩]⟩, -- TWIN_CMD
  ⟨0x108, 0x0, 1, 0x0, 1, [⟨0, 32, .ro, 0, 0, 0xffffffff, false, .none⟩]⟩ -- TWIN_B_SEQ
 ]

def RegMap.page030 : List RegDesc := [
  ⟨0x100, 0x0, 1, 0x0, 1, [⟨0, 10, .ro, 0, 0, 0x3ff, false, .none⟩, ⟨10, 1, .ro, 0, 0, 0x1, false, .none⟩, ⟨11, 1, .ro, 0, 0, 0x1, false, .none⟩, ⟨12, 3, .ro, 0, 0, 0x7, false, .none⟩, ⟨15, 1, .ro, 0, 0, 0x1, false, .none⟩, ⟨16, 9, .ro, 0, 0, 0x1ff, false, .none⟩, ⟨25, 4, .ro, 0, 0, 0xf, false, .none⟩]⟩, -- VBANK_STAT
  ⟨0x104, 0x0, 1, 0x0, 1, [⟨0, 8, .rwl, 0x78, 112, 0x7e, false, .down⟩]⟩, -- VBANK_RAIL_CFG
  ⟨0x108, 0x0, 1, 0x0, 1, [⟨0, 16, .ro, 0, 0, 0xffff, false, .none⟩, ⟨16, 16, .ro, 0, 0, 0xffff, false, .none⟩]⟩, -- VBANK_CNT
  ⟨0x10c, 0x0, 1, 0x0, 1, [⟨0, 3, .ro, 0, 0, 0x7, false, .none⟩, ⟨4, 4, .ro, 0, 0, 0xf, false, .none⟩, ⟨8, 24, .ro, 0, 0, 0xffffff, false, .none⟩]⟩, -- VBANK_LAST_REF
  ⟨0x120, 0x10, 4, 0x0, 1, [⟨0, 10, .rws, 0x258, 100, 0x258, false, .down⟩, ⟨16, 8, .rws, 0x80, 16, 0x80, false, .down⟩]⟩, -- VBANK_PROF_A
  ⟨0x124, 0x10, 4, 0x0, 1, [⟨0, 10, .rws, 0x190, 100, 0x190, false, .down⟩, ⟨10, 10, .rws, 0x78, 50, 0x96, false, .down⟩]⟩, -- VBANK_PROF_B
  ⟨0x128, 0x10, 4, 0x0, 1, [⟨0, 8, .rws, 0, 1, 0x64, false, .down⟩, ⟨8, 8, .rws, 0, 1, 0x94, false, .down⟩]⟩, -- VBANK_PROF_C
  ⟨0x200, 0x4, 8, 0x0, 1, [⟨0, 1, .rwl, 1, 0, 0x1, false, .none⟩, ⟨1, 1, .ro, 0, 0, 0x1, false, .none⟩, ⟨8, 5, .ro, 0, 0, 0x1f, false, .none⟩]⟩, -- VBANK_CH_CFG
  ⟨0x220, 0x4, 8, 0x0, 1, [⟨0, 8, .ro, 0, 0, 0xff, false, .none⟩, ⟨8, 8, .ro, 0, 0, 0xff, false, .none⟩, ⟨16, 4, .ro, 0, 0, 0xf, false, .none⟩, ⟨20, 4, .ro, 0, 0, 0xf, false, .none⟩, ⟨24, 8, .ro, 0, 0, 0xff, false, .none⟩]⟩, -- VBANK_CH_STAT
  ⟨0x240, 0x4, 8, 0x0, 1, [⟨0, 16, .ro, 0, 0, 0xffff, false, .none⟩, ⟨16, 8, .ro, 0xff, 0, 0xff, false, .none⟩]⟩, -- VBANK_CH_TIME
  ⟨0x260, 0x4, 8, 0x0, 1, [⟨0, 32, .ro, 0, 0, 0xffffffff, false, .none⟩]⟩, -- VBANK_CH_STROKES
  ⟨0x280, 0x0, 1, 0x0, 1, [⟨0, 8, .rwl, 0, 0, 0xff, false, .none⟩]⟩, -- VBANK_CH_CLR
  ⟨0x284, 0x0, 1, 0x0, 1, [⟨0, 3, .rwl, 0, 0, 0x7, false, .none⟩, ⟨4, 2, .rwl, 0, 1, 0x2, false, .none⟩, ⟨8, 1, .rwl, 0, 0, 0x1, false, .none⟩]⟩ -- VBANK_POS_SET
 ]

def RegMap.page040 : List RegDesc := [
  ⟨0x100, 0x0, 1, 0x0, 1, [⟨0, 14, .rwl, 0x7d0, 0, 0xfa0, false, .none⟩, ⟨16, 14, .rwl, 0x5dc, 500, 0x2710, false, .down⟩]⟩, -- FANG_CFG
  ⟨0x104, 0x0, 1, 0x0, 1, [⟨0, 8, .rwl, 0xf, 0, 0xff, false, .none⟩, ⟨8, 8, .rwl, 0x64, 0, 0xff, false, .none⟩]⟩, -- FANG_CUR
  ⟨0x108, 0x0, 1, 0x0, 1, [⟨0, 5, .ro, 0, 0, 0x1f, false, .none⟩, ⟨5, 5, .ro, 0, 0, 0x1f, false, .none⟩, ⟨10, 5, .ro, 0, 0, 0x1f, false, .none⟩, ⟨15, 1, .ro, 0, 0, 0x1, false, .none⟩, ⟨16, 1, .ro, 0, 0, 0x1, false, .none⟩]⟩, -- FANG_STAT
  ⟨0x10c, 0x0, 1, 0x0, 1, [⟨0, 16, .rwl, 0, 0, 0xffff, false, .none⟩]⟩, -- FAN_CLR
  ⟨0x200, 0x4, 16, 0x0, 1, [⟨0, 1, .rwl, 1, 0, 0x1, false, .down⟩]⟩, -- FAN_CH_CFG
  ⟨0x240, 0x4, 16, 0x0, 1, [⟨0, 3, .ro, 5, 0, 0x7, false, .none⟩, ⟨3, 2, .ro, 0, 0, 0x3, false, .none⟩, ⟨5, 1, .ro, 0, 0, 0x1, false, .none⟩, ⟨6, 1, .ro, 0, 0, 0x1, false, .none⟩, ⟨16, 16, .ro, 0xffff, 0, 0xffff, false, .none⟩]⟩, -- FAN_CH_STAT
  ⟨0x280, 0x4, 16, 0x0, 1, [⟨0, 14, .ro, 0, 0, 0x3fff, false, .none⟩, ⟨16, 8, .ro, 0, 0, 0xff, false, .none⟩]⟩, -- FAN_CH_OUT
  ⟨0x300, 0x10, 16, 0x4, 4, [⟨0, 14, .rwl, 0, 0, 0x2710, false, .none⟩, ⟨16, 14, .rwl, 0, 0, 0x3fff, false, .none⟩, ⟨31, 1, .rwl, 0, 0, 0x1, false, .none⟩]⟩ -- FAN_SKIP
 ]

def RegMap.page048 : List RegDesc := [
  ⟨0x100, 0x0, 1, 0x0, 1, [⟨0, 2, .rwl, 3, 0, 0x3, false, .any⟩]⟩, -- PUMP_CFG
  ⟨0x104, 0x0, 1, 0x0, 1, [⟨0, 16, .rwl, 0x190, 100, 0xffff, false, .none⟩, ⟨16, 8, .rwl, 0xa, 2, 0x3c, false, .none⟩]⟩, -- PUMP_START
  ⟨0x108, 0x0, 1, 0x0, 1, [⟨0, 16, .rwl, 0x64, 0, 0xffff, false, .down⟩, ⟨16, 8, .rwl, 0x28, 10, 0x50, false, .down⟩]⟩, -- PUMP_DRY
  ⟨0x10c, 0x0, 1, 0x0, 1, [⟨0, 16, .rwl, 0xbb8, 1, 0xffff, false, .none⟩, ⟨16, 16, .rwl, 0x1f4, 1, 0xffff, false, .none⟩]⟩, -- PUMP_RATED
  ⟨0x110, 0x0, 1, 0x0, 1, [⟨0, 4, .rwl, 0, 0, 0xf, false, .none⟩]⟩, -- PUMP_DRY_CLR
  ⟨0x114, 0x0, 1, 0x0, 1, [⟨0, 2, .rwl, 0, 0, 0x3, false, .none⟩, ⟨2, 2, .rwl, 0, 0, 0x2, false, .none⟩, ⟨4, 4, .ro, 0, 0, 0xf, false, .none⟩, ⟨16, 9, .rwl, 0x1f4, 100, 0x1f4, false, .none⟩]⟩, -- PUMP_MB_CMD
  ⟨0x118, 0x0, 1, 0x0, 1, [⟨0, 16, .rwl, 0, 0, 0xffff, false, .none⟩, ⟨16, 16, .rwl, 0, 0, 0xffff, false, .none⟩]⟩, -- PUMP_MB_WR
  ⟨0x200, 0x10, 4, 0x0, 1, [⟨0, 1, .rwl, 0, 0, 0x1, false, .none⟩, ⟨4, 3, .rwl, 2, 1, 0x7, false, .none⟩]⟩, -- PUMP_CH_CTRL
  ⟨0x204, 0x10, 4, 0x0, 1, [⟨0, 4, .ro, 0, 0, 0xf, false, .none⟩, ⟨4, 1, .ro, 0, 0, 0x1, false, .none⟩, ⟨5, 1, .ro, 0, 0, 0x1, false, .none⟩, ⟨6, 1, .ro, 0, 0, 0x1, false, .none⟩, ⟨7, 1, .ro, 0, 0, 0x1, false, .none⟩, ⟨8, 1, .ro, 0, 0, 0x1, false, .none⟩, ⟨16, 14, .ro, 0, 0, 0x3fff, false, .none⟩]⟩, -- PUMP_CH_STAT
  ⟨0x208, 0x10, 4, 0x0, 1, [⟨0, 16, .ro, 0xffff, 0, 0xffff, false, .none⟩, ⟨16, 16, .ro, 0, 0, 0xffff, false, .none⟩]⟩, -- PUMP_CH_SPEED
  ⟨0x20c, 0x10, 4, 0x0, 1, [⟨0, 16, .ro, 0, 0, 0xffff, false, .none⟩, ⟨16, 8, .ro, 0, 0, 0xff, false, .none⟩, ⟨24, 8, .ro, 0xff, 0, 0xff, false, .none⟩]⟩ -- PUMP_CH_MB
 ]

def RegMap.page050 : List RegDesc := [
  ⟨0x100, 0x0, 1, 0x0, 1, [⟨0, 4, .ro, 0, 0, 0xf, false, .none⟩, ⟨8, 6, .ro, 0, 0, 0x3f, false, .none⟩]⟩, -- SENS_GRP
  ⟨0x180, 0x0, 1, 0x0, 1, [⟨0, 8, .rwl, 0x1e, 5, 0x64, false, .up⟩, ⟨8, 8, .rwl, 0x14, 10, 0x64, false, .down⟩]⟩, -- SENS_HS
  ⟨0x184, 0x0, 1, 0x0, 1, [⟨0, 16, .rwl, 0x12c, 100, 0x2710, false, .down⟩]⟩, -- SENS_HS_THETA
  ⟨0x188, 0x0, 1, 0x0, 1, [⟨0, 12, .ro, 0, 0, 0xfff, false, .none⟩, ⟨16, 12, .ro, 0, 0, 0xfff, false, .none⟩]⟩, -- SENS_HS_STAT
  ⟨0x18c, 0x0, 1, 0x0, 1, [⟨0, 8, .rwl, 0x1e, 20, 0x64, false, .down⟩, ⟨8, 8, .rwl, 0x1a, 16, 0x28, false, .down⟩]⟩, -- SENS_DEW
  ⟨0x190, 0x0, 1, 0x0, 1, [⟨0, 16, .ro, 0, 0, 0xffff, false, .none⟩, ⟨16, 4, .ro, 0, 0, 0xf, false, .none⟩, ⟨20, 1, .ro, 0, 0, 0x1, false, .none⟩]⟩, -- SENS_DEW_STAT
  ⟨0x194, 0x0, 1, 0x0, 1, [⟨0, 16, .ro, 0, 0, 0xffff, false, .none⟩, ⟨16, 1, .ro, 0, 0, 0x1, false, .none⟩]⟩, -- SENS_DEW_FLOOR
  ⟨0x1a0, 0x4, 6, 0x0, 1, [⟨0, 16, .rwl, 0x64, 0, 0xffff, false, .up⟩, ⟨16, 1, .ro, 0, 0, 0x1, false, .none⟩, ⟨17, 1, .ro, 0, 0, 0x1, false, .none⟩, ⟨18, 1, .ro, 0, 0, 0x1, false, .none⟩]⟩, -- SENS_PAIR
  ⟨0x1c0, 0x0, 1, 0x0, 1, [⟨0, 4, .rwl, 0, 0, 0x3, false, .none⟩, ⟨4, 4, .ro, 0, 0, 0xf, false, .none⟩, ⟨8, 3, .rwl, 0, 0, 0x7, false, .none⟩, ⟨16, 5, .rwl, 0, 0, 0x1f, false, .none⟩]⟩, -- SENS_CAL_CMD
  ⟨0x1c4, 0x0, 1, 0x0, 1, [⟨0, 32, .rwl, 0, 0, 0xffffffff, false, .none⟩]⟩, -- SENS_CAL_OFS_OWN
  ⟨0x1c8, 0x0, 1, 0x0, 1, [⟨0, 32, .rwl, 0, 0, 0xffffffff, false, .none⟩]⟩, -- SENS_CAL_GAIN_OWN
  ⟨0x1cc, 0x0, 1, 0x0, 1, [⟨0, 32, .rwl, 0, 0, 0xffffffff, false, .none⟩]⟩, -- SENS_CAL_OFS_X
  ⟨0x1d0, 0x0, 1, 0x0, 1, [⟨0, 32, .rwl, 0, 0, 0xffffffff, false, .none⟩]⟩, -- SENS_CAL_GAIN_X
  ⟨0x1d4, 0x0, 1, 0x0, 1, [⟨0, 32, .rwl, 0, 0, 0xffffffff, false, .none⟩]⟩, -- SENS_LEAK_CLR
  ⟨0x200, 0x4, 32, 0x0, 1, [⟨0, 1, .rwl, 0, 1, 0x1, false, .none⟩, ⟨1, 2, .rwl, 0, 0, 0x1, false, .none⟩, ⟨3, 1, .rwl, 0, 1, 0x1, false, .none⟩, ⟨4, 1, .rwl, 0, 0, 0x1, false, .none⟩]⟩, -- SENS_CH_CFG
  ⟨0x280, 0x4, 32, 0x0, 1, [⟨0, 32, .rwl, 0, 0, 0xffffffff, false, .none⟩]⟩, -- SENS_CH_LO
  ⟨0x300, 0x4, 32, 0x0, 1, [⟨0, 32, .rwl, 0, 0, 0xffffffff, false, .none⟩]⟩, -- SENS_CH_HI
  ⟨0x380, 0x4, 32, 0x0, 1, [⟨0, 32, .ro, 0, 0, 0xffffffff, false, .none⟩]⟩, -- SENS_CH_VAL
  ⟨0x400, 0x4, 32, 0x0, 1, [⟨0, 3, .ro, 0, 0, 0x7, false, .none⟩, ⟨4, 4, .ro, 0, 0, 0xf, false, .none⟩, ⟨8, 1, .ro, 0, 0, 0x1, false, .none⟩, ⟨9, 1, .ro, 0, 0, 0x1, false, .none⟩, ⟨10, 2, .ro, 0, 0, 0x3, false, .none⟩, ⟨12, 1, .ro, 0, 0, 0x1, false, .none⟩, ⟨16, 16, .ro, 0, 0, 0xffff, false, .none⟩]⟩, -- SENS_CH_STAT
  ⟨0xc00, 0x4, 32, 0x0, 1, [⟨0, 16, .ro, 0, 0, 0xffff, false, .none⟩, ⟨16, 16, .ro, 0, 0, 0xffff, false, .none⟩]⟩ -- SENS_CH_RAW
 ]

def RegMap.page060 : List RegDesc := [
  ⟨0x100, 0x0, 1, 0x0, 1, [⟨0, 16, .rwl, 0x50, 4, 0xfa0, false, .up⟩]⟩, -- CAPC_SLEW
  ⟨0x104, 0x0, 1, 0x0, 1, [⟨0, 8, .rwl, 0x32, 10, 0xc8, false, .down⟩, ⟨8, 8, .rwl, 0x14, 5, 0x64, false, .down⟩, ⟨16, 8, .rwl, 0x14, 10, 0x64, false, .down⟩, ⟨24, 8, .rwl, 0x3c, 20, 0xc8, false, .down⟩]⟩, -- CAPC_THERM
  ⟨0x108, 0x0, 1, 0x0, 1, [⟨0, 1, .rwl, 0, 0, 0x1, false, .none⟩, ⟨4, 4, .rwl, 3, 1, 0xf, false, .none⟩, ⟨8, 8, .rwl, 0x28, 20, 0x50, false, .none⟩, ⟨16, 16, .rwl, 0x3c, 1, 0xe10, false, .none⟩]⟩, -- CAPC_WARM
  ⟨0x10c, 0x0, 1, 0x0, 1, [⟨0, 8, .rwl, 0x32, 10, 0xc8, false, .none⟩, ⟨8, 8, .rwl, 0x1e, 0, 0x64, false, .none⟩, ⟨16, 16, .rwl, 0, 0, 0xffff, false, .none⟩]⟩, -- CAPC_WARM2
  ⟨0x110, 0x0, 1, 0x0, 1, [⟨0, 12, .rwl, 0, 0, 0x8ff, false, .none⟩, ⟨12, 2, .rwl, 0, 0, 0x3, false, .none⟩]⟩, -- CAPC_TBL_PTR
  ⟨0x114, 0x4, 7, 0x0, 1, [⟨0, 32, .rwl, 0, 0, 0xffffffff, false, .none⟩]⟩, -- CAPC_TBL_WDATA
  ⟨0x130, 0x4, 8, 0x0, 1, [⟨0, 32, .ro, 0, 0, 0xffffffff, false, .none⟩]⟩, -- CAPC_TBL_RDATA
  ⟨0x150, 0x0, 1, 0x0, 1, [⟨0, 1, .ro, 0, 0, 0x1, false, .none⟩, ⟨1, 1, .ro, 0, 0, 0x1, false, .none⟩, ⟨2, 1, .ro, 0, 0, 0x1, false, .none⟩, ⟨4, 12, .ro, 0, 0, 0xfff, false, .none⟩]⟩, -- CAPC_STAT
  ⟨0x154, 0x0, 1, 0x0, 1, [⟨0, 24, .ro, 0, 0, 0xffffff, false, .none⟩, ⟨24, 8, .ro, 0, 0, 0xff, false, .none⟩]⟩, -- CAPC_HABOOB
  ⟨0x158, 0x0, 1, 0x0, 1, [⟨0, 24, .ro, 0, 0, 0xffffff, false, .none⟩]⟩, -- CAPC_OFF
  ⟨0x15c, 0x0, 1, 0x0, 1, [⟨0, 32, .ro, 0, 0, 0xffffffff, false, .none⟩]⟩, -- CAPC_ROW_SUM
  ⟨0x160, 0x4, 8, 0x0, 1, [⟨0, 12, .ro, 0, 0, 0xfff, false, .none⟩]⟩, -- CAPC_BIND
  ⟨0x180, 0x8, 8, 0x0, 1, [⟨0, 32, .ro, 0, 0, 0xffffffff, false, .none⟩]⟩, -- CAPC_BIND_TIME_LO
  ⟨0x184, 0x8, 8, 0x0, 1, [⟨0, 32, .ro, 0, 0, 0xffffffff, false, .none⟩]⟩, -- CAPC_BIND_TIME_HI
  ⟨0x1c0, 0x0, 1, 0x0, 1, [⟨0, 1, .rwl, 0, 0, 0x1, false, .none⟩, ⟨16, 12, .ro, 0, 0, 0xfff, false, .none⟩]⟩, -- CAPC_BUDGET_CTRL
  ⟨0x1c4, 0x0, 1, 0x0, 1, [⟨0, 5, .rwl, 0, 1, 0x18, false, .any⟩]⟩, -- CAPC_ROW
  ⟨0x200, 0x4, 24, 0x0, 1, [⟨0, 7, .rwl, 0, 1, 0x60, false, .any⟩]⟩, -- CAPC_RACK
  ⟨0xc00, 0x0, 1, 0x0, 1, [⟨0, 12, .ro, 0, 0, 0xfff, false, .none⟩]⟩, -- CAPC_SNAP_POS
  ⟨0xc40, 0x4, 64, 0x0, 1, [⟨0, 16, .ro, 0, 0, 0xffff, false, .none⟩, ⟨16, 3, .ro, 0, 0, 0x7, false, .none⟩, ⟨19, 1, .ro, 0, 0, 0x1, false, .none⟩, ⟨20, 1, .ro, 0, 0, 0x1, false, .none⟩, ⟨21, 1, .ro, 0, 0, 0x1, false, .none⟩, ⟨22, 1, .ro, 0, 0, 0x1, false, .none⟩]⟩ -- CAPC_SNAP
 ]

def RegMap.page061 : List RegDesc := [
  ⟨0x100, 0x0, 1, 0x0, 1, [⟨0, 3, .ro, 0, 0, 0x7, false, .none⟩, ⟨3, 1, .ro, 0, 0, 0x1, false, .none⟩, ⟨4, 4, .ro, 0, 0, 0xf, false, .none⟩, ⟨8, 8, .ro, 0, 0, 0xff, false, .none⟩]⟩, -- SLIP_STAT
  ⟨0x104, 0x0, 1, 0x0, 1, [⟨0, 32, .ro, 0, 0, 0xffffffff, false, .none⟩]⟩, -- SLIP_EPOCH
  ⟨0x108, 0x0, 1, 0x0, 1, [⟨0, 32, .ro, 0, 0, 0xffffffff, false, .none⟩]⟩, -- SLIP_APPLY
  ⟨0x10c, 0x0, 1, 0x0, 1, [⟨0, 12, .ro, 0, 0, 0xfff, false, .none⟩, ⟨16, 12, .ro, 0, 0, 0xfff, false, .none⟩]⟩, -- SLIP_ACK
  ⟨0x110, 0x0, 1, 0x0, 1, [⟨0, 12, .ro, 0xfff, 0, 0xfff, false, .none⟩, ⟨16, 16, .ro, 0, 0, 0xffff, false, .none⟩]⟩, -- SLIP_MISS
  ⟨0x114, 0x0, 1, 0x0, 1, [⟨0, 32, .ro, 0, 0, 0xffffffff, false, .none⟩]⟩, -- SLIP_COUNT_COMMIT
  ⟨0x118, 0x0, 1, 0x0, 1, [⟨0, 32, .ro, 0, 0, 0xffffffff, false, .none⟩]⟩, -- SLIP_COUNT_ABORT
  ⟨0x11c, 0x0, 1, 0x0, 1, [⟨0, 32, .ro, 0, 0, 0xffffffff, false, .none⟩]⟩, -- SLIP_COUNT_SPLIT
  ⟨0x120, 0x0, 1, 0x0, 1, [⟨0, 8, .rwl, 0, 0, 0x7a, false, .none⟩, ⟨8, 8, .rwl, 0, 0, 0x7a, false, .none⟩, ⟨16, 8, .rwl, 0, 0, 0x7a, false, .none⟩, ⟨24, 8, .rwl, 0, 0, 0x7a, false, .none⟩]⟩, -- SLIP_HREQ_PAGES_0
  ⟨0x124, 0x0, 1, 0x0, 1, [⟨0, 8, .rwl, 0, 0, 0x7a, false, .none⟩, ⟨8, 8, .rwl, 0, 0, 0x7a, false, .none⟩, ⟨16, 8, .rwl, 0, 0, 0x7a, false, .none⟩, ⟨24, 8, .rwl, 0, 0, 0x7a, false, .none⟩]⟩, -- SLIP_HREQ_PAGES_1
  ⟨0x128, 0x0, 1, 0x0, 1, [⟨0, 4, .rwl, 0, 0, 0x3, false, .none⟩, ⟨4, 4, .ro, 0, 0, 0xf, false, .none⟩, ⟨8, 1, .rwl, 0, 0, 0x1, false, .none⟩]⟩, -- SLIP_HREQ_CMD
  ⟨0x12c, 0x0, 1, 0x0, 1, [⟨0, 32, .ro, 0, 0, 0xffffffff, false, .none⟩]⟩, -- SLIP_HREQ_EPOCH
  ⟨0xc40, 0x4, 72, 0x0, 1, [⟨0, 32, .ro, 0, 0, 0xffffffff, false, .none⟩]⟩ -- SLIP_ACKMAP
 ]

def RegMap.page070 : List RegDesc := [
  ⟨0x100, 0x0, 1, 0x0, 1, [⟨0, 6, .ro, 0, 0, 0x3f, false, .none⟩, ⟨6, 1, .ro, 0, 0, 0x1, false, .none⟩, ⟨7, 1, .ro, 0, 0, 0x1, false, .none⟩, ⟨8, 2, .ro, 0, 0, 0x3, false, .none⟩, ⟨10, 7, .ro, 0, 0, 0x7f, false, .none⟩, ⟨17, 1, .ro, 0, 0, 0x1, false, .none⟩, ⟨18, 1, .ro, 0, 0, 0x1, false, .none⟩, ⟨19, 1, .ro, 0, 0, 0x1, false, .none⟩]⟩, -- CRVN_STAT
  ⟨0x104, 0x0, 1, 0x0, 1, [⟨0, 16, .ro, 0, 0, 0xffff, false, .none⟩, ⟨16, 16, .ro, 0, 0, 0xffff, false, .none⟩]⟩, -- CRVN_RGEN
  ⟨0x108, 0x0, 1, 0x0, 1, [⟨0, 6, .rw, 0, 0, 0x3f, false, .none⟩, ⟨6, 1, .rw, 0, 0, 0x1, false, .none⟩, ⟨8, 1, .rw, 0, 0, 0x1, false, .none⟩, ⟨9, 1, .rw, 1, 0, 0x1, false, .none⟩, ⟨16, 16, .rw, 0, 0, 0xffff, false, .none⟩]⟩, -- CRVN_CFG
  ⟨0x10c, 0x0, 1, 0x0, 1, [⟨0, 32, .ro, 0, 0, 0xffffffff, false, .none⟩]⟩, -- CRVN_UID_LO
  ⟨0x110, 0x0, 1, 0x0, 1, [⟨0, 32, .ro, 0, 0, 0xffffffff, false, .none⟩]⟩, -- CRVN_UID_HI
  ⟨0x120, 0x10, 2, 0x0, 1, [⟨0, 1, .rw, 1, 0, 0x1, false, .none⟩]⟩, -- CRVN_PORT_CTRL
  ⟨0x124, 0x10, 2, 0x0, 1, [⟨0, 4, .ro, 0, 0, 0xf, false, .none⟩, ⟨4, 1, .ro, 0, 0, 0x1, false, .none⟩, ⟨5, 1, .ro, 0, 0, 0x1, false, .none⟩, ⟨6, 1, .ro, 0, 0, 0x1, false, .none⟩, ⟨7, 1, .ro, 0, 0, 0x1, false, .none⟩, ⟨8, 1, .ro, 0, 0, 0x1, false, .none⟩, ⟨12, 4, .ro, 0, 0, 0xf, false, .none⟩, ⟨16, 6, .ro, 0, 0, 0x3f, false, .none⟩, ⟨22, 1, .ro, 0, 0, 0x1, false, .none⟩]⟩, -- CRVN_PORT_STAT
  ⟨0x128, 0x10, 2, 0x0, 1, [⟨0, 16, .ro, 0, 0, 0xffff, false, .none⟩, ⟨16, 16, .ro, 0, 0, 0xffff, false, .none⟩]⟩, -- CRVN_PORT_ERR
  ⟨0x12c, 0x10, 2, 0x0, 1, [⟨0, 16, .ro, 0, 0, 0xffff, false, .none⟩]⟩, -- CRVN_PORT_DOWN
  ⟨0x140, 0x0, 1, 0x0, 1, [⟨0, 6, .rw, 0, 0, 0x3f, false, .none⟩]⟩, -- CRVN_NODE_SEL
  ⟨0x144, 0x0, 1, 0x0, 1, [⟨0, 1, .ro, 0, 0, 0x1, false, .none⟩, ⟨1, 1, .ro, 0, 0, 0x1, false, .none⟩, ⟨2, 6, .ro, 0, 0, 0x3f, false, .none⟩, ⟨8, 1, .ro, 0, 0, 0x1, false, .none⟩, ⟨16, 16, .ro, 0xffff, 0, 0xffff, false, .none⟩]⟩, -- CRVN_NODE_INFO
  ⟨0x148, 0x0, 1, 0x0, 1, [⟨0, 32, .ro, 0, 0, 0xffffffff, false, .none⟩]⟩, -- CRVN_NODE_UID_LO
  ⟨0x14c, 0x0, 1, 0x0, 1, [⟨0, 32, .ro, 0, 0, 0xffffffff, false, .none⟩]⟩, -- CRVN_NODE_UID_HI
  ⟨0x150, 0x0, 1, 0x0, 1, [⟨0, 1, .wo, 0, 0, 0x1, false, .none⟩, ⟨8, 6, .wo, 0, 0, 0x3f, false, .none⟩, ⟨14, 1, .wo, 0, 0, 0x1, false, .none⟩, ⟨16, 10, .wo, 0, 0, 0x3ff, false, .none⟩]⟩, -- CRVN_TX_CMD
  ⟨0x154, 0x0, 1, 0x0, 1, [⟨0, 1, .ro, 0, 0, 0x1, false, .none⟩, ⟨1, 3, .ro, 0, 0, 0x7, false, .none⟩]⟩, -- CRVN_TX_STAT
  ⟨0x158, 0x0, 1, 0x0, 1, [⟨0, 5, .ro, 0, 0, 0x1f, false, .none⟩, ⟨8, 6, .ro, 0, 0, 0x3f, false, .none⟩, ⟨16, 10, .ro, 0, 0, 0x3ff, false, .none⟩]⟩, -- CRVN_RX_STAT
  ⟨0x15c, 0x0, 1, 0x0, 1, [⟨0, 1, .wo, 0, 0, 0x1, false, .none⟩]⟩, -- CRVN_RX_POP
  ⟨0x160, 0x0, 1, 0x0, 1, [⟨0, 1, .wo, 0, 0, 0x1, false, .none⟩, ⟨8, 6, .rw, 0, 0, 0x3f, false, .none⟩, ⟨14, 2, .ro, 0, 0, 0x3, false, .none⟩, ⟨16, 16, .ro, 0, 0, 0xffff, false, .none⟩]⟩, -- CRVN_ECHO
  ⟨0x400, 0x4, 128, 0x0, 1, [⟨0, 32, .rw, 0, 0, 0xffffffff, false, .none⟩]⟩, -- CRVN_TX_BUF
  ⟨0x600, 0x4, 128, 0x0, 1, [⟨0, 32, .ro, 0, 0, 0xffffffff, false, .none⟩]⟩ -- CRVN_RX_BUF
 ]

def RegMap.page078 : List RegDesc := [
  ⟨0x100, 0x0, 1, 0x0, 1, [⟨0, 1, .ro, 0, 0, 0x1, false, .none⟩, ⟨1, 1, .ro, 0, 0, 0x1, false, .none⟩]⟩, -- ETH_STAT
  ⟨0x104, 0x0, 1, 0x0, 1, [⟨0, 32, .ro, 0, 0, 0xffffffff, false, .none⟩]⟩, -- ETH_RX_MAPS
  ⟨0x108, 0x0, 1, 0x0, 1, [⟨0, 32, .ro, 0, 0, 0xffffffff, false, .none⟩]⟩, -- ETH_RX_ACKS
  ⟨0x10c, 0x0, 1, 0x0, 1, [⟨0, 32, .ro, 0, 0, 0xffffffff, false, .none⟩]⟩ -- ETH_TX_LANE
 ]

def RegMap.page07A : List RegDesc := [
  ⟨0x100, 0x0, 1, 0x0, 1, [⟨0, 2, .rw, 2, 0, 0x3, false, .none⟩, ⟨2, 1, .rw, 0, 0, 0x1, false, .none⟩, ⟨3, 1, .rw, 0, 0, 0x1, false, .none⟩, ⟨8, 8, .rw, 0, 0, 0x7f, false, .none⟩, ⟨16, 8, .rw, 0x80, 0, 0xff, false, .none⟩, ⟨24, 8, .rw, 0x80, 0, 0xff, false, .none⟩]⟩, -- PTP_CFG
  ⟨0x104, 0x0, 1, 0x0, 1, [⟨0, 1, .ro, 0, 0, 0x1, false, .none⟩, ⟨1, 1, .ro, 0, 0, 0x1, false, .none⟩, ⟨4, 4, .ro, 0, 0, 0xf, false, .none⟩, ⟨8, 4, .ro, 0, 0, 0xf, false, .none⟩]⟩, -- PTP_STAT
  ⟨0x108, 0x0, 1, 0x0, 1, [⟨0, 32, .ro, 0, 0, 0xffffffff, false, .none⟩]⟩, -- PTP_OFFSET
  ⟨0x10c, 0x0, 1, 0x0, 1, [⟨0, 32, .ro, 0, 0, 0xffffffff, false, .none⟩]⟩ -- PTP_PATH
 ]

def RegMap.page080_0 : List RegDesc := [
  ⟨0x100, 0x0, 1, 0x0, 1, [⟨0, 3, .ro, 7, 0, 0x7, false, .none⟩, ⟨3, 1, .ro, 0, 0, 0x1, false, .none⟩, ⟨4, 1, .ro, 0, 0, 0x1, false, .none⟩, ⟨8, 7, .ro, 0, 0, 0x7f, false, .none⟩, ⟨16, 7, .ro, 0x7f, 0, 0x7f, false, .none⟩, ⟨24, 4, .ro, 0, 0, 0xf, false, .none⟩]⟩, -- ERG_STAT
  ⟨0x104, 0x0, 1, 0x0, 1, [⟨0, 1, .w1c, 0, 0, 0x1, false, .none⟩, ⟨1, 1, .w1c, 0, 0, 0x1, false, .none⟩, ⟨2, 1, .w1c, 0, 0, 0x1, false, .none⟩, ⟨3, 1, .w1c, 0, 0, 0x1, false, .none⟩, ⟨4, 1, .w1c, 0, 0, 0x1, false, .none⟩, ⟨5, 1, .w1c, 0, 0, 0x1, false, .none⟩]⟩, -- ERG_FLAGS
  ⟨0x108, 0x0, 1, 0x0, 1, [⟨0, 16, .ro, 0, 0, 0xffff, false, .none⟩, ⟨16, 7, .ro, 0, 0, 0x7f, false, .none⟩, ⟨24, 2, .ro, 0, 0, 0x3, false, .none⟩]⟩, -- ERG_RESIDUE
  ⟨0x10c, 0x0, 1, 0x0, 1, [⟨0, 16, .ro, 0, 0, 0xffff, false, .none⟩]⟩, -- ERG_RESIDUE_JOB
  ⟨0x110, 0x0, 1, 0x0, 1, [⟨0, 11, .ro, 0, 0, 0x7ff, false, .none⟩, ⟨16, 7, .ro, 0, 0, 0x7f, false, .none⟩]⟩, -- ERG_ILLEGAL
  ⟨0x120, 0x0, 1, 0x0, 1, [⟨0, 32, .ro, 0, 0, 0xffffffff, false, .none⟩]⟩, -- ERG_ACT_MAC4_LO
  ⟨0x124, 0x0, 1, 0x0, 1, [⟨0, 32, .ro, 0, 0, 0xffffffff, false, .none⟩]⟩, -- ERG_ACT_MAC4_HI
  ⟨0x128, 0x0, 1, 0x0, 1, [⟨0, 32, .ro, 0, 0, 0xffffffff, false, .none⟩]⟩, -- ERG_ACT_MAC8_LO
  ⟨0x12c, 0x0, 1, 0x0, 1, [⟨0, 32, .ro, 0, 0, 0xffffffff, false, .none⟩]⟩, -- ERG_ACT_MAC8_HI
  ⟨0x130, 0x0, 1, 0x0, 1, [⟨0, 32, .ro, 0, 0, 0xffffffff, false, .none⟩]⟩, -- ERG_ACT_MAC16_LO
  ⟨0x134, 0x0, 1, 0x0, 1, [⟨0, 32, .ro, 0, 0, 0xffffffff, false, .none⟩]⟩, -- ERG_ACT_MAC16_HI
  ⟨0x138, 0x0, 1, 0x0, 1, [⟨0, 32, .ro, 0, 0, 0xffffffff, false, .none⟩]⟩, -- ERG_ACT_MAC32_LO
  ⟨0x13c, 0x0, 1, 0x0, 1, [⟨0, 32, .ro, 0, 0, 0xffffffff, false, .none⟩]⟩, -- ERG_ACT_MAC32_HI
  ⟨0x140, 0x0, 1, 0x0, 1, [⟨0, 32, .ro, 0, 0, 0xffffffff, false, .none⟩]⟩, -- ERG_ACT_MACB16_LO
  ⟨0x144, 0x0, 1, 0x0, 1, [⟨0, 32, .ro, 0, 0, 0xffffffff, false, .none⟩]⟩, -- ERG_ACT_MACB16_HI
  ⟨0x148, 0x0, 1, 0x0, 1, [⟨0, 32, .ro, 0, 0, 0xffffffff, false, .none⟩]⟩, -- ERG_ACT_MACB32_LO
  ⟨0x14c, 0x0, 1, 0x0, 1, [⟨0, 32, .ro, 0, 0, 0xffffffff, false, .none⟩]⟩, -- ERG_ACT_MACB32_HI
  ⟨0x150, 0x0, 1, 0x0, 1, [⟨0, 32, .ro, 0, 0, 0xffffffff, false, .none⟩]⟩, -- ERG_ACT_TSRAM_LO
  ⟨0x154, 0x0, 1, 0x0, 1, [⟨0, 32, .ro, 0, 0, 0xffffffff, false, .none⟩]⟩, -- ERG_ACT_TSRAM_HI
  ⟨0x158, 0x0, 1, 0x0, 1, [⟨0, 32, .ro, 0, 0, 0xffffffff, false, .none⟩]⟩ -- ERG_ACT_NET_LO
 ]

def RegMap.page080_1 : List RegDesc := [
  ⟨0x15c, 0x0, 1, 0x0, 1, [⟨0, 32, .ro, 0, 0, 0xffffffff, false, .none⟩]⟩, -- ERG_ACT_NET_HI
  ⟨0x160, 0x0, 1, 0x0, 1, [⟨0, 32, .ro, 0, 0, 0xffffffff, false, .none⟩]⟩, -- ERG_CYCLES_LO
  ⟨0x164, 0x0, 1, 0x0, 1, [⟨0, 32, .ro, 0, 0, 0xffffffff, false, .none⟩]⟩ -- ERG_CYCLES_HI
 ]

def RegMap.page080 : List RegDesc := RegMap.page080_0 ++ RegMap.page080_1

def RegMap.page088 : List RegDesc := [
  ⟨0x100, 0x0, 1, 0x0, 1, [⟨0, 32, .ro, 0, 0, 0xffffffff, false, .none⟩]⟩, -- XJOB_FRAME
  ⟨0x104, 0x0, 1, 0x0, 1, [⟨0, 4, .rw, 0, 0, 0xf, false, .none⟩, ⟨4, 4, .ro, 0, 0, 0xf, false, .none⟩]⟩, -- XJOB_CMD
  ⟨0x108, 0x0, 1, 0x0, 1, [⟨0, 32, .rw, 0, 0, 0xffffffff, false, .none⟩]⟩, -- XJOB_SET_LO
  ⟨0x10c, 0x0, 1, 0x0, 1, [⟨0, 8, .rw, 0, 0, 0xff, false, .none⟩]⟩, -- XJOB_SET_HI
  ⟨0x110, 0x0, 1, 0x0, 1, [⟨0, 2, .ro, 0, 0, 0x3, false, .none⟩, ⟨8, 8, .ro, 0, 0, 0xff, false, .none⟩, ⟨16, 10, .ro, 0, 0, 0x3ff, false, .none⟩]⟩, -- XJOB_FIT
  ⟨0x114, 0x0, 1, 0x0, 1, [⟨0, 3, .ro, 0, 0, 0x7, false, .none⟩, ⟨8, 9, .ro, 0, 0, 0x1ff, false, .none⟩]⟩, -- XJOB_FIT_USE
  ⟨0x118, 0x0, 1, 0x0, 1, [⟨0, 32, .rw, 0, 0, 0xffffffff, false, .none⟩]⟩, -- XJOB_ARM_FRAME
  ⟨0x11c, 0x0, 1, 0x0, 1, [⟨0, 32, .ro, 0, 0, 0xffffffff, false, .none⟩]⟩, -- XJOB_ACTIVE
  ⟨0x120, 0x0, 1, 0x0, 1, [⟨0, 10, .ro, 0, 0, 0x3ff, false, .none⟩, ⟨10, 1, .ro, 0, 0, 0x1, false, .none⟩, ⟨11, 1, .ro, 0, 0, 0x1, false, .none⟩, ⟨12, 1, .ro, 0, 0, 0x1, false, .none⟩, ⟨13, 1, .ro, 0, 0, 0x1, false, .none⟩, ⟨16, 11, .ro, 0, 0, 0x7ff, false, .none⟩]⟩, -- XJOB_FRAME_STAT
  ⟨0x124, 0x0, 1, 0x0, 1, [⟨0, 10, .rw, 0, 0, 0x3ff, false, .none⟩]⟩, -- XJOB_SEL
  ⟨0x128, 0x0, 1, 0x0, 1, [⟨0, 3, .ro, 0, 0, 0x7, false, .none⟩, ⟨3, 1, .ro, 0, 0, 0x1, false, .none⟩, ⟨8, 4, .ro, 0, 0, 0xf, false, .none⟩, ⟨16, 8, .ro, 0, 0, 0xff, false, .none⟩, ⟨24, 8, .ro, 0, 0, 0xff, false, .none⟩]⟩, -- XJOB_JSTAT
  ⟨0x12c, 0x0, 1, 0x0, 1, [⟨0, 1, .rw, 0, 0, 0x1, false, .none⟩, ⟨1, 10, .rw, 0x80, 0, 0x3ff, false, .none⟩, ⟨16, 8, .rw, 8, 0, 0xff, false, .none⟩]⟩, -- XJOB_ADAPT
  ⟨0x130, 0x0, 1, 0x0, 1, [⟨0, 16, .ro, 0, 0, 0xffff, false, .none⟩, ⟨16, 16, .ro, 0, 0, 0xffff, false, .none⟩]⟩, -- XJOB_ADAPT_STAT
  ⟨0x134, 0x0, 1, 0x0, 1, [⟨0, 16, .ro, 0, 0, 0xffff, false, .none⟩, ⟨16, 16, .ro, 0, 0, 0xffff, false, .none⟩]⟩ -- XJOB_ADV_CNT
 ]

def RegMap.page089 : List RegDesc := [
  ⟨0x100, 0x0, 1, 0x0, 1, [⟨0, 10, .rw, 0x3c0, 0, 0x3ff, false, .none⟩]⟩, -- XPWR_CAP
  ⟨0x104, 0x0, 1, 0x0, 1, [⟨0, 3, .rw, 0, 0, 0x7, false, .none⟩, ⟨8, 3, .ro, 0, 0, 0x7, false, .none⟩, ⟨12, 3, .ro, 0, 0, 0x7, false, .none⟩, ⟨16, 3, .ro, 0, 0, 0x7, false, .none⟩, ⟨20, 3, .ro, 7, 0, 0x7, false, .none⟩]⟩, -- XPWR_OPP
  ⟨0x108, 0x0, 1, 0x0, 1, [⟨0, 8, .rw, 0x64, 0, 0xff, false, .none⟩, ⟨16, 8, .ro, 0, 0, 0xff, false, .none⟩]⟩, -- XPWR_THERM
  ⟨0x10c, 0x0, 1, 0x0, 1, [⟨0, 4, .rw, 5, 0, 0xf, false, .none⟩, ⟨16, 16, .ro, 0, 0, 0xffff, false, .none⟩]⟩, -- XPWR_DROOP
  ⟨0x110, 0x0, 1, 0x0, 1, [⟨0, 32, .ro, 0, 0, 0xffffffff, false, .none⟩]⟩, -- XPWR_THR_THERM_LO
  ⟨0x114, 0x0, 1, 0x0, 1, [⟨0, 32, .ro, 0, 0, 0xffffffff, false, .none⟩]⟩, -- XPWR_THR_THERM_HI
  ⟨0x118, 0x0, 1, 0x0, 1, [⟨0, 32, .ro, 0, 0, 0xffffffff, false, .none⟩]⟩, -- XPWR_THR_CAP_LO
  ⟨0x11c, 0x0, 1, 0x0, 1, [⟨0, 32, .ro, 0, 0, 0xffffffff, false, .none⟩]⟩, -- XPWR_THR_CAP_HI
  ⟨0x120, 0x0, 1, 0x0, 1, [⟨0, 32, .ro, 0, 0, 0xffffffff, false, .none⟩]⟩, -- XPWR_THR_DROOP_LO
  ⟨0x124, 0x0, 1, 0x0, 1, [⟨0, 32, .ro, 0, 0, 0xffffffff, false, .none⟩]⟩, -- XPWR_THR_DROOP_HI
  ⟨0x128, 0x0, 1, 0x0, 1, [⟨0, 32, .ro, 0, 0, 0xffffffff, false, .none⟩]⟩, -- XPWR_THR_INRUSH_LO
  ⟨0x12c, 0x0, 1, 0x0, 1, [⟨0, 32, .ro, 0, 0, 0xffffffff, false, .none⟩]⟩, -- XPWR_THR_INRUSH_HI
  ⟨0x130, 0x0, 1, 0x0, 1, [⟨0, 32, .ro, 0, 0, 0xffffffff, false, .none⟩]⟩, -- XPWR_THR_SUPPLY_LO
  ⟨0x134, 0x0, 1, 0x0, 1, [⟨0, 32, .ro, 0, 0, 0xffffffff, false, .none⟩]⟩, -- XPWR_THR_SUPPLY_HI
  ⟨0x138, 0x0, 1, 0x0, 1, [⟨0, 32, .ro, 0, 0, 0xffffffff, false, .none⟩]⟩, -- XPWR_THR_FRAME_OVERRUN_LO
  ⟨0x13c, 0x0, 1, 0x0, 1, [⟨0, 32, .ro, 0, 0, 0xffffffff, false, .none⟩]⟩, -- XPWR_THR_FRAME_OVERRUN_HI
  ⟨0x140, 0x0, 1, 0x0, 1, [⟨0, 16, .rw, 0, 0, 0xffff, false, .none⟩]⟩, -- XPWR_JOB_SEL
  ⟨0x144, 0x0, 1, 0x0, 1, [⟨0, 32, .ro, 0, 0, 0xffffffff, false, .none⟩]⟩, -- XPWR_JOB_ENERGY
  ⟨0x148, 0x0, 1, 0x0, 1, [⟨0, 32, .ro, 0, 0, 0xffffffff, false, .none⟩]⟩, -- XPWR_FRAME_ENERGY
  ⟨0x160, 0x4, 8, 0x0, 1, [⟨0, 16, .ro, 0, 0, 0xffff, false, .none⟩, ⟨16, 16, .ro, 0, 0, 0xffff, false, .none⟩]⟩ -- XPWR_STATIC
 ]

def RegMap.page08A : List RegDesc := [
  ⟨0x100, 0x0, 1, 0x0, 1, [⟨0, 2, .rw, 2, 0, 0x3, false, .none⟩]⟩, -- XMEM_CFG
  ⟨0x104, 0x0, 1, 0x0, 1, [⟨0, 1, .ro, 0, 0, 0x1, false, .none⟩, ⟨1, 1, .ro, 0, 0, 0x1, false, .none⟩, ⟨4, 4, .ro, 0, 0, 0xf, false, .none⟩, ⟨8, 4, .ro, 1, 0, 0xf, false, .none⟩]⟩, -- XMEM_STAT
  ⟨0x108, 0x0, 1, 0x0, 1, [⟨0, 16, .ro, 0, 0, 0xffff, false, .none⟩, ⟨16, 16, .ro, 0, 0, 0xffff, false, .none⟩]⟩, -- XMEM_ERR
  ⟨0x110, 0x0, 1, 0x0, 1, [⟨0, 32, .ro, 0, 0, 0xffffffff, false, .none⟩]⟩, -- XMEM_BYTES_LO
  ⟨0x114, 0x0, 1, 0x0, 1, [⟨0, 32, .ro, 0, 0, 0xffffffff, false, .none⟩]⟩ -- XMEM_BYTES_HI
 ]

def RegMap.page08F : List RegDesc := [
  ⟨0x100, 0x0, 1, 0x0, 1, [⟨0, 16, .ro, 0, 0, 0xffff, false, .none⟩, ⟨16, 16, .ro, 0, 0, 0xffff, false, .none⟩]⟩, -- XECC_TSRAM
  ⟨0x104, 0x0, 1, 0x0, 1, [⟨0, 16, .ro, 0, 0, 0xffff, false, .none⟩, ⟨16, 16, .ro, 0, 0, 0xffff, false, .none⟩]⟩, -- XECC_SHARED
  ⟨0x108, 0x0, 1, 0x0, 1, [⟨0, 16, .ro, 0, 0, 0xffff, false, .none⟩, ⟨16, 16, .ro, 0, 0, 0xffff, false, .none⟩]⟩, -- XECC_LPDDR6
  ⟨0x10c, 0x0, 1, 0x0, 1, [⟨0, 16, .ro, 0, 0, 0xffff, false, .none⟩, ⟨16, 16, .ro, 0, 0, 0xffff, false, .none⟩]⟩, -- XECC_ROM
  ⟨0x110, 0x0, 1, 0x0, 1, [⟨0, 32, .ro, 0, 0, 0xffffffff, false, .none⟩]⟩, -- XECC_UE_ADDR_LO
  ⟨0x114, 0x0, 1, 0x0, 1, [⟨0, 8, .ro, 0, 0, 0xff, false, .none⟩, ⟨8, 4, .ro, 0, 0, 0xf, false, .none⟩, ⟨16, 10, .ro, 0, 0, 0x3ff, false, .none⟩, ⟨31, 1, .ro, 0, 0, 0x1, false, .none⟩]⟩, -- XECC_UE_ADDR_HI
  ⟨0x118, 0x0, 1, 0x0, 1, [⟨0, 1, .rw, 1, 0, 0x1, false, .none⟩, ⟨16, 16, .ro, 0, 0, 0xffff, false, .none⟩]⟩, -- XECC_SCRUB
  ⟨0x11c, 0x0, 1, 0x0, 1, [⟨0, 2, .rwp, 0, 0, 0x3, false, .none⟩, ⟨2, 2, .rwp, 0, 0, 0x3, false, .none⟩, ⟨4, 1, .rwp, 0, 0, 0x1, false, .none⟩]⟩, -- XECC_INJECT
  ⟨0x120, 0x0, 1, 0x0, 1, [⟨0, 32, .rwp, 0, 0, 0xffffffff, false, .none⟩]⟩, -- XECC_INJECT_XA_LO
  ⟨0x124, 0x0, 1, 0x0, 1, [⟨0, 8, .rwp, 0, 0, 0xff, false, .none⟩]⟩ -- XECC_INJECT_XA_HI
 ]

def RegMap.page090 : List RegDesc := [
  ⟨0x100, 0x0, 1, 0x0, 1, [⟨0, 1, .ro, 0, 0, 0x1, false, .none⟩, ⟨1, 1, .ro, 0, 0, 0x1, false, .none⟩, ⟨2, 1, .ro, 0, 0, 0x1, false, .none⟩, ⟨16, 16, .ro, 0, 0, 0xffff, false, .none⟩]⟩, -- UCIE_STAT
  ⟨0x104, 0x0, 1, 0x0, 1, [⟨0, 16, .ro, 0, 0, 0xffff, false, .none⟩, ⟨16, 8, .ro, 0, 0, 0xff, false, .none⟩, ⟨24, 8, .ro, 0, 0, 0xff, false, .none⟩]⟩, -- UCIE_ERR
  ⟨0x108, 0x0, 1, 0x0, 1, [⟨0, 16, .ro, 0, 0, 0xffff, false, .none⟩]⟩ -- UCIE_TIMEOUT
 ]

def RegMap.page0A0 : List RegDesc := [
  ⟨0x100, 0x0, 1, 0x0, 1, [⟨0, 1, .ro, 0, 0, 0x1, false, .none⟩, ⟨1, 1, .ro, 0, 0, 0x1, false, .none⟩, ⟨2, 1, .ro, 0, 0, 0x1, false, .none⟩, ⟨3, 3, .ro, 0, 0, 0x7, false, .none⟩, ⟨8, 6, .ro, 0, 0, 0x3f, false, .none⟩]⟩, -- SEC_STAT
  ⟨0x104, 0x0, 1, 0x0, 1, [⟨0, 4, .rw, 0, 0, 0xf, false, .none⟩, ⟨8, 2, .rw, 0, 0, 0x3, false, .none⟩, ⟨16, 4, .ro, 0, 0, 0xf, false, .none⟩]⟩, -- SEC_CMD
  ⟨0x108, 0x0, 1, 0x0, 1, [⟨0, 32, .ro, 0, 0, 0xffffffff, false, .none⟩]⟩, -- SEC_CHAL_CNT
  ⟨0x120, 0x4, 8, 0x0, 1, [⟨0, 32, .ro, 0, 0, 0xffffffff, false, .none⟩]⟩, -- SEC_NONCE
  ⟨0x140, 0x4, 8, 0x0, 1, [⟨0, 32, .rw, 0, 0, 0xffffffff, false, .none⟩]⟩, -- SEC_ARG
  ⟨0x160, 0x0, 1, 0x0, 1, [⟨0, 26, .rw, 0, 0, 0x3ffffff, false, .none⟩]⟩, -- SEC_ATT_ADDR
  ⟨0x164, 0x0, 1, 0x0, 1, [⟨0, 3, .rw, 0, 0, 0x7, false, .none⟩]⟩, -- SEC_MEAS_SEL
  ⟨0x180, 0x4, 8, 0x0, 1, [⟨0, 32, .ro, 0, 0, 0xffffffff, false, .none⟩]⟩, -- SEC_MEAS
  ⟨0x200, 0x4, 96, 0x0, 1, [⟨0, 32, .rw, 0, 0, 0xffffffff, false, .none⟩]⟩ -- SEC_SIGBUF
 ]

def RegMap.page0A1 : List RegDesc := [
  ⟨0x100, 0x0, 1, 0x0, 1, [⟨0, 1, .ro, 0, 0, 0x1, false, .none⟩, ⟨1, 1, .ro, 0, 0, 0x1, false, .none⟩, ⟨2, 1, .ro, 0, 0, 0x1, false, .none⟩, ⟨3, 1, .ro, 0, 0, 0x1, false, .none⟩, ⟨4, 1, .ro, 0, 0, 0x1, false, .none⟩, ⟨5, 1, .ro, 0, 0, 0x1, false, .none⟩, ⟨6, 1, .ro, 0, 0, 0x1, false, .none⟩, ⟨7, 1, .ro, 0, 0, 0x1, false, .none⟩, ⟨8, 20, .ro, 0, 0, 0xfffff, false, .none⟩]⟩, -- PRES_STAT
  ⟨0x104, 0x0, 1, 0x0, 1, [⟨0, 1, .wo, 0, 0, 0x1, false, .none⟩]⟩, -- PRES_CTRL
  ⟨0x108, 0x0, 1, 0x0, 1, [⟨0, 4, .ro, 0, 0, 0xf, false, .none⟩, ⟨4, 2, .ro, 0, 0, 0x3, false, .none⟩, ⟨8, 24, .ro, 0, 0, 0xffffff, false, .none⟩]⟩, -- PRES_TAMPER
  ⟨0x10c, 0x0, 1, 0x0, 1, [⟨0, 32, .ro, 0, 0, 0xffffffff, false, .none⟩]⟩, -- PRES_SEAL_STORED
  ⟨0x110, 0x0, 1, 0x0, 1, [⟨0, 32, .ro, 0, 0, 0xffffffff, false, .none⟩]⟩, -- PRES_SEAL_NOW
  ⟨0x114, 0x0, 1, 0x0, 1, [⟨0, 32, .ro, 0, 0, 0xffffffff, false, .none⟩]⟩ -- PRES_OPENS
 ]

def RegMap.page0A2 : List RegDesc := [
  ⟨0x100, 0x0, 1, 0x0, 1, [⟨0, 6, .ro, 0, 0, 0x3f, false, .none⟩]⟩, -- FUSE_DBG_KILL
  ⟨0x104, 0x0, 1, 0x0, 1, [⟨0, 4, .ro, 0, 0, 0xf, false, .none⟩, ⟨4, 4, .ro, 0, 0, 0xf, false, .none⟩, ⟨8, 1, .ro, 0, 0, 0x1, false, .none⟩]⟩, -- FUSE_OWNER_STAT
  ⟨0x108, 0x0, 1, 0x0, 1, [⟨0, 7, .ro, 0, 0, 0x7f, false, .none⟩, ⟨8, 7, .ro, 0, 0, 0x7f, false, .none⟩, ⟨16, 7, .ro, 0, 0, 0x7f, false, .none⟩, ⟨24, 7, .ro, 0, 0, 0x7f, false, .none⟩]⟩, -- FUSE_SVN
  ⟨0x10c, 0x0, 1, 0x0, 1, [⟨0, 7, .ro, 0, 0, 0x7f, false, .none⟩]⟩, -- FUSE_SVN2
  ⟨0x120, 0x20, 4, 0x4, 8, [⟨0, 32, .ro, 0, 0, 0xffffffff, false, .none⟩]⟩ -- FUSE_OWNER_HASH
 ]

def RegMap.page0B0 : List RegDesc := [
  ⟨0x100, 0x0, 1, 0x0, 1, [⟨0, 32, .ro, 1, 0, 0xffffffff, false, .none⟩]⟩, -- REC_HEAD
  ⟨0x104, 0x0, 1, 0x0, 1, [⟨0, 32, .ro, 1, 0, 0xffffffff, false, .none⟩]⟩, -- REC_TAIL
  ⟨0x108, 0x0, 1, 0x0, 1, [⟨0, 32, .ro, 1, 0, 0xffffffff, false, .none⟩]⟩, -- REC_OLDEST_OPEN
  ⟨0x10c, 0x0, 1, 0x0, 1, [⟨0, 32, .rw, 0, 0, 0xffffffff, false, .none⟩]⟩, -- REC_CURSOR
  ⟨0x110, 0x0, 1, 0x0, 1, [⟨0, 1, .ro, 0, 0, 0x1, false, .none⟩, ⟨1, 2, .ro, 0, 0, 0x3, false, .none⟩, ⟨3, 1, .ro, 0, 0, 0x1, false, .none⟩]⟩, -- REC_WIN_STAT
  ⟨0x114, 0x0, 1, 0x0, 1, [⟨0, 1, .rw, 0, 0, 0x1, false, .none⟩]⟩, -- REC_CTRL
  ⟨0x118, 0x0, 1, 0x0, 1, [⟨0, 10, .ro, 0, 0, 0x3ff, false, .none⟩, ⟨16, 10, .ro, 0, 0, 0x3ff, false, .none⟩, ⟨31, 1, .wo, 0, 0, 0x1, false, .none⟩]⟩, -- REC_FIFO
  ⟨0x11c, 0x0, 1, 0x0, 1, [⟨0, 16, .ro, 0, 0, 0xffff, false, .none⟩, ⟨16, 9, .ro, 0, 0, 0x1ff, false, .none⟩]⟩, -- REC_EVICT
  ⟨0x180, 0x10, 8, 0x0, 1, [⟨0, 32, .ro, 0, 0, 0xffffffff, false, .none⟩]⟩, -- REC_CLASS_EVENTS_LO
  ⟨0x184, 0x10, 8, 0x0, 1, [⟨0, 32, .ro, 0, 0, 0xffffffff, false, .none⟩]⟩, -- REC_CLASS_EVENTS_HI
  ⟨0x188, 0x10, 8, 0x0, 1, [⟨0, 32, .ro, 0, 0, 0xffffffff, false, .none⟩]⟩, -- REC_CLASS_LOST_LO
  ⟨0x18c, 0x10, 8, 0x0, 1, [⟨0, 32, .ro, 0, 0, 0xffffffff, false, .none⟩]⟩, -- REC_CLASS_LOST_HI
  ⟨0x400, 0x4, 16, 0x0, 1, [⟨0, 32, .ro, 0, 0, 0xffffffff, false, .none⟩]⟩ -- REC_WIN
 ]

def RegMap.page0B1 : List RegDesc := [
  ⟨0x100, 0x0, 1, 0x0, 1, [⟨0, 3, .rw, 0, 0, 0x7, false, .none⟩, ⟨8, 7, .rw, 0, 0, 0x7f, false, .none⟩]⟩, -- INV_SEL
  ⟨0x104, 0x0, 1, 0x0, 1, [⟨0, 1, .rwp, 0, 0, 0x1, false, .none⟩]⟩, -- INV_CMD
  ⟨0x110, 0x4, 4, 0x0, 1, [⟨0, 32, .rwp, 0, 0, 0xffffffff, false, .none⟩]⟩, -- INV_SET
  ⟨0x140, 0x4, 8, 0x0, 1, [⟨0, 32, .ro, 0, 0, 0xffffffff, false, .none⟩]⟩ -- INV_REC
 ]

/-- The register tables of a page of lane A's numbering. -/
def lanePageRegs (p : Nat) : List RegDesc :=
  if p = 0x0 then RegMap.page000
  else if p = 0x1 then RegMap.page001
  else if p = 0x2 then RegMap.page002
  else if p = 0x3 then RegMap.page003
  else if p = 0x10 then RegMap.page010
  else if p = 0x11 then RegMap.page011
  else if p = 0x12 then RegMap.page012
  else if p = 0x13 then RegMap.page013
  else if 0x14 ≤ p ∧ p ≤ 0x17 then RegMap.page014
  else if p = 0x18 then RegMap.page018
  else if p = 0x19 then RegMap.page019
  else if p = 0x1a then RegMap.page01A
  else if p = 0x1b then RegMap.page01B
  else if p = 0x1c then RegMap.page01C
  else if 0x30 ≤ p ∧ p ≤ 0x3b then RegMap.page030
  else if 0x40 ≤ p ∧ p ≤ 0x42 then RegMap.page040
  else if p = 0x48 then RegMap.page048
  else if 0x50 ≤ p ∧ p ≤ 0x57 then RegMap.page050
  else if p = 0x60 then RegMap.page060
  else if p = 0x61 then RegMap.page061
  else if p = 0x70 then RegMap.page070
  else if 0x78 ≤ p ∧ p ≤ 0x79 then RegMap.page078
  else if p = 0x7a then RegMap.page07A
  else if 0x80 ≤ p ∧ p ≤ 0x87 then RegMap.page080
  else if p = 0x88 then RegMap.page088
  else if p = 0x89 then RegMap.page089
  else if 0x8a ≤ p ∧ p ≤ 0x8e then RegMap.page08A
  else if p = 0x8f then RegMap.page08F
  else if p = 0x90 then RegMap.page090
  else if p = 0xa0 then RegMap.page0A0
  else if p = 0xa1 then RegMap.page0A1
  else if p = 0xa2 then RegMap.page0A2
  else if p = 0xb0 then RegMap.page0B0
  else if p = 0xb1 then RegMap.page0B1
  else []

/-- What R27 says of a page: its PG_ID type, its instance, whether it is lane-owned, the path it is reached by and its PG_CAP. -/
inductive Home | hervi | xoide | bus
  deriving DecidableEq, Repr

structure PageInfo where
  type : Nat
  inst : Nat
  laneOwned : Bool
  home : Home
  cap : Nat
  deriving DecidableEq, Repr

/-- PG_CAP of the sixteen lane pages (R394 and each page's own section). -/
def lanePageCap (i : Nat) : Nat :=
  if i = 2 then 2 else if i = 3 then 0x12 else if 4 ≤ i ∧ i ≤ 7 then 3 else if 13 ≤ i then 0 else 2

/-- The table of R27. -/
def pageInfo (p : Nat) : Option PageInfo :=
  if p = 0x000 then some ⟨0, 0, false, .hervi, 0⟩
  else if p = 0x001 then some ⟨1, 0, false, .hervi, 0⟩
  else if p = 0x002 then some ⟨2, 0, false, .bus, 0⟩
  else if p = 0x003 then some ⟨3, 0, false, .bus, 0⟩
  else if 0x010 ≤ p ∧ p ≤ 0x02F then some ⟨0x10, p - 0x10, true, .bus, lanePageCap (p % 16)⟩
  else if 0x030 ≤ p ∧ p ≤ 0x03B then some ⟨0x30, p - 0x30, true, .bus, 0x0008000B⟩
  else if 0x040 ≤ p ∧ p ≤ 0x042 then some ⟨0x40, p - 0x40, true, .bus, 0x0010000A⟩
  else if p = 0x048 then some ⟨0x48, 0, true, .bus, 0x0004000A⟩
  else if 0x050 ≤ p ∧ p ≤ 0x057 then some ⟨0x50, p - 0x50, true, .bus, 0x12⟩
  else if p = 0x060 then some ⟨0x60, 0, true, .bus, 0x12⟩
  else if p = 0x061 then some ⟨0x61, 0, true, .bus, 0x12⟩
  else if p = 0x070 then some ⟨0x70, 0, false, .bus, 0x00020008⟩
  else if 0x078 ≤ p ∧ p ≤ 0x079 then some ⟨0x78, p - 0x78, false, .bus, 8⟩
  else if p = 0x07A then some ⟨0x7A, 0, false, .bus, 0⟩
  else if 0x080 ≤ p ∧ p ≤ 0x087 then some ⟨0x80, p - 0x80, false, .xoide, 0x00480008⟩
  else if p = 0x088 then some ⟨0x88, 0, false, .xoide, 0⟩
  else if p = 0x089 then some ⟨0x89, 0, false, .xoide, 0⟩
  else if 0x08A ≤ p ∧ p ≤ 0x08E then some ⟨0x8A, p - 0x8A, false, .xoide, 8⟩
  else if p = 0x08F then some ⟨0x8F, 0, false, .xoide, 4⟩
  else if p = 0x090 then some ⟨0x90, 0, false, .hervi, 8⟩
  else if p = 0x0A0 then some ⟨0xA0, 0, false, .hervi, 0⟩
  else if p = 0x0A1 then some ⟨0xA1, 0, false, .hervi, 0⟩
  else if p = 0x0A2 then some ⟨0xA2, 0, false, .hervi, 0⟩
  else if p = 0x0B0 then some ⟨0xB0, 0, false, .hervi, 0⟩
  else if p = 0x0B1 then some ⟨0xB1, 0, false, .hervi, 4⟩
  else none

/-- The registers of a page from 100h upward. A page of lane B has the registers of lane A's (R394); the row-wide sensing registers
stand on page 050 alone. -/
def pageRegs (p : Nat) : List RegDesc :=
  if 0x20 ≤ p ∧ p ≤ 0x2F then lanePageRegs (p - 0x10)
  else if 0x51 ≤ p ∧ p ≤ 0x57 then (lanePageRegs p).filter (fun r => r.off = 0x100 || 0x200 ≤ r.off)
  else lanePageRegs p

/-- The register array of a list that holds page offset `o`, with its two indexes. -/
def findReg : List RegDesc → Nat → Option (RegDesc × Nat × Nat)
  | [], _ => none
  | r :: rs, o =>
    let d := o - r.off
    let i := d / r.s1
    let m := d % r.s1
    let j := m / r.s2
    if r.off ≤ o && m % r.s2 == 0 && i < r.n1 && j < r.n2 then some (r, i, j) else findReg rs o

/-- The reset word of a register: its fields' reset values in their places. -/
def fieldsReset : List FieldDesc → Nat
  | [] => 0
  | f :: fs => f.rst * 2 ^ f.lo + fieldsReset fs

/-- R94: type and channel count of a sensor group. -/
def sensGrpType (g : Nat) : Nat := if g < 2 then 0 else if g < 4 then 1 else if g < 6 then 2 else if g = 6 then 3 else 4
def sensGrpCount (g : Nat) : Nat := if g < 2 then 32 else if g = 7 then 8 else 16
/-- R94: the owner of a channel, 0 lane A and 1 lane B. -/
def sensOwner (g n : Nat) : Nat := if g < 6 then g % 2 else if g = 6 then n / 8 else n / 4
/-- R96: the pair a channel belongs to. -/
def sensPairOf (g n : Nat) : Option Nat :=
  if g < 2 ∧ n < 3 then some n else if (g = 2 ∨ g = 3) ∧ n < 2 then some (3 + n)
  else if g = 6 ∧ (n = 0 ∨ n = 8) then some 5 else none
/-- R96: the conservative direction of a pair, 0 higher and 1 lower. -/
def pairDir (k : Nat) : Nat := if k = 1 ∨ k = 5 then 1 else 0
/-- R232: class of channel n (0 I, 1 T) and the rack it serves on bank b. -/
def valveClass (n : Nat) : Nat := n / 4
def valveRack (b n : Nat) : Nat := 4 * (b % 6) + n % 4
/-- R235: shipped PEAK_T and HOLD_T of profile p. -/
def profPeakT (p : Nat) : Nat := if p = 0 then 20 else if p = 1 then 40 else if p = 2 then 6 else 12
def profHoldT (p : Nat) : Nat := if p = 0 then 60 else if p = 1 then 120 else if p = 2 then 24 else 48

/-- Reset words that a rule gives per instance: SENS_GRP, SENS_CH_CFG and SENS_CH_STAT of R94 and R96, VBANK_CH_CFG of R232 and
VBANK_PROF_C of R235. -/
def resetSpecial (p o : Nat) : Option Nat :=
  if 0x50 ≤ p ∧ p ≤ 0x57 then
    let g := p - 0x50
    if o = 0x100 then some (sensGrpType g + 256 * sensGrpCount g)
    else if g = 0 ∧ o = 0x1B4 then some 0x2EE
    else if 0x200 ≤ o ∧ o < 0x280 then
      match sensPairOf g ((o - 0x200) / 4) with
      | some k => some (1 + 8 + 16 * pairDir k)
      | none => some 0
    else if 0x400 ≤ o ∧ o < 0x480 then
      let n := (o - 0x400) / 4
      some (if n < sensGrpCount g then 512 * sensOwner g n else 0)
    else none
  else if 0x30 ≤ p ∧ p ≤ 0x3B then
    let b := p - 0x30
    if 0x200 ≤ o ∧ o < 0x220 then
      let n := (o - 0x200) / 4
      some (1 + 2 * valveClass n + 256 * valveRack b n)
    else if o = 0x128 then some (profPeakT 0 + 256 * profHoldT 0)
    else if o = 0x138 then some (profPeakT 1 + 256 * profHoldT 1)
    else if o = 0x148 then some (profPeakT 2 + 256 * profHoldT 2)
    else if o = 0x158 then some (profPeakT 3 + 256 * profHoldT 3)
    else none
  else none

/-- The reset word of page p, page offset o, in the live set (below 800h or from C00h). -/
def resetLive (p o : Nat) : Nat :=
  match resetSpecial p o with
  | some w => w
  | none =>
    match findReg (pageRegs p) o with
    | some (r, _, _) => fieldsReset r.fields
    | none => 0

/-- Whether a register array has a shadowed field. -/
def RegDesc.shadowed (r : RegDesc) : Bool := r.fields.any (fun f => f.acc == .rws)

/-- The nominal voltage of an operating point, mV (R59). -/
def oppVolt (n : Nat) : Nat := ([850, 810, 770, 730, 690, 660, 630, 600])[n]?.getD 600
/-- The word an unwritten register of the aperture reads as: the spec's reset value; the shadow offsets of R36 start equal to the
live copy; a header word from R27 and the page's PG_CAP. -/
def resetWord (off : Nat) : Word :=
  let p := off / 0x1000
  let o := off % 0x1000
  match pageInfo p with
  | none => 0
  | some i =>
    if o = 0 then BitVec.ofNat 32 (i.type * 65536 + i.inst * 256 + 1)
    else if o = 4 then BitVec.ofNat 32 i.cap
    else if o < 0x100 then 0
    else if p = 0x89 ∧ 0x160 ≤ o ∧ o < 0x180 then BitVec.ofNat 32 (oppVolt ((o - 0x160) / 4) * 65536)
    else if 0x800 ≤ o ∧ o < 0xC00 then
      match findReg (pageRegs p) (o - 0x700) with
      | some (r, _, _) => if r.shadowed then BitVec.ofNat 32 (resetLive p (o - 0x700)) else 0
      | none => 0
    else BitVec.ofNat 32 (resetLive p o)

end Sys2Proof.Machine
end

