-- ==== Sys2Proof/Machine/Fields.lean ====
section
/-! DEFINITION. Every field of the spec's register tables by name: the register's aperture offset, the field's least bit and its
width. An array's fields take the page's instance number `p` (where the block has several pages) and the register's index. -/
namespace Sys2Proof.Machine

def F.SYS_TIME_TICK_TICK : Fld := ⟨0x100, 0, 3⟩
def F.SYS_TIME_TICK_FRAME : Fld := ⟨0x100, 3, 10⟩
def F.SYS_TIME_SEC_SEC : Fld := ⟨0x104, 0, 32⟩
def F.SYS_BUS_ERR_COUNT : Fld := ⟨0x108, 0, 16⟩
def F.SYS_BUS_ERR_CLR : Fld := ⟨0x108, 31, 1⟩
def F.SYS_BUS_ERR_ADDR_ADDR : Fld := ⟨0x10c, 0, 20⟩
def F.SYS_BUS_ERR_ADDR_WRITE : Fld := ⟨0x10c, 31, 1⟩
def F.SYS_TICK_COUNT_COUNT : Fld := ⟨0x110, 0, 32⟩
def F.SYS_MBOX_CMD_GO : Fld := ⟨0x200, 0, 1⟩
def F.SYS_MBOX_CMD_N : Fld := ⟨0x200, 8, 4⟩
def F.SYS_MBOX_CMD_TAG : Fld := ⟨0x200, 16, 16⟩
def F.SYS_MBOX_STAT_BUSY : Fld := ⟨0x204, 0, 1⟩
def F.SYS_MBOX_STAT_DONE : Fld := ⟨0x204, 1, 1⟩
def F.SYS_MBOX_STAT_APPLIED : Fld := ⟨0x204, 2, 1⟩
def F.SYS_MBOX_STAT_FIRST_BAD : Fld := ⟨0x204, 4, 3⟩
def F.SYS_MBOX_STAT_CODE : Fld := ⟨0x204, 8, 4⟩
def F.SYS_MBOX_STAT_TAG : Fld := ⟨0x204, 16, 16⟩
def F.SYS_MBOX_APPLY_TICK_TICK : Fld := ⟨0x208, 0, 32⟩
def F.SYS_MBOX_REPLY_A_ENTRY_0 : Fld := ⟨0x20c, 0, 4⟩
def F.SYS_MBOX_REPLY_A_ENTRY_1 : Fld := ⟨0x20c, 4, 4⟩
def F.SYS_MBOX_REPLY_A_ENTRY_2 : Fld := ⟨0x20c, 8, 4⟩
def F.SYS_MBOX_REPLY_A_ENTRY_3 : Fld := ⟨0x20c, 12, 4⟩
def F.SYS_MBOX_REPLY_A_ENTRY_4 : Fld := ⟨0x20c, 16, 4⟩
def F.SYS_MBOX_REPLY_A_ENTRY_5 : Fld := ⟨0x20c, 20, 4⟩
def F.SYS_MBOX_REPLY_A_ENTRY_6 : Fld := ⟨0x20c, 24, 4⟩
def F.SYS_MBOX_REPLY_A_ENTRY_7 : Fld := ⟨0x20c, 28, 4⟩
def F.SYS_MBOX_REPLY_B_ENTRY_0 : Fld := ⟨0x210, 0, 4⟩
def F.SYS_MBOX_REPLY_B_ENTRY_1 : Fld := ⟨0x210, 4, 4⟩
def F.SYS_MBOX_REPLY_B_ENTRY_2 : Fld := ⟨0x210, 8, 4⟩
def F.SYS_MBOX_REPLY_B_ENTRY_3 : Fld := ⟨0x210, 12, 4⟩
def F.SYS_MBOX_REPLY_B_ENTRY_4 : Fld := ⟨0x210, 16, 4⟩
def F.SYS_MBOX_REPLY_B_ENTRY_5 : Fld := ⟨0x210, 20, 4⟩
def F.SYS_MBOX_REPLY_B_ENTRY_6 : Fld := ⟨0x210, 24, 4⟩
def F.SYS_MBOX_REPLY_B_ENTRY_7 : Fld := ⟨0x210, 28, 4⟩
def F.SYS_MBOX_ADDR_ADDR (n : Nat) : Fld := ⟨0x220 + 0x10 * n, 2, 18⟩
def F.SYS_MBOX_DATA (n : Nat) : Fld := ⟨0x224 + 0x10 * n, 0, 32⟩
def F.SYS_MBOX_MASK_MASK (n : Nat) : Fld := ⟨0x228 + 0x10 * n, 0, 32⟩
def F.CLK_DOM_RUN_LO_RUN : Fld := ⟨0x1100, 0, 32⟩
def F.CLK_DOM_RUN_HI_RUN : Fld := ⟨0x1104, 0, 8⟩
def F.CLK_AON_PTP_LOCK : Fld := ⟨0x1108, 0, 1⟩
def F.CLK_AON_XTAL_ONLY : Fld := ⟨0x1108, 1, 1⟩
def F.CLK_AON_STEER_PPM : Fld := ⟨0x1108, 16, 10⟩
def F.CLK_HERVI_OPP_REQ : Fld := ⟨0x110c, 0, 4⟩
def F.CLK_HERVI_OPP_CUR : Fld := ⟨0x110c, 8, 4⟩
def F.CLK_HERVI_DROOP_THR : Fld := ⟨0x1110, 0, 4⟩
def F.CLK_HERVI_DROOP_EVENTS : Fld := ⟨0x1110, 16, 16⟩
def F.CLK_HERVI_FRAME_DONE_DONE : Fld := ⟨0x1114, 0, 1⟩
def F.CLK_HERVI_THR_THERM_LO : Fld := ⟨0x1120, 0, 32⟩
def F.CLK_HERVI_THR_THERM_HI : Fld := ⟨0x1124, 0, 32⟩
def F.CLK_HERVI_THR_CAP_LO : Fld := ⟨0x1128, 0, 32⟩
def F.CLK_HERVI_THR_CAP_HI : Fld := ⟨0x112c, 0, 32⟩
def F.CLK_HERVI_THR_DROOP_LO : Fld := ⟨0x1130, 0, 32⟩
def F.CLK_HERVI_THR_DROOP_HI : Fld := ⟨0x1134, 0, 32⟩
def F.CLK_HERVI_THR_INRUSH_LO : Fld := ⟨0x1138, 0, 32⟩
def F.CLK_HERVI_THR_INRUSH_HI : Fld := ⟨0x113c, 0, 32⟩
def F.CLK_HERVI_THR_SUPPLY_LO : Fld := ⟨0x1140, 0, 32⟩
def F.CLK_HERVI_THR_SUPPLY_HI : Fld := ⟨0x1144, 0, 32⟩
def F.CLK_HERVI_THR_FRAME_OVERRUN_LO : Fld := ⟨0x1148, 0, 32⟩
def F.CLK_HERVI_THR_FRAME_OVERRUN_HI : Fld := ⟨0x114c, 0, 32⟩
def F.PWR_VIN_A : Fld := ⟨0x2100, 0, 12⟩
def F.PWR_VIN_A_OK : Fld := ⟨0x2100, 12, 1⟩
def F.PWR_VIN_B : Fld := ⟨0x2100, 16, 12⟩
def F.PWR_VIN_B_OK : Fld := ⟨0x2100, 28, 1⟩
def F.PWR_IIN_AMPS : Fld := ⟨0x2104, 0, 12⟩
def F.PWR_SUPPLY_CFG_LOW_TH : Fld := ⟨0x2108, 0, 12⟩
def F.PWR_STAT_SUPPLY_LOW : Fld := ⟨0x210c, 0, 1⟩
def F.PWR_STAT_ONE_FEED : Fld := ⟨0x210c, 1, 1⟩
def F.INRUSH_BUDGET_AMPS : Fld := ⟨0x3100, 0, 11⟩
def F.INRUSH_LEDGER_AMPS : Fld := ⟨0x3104, 0, 11⟩
def F.INRUSH_LEDGER_PEAK : Fld := ⟨0x3104, 16, 11⟩
def F.INRUSH_LEDGER_PEAK_CLR : Fld := ⟨0x3104, 31, 1⟩
def F.INRUSH_PEND_LANE : Fld := ⟨0x3108, 0, 24⟩
def F.INRUSH_BLOCK_CLASS : Fld := ⟨0x310c, 0, 3⟩
def F.INRUSH_BLOCK_HOLD : Fld := ⟨0x310c, 4, 1⟩
def F.INRUSH_BLOCK_OVER : Fld := ⟨0x310c, 5, 1⟩
def F.INRUSH_PUMP_GAP_REMAIN : Fld := ⟨0x3110, 0, 21⟩
def F.INRUSH_BYPASS_COUNT : Fld := ⟨0x3114, 0, 16⟩
def F.INRUSH_WAIT_LO_COUNT : Fld := ⟨0x3118, 0, 32⟩
def F.INRUSH_WAIT_HI_COUNT : Fld := ⟨0x311c, 0, 32⟩
def F.LANE_CLAIM_OWN : Fld := ⟨0x10100, 0, 16⟩
def F.LANE_CLAIM_OTHER : Fld := ⟨0x10100, 16, 16⟩
def F.LANE_STATE_STATE : Fld := ⟨0x10104, 0, 4⟩
def F.LANE_STATE_MERGE : Fld := ⟨0x10104, 4, 1⟩
def F.LANE_STATE_LINK_DOWN : Fld := ⟨0x10104, 5, 1⟩
def F.LANE_STATE_CONSERV : Fld := ⟨0x10104, 6, 1⟩
def F.LANE_STATE_AON_LOST : Fld := ⟨0x10104, 7, 1⟩
def F.LANE_STATE_BOTH_FAIL : Fld := ⟨0x10104, 8, 1⟩
def F.LANE_STATE_ADV_VALID : Fld := ⟨0x10104, 9, 1⟩
def F.LANE_SEQ_SEQ : Fld := ⟨0x10108, 0, 32⟩
def F.LANE_HASH_LO_HASH : Fld := ⟨0x1010c, 0, 32⟩
def F.LANE_HASH_HI_HASH : Fld := ⟨0x10110, 0, 32⟩
def F.LANE_CMP_MISMATCH : Fld := ⟨0x10114, 0, 16⟩
def F.LANE_CMP_EQUAL_RUN : Fld := ⟨0x10114, 16, 14⟩
def F.LANE_SELFTEST_COUNT : Fld := ⟨0x10118, 0, 16⟩
def F.LANE_SELFTEST_FAILS : Fld := ⟨0x10118, 16, 8⟩
def F.LANE_SELFTEST_LAST_ITEM : Fld := ⟨0x10118, 24, 8⟩
def F.LANE_TAKEOVER_GEN : Fld := ⟨0x1011c, 0, 8⟩
def F.LANE_TAKEOVER_CAUSE : Fld := ⟨0x1011c, 8, 2⟩
def F.LANE_TAKEOVER_COUNT : Fld := ⟨0x1011c, 16, 16⟩
def F.LANE_CMD_CMD : Fld := ⟨0x10120, 0, 4⟩
def F.LANE_CMD_RESULT : Fld := ⟨0x10120, 4, 4⟩
def F.LHLTH_ROT_SLICE : Fld := ⟨0x11100, 0, 22⟩
def F.LHLTH_ROT_DONE_COUNT : Fld := ⟨0x11104, 0, 16⟩
def F.LHLTH_ROT_DONE_AGE_S : Fld := ⟨0x11104, 16, 16⟩
def F.LHLTH_ITEMS_FAIL : Fld := ⟨0x11108, 0, 7⟩
def F.LHLTH_STAT_OVERDUE : Fld := ⟨0x1110c, 0, 1⟩
def F.LHLTH_STAT_CLEAR : Fld := ⟨0x1110c, 1, 1⟩
def F.LHLTH_STAT_RESYNC_FAILS : Fld := ⟨0x1110c, 2, 2⟩
def F.LHLTH_LINK_ERR_CRC : Fld := ⟨0x11110, 0, 16⟩
def F.LHLTH_LINK_ERR_MISSING : Fld := ⟨0x11110, 16, 16⟩
def F.LCAL_GEN_GEN : Fld := ⟨0x12100, 0, 32⟩
def F.LCAL_STAT_USER : Fld := ⟨0x12104, 0, 1⟩
def F.LCAL_STAT_PHASE : Fld := ⟨0x12104, 1, 3⟩
def F.LCAL_STAT_FAIL_CODE : Fld := ⟨0x12104, 8, 8⟩
def F.LCAL_STAT_LEN : Fld := ⟨0x12104, 16, 16⟩
def F.LCAL_CMD_CMD : Fld := ⟨0x12108, 0, 4⟩
def F.LCAL_CMD_RESULT : Fld := ⟨0x12108, 4, 4⟩
def F.LCAL_OFF_OFF : Fld := ⟨0x1210c, 2, 11⟩
def F.LCAL_WDATA (n : Nat) : Fld := ⟨0x12110 + 0x4 * n, 0, 32⟩
def F.LCAL_RDATA (n : Nat) : Fld := ⟨0x12130 + 0x4 * n, 0, 32⟩
def F.LENG_CTRL_VIEW : Fld := ⟨0x13100, 0, 1⟩
def F.LENG_BANK_ACTIVE : Fld := ⟨0x13104, 0, 1⟩
def F.LENG_BANK_CHECKED : Fld := ⟨0x13104, 1, 1⟩
def F.LENG_BANK_ARMED : Fld := ⟨0x13104, 2, 1⟩
def F.LENG_BANK_BAD_CODE : Fld := ⟨0x13104, 8, 4⟩
def F.LENG_BANK_BAD_LOOP : Fld := ⟨0x13104, 16, 6⟩
def F.LENG_BANK_CMD_CMD : Fld := ⟨0x13108, 0, 4⟩
def F.LENG_BANK_CMD_RESULT : Fld := ⟨0x13108, 4, 4⟩
def F.LENG_SWAP_TICK : Fld := ⟨0x1310c, 0, 32⟩
def F.LENG_SWAP_CRC : Fld := ⟨0x13110, 0, 32⟩
def F.LENG_BANK_CRC : Fld := ⟨0x13114, 0, 32⟩
def F.LENG_SWAP_COUNT : Fld := ⟨0x13118, 0, 32⟩
def F.LENG_LUT_PTR_IDX : Fld := ⟨0x13120, 0, 6⟩
def F.LENG_LUT_PTR_LOOP : Fld := ⟨0x13120, 16, 6⟩
def F.LENG_LUT_PTR_INC : Fld := ⟨0x13120, 31, 1⟩
def F.LENG_LUT_X : Fld := ⟨0x13124, 0, 32⟩
def F.LENG_LUT_G : Fld := ⟨0x13128, 0, 32⟩
def F.LENG_LUT_S : Fld := ⟨0x1312c, 0, 32⟩
def F.LENG_FE_TRIP_LO_TRIP : Fld := ⟨0x13130, 0, 32⟩
def F.LENG_FE_TRIP_HI_TRIP : Fld := ⟨0x13134, 0, 32⟩
def F.LENG_FE_CLR_LO_CLR : Fld := ⟨0x13138, 0, 32⟩
def F.LENG_FE_CLR_HI_CLR : Fld := ⟨0x1313c, 0, 32⟩
def F.LENG_TRC_SRC_LOOP (n : Nat) : Fld := ⟨0x13c00 + 0x4 * n, 0, 6⟩
def F.LENG_TRC_SRC_SIG (n : Nat) : Fld := ⟨0x13c00 + 0x4 * n, 8, 3⟩
def F.LENG_TRC_SRC_EN (n : Nat) : Fld := ⟨0x13c00 + 0x4 * n, 15, 1⟩
def F.LENG_TRC_TRIG_KIND : Fld := ⟨0x13c20, 0, 3⟩
def F.LENG_TRC_TRIG_CH : Fld := ⟨0x13c20, 4, 3⟩
def F.LENG_TRC_TRIG_SLOPE : Fld := ⟨0x13c20, 7, 1⟩
def F.LENG_TRC_TRIG_LOOP : Fld := ⟨0x13c20, 8, 6⟩
def F.LENG_TRC_LEVEL_LEVEL : Fld := ⟨0x13c24, 0, 32⟩
def F.LENG_TRC_CTRL_CMD : Fld := ⟨0x13c28, 0, 4⟩
def F.LENG_TRC_CTRL_PRE : Fld := ⟨0x13c28, 16, 12⟩
def F.LENG_TRC_STAT_STATE : Fld := ⟨0x13c2c, 0, 2⟩
def F.LENG_TRC_T_TICK : Fld := ⟨0x13c30, 0, 32⟩
def F.LENG_TRC_RD_CH : Fld := ⟨0x13c38, 0, 3⟩
def F.LENG_TRC_RD_AUTO : Fld := ⟨0x13c38, 3, 1⟩
def F.LENG_TRC_RD_BLK : Fld := ⟨0x13c38, 6, 6⟩
def F.LENG_TRC_RD_POS_CH : Fld := ⟨0x13c3c, 0, 3⟩
def F.LENG_TRC_RD_POS_BLK : Fld := ⟨0x13c3c, 6, 6⟩
def F.LENG_TRC_DATA_SAMPLE (n : Nat) : Fld := ⟨0x13d00 + 0x4 * n, 0, 32⟩
def F.LOOP_SP (p n : Nat) : Fld := ⟨0x14100 + 0x1000 * p + 0x4 * n, 0, 32⟩
def F.LOOP_MAN_OUT (p n : Nat) : Fld := ⟨0x14140 + 0x1000 * p + 0x4 * n, 0, 32⟩
def F.LOOP_CFG_DIR (p n : Nat) : Fld := ⟨0x14180 + 0x1000 * p + 0x60 * n, 0, 1⟩
def F.LOOP_CFG_DEST_TYPE (p n : Nat) : Fld := ⟨0x14180 + 0x1000 * p + 0x60 * n, 1, 2⟩
def F.LOOP_CFG_LUT_EN (p n : Nat) : Fld := ⟨0x14180 + 0x1000 * p + 0x60 * n, 3, 1⟩
def F.LOOP_CFG_BUMPLESS (p n : Nat) : Fld := ⟨0x14180 + 0x1000 * p + 0x60 * n, 4, 1⟩
def F.LOOP_CFG_AW (p n : Nat) : Fld := ⟨0x14180 + 0x1000 * p + 0x60 * n, 5, 1⟩
def F.LOOP_CFG_DEST (p n : Nat) : Fld := ⟨0x14180 + 0x1000 * p + 0x60 * n, 8, 6⟩
def F.LOOP_CFG_DIV_LOG2 (p n : Nat) : Fld := ⟨0x14180 + 0x1000 * p + 0x60 * n, 16, 4⟩
def F.LOOP_CFG_LUT_N (p n : Nat) : Fld := ⟨0x14180 + 0x1000 * p + 0x60 * n, 24, 7⟩
def F.LOOP_SRC_PV_SRC (p n : Nat) : Fld := ⟨0x14184 + 0x1000 * p + 0x60 * n, 0, 16⟩
def F.LOOP_SRC_SP_SRC (p n : Nat) : Fld := ⟨0x14184 + 0x1000 * p + 0x60 * n, 16, 16⟩
def F.LOOP_FFSRC_FF_SRC (p n : Nat) : Fld := ⟨0x14188 + 0x1000 * p + 0x60 * n, 0, 16⟩
def F.LOOP_FFSRC_PHASE (p n : Nat) : Fld := ⟨0x14188 + 0x1000 * p + 0x60 * n, 16, 10⟩
def F.LOOP_SHIFT_SBP (p n : Nat) : Fld := ⟨0x1418c + 0x1000 * p + 0x60 * n, 0, 5⟩
def F.LOOP_SHIFT_KP_SH (p n : Nat) : Fld := ⟨0x1418c + 0x1000 * p + 0x60 * n, 5, 5⟩
def F.LOOP_SHIFT_KI_SH (p n : Nat) : Fld := ⟨0x1418c + 0x1000 * p + 0x60 * n, 10, 5⟩
def F.LOOP_SHIFT_KD_SH (p n : Nat) : Fld := ⟨0x1418c + 0x1000 * p + 0x60 * n, 15, 5⟩
def F.LOOP_SHIFT_KF_SH (p n : Nat) : Fld := ⟨0x1418c + 0x1000 * p + 0x60 * n, 20, 5⟩
def F.LOOP_KP (p n : Nat) : Fld := ⟨0x14190 + 0x1000 * p + 0x60 * n, 0, 32⟩
def F.LOOP_KI (p n : Nat) : Fld := ⟨0x14194 + 0x1000 * p + 0x60 * n, 0, 32⟩
def F.LOOP_KD (p n : Nat) : Fld := ⟨0x14198 + 0x1000 * p + 0x60 * n, 0, 32⟩
def F.LOOP_KF (p n : Nat) : Fld := ⟨0x1419c + 0x1000 * p + 0x60 * n, 0, 32⟩
def F.LOOP_I_MIN (p n : Nat) : Fld := ⟨0x141a0 + 0x1000 * p + 0x60 * n, 0, 32⟩
def F.LOOP_I_MAX (p n : Nat) : Fld := ⟨0x141a4 + 0x1000 * p + 0x60 * n, 0, 32⟩
def F.LOOP_OUT_MIN (p n : Nat) : Fld := ⟨0x141a8 + 0x1000 * p + 0x60 * n, 0, 32⟩
def F.LOOP_OUT_MAX (p n : Nat) : Fld := ⟨0x141ac + 0x1000 * p + 0x60 * n, 0, 32⟩
def F.LOOP_OUT_SLEW (p n : Nat) : Fld := ⟨0x141b0 + 0x1000 * p + 0x60 * n, 0, 32⟩
def F.LOOP_DEADBAND (p n : Nat) : Fld := ⟨0x141b4 + 0x1000 * p + 0x60 * n, 0, 32⟩
def F.LOOP_FE_LIM (p n : Nat) : Fld := ⟨0x141b8 + 0x1000 * p + 0x60 * n, 0, 32⟩
def F.LOOP_FE_CTL_TICKS (p n : Nat) : Fld := ⟨0x141bc + 0x1000 * p + 0x60 * n, 0, 16⟩
def F.LOOP_FE_CTL_ACT (p n : Nat) : Fld := ⟨0x141bc + 0x1000 * p + 0x60 * n, 16, 2⟩
def F.LOOP_OUT_SAFE (p n : Nat) : Fld := ⟨0x141c0 + 0x1000 * p + 0x60 * n, 0, 32⟩
def F.LOOP_FF_CONS (p n : Nat) : Fld := ⟨0x141c4 + 0x1000 * p + 0x60 * n, 0, 32⟩
def F.LOOP_MODE_MODE (p n : Nat) : Fld := ⟨0x141c8 + 0x1000 * p + 0x60 * n, 0, 3⟩
def F.LOOP_OUT (p n : Nat) : Fld := ⟨0x141cc + 0x1000 * p + 0x60 * n, 0, 32⟩
def F.LOOP_I (p n : Nat) : Fld := ⟨0x141d0 + 0x1000 * p + 0x60 * n, 0, 32⟩
def F.LOOP_ERR (p n : Nat) : Fld := ⟨0x141d4 + 0x1000 * p + 0x60 * n, 0, 32⟩
def F.LOOP_PV (p n : Nat) : Fld := ⟨0x141d8 + 0x1000 * p + 0x60 * n, 0, 32⟩
def F.LOOP_STAT_PATH (p n : Nat) : Fld := ⟨0x141dc + 0x1000 * p + 0x60 * n, 0, 2⟩
def F.LOOP_STAT_RAN (p n : Nat) : Fld := ⟨0x141dc + 0x1000 * p + 0x60 * n, 2, 1⟩
def F.LOOP_STAT_SAT (p n : Nat) : Fld := ⟨0x141dc + 0x1000 * p + 0x60 * n, 3, 1⟩
def F.LOOP_STAT_I_CLAMP (p n : Nat) : Fld := ⟨0x141dc + 0x1000 * p + 0x60 * n, 4, 1⟩
def F.LOOP_STAT_OUT_CLAMP (p n : Nat) : Fld := ⟨0x141dc + 0x1000 * p + 0x60 * n, 5, 1⟩
def F.LOOP_STAT_SLEW (p n : Nat) : Fld := ⟨0x141dc + 0x1000 * p + 0x60 * n, 6, 1⟩
def F.LOOP_STAT_PV_LOST (p n : Nat) : Fld := ⟨0x141dc + 0x1000 * p + 0x60 * n, 7, 1⟩
def F.LOOP_STAT_OVERRIDDEN (p n : Nat) : Fld := ⟨0x141dc + 0x1000 * p + 0x60 * n, 8, 1⟩
def F.LOOP_STAT_FE_TRIP (p n : Nat) : Fld := ⟨0x141dc + 0x1000 * p + 0x60 * n, 9, 1⟩
def F.LOOP_STAT_EFF_MODE (p n : Nat) : Fld := ⟨0x141dc + 0x1000 * p + 0x60 * n, 12, 3⟩
def F.LOOP_STAT_FE_CNT (p n : Nat) : Fld := ⟨0x141dc + 0x1000 * p + 0x60 * n, 16, 16⟩
def F.PROT_FLOW_NODE : Fld := ⟨0x18100, 0, 6⟩
def F.PROT_FLOW_QMIN : Fld := ⟨0x18100, 16, 16⟩
def F.PROT_DECL_SLOPE : Fld := ⟨0x18104, 0, 8⟩
def F.PROT_DECL_RISE : Fld := ⟨0x18104, 8, 8⟩
def F.PROT_DECL_NPKG : Fld := ⟨0x18104, 16, 12⟩
def F.PROT_DECL2_DOWN : Fld := ⟨0x18108, 0, 16⟩
def F.PROT_PRESS_HI : Fld := ⟨0x1810c, 0, 16⟩
def F.PROT_PRESS_MAX : Fld := ⟨0x1810c, 16, 16⟩
def F.PROT_PRESS2_HYST : Fld := ⟨0x18110, 0, 16⟩
def F.PROT_TEMP_SUP_MAX : Fld := ⟨0x18114, 0, 8⟩
def F.PROT_TEMP_TSUP_LOST : Fld := ⟨0x18114, 8, 8⟩
def F.PROT_DEW_LOOP : Fld := ⟨0x18118, 0, 6⟩
def F.PROT_DEW_STEP : Fld := ⟨0x18118, 8, 8⟩
def F.PROT_LEAK_STUCK_DUTY : Fld := ⟨0x1811c, 0, 14⟩
def F.PROT_CMD_CMD : Fld := ⟨0x18120, 0, 4⟩
def F.PROT_CMD_RESULT : Fld := ⟨0x18120, 4, 4⟩
def F.PROT_CMD_RACK : Fld := ⟨0x18120, 8, 5⟩
def F.PROT_CMD_RACKS_RACKS : Fld := ⟨0x18124, 0, 24⟩
def F.PROT_STAT_FLOW_STOP : Fld := ⟨0x18140, 0, 1⟩
def F.PROT_STAT_FLOW_DECL : Fld := ⟨0x18140, 1, 1⟩
def F.PROT_STAT_PRESS_HI : Fld := ⟨0x18140, 2, 1⟩
def F.PROT_STAT_PRESS_MAX : Fld := ⟨0x18140, 3, 1⟩
def F.PROT_STAT_SUP_OVER : Fld := ⟨0x18140, 4, 1⟩
def F.PROT_STAT_DEW_OVR : Fld := ⟨0x18140, 5, 1⟩
def F.PROT_STAT_DEW_BREACH : Fld := ⟨0x18140, 6, 1⟩
def F.PROT_STAT_HOLDUP : Fld := ⟨0x18140, 7, 1⟩
def F.PROT_STAT_ONE_FEED : Fld := ⟨0x18140, 8, 1⟩
def F.PROT_STAT_STUCK : Fld := ⟨0x18140, 9, 1⟩
def F.PROT_STAT_OP_HABOOB : Fld := ⟨0x18140, 10, 1⟩
def F.PROT_STAT_CDU_LEAK : Fld := ⟨0x18140, 11, 1⟩
def F.PROT_STAT_SHUT_TIMER : Fld := ⟨0x18140, 16, 16⟩
def F.PROT_ISO_RACKS : Fld := ⟨0x18144, 0, 24⟩
def F.PROT_BLIND_RACKS : Fld := ⟨0x18148, 0, 24⟩
def F.PROT_FLOW_STAT_QCMD : Fld := ⟨0x1814c, 0, 16⟩
def F.PROT_FLOW_STAT_RUN : Fld := ⟨0x1814c, 16, 6⟩
def F.PROT_HOLDUP_TICKS : Fld := ⟨0x18150, 0, 9⟩
def F.PROT_HOLDUP_COUNT : Fld := ⟨0x18150, 16, 16⟩
def F.PROT_OFF_EP_COUNT : Fld := ⟨0x18154, 0, 12⟩
def F.LSEC_STAT_WIN : Fld := ⟨0x19100, 0, 1⟩
def F.LSEC_STAT_WIN_OWN : Fld := ⟨0x19100, 1, 1⟩
def F.LSEC_STAT_DISAGREE : Fld := ⟨0x19100, 2, 1⟩
def F.LSEC_STAT_TAMPER : Fld := ⟨0x19100, 3, 1⟩
def F.LSEC_STAT_BANK : Fld := ⟨0x19100, 4, 1⟩
def F.LSEC_STAT_BANK_REFUSED : Fld := ⟨0x19100, 5, 1⟩
def F.LSEC_STAT_DBG_OPEN : Fld := ⟨0x19100, 6, 1⟩
def F.LSEC_STAT_PDBG_OPEN : Fld := ⟨0x19100, 7, 1⟩
def F.LSEC_STAT_SVN : Fld := ⟨0x19100, 8, 7⟩
def F.LSEC_STAT_RESULT : Fld := ⟨0x19100, 16, 4⟩
def F.LSEC_CMD_CMD : Fld := ⟨0x19104, 0, 4⟩
def F.LSEC_CMD_TARGET : Fld := ⟨0x19104, 4, 2⟩
def F.LSEC_NONCE (n : Nat) : Fld := ⟨0x19120 + 0x4 * n, 0, 32⟩
def F.LSEC_MEAS (n : Nat) : Fld := ⟨0x19140 + 0x4 * n, 0, 32⟩
def F.LSEC_SIG (n : Nat) : Fld := ⟨0x19200 + 0x4 * n, 0, 32⟩
def F.LSEC_PSIG (n : Nat) : Fld := ⟨0x19400 + 0x4 * n, 0, 32⟩
def F.LREC_STAT_UNDELIV : Fld := ⟨0x1a100, 0, 13⟩
def F.LREC_STAT_OPEN : Fld := ⟨0x1a100, 16, 7⟩
def F.LREC_LSEQ_SH_NUM : Fld := ⟨0x1a104, 0, 30⟩
def F.LREC_LSEQ_OWN_NUM : Fld := ⟨0x1a108, 0, 30⟩
def F.LREC_SH_COUNT (n : Nat) : Fld := ⟨0x1a140 + 0x4 * n, 0, 32⟩
def F.LREC_OWN_COUNT (n : Nat) : Fld := ⟨0x1a160 + 0x4 * n, 0, 32⟩
def F.LREC_LOST_COUNT (n : Nat) : Fld := ⟨0x1a180 + 0x4 * n, 0, 32⟩
def F.LUPD_STAT_RUN_BANK : Fld := ⟨0x1b100, 0, 1⟩
def F.LUPD_STAT_PHASE : Fld := ⟨0x1b100, 1, 3⟩
def F.LUPD_STAT_FAIL_CODE : Fld := ⟨0x1b100, 8, 8⟩
def F.LUPD_STAT_SVN : Fld := ⟨0x1b100, 16, 7⟩
def F.LUPD_CMD_CMD : Fld := ⟨0x1b104, 0, 4⟩
def F.LUPD_CMD_RESULT : Fld := ⟨0x1b104, 4, 4⟩
def F.LUPD_OFF_OFF : Fld := ⟨0x1b108, 2, 20⟩
def F.LUPD_WDATA (n : Nat) : Fld := ⟨0x1b10c + 0x4 * n, 0, 32⟩
def F.TWIN_STAT_ROLE : Fld := ⟨0x1c100, 0, 3⟩
def F.TWIN_STAT_SLOT : Fld := ⟨0x1c100, 3, 1⟩
def F.TWIN_STAT_PEER_OWN : Fld := ⟨0x1c100, 4, 1⟩
def F.TWIN_STAT_PATH_OK : Fld := ⟨0x1c100, 5, 1⟩
def F.TWIN_STAT_PEER_NODE : Fld := ⟨0x1c100, 8, 6⟩
def F.TWIN_STAT_EQ_RUN : Fld := ⟨0x1c100, 16, 14⟩
def F.TWIN_CMD_CMD : Fld := ⟨0x1c104, 0, 4⟩
def F.TWIN_CMD_RESULT : Fld := ⟨0x1c104, 4, 4⟩
def F.TWIN_B_SEQ_SEQ : Fld := ⟨0x1c108, 0, 32⟩
def F.VBANK_STAT_RAIL (p : Nat) : Fld := ⟨0x30100 + 0x1000 * p, 0, 10⟩
def F.VBANK_STAT_READY (p : Nat) : Fld := ⟨0x30100 + 0x1000 * p, 10, 1⟩
def F.VBANK_STAT_RECHARGE (p : Nat) : Fld := ⟨0x30100 + 0x1000 * p, 11, 1⟩
def F.VBANK_STAT_ACTIVE_CH (p : Nat) : Fld := ⟨0x30100 + 0x1000 * p, 12, 3⟩
def F.VBANK_STAT_ACTIVE (p : Nat) : Fld := ⟨0x30100 + 0x1000 * p, 15, 1⟩
def F.VBANK_STAT_HOLD_SUM (p : Nat) : Fld := ⟨0x30100 + 0x1000 * p, 16, 9⟩
def F.VBANK_STAT_WAITING (p : Nat) : Fld := ⟨0x30100 + 0x1000 * p, 25, 4⟩
def F.VBANK_RAIL_CFG_BOOST_MIN (p : Nat) : Fld := ⟨0x30104 + 0x1000 * p, 0, 8⟩
def F.VBANK_CNT_IGNORED (p : Nat) : Fld := ⟨0x30108 + 0x1000 * p, 0, 16⟩
def F.VBANK_CNT_REFUSED (p : Nat) : Fld := ⟨0x30108 + 0x1000 * p, 16, 16⟩
def F.VBANK_LAST_REF_CH (p : Nat) : Fld := ⟨0x3010c + 0x1000 * p, 0, 3⟩
def F.VBANK_LAST_REF_CAUSE (p : Nat) : Fld := ⟨0x3010c + 0x1000 * p, 4, 4⟩
def F.VBANK_LAST_REF_TICK (p : Nat) : Fld := ⟨0x3010c + 0x1000 * p, 8, 24⟩
def F.VBANK_PROF_A_BOOST_I (p n : Nat) : Fld := ⟨0x30120 + 0x1000 * p + 0x10 * n, 0, 10⟩
def F.VBANK_PROF_A_BOOST_T (p n : Nat) : Fld := ⟨0x30120 + 0x1000 * p + 0x10 * n, 16, 8⟩
def F.VBANK_PROF_B_PEAK_I (p n : Nat) : Fld := ⟨0x30124 + 0x1000 * p + 0x10 * n, 0, 10⟩
def F.VBANK_PROF_B_HOLD_I (p n : Nat) : Fld := ⟨0x30124 + 0x1000 * p + 0x10 * n, 10, 10⟩
def F.VBANK_PROF_C_PEAK_T (p n : Nat) : Fld := ⟨0x30128 + 0x1000 * p + 0x10 * n, 0, 8⟩
def F.VBANK_PROF_C_HOLD_T (p n : Nat) : Fld := ⟨0x30128 + 0x1000 * p + 0x10 * n, 8, 8⟩
def F.VBANK_CH_CFG_EN (p n : Nat) : Fld := ⟨0x30200 + 0x1000 * p + 0x4 * n, 0, 1⟩
def F.VBANK_CH_CFG_CLASS (p n : Nat) : Fld := ⟨0x30200 + 0x1000 * p + 0x4 * n, 1, 1⟩
def F.VBANK_CH_CFG_RACK (p n : Nat) : Fld := ⟨0x30200 + 0x1000 * p + 0x4 * n, 8, 5⟩
def F.VBANK_CH_STAT_STAT (p n : Nat) : Fld := ⟨0x30220 + 0x1000 * p + 0x4 * n, 0, 8⟩
def F.VBANK_CH_STAT_CMD_ID (p n : Nat) : Fld := ⟨0x30220 + 0x1000 * p + 0x4 * n, 8, 8⟩
def F.VBANK_CH_STAT_RESULT (p n : Nat) : Fld := ⟨0x30220 + 0x1000 * p + 0x4 * n, 16, 4⟩
def F.VBANK_CH_STAT_DIAG (p n : Nat) : Fld := ⟨0x30220 + 0x1000 * p + 0x4 * n, 20, 4⟩
def F.VBANK_CH_STAT_IGN_ID (p n : Nat) : Fld := ⟨0x30220 + 0x1000 * p + 0x4 * n, 24, 8⟩
def F.VBANK_CH_TIME_MOVE_T (p n : Nat) : Fld := ⟨0x30240 + 0x1000 * p + 0x4 * n, 0, 16⟩
def F.VBANK_CH_TIME_TTP (p n : Nat) : Fld := ⟨0x30240 + 0x1000 * p + 0x4 * n, 16, 8⟩
def F.VBANK_CH_STROKES_COUNT (p n : Nat) : Fld := ⟨0x30260 + 0x1000 * p + 0x4 * n, 0, 32⟩
def F.VBANK_CH_CLR_CLR (p : Nat) : Fld := ⟨0x30280 + 0x1000 * p, 0, 8⟩
def F.VBANK_POS_SET_CH (p : Nat) : Fld := ⟨0x30284 + 0x1000 * p, 0, 3⟩
def F.VBANK_POS_SET_POS (p : Nat) : Fld := ⟨0x30284 + 0x1000 * p, 4, 2⟩
def F.VBANK_POS_SET_GO (p : Nat) : Fld := ⟨0x30284 + 0x1000 * p, 8, 1⟩
def F.FANG_CFG_MIN_DUTY (p : Nat) : Fld := ⟨0x40100 + 0x1000 * p, 0, 14⟩
def F.FANG_CFG_RAISE (p : Nat) : Fld := ⟨0x40100 + 0x1000 * p, 16, 14⟩
def F.FANG_CUR_NORM_LO (p : Nat) : Fld := ⟨0x40104 + 0x1000 * p, 0, 8⟩
def F.FANG_CUR_NORM_HI (p : Nat) : Fld := ⟨0x40104 + 0x1000 * p, 8, 8⟩
def F.FANG_STAT_RUN (p : Nat) : Fld := ⟨0x40108 + 0x1000 * p, 0, 5⟩
def F.FANG_STAT_BLOCKED (p : Nat) : Fld := ⟨0x40108 + 0x1000 * p, 5, 5⟩
def F.FANG_STAT_TACH_LOST (p : Nat) : Fld := ⟨0x40108 + 0x1000 * p, 10, 5⟩
def F.FANG_STAT_RAISED (p : Nat) : Fld := ⟨0x40108 + 0x1000 * p, 15, 1⟩
def F.FANG_STAT_WDOG (p : Nat) : Fld := ⟨0x40108 + 0x1000 * p, 16, 1⟩
def F.FAN_CLR_CLR (p : Nat) : Fld := ⟨0x4010c + 0x1000 * p, 0, 16⟩
def F.FAN_CH_CFG_EN (p n : Nat) : Fld := ⟨0x40200 + 0x1000 * p + 0x4 * n, 0, 1⟩
def F.FAN_CH_STAT_STATE (p n : Nat) : Fld := ⟨0x40240 + 0x1000 * p + 0x4 * n, 0, 3⟩
def F.FAN_CH_STAT_KICK (p n : Nat) : Fld := ⟨0x40240 + 0x1000 * p + 0x4 * n, 3, 2⟩
def F.FAN_CH_STAT_SLOW (p n : Nat) : Fld := ⟨0x40240 + 0x1000 * p + 0x4 * n, 5, 1⟩
def F.FAN_CH_STAT_BLOCKED (p n : Nat) : Fld := ⟨0x40240 + 0x1000 * p + 0x4 * n, 6, 1⟩
def F.FAN_CH_STAT_RPM (p n : Nat) : Fld := ⟨0x40240 + 0x1000 * p + 0x4 * n, 16, 16⟩
def F.FAN_CH_OUT_DUTY (p n : Nat) : Fld := ⟨0x40280 + 0x1000 * p + 0x4 * n, 0, 14⟩
def F.FAN_CH_OUT_CUR (p n : Nat) : Fld := ⟨0x40280 + 0x1000 * p + 0x4 * n, 16, 8⟩
def F.FAN_SKIP_LO (p n k : Nat) : Fld := ⟨0x40300 + 0x1000 * p + 0x10 * n + 0x4 * k, 0, 14⟩
def F.FAN_SKIP_HI (p n k : Nat) : Fld := ⟨0x40300 + 0x1000 * p + 0x10 * n + 0x4 * k, 16, 14⟩
def F.FAN_SKIP_EN (p n k : Nat) : Fld := ⟨0x40300 + 0x1000 * p + 0x10 * n + 0x4 * k, 31, 1⟩
def F.PUMP_CFG_STANDBY : Fld := ⟨0x48100, 0, 2⟩
def F.PUMP_START_RUN_RPM : Fld := ⟨0x48104, 0, 16⟩
def F.PUMP_START_TIME : Fld := ⟨0x48104, 16, 8⟩
def F.PUMP_DRY_INLET : Fld := ⟨0x48108, 0, 16⟩
def F.PUMP_DRY_PCT : Fld := ⟨0x48108, 16, 8⟩
def F.PUMP_RATED_RPM : Fld := ⟨0x4810c, 0, 16⟩
def F.PUMP_RATED_P : Fld := ⟨0x4810c, 16, 16⟩
def F.PUMP_DRY_CLR_CLR : Fld := ⟨0x48110, 0, 4⟩
def F.PUMP_MB_CMD_PUMP : Fld := ⟨0x48114, 0, 2⟩
def F.PUMP_MB_CMD_CMD : Fld := ⟨0x48114, 2, 2⟩
def F.PUMP_MB_CMD_RESULT : Fld := ⟨0x48114, 4, 4⟩
def F.PUMP_MB_CMD_LOSS_MS : Fld := ⟨0x48114, 16, 9⟩
def F.PUMP_MB_WR_REG : Fld := ⟨0x48118, 0, 16⟩
def F.PUMP_MB_WR_VALUE : Fld := ⟨0x48118, 16, 16⟩
def F.PUMP_CH_CTRL_EN (n : Nat) : Fld := ⟨0x48200 + 0x10 * n, 0, 1⟩
def F.PUMP_CH_CTRL_PPR (n : Nat) : Fld := ⟨0x48200 + 0x10 * n, 4, 3⟩
def F.PUMP_CH_STAT_STATE (n : Nat) : Fld := ⟨0x48204 + 0x10 * n, 0, 4⟩
def F.PUMP_CH_STAT_PEND (n : Nat) : Fld := ⟨0x48204 + 0x10 * n, 4, 1⟩
def F.PUMP_CH_STAT_TACH_LOST (n : Nat) : Fld := ⟨0x48204 + 0x10 * n, 5, 1⟩
def F.PUMP_CH_STAT_MB_LOST (n : Nat) : Fld := ⟨0x48204 + 0x10 * n, 6, 1⟩
def F.PUMP_CH_STAT_LOSS_CFG_BAD (n : Nat) : Fld := ⟨0x48204 + 0x10 * n, 7, 1⟩
def F.PUMP_CH_STAT_DRY (n : Nat) : Fld := ⟨0x48204 + 0x10 * n, 8, 1⟩
def F.PUMP_CH_STAT_DUTY (n : Nat) : Fld := ⟨0x48204 + 0x10 * n, 16, 14⟩
def F.PUMP_CH_SPEED_TACH (n : Nat) : Fld := ⟨0x48208 + 0x10 * n, 0, 16⟩
def F.PUMP_CH_SPEED_MB (n : Nat) : Fld := ⟨0x48208 + 0x10 * n, 16, 16⟩
def F.PUMP_CH_MB_POWER (n : Nat) : Fld := ⟨0x4820c + 0x10 * n, 0, 16⟩
def F.PUMP_CH_MB_FAULT (n : Nat) : Fld := ⟨0x4820c + 0x10 * n, 16, 8⟩
def F.PUMP_CH_MB_AGE (n : Nat) : Fld := ⟨0x4820c + 0x10 * n, 24, 8⟩
def F.SENS_GRP_TYPE (p : Nat) : Fld := ⟨0x50100 + 0x1000 * p, 0, 4⟩
def F.SENS_GRP_COUNT (p : Nat) : Fld := ⟨0x50100 + 0x1000 * p, 8, 6⟩
def F.SENS_HS_BAND (p : Nat) : Fld := ⟨0x50180 + 0x1000 * p, 0, 8⟩
def F.SENS_HS_STEP (p : Nat) : Fld := ⟨0x50180 + 0x1000 * p, 8, 8⟩
def F.SENS_HS_THETA_THETA (p : Nat) : Fld := ⟨0x50184 + 0x1000 * p, 0, 16⟩
def F.SENS_HS_STAT_SUSPECT_PKG (p : Nat) : Fld := ⟨0x50188 + 0x1000 * p, 0, 12⟩
def F.SENS_HS_STAT_MISSING_PKG (p : Nat) : Fld := ⟨0x50188 + 0x1000 * p, 16, 12⟩
def F.SENS_DEW_MARGIN (p : Nat) : Fld := ⟨0x5018c + 0x1000 * p, 0, 8⟩
def F.SENS_DEW_FIXED (p : Nat) : Fld := ⟨0x5018c + 0x1000 * p, 8, 8⟩
def F.SENS_DEW_STAT_MAX (p : Nat) : Fld := ⟨0x50190 + 0x1000 * p, 0, 16⟩
def F.SENS_DEW_STAT_VALID (p : Nat) : Fld := ⟨0x50190 + 0x1000 * p, 16, 4⟩
def F.SENS_DEW_STAT_FIXED_USED (p : Nat) : Fld := ⟨0x50190 + 0x1000 * p, 20, 1⟩
def F.SENS_DEW_FLOOR_FLOOR (p : Nat) : Fld := ⟨0x50194 + 0x1000 * p, 0, 16⟩
def F.SENS_DEW_FLOOR_VERDICT (p : Nat) : Fld := ⟨0x50194 + 0x1000 * p, 16, 1⟩
def F.SENS_PAIR_BAND (p n : Nat) : Fld := ⟨0x501a0 + 0x1000 * p + 0x4 * n, 0, 16⟩
def F.SENS_PAIR_SUSPECT (p n : Nat) : Fld := ⟨0x501a0 + 0x1000 * p + 0x4 * n, 16, 1⟩
def F.SENS_PAIR_LOST (p n : Nat) : Fld := ⟨0x501a0 + 0x1000 * p + 0x4 * n, 17, 1⟩
def F.SENS_PAIR_USED (p n : Nat) : Fld := ⟨0x501a0 + 0x1000 * p + 0x4 * n, 18, 1⟩
def F.SENS_CAL_CMD_CMD (p : Nat) : Fld := ⟨0x501c0 + 0x1000 * p, 0, 4⟩
def F.SENS_CAL_CMD_RESULT (p : Nat) : Fld := ⟨0x501c0 + 0x1000 * p, 4, 4⟩
def F.SENS_CAL_CMD_GROUP (p : Nat) : Fld := ⟨0x501c0 + 0x1000 * p, 8, 3⟩
def F.SENS_CAL_CMD_CH (p : Nat) : Fld := ⟨0x501c0 + 0x1000 * p, 16, 5⟩
def F.SENS_CAL_OFS_OWN (p : Nat) : Fld := ⟨0x501c4 + 0x1000 * p, 0, 32⟩
def F.SENS_CAL_GAIN_OWN (p : Nat) : Fld := ⟨0x501c8 + 0x1000 * p, 0, 32⟩
def F.SENS_CAL_OFS_X (p : Nat) : Fld := ⟨0x501cc + 0x1000 * p, 0, 32⟩
def F.SENS_CAL_GAIN_X (p : Nat) : Fld := ⟨0x501d0 + 0x1000 * p, 0, 32⟩
def F.SENS_LEAK_CLR_CLR (p : Nat) : Fld := ⟨0x501d4 + 0x1000 * p, 0, 32⟩
def F.SENS_CH_CFG_EN (p n : Nat) : Fld := ⟨0x50200 + 0x1000 * p + 0x4 * n, 0, 1⟩
def F.SENS_CH_CFG_MODE (p n : Nat) : Fld := ⟨0x50200 + 0x1000 * p + 0x4 * n, 1, 2⟩
def F.SENS_CH_CFG_SAFETY (p n : Nat) : Fld := ⟨0x50200 + 0x1000 * p + 0x4 * n, 3, 1⟩
def F.SENS_CH_CFG_DIR (p n : Nat) : Fld := ⟨0x50200 + 0x1000 * p + 0x4 * n, 4, 1⟩
def F.SENS_CH_LO (p n : Nat) : Fld := ⟨0x50280 + 0x1000 * p + 0x4 * n, 0, 32⟩
def F.SENS_CH_HI (p n : Nat) : Fld := ⟨0x50300 + 0x1000 * p + 0x4 * n, 0, 32⟩
def F.SENS_CH_VAL (p n : Nat) : Fld := ⟨0x50380 + 0x1000 * p + 0x4 * n, 0, 32⟩
def F.SENS_CH_STAT_STATE (p n : Nat) : Fld := ⟨0x50400 + 0x1000 * p + 0x4 * n, 0, 3⟩
def F.SENS_CH_STAT_CAUSE (p n : Nat) : Fld := ⟨0x50400 + 0x1000 * p + 0x4 * n, 4, 4⟩
def F.SENS_CH_STAT_PATH_DIFF (p n : Nat) : Fld := ⟨0x50400 + 0x1000 * p + 0x4 * n, 8, 1⟩
def F.SENS_CH_STAT_OWNER (p n : Nat) : Fld := ⟨0x50400 + 0x1000 * p + 0x4 * n, 9, 1⟩
def F.SENS_CH_STAT_LEAK (p n : Nat) : Fld := ⟨0x50400 + 0x1000 * p + 0x4 * n, 10, 2⟩
def F.SENS_CH_STAT_VERDICT (p n : Nat) : Fld := ⟨0x50400 + 0x1000 * p + 0x4 * n, 12, 1⟩
def F.SENS_CH_STAT_FAULTS (p n : Nat) : Fld := ⟨0x50400 + 0x1000 * p + 0x4 * n, 16, 16⟩
def F.SENS_CH_RAW_OWN (p n : Nat) : Fld := ⟨0x50c00 + 0x1000 * p + 0x4 * n, 0, 16⟩
def F.SENS_CH_RAW_X (p n : Nat) : Fld := ⟨0x50c00 + 0x1000 * p + 0x4 * n, 16, 16⟩
def F.CAPC_SLEW_UP : Fld := ⟨0x60100, 0, 16⟩
def F.CAPC_THERM_MARGIN : Fld := ⟨0x60104, 0, 8⟩
def F.CAPC_THERM_HYST : Fld := ⟨0x60104, 8, 8⟩
def F.CAPC_THERM_EMERG : Fld := ⟨0x60104, 16, 8⟩
def F.CAPC_THERM_CONS : Fld := ⟨0x60104, 24, 8⟩
def F.CAPC_WARM_EN : Fld := ⟨0x60108, 0, 1⟩
def F.CAPC_WARM_HYST : Fld := ⟨0x60108, 4, 4⟩
def F.CAPC_WARM_SET : Fld := ⟨0x60108, 8, 8⟩
def F.CAPC_WARM_DWELL : Fld := ⟨0x60108, 16, 16⟩
def F.CAPC_WARM2_IDLE_DT : Fld := ⟨0x6010c, 0, 8⟩
def F.CAPC_WARM2_TRIM_DT : Fld := ⟨0x6010c, 8, 8⟩
def F.CAPC_WARM2_FLOOR : Fld := ⟨0x6010c, 16, 16⟩
def F.CAPC_TBL_PTR_IDX : Fld := ⟨0x60110, 0, 12⟩
def F.CAPC_TBL_PTR_SEL : Fld := ⟨0x60110, 12, 2⟩
def F.CAPC_TBL_WDATA (n : Nat) : Fld := ⟨0x60114 + 0x4 * n, 0, 32⟩
def F.CAPC_TBL_RDATA (n : Nat) : Fld := ⟨0x60130 + 0x4 * n, 0, 32⟩
def F.CAPC_STAT_CONSERV : Fld := ⟨0x60150, 0, 1⟩
def F.CAPC_STAT_HABOOB : Fld := ⟨0x60150, 1, 1⟩
def F.CAPC_STAT_FOLLOW_PEND : Fld := ⟨0x60150, 2, 1⟩
def F.CAPC_STAT_DROPPED : Fld := ⟨0x60150, 4, 12⟩
def F.CAPC_HABOOB_RACKS : Fld := ⟨0x60154, 0, 24⟩
def F.CAPC_HABOOB_CAUSE : Fld := ⟨0x60154, 24, 8⟩
def F.CAPC_OFF_RACKS : Fld := ⟨0x60158, 0, 24⟩
def F.CAPC_ROW_SUM_SUM : Fld := ⟨0x6015c, 0, 32⟩
def F.CAPC_BIND_COUNT (n : Nat) : Fld := ⟨0x60160 + 0x4 * n, 0, 12⟩
def F.CAPC_BIND_TIME_LO (n : Nat) : Fld := ⟨0x60180 + 0x8 * n, 0, 32⟩
def F.CAPC_BIND_TIME_HI (n : Nat) : Fld := ⟨0x60184 + 0x8 * n, 0, 32⟩
def F.CAPC_BUDGET_CTRL_GATHER : Fld := ⟨0x601c0, 0, 1⟩
def F.CAPC_BUDGET_CTRL_HELD : Fld := ⟨0x601c0, 16, 12⟩
def F.CAPC_ROW_NRACK : Fld := ⟨0x601c4, 0, 5⟩
def F.CAPC_RACK_NSLOT (n : Nat) : Fld := ⟨0x60200 + 0x4 * n, 0, 7⟩
def F.CAPC_SNAP_POS_FIRST : Fld := ⟨0x60c00, 0, 12⟩
def F.CAPC_SNAP_CAP (n : Nat) : Fld := ⟨0x60c40 + 0x4 * n, 0, 16⟩
def F.CAPC_SNAP_BIND (n : Nat) : Fld := ⟨0x60c40 + 0x4 * n, 16, 3⟩
def F.CAPC_SNAP_DROPPED (n : Nat) : Fld := ⟨0x60c40 + 0x4 * n, 19, 1⟩
def F.CAPC_SNAP_OFF (n : Nat) : Fld := ⟨0x60c40 + 0x4 * n, 20, 1⟩
def F.CAPC_SNAP_WARM_ON (n : Nat) : Fld := ⟨0x60c40 + 0x4 * n, 21, 1⟩
def F.CAPC_SNAP_MEMBER (n : Nat) : Fld := ⟨0x60c40 + 0x4 * n, 22, 1⟩
def F.SLIP_STAT_STATE : Fld := ⟨0x61100, 0, 3⟩
def F.SLIP_STAT_SPLIT : Fld := ⟨0x61100, 3, 1⟩
def F.SLIP_STAT_LAST : Fld := ⟨0x61100, 4, 4⟩
def F.SLIP_STAT_CAUSE : Fld := ⟨0x61100, 8, 8⟩
def F.SLIP_EPOCH_EPOCH : Fld := ⟨0x61104, 0, 32⟩
def F.SLIP_APPLY_TICK : Fld := ⟨0x61108, 0, 32⟩
def F.SLIP_ACK_MEMBERS : Fld := ⟨0x6110c, 0, 12⟩
def F.SLIP_ACK_ACKED : Fld := ⟨0x6110c, 16, 12⟩
def F.SLIP_MISS_FIRST : Fld := ⟨0x61110, 0, 12⟩
def F.SLIP_MISS_LATE : Fld := ⟨0x61110, 16, 16⟩
def F.SLIP_COUNT_COMMIT_COUNT : Fld := ⟨0x61114, 0, 32⟩
def F.SLIP_COUNT_ABORT_COUNT : Fld := ⟨0x61118, 0, 32⟩
def F.SLIP_COUNT_SPLIT_COUNT : Fld := ⟨0x6111c, 0, 32⟩
def F.SLIP_HREQ_PAGES_0_PAGE_0 : Fld := ⟨0x61120, 0, 8⟩
def F.SLIP_HREQ_PAGES_0_PAGE_1 : Fld := ⟨0x61120, 8, 8⟩
def F.SLIP_HREQ_PAGES_0_PAGE_2 : Fld := ⟨0x61120, 16, 8⟩
def F.SLIP_HREQ_PAGES_0_PAGE_3 : Fld := ⟨0x61120, 24, 8⟩
def F.SLIP_HREQ_PAGES_1_PAGE_0 : Fld := ⟨0x61124, 0, 8⟩
def F.SLIP_HREQ_PAGES_1_PAGE_1 : Fld := ⟨0x61124, 8, 8⟩
def F.SLIP_HREQ_PAGES_1_PAGE_2 : Fld := ⟨0x61124, 16, 8⟩
def F.SLIP_HREQ_PAGES_1_PAGE_3 : Fld := ⟨0x61124, 24, 8⟩
def F.SLIP_HREQ_CMD_CMD : Fld := ⟨0x61128, 0, 4⟩
def F.SLIP_HREQ_CMD_RESULT : Fld := ⟨0x61128, 4, 4⟩
def F.SLIP_HREQ_CMD_SWAP : Fld := ⟨0x61128, 8, 1⟩
def F.SLIP_HREQ_EPOCH_EPOCH : Fld := ⟨0x6112c, 0, 32⟩
def F.SLIP_ACKMAP_ACK (n : Nat) : Fld := ⟨0x61c40 + 0x4 * n, 0, 32⟩
def F.CRVN_STAT_ADDR : Fld := ⟨0x70100, 0, 6⟩
def F.CRVN_STAT_ADDR_VALID : Fld := ⟨0x70100, 6, 1⟩
def F.CRVN_STAT_INSERTED : Fld := ⟨0x70100, 7, 1⟩
def F.CRVN_STAT_RING : Fld := ⟨0x70100, 8, 2⟩
def F.CRVN_STAT_NODES : Fld := ⟨0x70100, 10, 7⟩
def F.CRVN_STAT_DISC : Fld := ⟨0x70100, 17, 1⟩
def F.CRVN_STAT_DISC_FAIL : Fld := ⟨0x70100, 18, 1⟩
def F.CRVN_STAT_OVERFULL : Fld := ⟨0x70100, 19, 1⟩
def F.CRVN_RGEN_RGEN : Fld := ⟨0x70104, 0, 16⟩
def F.CRVN_RGEN_DISC_COUNT : Fld := ⟨0x70104, 16, 16⟩
def F.CRVN_CFG_ADDR_PREF : Fld := ⟨0x70108, 0, 6⟩
def F.CRVN_CFG_PREF_EN : Fld := ⟨0x70108, 6, 1⟩
def F.CRVN_CFG_PAIR_EN : Fld := ⟨0x70108, 8, 1⟩
def F.CRVN_CFG_HALL_EN : Fld := ⟨0x70108, 9, 1⟩
def F.CRVN_CFG_CDU_ID : Fld := ⟨0x70108, 16, 16⟩
def F.CRVN_UID_LO_UID : Fld := ⟨0x7010c, 0, 32⟩
def F.CRVN_UID_HI_UID : Fld := ⟨0x70110, 0, 32⟩
def F.CRVN_PORT_CTRL_EN (n : Nat) : Fld := ⟨0x70120 + 0x10 * n, 0, 1⟩
def F.CRVN_PORT_STAT_STATE (n : Nat) : Fld := ⟨0x70124 + 0x10 * n, 0, 4⟩
def F.CRVN_PORT_STAT_PEND (n : Nat) : Fld := ⟨0x70124 + 0x10 * n, 4, 1⟩
def F.CRVN_PORT_STAT_LINK_UP (n : Nat) : Fld := ⟨0x70124 + 0x10 * n, 5, 1⟩
def F.CRVN_PORT_STAT_BLOCK_LOCK (n : Nat) : Fld := ⟨0x70124 + 0x10 * n, 6, 1⟩
def F.CRVN_PORT_STAT_WAIT_PEER (n : Nat) : Fld := ⟨0x70124 + 0x10 * n, 7, 1⟩
def F.CRVN_PORT_STAT_RELAY (n : Nat) : Fld := ⟨0x70124 + 0x10 * n, 8, 1⟩
def F.CRVN_PORT_STAT_CAUSE (n : Nat) : Fld := ⟨0x70124 + 0x10 * n, 12, 4⟩
def F.CRVN_PORT_STAT_NEIGH (n : Nat) : Fld := ⟨0x70124 + 0x10 * n, 16, 6⟩
def F.CRVN_PORT_STAT_NEIGH_VALID (n : Nat) : Fld := ⟨0x70124 + 0x10 * n, 22, 1⟩
def F.CRVN_PORT_ERR_FCS (n : Nat) : Fld := ⟨0x70128 + 0x10 * n, 0, 16⟩
def F.CRVN_PORT_ERR_DROP (n : Nat) : Fld := ⟨0x70128 + 0x10 * n, 16, 16⟩
def F.CRVN_PORT_DOWN_COUNT (n : Nat) : Fld := ⟨0x7012c + 0x10 * n, 0, 16⟩
def F.CRVN_NODE_SEL_ADDR : Fld := ⟨0x70140, 0, 6⟩
def F.CRVN_NODE_INFO_PRESENT : Fld := ⟨0x70144, 0, 1⟩
def F.CRVN_NODE_INFO_DIR : Fld := ⟨0x70144, 1, 1⟩
def F.CRVN_NODE_INFO_HOPS : Fld := ⟨0x70144, 2, 6⟩
def F.CRVN_NODE_INFO_TWIN : Fld := ⟨0x70144, 8, 1⟩
def F.CRVN_NODE_INFO_HALL_AGE : Fld := ⟨0x70144, 16, 16⟩
def F.CRVN_NODE_UID_LO_UID : Fld := ⟨0x70148, 0, 32⟩
def F.CRVN_NODE_UID_HI_UID : Fld := ⟨0x7014c, 0, 32⟩
def F.CRVN_TX_CMD_GO : Fld := ⟨0x70150, 0, 1⟩
def F.CRVN_TX_CMD_DST : Fld := ⟨0x70150, 8, 6⟩
def F.CRVN_TX_CMD_BCAST : Fld := ⟨0x70150, 14, 1⟩
def F.CRVN_TX_CMD_LEN : Fld := ⟨0x70150, 16, 10⟩
def F.CRVN_TX_STAT_BUSY : Fld := ⟨0x70154, 0, 1⟩
def F.CRVN_TX_STAT_RESULT : Fld := ⟨0x70154, 1, 3⟩
def F.CRVN_RX_STAT_COUNT : Fld := ⟨0x70158, 0, 5⟩
def F.CRVN_RX_STAT_SRC : Fld := ⟨0x70158, 8, 6⟩
def F.CRVN_RX_STAT_LEN : Fld := ⟨0x70158, 16, 10⟩
def F.CRVN_RX_POP_POP : Fld := ⟨0x7015c, 0, 1⟩
def F.CRVN_ECHO_GO : Fld := ⟨0x70160, 0, 1⟩
def F.CRVN_ECHO_DST : Fld := ⟨0x70160, 8, 6⟩
def F.CRVN_ECHO_RESULT : Fld := ⟨0x70160, 14, 2⟩
def F.CRVN_ECHO_RTT : Fld := ⟨0x70160, 16, 16⟩
def F.CRVN_TX_BUF (n : Nat) : Fld := ⟨0x70400 + 0x4 * n, 0, 32⟩
def F.CRVN_RX_BUF (n : Nat) : Fld := ⟨0x70600 + 0x4 * n, 0, 32⟩
def F.ETH_STAT_LINK (p : Nat) : Fld := ⟨0x78100 + 0x1000 * p, 0, 1⟩
def F.ETH_STAT_PATH_OK (p : Nat) : Fld := ⟨0x78100 + 0x1000 * p, 1, 1⟩
def F.ETH_RX_MAPS_COUNT (p : Nat) : Fld := ⟨0x78104 + 0x1000 * p, 0, 32⟩
def F.ETH_RX_ACKS_COUNT (p : Nat) : Fld := ⟨0x78108 + 0x1000 * p, 0, 32⟩
def F.ETH_TX_LANE_COUNT (p : Nat) : Fld := ⟨0x7810c + 0x1000 * p, 0, 32⟩
def F.PTP_CFG_ROLE : Fld := ⟨0x7a100, 0, 2⟩
def F.PTP_CFG_ONE_STEP : Fld := ⟨0x7a100, 2, 1⟩
def F.PTP_CFG_P2P : Fld := ⟨0x7a100, 3, 1⟩
def F.PTP_CFG_DOMAIN : Fld := ⟨0x7a100, 8, 8⟩
def F.PTP_CFG_PRIO1 : Fld := ⟨0x7a100, 16, 8⟩
def F.PTP_CFG_PRIO2 : Fld := ⟨0x7a100, 24, 8⟩
def F.PTP_STAT_LOCKED : Fld := ⟨0x7a104, 0, 1⟩
def F.PTP_STAT_GM : Fld := ⟨0x7a104, 1, 1⟩
def F.PTP_STAT_PORT0 : Fld := ⟨0x7a104, 4, 4⟩
def F.PTP_STAT_PORT1 : Fld := ⟨0x7a104, 8, 4⟩
def F.PTP_OFFSET_NS : Fld := ⟨0x7a108, 0, 32⟩
def F.PTP_PATH_NS : Fld := ⟨0x7a10c, 0, 32⟩
def F.ERG_STAT_OPP (p : Nat) : Fld := ⟨0x80100 + 0x1000 * p, 0, 3⟩
def F.ERG_STAT_AWAKE (p : Nat) : Fld := ⟨0x80100 + 0x1000 * p, 3, 1⟩
def F.ERG_STAT_START_FAIL (p : Nat) : Fld := ⟨0x80100 + 0x1000 * p, 4, 1⟩
def F.ERG_STAT_BUSY (p : Nat) : Fld := ⟨0x80100 + 0x1000 * p, 8, 7⟩
def F.ERG_STAT_BAD_TILE (p : Nat) : Fld := ⟨0x80100 + 0x1000 * p, 16, 7⟩
def F.ERG_STAT_FAULT_CAUSE (p : Nat) : Fld := ⟨0x80100 + 0x1000 * p, 24, 4⟩
def F.ERG_FLAGS_INVALID (p : Nat) : Fld := ⟨0x80104 + 0x1000 * p, 0, 1⟩
def F.ERG_FLAGS_OVERFLOW (p : Nat) : Fld := ⟨0x80104 + 0x1000 * p, 1, 1⟩
def F.ERG_FLAGS_SAT (p : Nat) : Fld := ⟨0x80104 + 0x1000 * p, 2, 1⟩
def F.ERG_FLAGS_BOUND_ORDER (p : Nat) : Fld := ⟨0x80104 + 0x1000 * p, 3, 1⟩
def F.ERG_FLAGS_ILLEGAL (p : Nat) : Fld := ⟨0x80104 + 0x1000 * p, 4, 1⟩
def F.ERG_FLAGS_RESIDUE (p : Nat) : Fld := ⟨0x80104 + 0x1000 * p, 5, 1⟩
def F.ERG_RESIDUE_COUNT (p : Nat) : Fld := ⟨0x80108 + 0x1000 * p, 0, 16⟩
def F.ERG_RESIDUE_TILE (p : Nat) : Fld := ⟨0x80108 + 0x1000 * p, 16, 7⟩
def F.ERG_RESIDUE_HALF (p : Nat) : Fld := ⟨0x80108 + 0x1000 * p, 24, 2⟩
def F.ERG_RESIDUE_JOB_JOB (p : Nat) : Fld := ⟨0x8010c + 0x1000 * p, 0, 16⟩
def F.ERG_ILLEGAL_PC (p : Nat) : Fld := ⟨0x80110 + 0x1000 * p, 0, 11⟩
def F.ERG_ILLEGAL_TILE (p : Nat) : Fld := ⟨0x80110 + 0x1000 * p, 16, 7⟩
def F.ERG_ACT_MAC4_LO (p : Nat) : Fld := ⟨0x80120 + 0x1000 * p, 0, 32⟩
def F.ERG_ACT_MAC4_HI (p : Nat) : Fld := ⟨0x80124 + 0x1000 * p, 0, 32⟩
def F.ERG_ACT_MAC8_LO (p : Nat) : Fld := ⟨0x80128 + 0x1000 * p, 0, 32⟩
def F.ERG_ACT_MAC8_HI (p : Nat) : Fld := ⟨0x8012c + 0x1000 * p, 0, 32⟩
def F.ERG_ACT_MAC16_LO (p : Nat) : Fld := ⟨0x80130 + 0x1000 * p, 0, 32⟩
def F.ERG_ACT_MAC16_HI (p : Nat) : Fld := ⟨0x80134 + 0x1000 * p, 0, 32⟩
def F.ERG_ACT_MAC32_LO (p : Nat) : Fld := ⟨0x80138 + 0x1000 * p, 0, 32⟩
def F.ERG_ACT_MAC32_HI (p : Nat) : Fld := ⟨0x8013c + 0x1000 * p, 0, 32⟩
def F.ERG_ACT_MACB16_LO (p : Nat) : Fld := ⟨0x80140 + 0x1000 * p, 0, 32⟩
def F.ERG_ACT_MACB16_HI (p : Nat) : Fld := ⟨0x80144 + 0x1000 * p, 0, 32⟩
def F.ERG_ACT_MACB32_LO (p : Nat) : Fld := ⟨0x80148 + 0x1000 * p, 0, 32⟩
def F.ERG_ACT_MACB32_HI (p : Nat) : Fld := ⟨0x8014c + 0x1000 * p, 0, 32⟩
def F.ERG_ACT_TSRAM_LO (p : Nat) : Fld := ⟨0x80150 + 0x1000 * p, 0, 32⟩
def F.ERG_ACT_TSRAM_HI (p : Nat) : Fld := ⟨0x80154 + 0x1000 * p, 0, 32⟩
def F.ERG_ACT_NET_LO (p : Nat) : Fld := ⟨0x80158 + 0x1000 * p, 0, 32⟩
def F.ERG_ACT_NET_HI (p : Nat) : Fld := ⟨0x8015c + 0x1000 * p, 0, 32⟩
def F.ERG_CYCLES_LO_COUNT (p : Nat) : Fld := ⟨0x80160 + 0x1000 * p, 0, 32⟩
def F.ERG_CYCLES_HI_COUNT (p : Nat) : Fld := ⟨0x80164 + 0x1000 * p, 0, 32⟩
def F.XJOB_FRAME_COUNT : Fld := ⟨0x88100, 0, 32⟩
def F.XJOB_CMD_CMD : Fld := ⟨0x88104, 0, 4⟩
def F.XJOB_CMD_RESULT : Fld := ⟨0x88104, 4, 4⟩
def F.XJOB_SET_LO_XA : Fld := ⟨0x88108, 0, 32⟩
def F.XJOB_SET_HI_XA : Fld := ⟨0x8810c, 0, 8⟩
def F.XJOB_FIT_STATUS : Fld := ⟨0x88110, 0, 2⟩
def F.XJOB_FIT_CODE : Fld := ⟨0x88110, 8, 8⟩
def F.XJOB_FIT_JOB : Fld := ⟨0x88110, 16, 10⟩
def F.XJOB_FIT_USE_MIN_OPP : Fld := ⟨0x88114, 0, 3⟩
def F.XJOB_FIT_USE_WIN : Fld := ⟨0x88114, 8, 9⟩
def F.XJOB_ARM_FRAME_FRAME : Fld := ⟨0x88118, 0, 32⟩
def F.XJOB_ACTIVE_SET_ID : Fld := ⟨0x8811c, 0, 32⟩
def F.XJOB_FRAME_STAT_POST_AON : Fld := ⟨0x88120, 0, 10⟩
def F.XJOB_FRAME_STAT_LATE : Fld := ⟨0x88120, 10, 1⟩
def F.XJOB_FRAME_STAT_ABANDONED : Fld := ⟨0x88120, 11, 1⟩
def F.XJOB_FRAME_STAT_PARTIAL : Fld := ⟨0x88120, 12, 1⟩
def F.XJOB_FRAME_STAT_REPEAT_FAIL : Fld := ⟨0x88120, 13, 1⟩
def F.XJOB_FRAME_STAT_FAILED : Fld := ⟨0x88120, 16, 11⟩
def F.XJOB_SEL_JOB : Fld := ⟨0x88124, 0, 10⟩
def F.XJOB_JSTAT_STATE : Fld := ⟨0x88128, 0, 3⟩
def F.XJOB_JSTAT_RESTARTED : Fld := ⟨0x88128, 3, 1⟩
def F.XJOB_JSTAT_FAIL_CODE : Fld := ⟨0x88128, 8, 4⟩
def F.XJOB_JSTAT_REPLAYS : Fld := ⟨0x88128, 16, 8⟩
def F.XJOB_JSTAT_FAIL_RUN : Fld := ⟨0x88128, 24, 8⟩
def F.XJOB_ADAPT_EN : Fld := ⟨0x8812c, 0, 1⟩
def F.XJOB_ADAPT_SHARE : Fld := ⟨0x8812c, 1, 10⟩
def F.XJOB_ADAPT_EVERY : Fld := ⟨0x8812c, 16, 8⟩
def F.XJOB_ADAPT_STAT_ACCEPT : Fld := ⟨0x88130, 0, 16⟩
def F.XJOB_ADAPT_STAT_REJECT : Fld := ⟨0x88130, 16, 16⟩
def F.XJOB_ADV_CNT_POSTED : Fld := ⟨0x88134, 0, 16⟩
def F.XJOB_ADV_CNT_MISSED : Fld := ⟨0x88134, 16, 16⟩
def F.XPWR_CAP_QW : Fld := ⟨0x89100, 0, 10⟩
def F.XPWR_OPP_REQ : Fld := ⟨0x89104, 0, 3⟩
def F.XPWR_OPP_CAP_LIM : Fld := ⟨0x89104, 8, 3⟩
def F.XPWR_OPP_THERM_LIM : Fld := ⟨0x89104, 12, 3⟩
def F.XPWR_OPP_SUPPLY_LIM : Fld := ⟨0x89104, 16, 3⟩
def F.XPWR_OPP_CUR : Fld := ⟨0x89104, 20, 3⟩
def F.XPWR_THERM_T_TH : Fld := ⟨0x89108, 0, 8⟩
def F.XPWR_THERM_T_MAX : Fld := ⟨0x89108, 16, 8⟩
def F.XPWR_DROOP_THR : Fld := ⟨0x8910c, 0, 4⟩
def F.XPWR_DROOP_EVENTS : Fld := ⟨0x8910c, 16, 16⟩
def F.XPWR_THR_THERM_LO : Fld := ⟨0x89110, 0, 32⟩
def F.XPWR_THR_THERM_HI : Fld := ⟨0x89114, 0, 32⟩
def F.XPWR_THR_CAP_LO : Fld := ⟨0x89118, 0, 32⟩
def F.XPWR_THR_CAP_HI : Fld := ⟨0x8911c, 0, 32⟩
def F.XPWR_THR_DROOP_LO : Fld := ⟨0x89120, 0, 32⟩
def F.XPWR_THR_DROOP_HI : Fld := ⟨0x89124, 0, 32⟩
def F.XPWR_THR_INRUSH_LO : Fld := ⟨0x89128, 0, 32⟩
def F.XPWR_THR_INRUSH_HI : Fld := ⟨0x8912c, 0, 32⟩
def F.XPWR_THR_SUPPLY_LO : Fld := ⟨0x89130, 0, 32⟩
def F.XPWR_THR_SUPPLY_HI : Fld := ⟨0x89134, 0, 32⟩
def F.XPWR_THR_FRAME_OVERRUN_LO : Fld := ⟨0x89138, 0, 32⟩
def F.XPWR_THR_FRAME_OVERRUN_HI : Fld := ⟨0x8913c, 0, 32⟩
def F.XPWR_JOB_SEL_JOB : Fld := ⟨0x89140, 0, 16⟩
def F.XPWR_JOB_ENERGY_E : Fld := ⟨0x89144, 0, 32⟩
def F.XPWR_FRAME_ENERGY_E : Fld := ⟨0x89148, 0, 32⟩
def F.XPWR_STATIC_MW (n : Nat) : Fld := ⟨0x89160 + 0x4 * n, 0, 16⟩
def F.XPWR_STATIC_V_MV (n : Nat) : Fld := ⟨0x89160 + 0x4 * n, 16, 16⟩
def F.XMEM_CFG_RATE (p : Nat) : Fld := ⟨0x8a100 + 0x1000 * p, 0, 2⟩
def F.XMEM_STAT_SR (p : Nat) : Fld := ⟨0x8a104 + 0x1000 * p, 0, 1⟩
def F.XMEM_STAT_TRAINED (p : Nat) : Fld := ⟨0x8a104 + 0x1000 * p, 1, 1⟩
def F.XMEM_STAT_FAULT_PKG (p : Nat) : Fld := ⟨0x8a104 + 0x1000 * p, 4, 4⟩
def F.XMEM_STAT_REF_MULT (p : Nat) : Fld := ⟨0x8a104 + 0x1000 * p, 8, 4⟩
def F.XMEM_ERR_CE (p : Nat) : Fld := ⟨0x8a108 + 0x1000 * p, 0, 16⟩
def F.XMEM_ERR_UE (p : Nat) : Fld := ⟨0x8a108 + 0x1000 * p, 16, 16⟩
def F.XMEM_BYTES_LO_COUNT (p : Nat) : Fld := ⟨0x8a110 + 0x1000 * p, 0, 32⟩
def F.XMEM_BYTES_HI_COUNT (p : Nat) : Fld := ⟨0x8a114 + 0x1000 * p, 0, 32⟩
def F.XECC_TSRAM_CE : Fld := ⟨0x8f100, 0, 16⟩
def F.XECC_TSRAM_UE : Fld := ⟨0x8f100, 16, 16⟩
def F.XECC_SHARED_CE : Fld := ⟨0x8f104, 0, 16⟩
def F.XECC_SHARED_UE : Fld := ⟨0x8f104, 16, 16⟩
def F.XECC_LPDDR6_CE : Fld := ⟨0x8f108, 0, 16⟩
def F.XECC_LPDDR6_UE : Fld := ⟨0x8f108, 16, 16⟩
def F.XECC_ROM_CE : Fld := ⟨0x8f10c, 0, 16⟩
def F.XECC_ROM_UE : Fld := ⟨0x8f10c, 16, 16⟩
def F.XECC_UE_ADDR_LO_XA : Fld := ⟨0x8f110, 0, 32⟩
def F.XECC_UE_ADDR_HI_XA_HI : Fld := ⟨0x8f114, 0, 8⟩
def F.XECC_UE_ADDR_HI_KIND : Fld := ⟨0x8f114, 8, 4⟩
def F.XECC_UE_ADDR_HI_JOB : Fld := ⟨0x8f114, 16, 10⟩
def F.XECC_UE_ADDR_HI_BY_JOB : Fld := ⟨0x8f114, 31, 1⟩
def F.XECC_SCRUB_EN : Fld := ⟨0x8f118, 0, 1⟩
def F.XECC_SCRUB_PASSES : Fld := ⟨0x8f118, 16, 16⟩
def F.XECC_INJECT_MEM : Fld := ⟨0x8f11c, 0, 2⟩
def F.XECC_INJECT_BITS : Fld := ⟨0x8f11c, 2, 2⟩
def F.XECC_INJECT_AF : Fld := ⟨0x8f11c, 4, 1⟩
def F.XECC_INJECT_XA_LO_XA : Fld := ⟨0x8f120, 0, 32⟩
def F.XECC_INJECT_XA_HI_XA : Fld := ⟨0x8f124, 0, 8⟩
def F.UCIE_STAT_MOD0_UP : Fld := ⟨0x90100, 0, 1⟩
def F.UCIE_STAT_MOD1_UP : Fld := ⟨0x90100, 1, 1⟩
def F.UCIE_STAT_DEGRADED : Fld := ⟨0x90100, 2, 1⟩
def F.UCIE_STAT_RETRAINS : Fld := ⟨0x90100, 16, 16⟩
def F.UCIE_ERR_CRC : Fld := ⟨0x90104, 0, 16⟩
def F.UCIE_ERR_BAD : Fld := ⟨0x90104, 16, 8⟩
def F.UCIE_ERR_REPLAY : Fld := ⟨0x90104, 24, 8⟩
def F.UCIE_TIMEOUT_COUNT : Fld := ⟨0x90108, 0, 16⟩
def F.SEC_STAT_HERVI_BANK : Fld := ⟨0xa0100, 0, 1⟩
def F.SEC_STAT_XOIDE_BOOT : Fld := ⟨0xa0100, 1, 1⟩
def F.SEC_STAT_ATT_BUSY : Fld := ⟨0xa0100, 2, 1⟩
def F.SEC_STAT_OWNER : Fld := ⟨0xa0100, 3, 3⟩
def F.SEC_STAT_DBG_OPEN : Fld := ⟨0xa0100, 8, 6⟩
def F.SEC_CMD_CMD : Fld := ⟨0xa0104, 0, 4⟩
def F.SEC_CMD_DIE : Fld := ⟨0xa0104, 8, 2⟩
def F.SEC_CMD_RESULT : Fld := ⟨0xa0104, 16, 4⟩
def F.SEC_CHAL_CNT_COUNT : Fld := ⟨0xa0108, 0, 32⟩
def F.SEC_NONCE (n : Nat) : Fld := ⟨0xa0120 + 0x4 * n, 0, 32⟩
def F.SEC_ARG (n : Nat) : Fld := ⟨0xa0140 + 0x4 * n, 0, 32⟩
def F.SEC_ATT_ADDR_ADDR : Fld := ⟨0xa0160, 0, 26⟩
def F.SEC_MEAS_SEL_DIE : Fld := ⟨0xa0164, 0, 3⟩
def F.SEC_MEAS_DIGEST (n : Nat) : Fld := ⟨0xa0180 + 0x4 * n, 0, 32⟩
def F.SEC_SIGBUF (n : Nat) : Fld := ⟨0xa0200 + 0x4 * n, 0, 32⟩
def F.PRES_STAT_OPEN : Fld := ⟨0xa1100, 0, 1⟩
def F.PRES_STAT_BY_JUMPER : Fld := ⟨0xa1100, 1, 1⟩
def F.PRES_STAT_BUTTON : Fld := ⟨0xa1100, 2, 1⟩
def F.PRES_STAT_JUMPER : Fld := ⟨0xa1100, 3, 1⟩
def F.PRES_STAT_JUMPER_REFUSED : Fld := ⟨0xa1100, 4, 1⟩
def F.PRES_STAT_IN_SLOT : Fld := ⟨0xa1100, 5, 1⟩
def F.PRES_STAT_SEAL_CLOSED : Fld := ⟨0xa1100, 6, 1⟩
def F.PRES_STAT_STUCK : Fld := ⟨0xa1100, 7, 1⟩
def F.PRES_STAT_REMAIN : Fld := ⟨0xa1100, 8, 20⟩
def F.PRES_CTRL_CLOSE : Fld := ⟨0xa1104, 0, 1⟩
def F.PRES_TAMPER_HELD : Fld := ⟨0xa1108, 0, 4⟩
def F.PRES_TAMPER_CAUSE : Fld := ⟨0xa1108, 4, 2⟩
def F.PRES_TAMPER_TICK : Fld := ⟨0xa1108, 8, 24⟩
def F.PRES_SEAL_STORED : Fld := ⟨0xa110c, 0, 32⟩
def F.PRES_SEAL_NOW : Fld := ⟨0xa1110, 0, 32⟩
def F.PRES_OPENS : Fld := ⟨0xa1114, 0, 32⟩
def F.FUSE_DBG_KILL_BLOWN : Fld := ⟨0xa2100, 0, 6⟩
def F.FUSE_OWNER_STAT_ENROLLED : Fld := ⟨0xa2104, 0, 4⟩
def F.FUSE_OWNER_STAT_REVOKED : Fld := ⟨0xa2104, 4, 4⟩
def F.FUSE_OWNER_STAT_COSIGN : Fld := ⟨0xa2104, 8, 1⟩
def F.FUSE_SVN_HERVI : Fld := ⟨0xa2108, 0, 7⟩
def F.FUSE_SVN_XOIDE : Fld := ⟨0xa2108, 8, 7⟩
def F.FUSE_SVN_SEIF : Fld := ⟨0xa2108, 16, 7⟩
def F.FUSE_SVN_POLICY : Fld := ⟨0xa2108, 24, 7⟩
def F.FUSE_SVN2_MODEL : Fld := ⟨0xa210c, 0, 7⟩
def F.FUSE_OWNER_HASH_HASH (n k : Nat) : Fld := ⟨0xa2120 + 0x20 * n + 0x4 * k, 0, 32⟩
def F.REC_HEAD_SEQ : Fld := ⟨0xb0100, 0, 32⟩
def F.REC_TAIL_SEQ : Fld := ⟨0xb0104, 0, 32⟩
def F.REC_OLDEST_OPEN_SEQ : Fld := ⟨0xb0108, 0, 32⟩
def F.REC_CURSOR_SEQ : Fld := ⟨0xb010c, 0, 32⟩
def F.REC_WIN_STAT_BUSY : Fld := ⟨0xb0110, 0, 1⟩
def F.REC_WIN_STAT_RESULT : Fld := ⟨0xb0110, 1, 2⟩
def F.REC_WIN_STAT_OPEN : Fld := ⟨0xb0110, 3, 1⟩
def F.REC_CTRL_AUTO : Fld := ⟨0xb0114, 0, 1⟩
def F.REC_FIFO_DEPTH : Fld := ⟨0xb0118, 0, 10⟩
def F.REC_FIFO_PEAK : Fld := ⟨0xb0118, 16, 10⟩
def F.REC_FIFO_PEAK_CLR : Fld := ⟨0xb0118, 31, 1⟩
def F.REC_EVICT_UNREAD : Fld := ⟨0xb011c, 0, 16⟩
def F.REC_EVICT_OPEN : Fld := ⟨0xb011c, 16, 9⟩
def F.REC_CLASS_EVENTS_LO (n : Nat) : Fld := ⟨0xb0180 + 0x10 * n, 0, 32⟩
def F.REC_CLASS_EVENTS_HI (n : Nat) : Fld := ⟨0xb0184 + 0x10 * n, 0, 32⟩
def F.REC_CLASS_LOST_LO (n : Nat) : Fld := ⟨0xb0188 + 0x10 * n, 0, 32⟩
def F.REC_CLASS_LOST_HI (n : Nat) : Fld := ⟨0xb018c + 0x10 * n, 0, 32⟩
def F.REC_WIN (n : Nat) : Fld := ⟨0xb0400 + 0x4 * n, 0, 32⟩
def F.INV_SEL_KIND : Fld := ⟨0xb1100, 0, 3⟩
def F.INV_SEL_INDEX : Fld := ⟨0xb1100, 8, 7⟩
def F.INV_CMD_SET : Fld := ⟨0xb1104, 0, 1⟩
def F.INV_SET (n : Nat) : Fld := ⟨0xb1110 + 0x4 * n, 0, 32⟩
def F.INV_REC (n : Nat) : Fld := ⟨0xb1140 + 0x4 * n, 0, 32⟩

end Sys2Proof.Machine
end

