-- ==== Sys2Proof/Machine/Table.lean ====
section
/-! DEFINITION. Reading and writing a sparse table, and the small list and number helpers the meanings share. -/
namespace Sys2Proof.Machine

/-- The value at a key; an unlisted key reads as `d`. -/
def tget {α : Type} (d : α) : Tbl α → Nat → α
  | [], _ => d
  | (k, v) :: r, j => if k = j then v else tget d r j

/-- Remove a key. -/
def tdel {α : Type} : Tbl α → Nat → Tbl α
  | [], _ => []
  | (k, v) :: r, j => if k = j then tdel r j else (k, v) :: tdel r j

/-- Insert a key in its place, replacing an entry of the same key. -/
def tput {α : Type} : Tbl α → Nat → α → Tbl α
  | [], j, x => [(j, x)]
  | (k, v) :: r, j, x =>
    if j < k then (j, x) :: (k, v) :: r
    else if k = j then (j, x) :: r
    else (k, v) :: tput r j x

/-- Write a key, keeping the canonical form: writing what an unlisted key reads as removes the entry. -/
def tset {α : Type} [DecidableEq α] (d : α) (t : Tbl α) (j : Nat) (x : α) : Tbl α :=
  if x = d then tdel t j else tput t j x

/-- Apply a function to the value at a key. -/
def tmod {α : Type} [DecidableEq α] (d : α) (t : Tbl α) (j : Nat) (f : α → α) : Tbl α :=
  tset d t j (f (tget d t j))

/-- The canonical form of a table over the constant default `d`: keys strictly rising, no entry equal to `d`. -/
def tblWf {α : Type} [DecidableEq α] (d : α) : Tbl α → Bool
  | [] => true
  | [(_, v)] => v != d
  | (k, v) :: (j, w) :: r => v != d && k < j && tblWf d ((j, w) :: r)

/-- Remove every key in `lo ≤ k < hi`. -/
def tclear {α : Type} (t : Tbl α) (lo hi : Nat) : Tbl α := t.filter (fun e => e.1 < lo || hi ≤ e.1)

/-- Numbers 0 to n − 1. -/
def upto (n : Nat) : List Nat := List.range n

/-- Bit k of a number. -/
def bitOf (x k : Nat) : Bool := x / 2 ^ k % 2 == 1
/-- 1 for true. -/
def b2n (b : Bool) : Nat := if b then 1 else 0
/-- A number with bit k set, or cleared. -/
def setBitN (x k : Nat) : Nat := if bitOf x k then x else x + 2 ^ k
def clrBitN (x k : Nat) : Nat := if bitOf x k then x - 2 ^ k else x
def putBitN (x k : Nat) (b : Bool) : Nat := if b then setBitN x k else clrBitN x k
/-- The two's complement value of the low w bits. -/
def sx (w x : Nat) : Int := let y := x % 2 ^ w; if y < 2 ^ (w - 1) then (y : Int) else (y : Int) - (2 ^ w : Nat)
/-- The low w bits of an integer. -/
def ux (w : Nat) (x : Int) : Nat := (x % ((2 ^ w : Nat) : Int)).toNat
/-- Add with saturation at `top`. -/
def satAdd (top x n : Nat) : Nat := if x + n > top then top else x + n
/-- Clamp an integer. -/
def clampI (lo hi x : Int) : Int := if x < lo then lo else if hi < x then hi else x
def clampN (lo hi x : Nat) : Nat := if x < lo then lo else if hi < x then hi else x
/-- Absolute difference. -/
def absDiff (a b : Nat) : Nat := if a < b then b - a else a - b
/-- Quotient rounded up. -/
def ceilDiv (a b : Nat) : Nat := (a + b - 1) / b
/-- A consecutive-run counter: one more while the condition holds, 0 otherwise. -/
def runNext (c : Bool) (n : Nat) : Nat := if c then n + 1 else 0
/-- Replace element k of a list. -/
def lset {α : Type} : List α → Nat → α → List α
  | [], _, _ => []
  | _ :: r, 0, x => x :: r
  | a :: r, k + 1, x => a :: lset r k x
/-- Element k of a list, or `d`. -/
def lget {α : Type} (d : α) : List α → Nat → α
  | [], _ => d
  | a :: _, 0 => a
  | _ :: r, k + 1 => lget d r k
/-- The sum of a list of numbers. -/
def nsum : List Nat → Nat
  | [] => 0
  | a :: r => a + nsum r
/-- Little-endian bytes of a number. -/
def leBytes : Nat → Nat → List Nat
  | 0, _ => []
  | k + 1, x => x % 256 :: leBytes k (x / 256)
/-- The number of little-endian bytes. -/
def leNum : List Nat → Nat
  | [] => 0
  | b :: r => b % 256 + 256 * leNum r
/-- Big-endian bytes of a number. -/
def beBytes (k x : Nat) : List Nat := (leBytes k x).reverse
/-- Bytes a to a + n − 1 of a list, absent bytes as 0. -/
def bytesAt (l : List Nat) (a n : Nat) : List Nat := (upto n).map (fun i => lget 0 l (a + i))
/-- The little-endian number in bytes a to a + n − 1. -/
def leAt (l : List Nat) (a n : Nat) : Nat := leNum (bytesAt l a n)

end Sys2Proof.Machine
end

