-- ==== Sys2Proof/Machine/Crypto.lean ====
section
/-! DEFINITION. SHA-256, RSASSA-PSS with RSA-3072 (R5, R325), and the header of an image (R325). -/
namespace Sys2Proof.Machine

/-- Apply a function to a number, which is evaluated first. -/
def force {α : Type} (x : Nat) (f : Nat → α) : α :=
  match x with
  | 0 => f 0
  | n + 1 => f (n + 1)

/-! ### SHA-256 -/

def rotr32 (n x : Nat) : Nat := x / 2 ^ n + x % 2 ^ n * 2 ^ (32 - n)
def shaS0 (x : Nat) : Nat := rotr32 7 x ^^^ rotr32 18 x ^^^ (x / 8)
def shaS1 (x : Nat) : Nat := rotr32 17 x ^^^ rotr32 19 x ^^^ (x / 1024)
def shaB0 (x : Nat) : Nat := rotr32 2 x ^^^ rotr32 13 x ^^^ rotr32 22 x
def shaB1 (x : Nat) : Nat := rotr32 6 x ^^^ rotr32 11 x ^^^ rotr32 25 x
def shaCh (e f g : Nat) : Nat := (e &&& f) ^^^ ((0xFFFFFFFF - e) &&& g)
def shaMaj (a b c : Nat) : Nat := (a &&& b) ^^^ (a &&& c) ^^^ (b &&& c)
/-- The round constants. -/
def shaK : List Nat :=
  [0x428A2F98, 0x71374491, 0xB5C0FBCF, 0xE9B5DBA5, 0x3956C25B, 0x59F111F1, 0x923F82A4, 0xAB1C5ED5,
   0xD807AA98, 0x12835B01, 0x243185BE, 0x550C7DC3, 0x72BE5D74, 0x80DEB1FE, 0x9BDC06A7, 0xC19BF174,
   0xE49B69C1, 0xEFBE4786, 0x0FC19DC6, 0x240CA1CC, 0x2DE92C6F, 0x4A7484AA, 0x5CB0A9DC, 0x76F988DA,
   0x983E5152, 0xA831C66D, 0xB00327C8, 0xBF597FC7, 0xC6E00BF3, 0xD5A79147, 0x06CA6351, 0x14292967,
   0x27B70A85, 0x2E1B2138, 0x4D2C6DFC, 0x53380D13, 0x650A7354, 0x766A0ABB, 0x81C2C92E, 0x92722C85,
   0xA2BFE8A1, 0xA81A664B, 0xC24B8B70, 0xC76C51A3, 0xD192E819, 0xD6990624, 0xF40E3585, 0x106AA070,
   0x19A4C116, 0x1E376C08, 0x2748774C, 0x34B0BCB5, 0x391C0CB3, 0x4ED8AA4A, 0x5B9CCA4F, 0x682E6FF3,
   0x748F82EE, 0x78A5636F, 0x84C87814, 0x8CC70208, 0x90BEFFFA, 0xA4506CEB, 0xBEF9A3F7, 0xC67178F2]
/-- The initial hash value. -/
def shaInit : List Nat :=
  [0x6A09E667, 0xBB67AE85, 0x3C6EF372, 0xA54FF53A, 0x510E527F, 0x9B05688C, 0x1F83D9AB, 0x5BE0CD19]
/-- The rounds of a block: the constants left, the next sixteen words of the schedule, and the eight working variables. -/
def shaRounds : List Nat → List Nat → List Nat → List Nat
  | [], _, v => v
  | k :: ks, w, v =>
    match v with
    | [a, b, c, d, e, f, g, h] =>
      force ((h + shaB1 e + shaCh e f g + k + lget 0 w 0) % 2 ^ 32) (fun t =>
      force ((t + shaB0 a + shaMaj a b c) % 2 ^ 32) (fun x =>
      force ((d + t) % 2 ^ 32) (fun y =>
      force ((shaS1 (lget 0 w 14) + lget 0 w 9 + shaS0 (lget 0 w 1) + lget 0 w 0) % 2 ^ 32) (fun n =>
      shaRounds ks (w.drop 1 ++ [n]) [x, a, b, c, y, e, f, g]))))
    | _ => v
/-- Big-endian 32-bit words of a byte string. -/
def shaWords : List Nat → List Nat
  | a :: b :: c :: d :: r => (a % 256 * 2 ^ 24 + b % 256 * 2 ^ 16 + c % 256 * 2 ^ 8 + d % 256) :: shaWords r
  | _ => []
/-- Word by word addition modulo 2³². -/
def addWords : List Nat → List Nat → List Nat
  | a :: x, b :: y => (a + b) % 2 ^ 32 :: addWords x y
  | _, _ => []
/-- `n` blocks of sixteen words each. -/
def shaBlocks : Nat → List Nat → List Nat → List Nat
  | 0, _, h => h
  | n + 1, w, h => shaBlocks n (w.drop 16) (addWords h (shaRounds shaK (w.take 16) h))
/-- Big-endian bytes of a number. -/
def bigBytes : Nat → Nat → List Nat
  | 0, _ => []
  | k + 1, x => x / 256 ^ k % 256 :: bigBytes k x
/-- The number of big-endian bytes. -/
def bigNum : List Nat → Nat → Nat
  | [], a => a
  | b :: r, a => force (256 * a + b % 256) (bigNum r)
/-- A message padded to whole blocks. -/
def shaPad (m : List Nat) : List Nat := m ++ 0x80 :: (List.replicate ((119 - m.length % 64) % 64) 0 ++ bigBytes 8 (8 * m.length))
/-- The SHA-256 digest of a byte string, 32 bytes. -/
def sha256 (m : List Nat) : List Nat :=
  let p := shaPad m
  ((shaBlocks (p.length / 64) (shaWords p) shaInit).map (bigBytes 4)).flatten
/-- A digest as the registers and fuses hold it, byte 0 lowest. -/
def sha256Num (m : List Nat) : Nat := leNum (sha256 m)

/-! ### RSASSA-PSS (R325): RSA-3072, exponent 65,537, MGF1 with SHA-256, salt of 32 bytes -/

/-- k squarings modulo n. -/
def sqMod (n : Nat) : Nat → Nat → Nat
  | 0, x => x
  | k + 1, x => force (x * x % n) (sqMod n k)
/-- The public operation. -/
def rsaPub (n s : Nat) : Nat := sqMod n 16 s * s % n
/-- MGF1: the first `len` bytes of the mask of a seed. -/
def mgf1 (seed : List Nat) (len : Nat) : List Nat :=
  (((upto ((len + 31) / 32)).map (fun i => sha256 (seed ++ bigBytes 4 i))).flatten).take len
def xorBytes : List Nat → List Nat → List Nat
  | a :: x, b :: y => (a ^^^ b) :: xorBytes x y
  | _, _ => []
/-- EMSA-PSS-VERIFY of a message digest against an encoded message of 384 bytes (3,071 bits). -/
def pssCheck (digest em : List Nat) : Bool :=
  let h := (em.drop 351).take 32
  let db := xorBytes (em.take 351) (mgf1 h 351)
  let db := (lget 0 db 0 % 128) :: db.drop 1
  let salt := db.drop 319
  decide (lget 0 em 0 < 128 ∧ lget 0 em 383 = 0xBC) && (db.take 318).all (fun b => b == 0) && lget 0 db 318 == 1 &&
  sha256 (List.replicate 8 0 ++ digest ++ salt) == h
/-- RSASSA-PSS-VERIFY of a message with a 3,072-bit modulus. -/
def pssVerify (modulus sig : Nat) (msg : List Nat) : Bool :=
  decide (2 ^ 3071 ≤ modulus ∧ modulus < 2 ^ 3072 ∧ sig < modulus) && pssCheck (sha256 msg) (bigBytes 384 (rsaPub modulus sig))
/-- A key is accepted for a fused hash when that is the digest of its modulus; the signature must verify with it (R325). -/
def sigBy (hash modulus sig : Nat) (msg : List Nat) : Bool := sha256Num (bigBytes 384 modulus) == hash && pssVerify modulus sig msg

/-! ### Images (R325) -/

/-- The first 64 bytes. -/
def imgHead (i : List Nat) : List Nat := i.take 64
def imgKind (i : List Nat) : Nat := leAt i 4 1
def imgNsig (i : List Nat) : Nat := leAt i 5 1
def imgSvn (i : List Nat) : Nat := leAt i 6 2
def imgLen (i : List Nat) : Nat := leAt i 8 4
/-- DIGEST, byte 0 lowest. -/
def imgDigest (i : List Nat) : Nat := leAt i 12 32
/-- Modulus and signature of block k. -/
def imgMod (i : List Nat) (k : Nat) : Nat := bigNum ((i.drop (64 + 768 * k)).take 384) 0
def imgSig (i : List Nat) (k : Nat) : Nat := bigNum ((i.drop (448 + 768 * k)).take 384) 0
/-- Bytes of the whole image, and its body. -/
def imgSize (i : List Nat) : Nat := 64 + 768 * imgNsig i + imgLen i
def imgBody (i : List Nat) : List Nat := (i.drop (64 + 768 * imgNsig i)).take (imgLen i)
/-- MAGIC, KIND, NSIG and LENGTH in order. -/
def imgForm (kind : Nat) (i : List Nat) : Bool :=
  leAt i 0 4 == 0x4D49584F && imgKind i == kind && (imgNsig i == 1 || imgNsig i == 2) && decide (imgSize i ≤ i.length)
/-- DIGEST is the body's. -/
def imgDigestOk (i : List Nat) : Bool := sha256Num (imgBody i) == imgDigest i
/-- A signature block over bytes 0–63, by the key with a fused hash. -/
def imgBlock (hash k : Nat) (i : List Nat) : Bool := decide (k < imgNsig i) && sigBy hash (imgMod i k) (imgSig i k) (imgHead i)

end Sys2Proof.Machine
end

