-- ==== Sys2Proof/Machine/Factory.lean ====
section
/-! DEFINITION. What stands in the flash of a module as delivered (DESIGN CHOICE, log 18): the spec gives no key and no image, so the model
has a key of its own, and images of an empty body signed with it (a Seif body holds state layout number 0, R361). -/
namespace Sys2Proof.Machine

/-- The modulus of the Auvewick key. -/
def factoryModulus : Nat :=
  0xE720B7F7325521B16851F9DF29EC814DD1865D86AF2B89859F40B4024496E2F76A36EE4A5B08072CF83B8AEDE758F22D5F40D7740CD325A7BD9E04CF159596CD46048D5888A42636C5952F95BB06059FAEDF3CA2CF9B9CEA54A5878C6EFCB3F24DC88E3CB6990974DE9875854CB85E0E77F7D6677C5FAED9278CCEB52228721181D2C0344A26B113E2632EA77FDC289AE22BF9AF9C6567A7711B77B172B355F4865B1DAE3C14B5129528F902EE36183B5B45E76B61E3E8B675CF16C840F925CAC01CD8AA61B83831CC8D85CF8B23E99E66E9A84C46D3E598B68603E353B9A73B0341B70FDE22CB7D4CA673DF8C65796F67CB6C0D517D15A0C3976E17D160472C8EDAD5431C821CF329B7A9469CC34CD305B77CB4402A67BAE4DA954F365274DA1AA8766E77FDA097C3433943782CB582E13A8F5B4A4BF6B6E5E69EDC28B3751DA50507EBD26D1FCDA963F914D3A3AEDC190C97060D5CF00E10C6EEBD7637B654069564ADADB8014892E00E37BBE4D94CCF2F9972E0B69137139160232B2A8565
/-- Its hash as every die has it fused. -/
def factoryKey : Nat := 0x2C2EA6397FBDFB27C49967AB6C9B99E4005B66AC0943C6806793648D144748BA
/-- The signatures over the headers of the images. -/
def factorySig (kind : Nat) : Nat :=
  match kind with
  | 0 => 0xD3A23A48FC37D4E39077823F099D5FA18CE645BF342CDF685E9738272FA386B0DB0C65E1060C92A7A1001F8E3752E9E678B02523752ACC7FEEED61CDA6E9B12CF7BFADB59602FB8436C7F5263580A59BDC3BF27B2E0A74FDB1FFE91DB26E216EC3ECC970D9536EC5F99BDD8FE00737E2191589EEFA32108667D12E30F615BECD1F33C8DC4D3AEC230C4ED4541DC545DC78374579BC84EC4DB83EDDFEAA14800E524C69618889EDA83A2244DDB8C02BE42A0F0B62EB4F8F52F2A7DBD4ABD82B81495A1256A2C6BDA81EE390F509D214D85C68CAAB9AE25DEDF6FF20DEF1B7572EDA608D12D57E643AC6942BB303B53C943D9A0D9AA87F1D5E1BF428DE72FD113901A599B2AA5C2ADA35FCF2C0CBF57C8EAB71A78FCAB43DEAED0EE6557CBA634F1267346537B3E80201F69A32150A182DE01F2F5860966B9C715D5FC8CBCBB4EAF7AD433C2E0FC9DD107AF6CA19D9EDCC5B5B4D8B558464EE61BFDE3FC5ED60F120C870223AB7C86802A92858037993A05ACBCDE30B3DD04ED1AD7300DF74F659
  | 1 => 0xCDBD3967FEAE56684166CC6B91E789166E2589163F9F50CDFD14E311F5BCCB6E6FDB8FCD3FE3570852F0EA9BFC080442D3434BACE05558D3494FDC5D56260DF5B2496C7AE10CC18F33A4EFA7243C447DD5F6C7E4251C6689E270336BB38A1E952F8A06F8E269A644900D32030BF0F48462585E9AA062C4A2412824AC21F393342F1C1603C916BFB1688D01FC46C316F5A9F9CF0F8D25C59F8F072594A86F42453AFC814670BA1C3CF487EB9C56DF4442BB8DD020D1A706C44297DFF400364A6B507BFC62BA1DFC6AC7044128833E9723204DEC1AA782CD6A50D165EFC9A3922E7E9DD2D1F29AF33B759AAF02AC550DCC465C261B0716012223BFF0102DC5E0474FE81D21C9FF17D807BBF9063DFD2D1BA5CCA7EDD26BD5598186D01B796D9F73F84FEFAFBBFD825C049FD2C9DD4A00131EDE3D896CE1F34CA3F7B3C811656A276F3AA9F742C63C140A9EABD0DAABBB110D4F4F07B26AF113F8AEFDC76E9060F4D95DB50A50917873C6E5D1BF00E2EA10D286E51234123B9936653E940205F109
  | 2 => 0xB7321350BEAAEC3B46AF0BE9F5F8E9482A23912A8A2776CC9636F9F2464B6ED6C33BA6754C8DD82F63B2AEA354994C41F66772B08BE059DC6ADCAF35CD4E2AD07E74FF8237B4DA3AB796F14F061EF86E203532B78B20860D490047FE559DCF1FFE55CAF711D3CFAF924C9C3ABEA55A248D5EA921E63B1DAD22B36C18EBCDBE82F3D63A0ABCA15E7E97D97F8AA52B1AAA1CD334D04955847887F23A35C187C19619A2DEAAF87581CDCD3B7DB70CC0F1EE35486F9A40715AEF748382C32064712FA11E2EAC91B24A609EEB269E317EDAD54693305D6CA75FB3369293B7906B76E798E459D9EEF64B47469226F83CBA3999C61C9FC3AB4F59E00F31343A8E7771F061691580867DE5F96C677FD3C230EFB0E4941FAEFCEB345B026F507BEDA99A692A1A745FF044C4C26C6FC40860B906E30756AAD948173ADD37FA34A54695EBA4E14D0656794AF46364750557B59130DEC24709D46C33F06856D90299BF0205522D3FBD4151E508DCCBE833F3955883A76A39B0FF30A522641D506C93E16173A0
  | 0x10 => 0xAE8488659A1C9466D39DC34BB7523D7A30E1418BCBBCEC8F9BF8B80780032FB03025A3323F946DC02FEB0FC88E1C0DF1EFA32F12E3E91B9BC92C1D648A2C00A928074D351082CBCF4136B851395B1DAC9EC07EAEE6B2B39714D52E4678C52FD4E53E0D18F71E52BD709A09CD95F1F1D55B4EAC309B27A078BEC70A925791D2643F588E157EEEB7683E40BB6B5846EC96B857412C3996B433151B553CF008A788AF8B784B9642A651BCD08A6E4EE580A4A9C138ED6A27C77CB83635554E8FD0872F099910336FF4CE9BCC4C18A80C9E56A9609E4B73B62ABF7F9A70A31106C296066F2743AA9903F7542D8793008D0303C83AABBAA6E0F61BA719E5D3153B614BBC0CA937B294C99FB26C96C8F48E13888B1F7E357DA02DC6C081C0F216C5C47FF610B9B159E5D19FD57FE52607467E73156CFFEF95224CA68D59246C6426868F18C27400ECB60282D7A0D216CC32E2861F7FF31353A83EEC5E7843AAE214C8305B8B162F7A1D4BA5C0341FA611CB577638E04C509BFF04E46757C113C9E075E1
  | _ => 0xACB60A3BBAD10D44AC379025341995A899F336022A5ED8A92750ED5C6DE8052786632D5936DBA3495439BEFFEA4B5A486BD32CE7C1F7D42A11F9FFF999DEFF0E164569475902E7CF330250A94898143D4CD3C87B0248A665803870716FB47D69F11C3FF29AC6A498590FF2D25440F54B7B839416CCDEB147FC42BE7B5C72863C866D2ED7B73C11B90BD5F4DD451265675893781F9F9A0FD176744F064539EE6DE479A6041343887F70837DDDFEE227D7205FEEFDFCD5EFECE368DF11CCA20BA690145C53E01A0F1BC122F410487A68C40F15E893F2AF875D00BA053A690AF0110CCD4940603FE8B1FCEEC3A1FFFBAD99321BAC6478859DAD82B05BDE9CCF594D9E3F7A976D805AF369DA3AE0D37B6465D6B5EE22DFC5352E71E6C02D7D0CF3C502E7884FD399992BBB35635156025CC8DD2CF52AA1C767DA1842FAF24C6FA414BD68A75D6D3FBC336FF0030BEABF1DDBD9685284A3904BF096669DB0620DD57BA7C242750CB0206753270673D073975BFFEABB5CBD2307DCE2D9CE5A8627A1C2
def factoryBody (kind : Nat) : List Nat := if kind = 2 then [0, 0, 0, 0] else []
/-- The image of a kind as delivered, SVN 0. -/
def factoryImage (kind : Nat) : List Nat :=
  [0x4F, 0x58, 0x49, 0x4D, kind, 1, 0, 0] ++ leBytes 4 (factoryBody kind).length ++ sha256 (factoryBody kind) ++ List.replicate 20 0 ++
  bigBytes 384 factoryModulus ++ bigBytes 384 (factorySig kind) ++ factoryBody kind
/-- Bytes as the words of a flash bank, from word `a` on. -/
def packWords : Nat → List Nat → Tbl Nat
  | a, b0 :: b1 :: b2 :: b3 :: r => if b0 = 0 ∧ b1 = 0 ∧ b2 = 0 ∧ b3 = 0 then packWords (a + 1) r else (a, leNum [b0, b1, b2, b3]) :: packWords (a + 1) r
  | _, _ => []

end Sys2Proof.Machine
end

