-- ==== Sys2Proof/Machine/State.lean ====
section
/-! DEFINITION. The state of the module as plain data: every register, queue, counter and mode the spec gives it, and the queue
of commands waiting. -/
namespace Sys2Proof.Machine
open Sys2Proof

/-! ## Shared pieces -/

/-- A register file of the module aperture: word values keyed by aperture offset, an unlisted register at its reset word
(`Machine.resetWord`). Lane pages use lane A's offsets in both lanes. -/
abbrev RegFile := Tbl Word

/-- The block states of R33. -/
inductive BState | off | starting | run | stopping | fault
  deriving DecidableEq, Repr

/-- A block with HAS_STATE = 1 (R33–R35): its state, PEND, the EN last written, RST_REQ pending, FORCE_SAFE, PG_STAT.SAFE in effect,
and whether the inrush governor's grant has reached it (R51). -/
structure Blk where
  state : BState := .off
  pend : Bool := false
  en : Bool := false
  rst : Bool := false
  forceSafe : Bool := false
  safe : Bool := false
  granted : Bool := false
  deriving DecidableEq, Repr

/-- The row's clock (R12): ticks since reset, tick in the frame, frame in the second, second of the timebase, and the SEQ of tick 0 (R77). -/
structure TimeSt where
  count : Nat
  tick : Nat
  frame : Nat
  sec : Nat
  seqBase : Nat
  deriving DecidableEq, Repr

/-- One mailbox entry (R40). -/
structure MboxEntry where
  addr : Nat
  data : Word
  mask : Word
  deriving DecidableEq, Repr

/-- A mailbox batch: its tag and entries; `n` of R41. -/
structure MboxBatch where
  tag : Nat
  entries : List MboxEntry
  deriving DecidableEq, Repr

/-- The mailbox reply codes of R43. -/
inductive Reply
  | none | accept | belowMin | aboveMax | step | notLane | presence | locked | tagReuse | disagree | notRun | noLane
  deriving DecidableEq, Repr

/-- The mailbox path outside the lanes: a batch between GO and arrival, the batch that has arrived with its tick T (R41), the tag of
the previous batch, and an accepted batch waiting for its apply tick. -/
structure MboxSt where
  flight : Option MboxBatch
  arrived : Option (MboxBatch × Nat)
  latched : Bool
  prevTag : Option Nat
  accepted : Option (MboxBatch × Nat)
  deriving DecidableEq, Repr

/-- An occurrence reported to a recorder (R345): class, origin, unit, sub-unit, operation, event kind, argument. -/
structure Occ where
  cls : Nat
  origin : Nat
  unit : Nat
  sub : Nat
  op : Nat
  code : Nat
  arg : Nat
  deriving DecidableEq, Repr

/-- An entry of a recorder (R343). `opened` is EFLAGS.OPEN; `code` is the model's number of the event kind, whose CODE bytes are
`Config.eventCode`. -/
structure Entry where
  seq : Nat
  lseq : Nat
  cls : Nat
  origin : Nat
  opened : Bool
  ptpLocked : Bool
  argLast : Bool
  unit : Nat
  sub : Nat
  op : Nat
  code : Nat
  count : Nat
  firstSec : Nat
  firstNs : Nat
  firstTick : Nat
  firstAon : Nat
  temp : Nat
  vin : Nat
  vrail : Nat
  lastSec : Nat
  lastNs : Nat
  lastTick : Nat
  lastAon : Nat
  arg : Nat
  deriving DecidableEq, Repr

/-! ## Power, clocks and the inrush governor -/

/-- A request waiting in the governor: its item, the sequencer cycles it has waited, and whether it bypasses the queue (R56). -/
structure GovReq where
  item : GovItem
  age : Nat
  bypass : Bool
  deriving DecidableEq, Repr

/-- An admitted item in the ledger, with the sequencer cycles left of its surge window (0: ended) (R53). -/
structure GovAdm where
  item : GovItem
  surgeLeft : Nat
  deriving DecidableEq, Repr

/-- The inrush governor (R52–R58): requests raised and not yet sampled, stops recorded and not yet removed, the class queues (in
order of sampling), admitted items, grants on their way with the cycles left, spacing left of the pump and erg classes, the runs of
measured current above the budget and at or below 11.50 A, HOLD and OVER, the class blocked last cycle, the ledger peak, the bypass
count and the summed waiting time. -/
structure GovSt where
  raised : List GovReq
  ended : List GovItem
  queue : List GovReq
  admitted : List GovAdm
  granting : List (GovItem × Nat)
  pumpGap : Nat
  ergGap : Nat
  overRun : Nat
  underRun : Nat
  hold : Bool
  overNow : Bool
  blocked : Nat
  peak : Nat
  bypasses : Nat
  waitTotal : Nat
  deriving DecidableEq, Repr

/-- Power and the package rail (R58, R63, R291–R293, R353): the two feeds, the sequencer supply, the lane rail, the
Xoide–Hervi package rail, SUPPLY_LOW and ONE_FEED, measured input current. -/
structure PwrSt where
  vinA : Nat
  vinB : Nat
  iin : Nat
  seqSupply : Bool
  storage : Bool
  laneRail : Bool
  pkgRail : Bool
  supplyLow : Bool
  oneFeed : Bool
  aonLost : Bool
  holdup : Bool
  deriving DecidableEq, Repr

/-- One die's operating point control (R59–R66): the point in force, cap, thermal and supply limits, the frame-start point, the point the
limits last called for, a step under way and its point, a step waiting on droop, the droop flag, the stretcher, the six throttle durations, droop detections, whether
the frame overruns, and whether the die's work of the frame is marked done. On Hervi the
points are CLK_HERVI_OPP codes. -/
structure DieOpp where
  cur : Nat
  capLim : Nat
  thermLim : Nat
  supplyLim : Nat
  frameStart : Nat
  target : Nat
  stepping : Option Nat
  waiting : Bool
  droop : Bool
  stretch : Bool
  tMax : Nat
  thrTherm : Nat
  thrCap : Nat
  thrDroop : Nat
  thrInrush : Nat
  thrSupply : Nat
  thrOverrun : Nat
  droopEvents : Nat
  overrun : Bool
  frameDone : Bool
  deriving DecidableEq, Repr

/-- Xoide's operating point after reset: OPP7 in force, no limit; Hervi's: its fastest, no limit. -/
def DieOpp.xoide : DieOpp := ⟨7, 0, 0, 0, 0, 7, none, false, false, false, 0, 0, 0, 0, 0, 0, 0, 0, false, false⟩
def DieOpp.hervi : DieOpp := ⟨8, 0, 8, 8, 8, 8, none, false, false, false, 0, 0, 0, 0, 0, 0, 0, 0, false, false⟩

/-! ## Seif lanes -/

/-- Lane states of R81. -/
inductive LaneMode | boot | resync | probation | standby | authority | out
  deriving DecidableEq, Repr

/-- The STATUS message of R72. -/
structure StatusMsg where
  claim : Nat
  mode : LaneMode
  merge : Bool
  linkDown : Bool
  aonLost : Bool
  stFail : Bool
  conserv : Bool
  inputMiss : Bool
  seq : Nat
  hash : Nat
  rhash : Nat
  rot : Nat
  deriving DecidableEq, Repr

/-- The advisory record of an endpoint (R189). -/
structure AdvRec where
  hi : Int := 0
  lo : Int := 0
  hi3 : Int := 0
  rise : Int := 0
  peak : Nat := 0
  flags : Nat := 0
  mapAge : Nat := 0
  headGen : Nat := 0
  deriving DecidableEq, Repr

/-- An advisory (R188); its CRC-32 is over its bytes (`Machine.advBytes`). -/
structure Advisory where
  frame : Nat
  setId : Nat
  setGen : Nat
  sec : Nat
  ns : Nat
  flags : Nat
  nvalid : Nat
  slots : List Int
  recs : Tbl AdvRec
  crc : Nat
  deriving DecidableEq, Repr

/-- The agreed advisory in force (R22, R69) and the tick in which it was latched. -/
structure AdvHeld where
  msg : Advisory
  tick : Nat
  deriving DecidableEq, Repr


/-- The decision record of R395. Bit maps over endpoints, and the endpoint and channel arrays, are sparse tables. -/
structure DecRec where
  seq : Nat
  epoch : Nat
  overPress : Bool
  dewVerdict : Bool
  conserv : Bool
  flowStop : Bool
  dry : Nat
  standbyStart : Bool
  standbyUrgent : Bool
  leak : Nat
  rackOff : Nat
  haboob : Nat
  supSp : Int
  pump : List Nat
  fan : List Nat
  valve : Tbl Nat
  drop : Tbl Bool
  off : Tbl Bool
  warm : Tbl Bool
  cap : Tbl Nat
  deriving DecidableEq, Repr

/-- What a lane still waits for before the end of its tick: the other lane's SELFTEST verdict (R84), its RECORD (R85), or, at the second tick of
silence, a STATUS that arrives in this tick after all (R82). -/
inductive Await | nothing | selftest | record | status
  deriving DecidableEq, Repr

/-- The rotating self-test (R90): the next slice, the ticks since the rotation began, completed rotations, ticks since the last
completed, failed items, whether an item failed in the present rotation, OVERDUE and CLEAR, and the tick of the slice that found a fault. -/
structure RotSt where
  slice : Nat
  ticks : Nat
  done : Nat
  sinceDone : Nat
  items : Nat
  failedNow : Bool
  overdue : Bool
  clear : Bool
  faultTick : Option Nat
  deriving DecidableEq, Repr

/-- A lane command on its way to a lane that does not vote (R93): its code, operand target and apply tick. -/
structure LaneCmdMsg where
  isSec : Bool
  code : Nat
  target : Nat
  apply : Nat
  deriving DecidableEq, Repr


/-! ## Sensing -/

/-- Channel states of R99. -/
inductive ChState | off | valid | suspect | fault | cal | ret
  deriving DecidableEq, Repr

/-- The edges a pulse counter received in one tick: their number and the timestamps of the first and last, in sensor ADC cycles
(R102). -/
structure PulseTick where
  edges : Nat
  tFirst : Nat
  tLast : Nat
  deriving DecidableEq, Repr

/-- A pulse counter: the last W ticks, newest first, and the last edge since reset (R102). -/
structure PulseWin where
  ticks : List PulseTick
  last : Option Nat
  deriving DecidableEq, Repr

/-- One front end (R94, R95): the electrical quantity each of its converters last gave, owned and cross-fed channels alike, keyed
by 32 × group + channel (current in nA, voltage in µV, resistance in mΩ), and its pulse counters. -/
structure FrontEnd where
  elec : Tbl (Option Int)
  pulse : Tbl PulseWin
  deriving DecidableEq, Repr

/-- One channel as the lanes hold it (R99): state, cause, entries into FAULT, whether this tick's sample may be used, value (Q32,
binary point 16), raw codes of both paths, runs of out-of-range and in-range ticks, runs of disagreeing and agreeing copies, ticks of
the RETURN run, ticks spent in CAL, and whether a sample was evaluated in this tick. -/
structure Chan where
  state : ChState := .off
  cause : Nat := 0
  faults : Nat := 0
  used : Bool := false
  value : Int := 0
  rawOwn : Nat := 0
  rawX : Nat := 0
  oorRun : Nat := 0
  oorCause : Nat := 0
  inRun : Nat := 0
  diffRun : Nat := 0
  sameRun : Nat := 0
  pathDiff : Bool := false
  retRun : Nat := 0
  calTicks : Nat := 0
  seen : Bool := false
  deriving DecidableEq, Repr

/-- One pair of R96: runs of ticks outside and within its band, SUSPECT, LOST, the sensor used. -/
structure PairSt where
  outRun : Nat := 0
  inRun : Nat := 0
  suspect : Bool := false
  lost : Bool := false
  usedB : Bool := false
  deriving DecidableEq, Repr

/-- Leak classes of R101. -/
inductive LeakClass | dry | wet | opened | short
  deriving DecidableEq, Repr

/-- One leak channel of R101: its class on each path, the runs of WET or SHORT on each path, the runs of OPEN or SHORT on each path, the
latched verdict. -/
structure LeakCh where
  own : LeakClass := .dry
  cross : LeakClass := .dry
  wetOwn : Nat := 0
  wetX : Nat := 0
  badRun : Nat := 0
  badX : Nat := 0
  verdict : Bool := false
  deriving DecidableEq, Repr

/-- One dew point bus of R104: the sensor polled (0–3) and the ticks since the request was emitted, while a poll is out; the bytes of the last
request. -/
structure DewBus where
  poll : Option (Nat × Nat)
  req : List Nat
  deriving DecidableEq, Repr

/-- One dew point sensor: consecutive missing replies. -/
structure DewSensor where
  miss : Nat := 0
  deriving DecidableEq, Repr

/-- One hot spot of a package (R111): its two codes, the tick at which the present run of disagreement or of agreement began, the
ticks without a valid reading, the SUSPECT mark. -/
structure HotSpot where
  a : Nat := 0xFFFF
  b : Nat := 0xFFFF
  diffFrom : Option Nat := none
  sameFrom : Option Nat := none
  noneRun : Nat := 0
  suspect : Bool := false
  deriving DecidableEq, Repr

/-- The last summary latched from a package (R110): its MAP_SEQ, hot spot count and latch tick. -/
structure Summary where
  mapSeq : Nat := 0
  hot : Nat := 0
  tick : Option Nat := none
  deriving DecidableEq, Repr

/-- A forwarded summary waiting for P1 (R110). -/
structure SummaryIn where
  endpoint : Nat
  mapSeq : Nat
  hot : Nat
  codes : List Nat
  deriving DecidableEq, Repr

/-- The sensing state both lanes hold in step (R94–R111): channels keyed by 32 × group + channel, pairs, leak channels 0–31, dew
point buses and sensors, the dew point run, verdict and floor, hot spots keyed by 8 × endpoint + index, and summaries. -/
structure SensSt where
  chan : Tbl Chan
  pairs : List PairSt
  leak : Tbl LeakCh
  dewBus : List DewBus
  dewMiss : Tbl DewSensor
  dewRun : Nat
  dewVerdict : Bool
  dewMax : Int
  dewValid : Nat
  dewFixed : Bool
  dewFloor : Int
  hot : Tbl HotSpot
  summ : Tbl Summary
  summIn : List SummaryIn
  missingPkg : Nat
  suspectPkg : Nat
  deriving DecidableEq, Repr, Inhabited

/-- Phases of a calibration commit (R114). -/
inductive CalPhase | idle | staging | checking | writing | ready | failed
  deriving DecidableEq, Repr

/-- A lane's calibration store (R112–R116): the set in force as 32-bit words of its image (an unlisted word reads as the factory
image's), its generation and length, the staging area, phase, FAIL_CODE, RESULT, the ticks since the apply tick of COMMIT, whether a
foreign SERIAL is accepted, and the channel whose LEAVE is being committed. -/
structure CalSt where
  set : Tbl Nat
  len : Nat
  stage : Tbl Nat
  phase : CalPhase
  failCode : Nat
  result : Nat
  age : Nat
  foreign : Bool
  leaveCh : Option Nat
  switchDue : Bool
  calResult : Nat
  deriving DecidableEq, Repr

/-- Xoide's telemetry ingest (R109, R20): the two frame buffers of point codes keyed by 1,024 × endpoint + point (an unlisted point
reads FFFFh), which one is written, the last MAP_SEQ accepted keyed by 2 × endpoint + segment, duplicates counted, the segments that arrived in
the open frame by endpoint (bit k: segment k) and the summary of its segment 0. -/
structure Ingest where
  buf0 : Tbl Nat
  buf1 : Tbl Nat
  sel : Bool
  lastSeq : Tbl (Option Nat)
  dups : Nat
  arr : Tbl Nat
  summ : Tbl (List Nat)
  deriving DecidableEq, Repr

/-- A package power agent as the module's obligations bind it (R108): whether it sends to the other port, the tick of the last beacon
from its home port, and the tick its present run of beacons began. -/
structure Agent where
  away : Bool := false
  last : Option Nat := none
  runFrom : Option Nat := none
  deriving DecidableEq, Repr

def Ingest.init : Ingest := ⟨[], [], false, [], 0, [], []⟩

/-- What the other lane's INPUT message brought (R69, R71, R106): the tick, the advisory it holds (frame number, digest, whether one is held or
new, the tick it was latched in), its calibration phase with the generation and CRC of that set, the owner-path values and STAT bytes of its own
channels, and beside them what its front end sampled, on which R99 works. -/
structure InputMsg where
  tick : Nat
  fe : FrontEnd
  advFrame : Nat
  advCrc : Nat
  advHeld : Bool
  advNew : Bool
  advTick : Nat
  calPhase : CalPhase
  calGen : Nat
  calCrc : Nat
  vals : List Int
  stat : List Nat
  deriving DecidableEq, Repr

/-- The part of a lane that is its own: its role, claim, hashes, comparison, self-tests, rotation, resynchronisation and link. -/
structure LaneCore where
  mode : LaneMode
  bootDone : Bool
  admitted : Bool
  bootWait : Nat
  probRun : Nat
  mergeEndDue : Bool
  mergeDue : Bool
  stDue : Bool
  gen : Nat
  claim : Nat
  otherClaim : Nat
  seq : Nat
  hash : Nat
  rhash : Nat
  mismatch : Nat
  equalRun : Nat
  stCount : Nat
  stFails : Nat
  stLast : Nat
  stOwn : Option Bool
  cause : Nat
  takeovers : Nat
  merge : Bool
  mergeStart : Nat
  bothFail : Bool
  stFail : Bool
  linkDown : Bool
  aonLost : Bool
  inputMiss : Bool
  missRun : Nat
  goodRun : Nat
  statusIn : Option StatusMsg
  statusLast : Option StatusMsg
  statusOwn : Option StatusMsg
  inputIn : Option InputMsg
  advOwn : Option AdvHeld
  advPend : Option AdvHeld
  inmPend : Bool
  markTick : Option Nat
  selftestIn : Option Bool
  selftestOut : Option Bool
  recordOut : Option DecRec
  await : Await
  stTick : Option Nat
  rot : RotSt
  serving : Option Nat
  chunks : Nat
  logs : Nat
  copyFails : List Nat
  cmdResult : Nat
  secResult : Nat
  cmdIn : Option LaneCmdMsg
  cmdWait : Option LaneCmdMsg
  takeoverCmd : Bool
  linkErrCrc : Nat
  linkMissing : Nat
  verdictOwn : List Reply
  verdictIn : Option (List Reply)
  verdictWait : Bool
  playaSawA : Bool
  playaSawB : Bool
  deriving DecidableEq, Repr

/-! ## The loop engine -/

/-- One coefficient bank (R128): descriptor words keyed by 18 × loop + word (LOOP_CFG is word 0), gain table words keyed by
192 × loop + 3 × entry + (0 X, 1 G, 2 S). An unlisted word is 0. -/
structure LoopBank where
  words : Tbl Nat
  lut : Tbl Nat
  deriving DecidableEq, Repr, Inhabited

/-- One loop's live state (R120–R127): last output, integrator, last process value, and the other signals of its last run; status
bits; following-error count and trip; whether its next run is a first run, whether it has not run since the last bank swap, and whether
it has not run since a boot that makes its first run bumpless (R355). -/
structure LoopRun where
  u : Int := 0
  i : Int := 0
  pv : Int := 0
  sp : Int := 0
  err : Int := 0
  g : Int := 0
  p : Int := 0
  d : Int := 0
  path : Nat := 0
  ran : Bool := false
  sat : Bool := false
  iClamp : Bool := false
  outClamp : Bool := false
  clampHigh : Bool := false
  slew : Bool := false
  pvLost : Bool := false
  overridden : Bool := false
  feTrip : Bool := false
  feCnt : Nat := 0
  first : Bool := true
  swapped : Bool := false
  boot : Bool := false
  deriving DecidableEq, Repr

/-- Trace states of R134. -/
inductive TraceState | idle | armed | triggered | frozen
  deriving DecidableEq, Repr

/-- The trace (R134–R136): state, samples keyed by 4,096 × channel + position, the next position, samples recorded since ARM, samples
still to record after the trigger, trigger tick, last samples, a FORCE pending, the block published. -/
structure TraceSt where
  state : TraceState
  buf : Tbl Nat
  pos : Nat
  count : Nat
  left : Nat
  tick : Nat
  prev : List Nat
  force : Bool
  deriving DecidableEq, Repr

/-- A LOOP_OUT message (R124). -/
structure LoopOutMsg where
  destType : Nat
  dest : Nat
  claim : Nat
  seq : Nat
  duty : Nat
  deriving DecidableEq, Repr

/-- The loop engine (R117–R137): both banks, which is active, CHECKED, the last failure, the CRC of the last check, swaps, the tick of
an armed SWAP_AT, a swap due at the next boundary, a swap carried by a staged transaction, a command whose check is due in P4, the
RESULT, the loops, and the destinations P5 overrode in the previous tick (keyed 64 × type + channel). -/
structure LoopSt where
  bank0 : LoopBank
  bank1 : LoopBank
  active : Nat
  checked : Bool
  badCode : Nat
  badLoop : Nat
  crc : Nat
  swaps : Nat
  armedAt : Option Nat
  swapNext : Bool
  txnSwap : Bool
  checkDue : Option Nat
  result : Nat
  run : Tbl LoopRun
  overNow : Tbl Bool
  outs : List LoopOutMsg
  tripped : List Nat
  swappedNow : Bool
  deriving DecidableEq, Repr, Inhabited

/-! ## Xoide -/

/-- An exact value of the arithmetic of R148: NaN, an infinity, or ± m × 2^e (a zero keeps its sign). -/
inductive XV
  | nan
  | inf (neg : Bool)
  | fin (neg : Bool) (m : Nat) (e : Int)
  deriving DecidableEq, Repr

/-- An MX block register (R144): the exact sum of the opening pass, the exponent of the two scales, and whether a scale is NaN. -/
structure MxReg where
  sum : XV := .fin false 0 0
  scale : Int := 0
  nan : Bool := false
  deriving DecidableEq, Repr

/-- A weight buffer (R143): the bytes of its block (none: never loaded), the weight scale of each column, the ALT of the LDW that loaded it
(R145), the cycle it is usable from, and the cycle the last MM that reads it stops issuing rows. -/
structure WBuf where
  bytes : List Nat := []
  scales : List Nat := []
  alt : Bool := false
  ready : Nat := 0
  busy : Nat := 0
  deriving DecidableEq, Repr

/-- A result whose verdict is outstanding (R159): the instruction index, the half it comes from (ERG_RESIDUE.HALF), the cycle the verdict
arrives and how long after issue that is. -/
structure OutRes where
  pc : Nat
  half : Nat
  due : Nat
  lat : Nat
  deriving DecidableEq, Repr

/-- A tile (R139): SRAM by 64-bit word, whether it runs a program, stands at BAR, has ended, is stopped by a mismatch or has met the end of
its run, its job, program counter, OA OB SA SB SR BPA BPB BPO and LC0–LC7, weight buffers, accumulator entries (16 × row + column), block
registers, outstanding results, the results to replay,
the half and the instruction of an order check that failed, the cycle the last verdict came in, and its cycle bookkeeping: the next cycle to
issue in, the cycles from which the array, port W and the vector unit are free, the cycle its transfers are complete in, and the cycle each
accumulator row is readable from. -/
structure Tile where
  sram : Tbl Nat := []
  running : Bool := false
  bar : Bool := false
  ended : Bool := false
  stopped : Bool := false
  job : Nat := 0
  pc : Nat := 0
  regs : List Nat := List.replicate 16 0
  wb0 : WBuf := {}
  wb1 : WBuf := {}
  acc : Tbl Nat := []
  mx : Tbl MxReg := []
  outst : List OutRes := []
  replay : List OutRes := []
  orderBad : Option (Nat × Nat) := none
  verd : Nat := 0
  cyc : Nat := 0
  arrFree : Nat := 0
  wFree : Nat := 0
  vecFree : Nat := 0
  xferFree : Nat := 0
  accRdy : Tbl Nat := []
  deriving DecidableEq, Repr

/-- A job in a frame (R177, R178, R183): its STATE of XJOB_JSTAT, whether a restart ran, its fail code, replays, consecutive frames FAILED,
residue mismatches of the run, the cause that has ended the run, which copy of its recurrent state is the committed one, whether
its stage-in list ran before the boundary (R20), and the energy of its last run in 10⁻⁴ pJ. -/
structure JobRun where
  state : Nat := 0
  restarted : Bool := false
  failCode : Nat := 0
  replays : Nat := 0
  failRun : Nat := 0
  mism : Nat := 0
  endCause : Option Nat := none
  copy : Bool := false
  staged : Bool := false
  energy : Nat := 0
  deriving DecidableEq, Repr

/-- A package's residual head (R185, R186): generation, steps since the last check, consecutive rejections, the frame until which
adaptation is held, an accepted candidate that becomes the head in use at the next boundary, and which of the two copies in tile SRAM is in
use. -/
structure HeadSt where
  gen : Nat := 0
  steps : Nat := 0
  rejects : Nat := 0
  held : Option Nat := none
  accepted : Bool := false
  copy : Bool := false
  deriving DecidableEq, Repr

/-- The decimated history's running group of one endpoint (R168): largest, smallest, sum and number of valid codes of each hot spot, sum
and number of valid codes of points 32i, frames with a valid map. -/
structure DecAcc where
  hi : List Nat := List.replicate 8 0
  lo : List Nat := List.replicate 8 0xFFFF
  sum : List Nat := List.replicate 8 0
  num : List Nat := List.replicate 8 0
  psum : List Nat := List.replicate 32 0
  pnum : List Nat := List.replicate 32 0
  frames : Nat := 0
  deriving DecidableEq, Repr

/-- Xoide (R138–R192): whether its firmware runs, tiles, the two memories by 64-bit word index, full-rate and decimated history slots,
stored error patterns (bits flipped + 4 with AF inverted) by XA word, an armed injection, which job table is active, the jobs and what
XJOB_JSTAT shows, the active set, the set in fitting and the fitted one, the endpoints of the row
configuration passed with the set in fitting and with the active one (R194), the armed frame, the swap window's state and the frame in which an abandoned swap's old images come back, whether the frame may post no advisory, whether the
frame's jobs are open, its advisory, adaptation, map ages, heads, ergs whose images are to be reloaded in this frame and in the next, energies, the fraction
of a tile cycle not yet counted in ERG_CYCLES, scrub and decimation positions. -/
structure XoideSt where
  up : Bool
  tiles : Tbl Tile
  shared : Tbl Nat
  lp : Tbl Nat
  hist : Tbl (Option (Tbl Nat))
  dhist : Tbl (Option (Tbl Nat))
  errs : Tbl Nat
  inject : Option (Nat × Nat × Nat × Bool)
  tableB : Bool
  jobs : Tbl JobRun
  jlast : Tbl Nat
  active : Option Manifest
  fitting : Option Manifest
  fitted : Option Manifest
  fitRow : List Nat
  actRow : List Nat
  armed : Option Nat
  copying : Bool
  copied : Bool
  copyBack : Option Nat
  barred : Bool
  frameOn : Bool
  posted : Bool
  slowed : Bool
  underfit : Bool
  adv : Option Advisory
  setGen : Nat
  adapting : Bool
  adaptDone : Bool
  lastAdapt : Option Nat
  share : Nat
  nextPkg : Nat
  mapAge : Tbl Nat
  heads : Tbl HeadSt
  reload : Nat
  reloadNew : Nat
  eInt : Nat
  eFrame : Nat
  scrub : Nat
  decs : Tbl DecAcc
  thermStop : Bool
  deriving DecidableEq, Repr

/-- Xoide before its firmware runs: nothing loaded. -/
def XoideSt.init : XoideSt :=
  { up := false, tiles := [], shared := [], lp := [], hist := [], dhist := [], errs := [], inject := none, tableB := false, jobs := [], jlast := [],
    active := none, fitting := none, fitted := none, fitRow := [], actRow := [], armed := none, copying := false, copied := false, copyBack := none, barred := false,
    frameOn := false, posted := false, slowed := false, underfit := false, adv := none, setGen := 0, adapting := false, adaptDone := false,
    lastAdapt := none, share := 0, nextPkg := 0, mapAge := [], heads := [], reload := 0, reloadNew := 0, eInt := 0, eFrame := 0, scrub := 0,
    decs := [], thermStop := false }

/-! ## Power caps -/

/-- One endpoint of the cap engine (R193–R201, R286): the cap in force C_e, the ceiling CEIL_e, the binding source and the frames it
has been binding, a drop in force with the tick of its emission, the lowest drop emitted since the pending transaction was staged,
whether a drop of it was ever emitted, OFF with the runs that set and clear it, idleness and the warm floor. -/
structure EpCap where
  c : Nat := 0x640
  ceil : Nat := 0x640
  bind : Nat := 1
  bindFrames : Nat := 0
  dropped : Bool := false
  dropTick : Nat := 0
  since : Option Nat := none
  hot : Bool := false
  off : Bool := false
  tripRun : Nat := 0
  coolRun : Nat := 0
  idleRun : Nat := 0
  idle : Bool := false
  warmOn : Bool := false
  deriving DecidableEq, Repr

/-- A Haboob frame (R206) and the tick that decided it. -/
structure HabFrame where
  racks : Nat
  cause : Nat
  off : Bool
  hseq : Nat
  tick : Nat
  deriving DecidableEq, Repr

/-- The cap engine of a lane (R193–R206, R215–R218): the table words in force, words applied and waiting for the decision tick (keyed
4 × endpoint + table), BUDGET words held under GATHER, GATHER and the tick it was last written 1, a row configuration write waiting,
the row configuration in force, the endpoints, the lowest drop of each group in this frame, a FOLLOW due with its tick, this tick's
drops and follow-ups, the last Haboob frame, the Haboobs still sent in this tick (newest first), HSEQ, racks with a Haboob in force, binding times, the snapshot position, racks whose
return setpoint carries the idle trim, and the targets decided in this tick and not yet staged (endpoint, T_e, the source that will bind). -/
structure CapSt where
  budget : Tbl Nat
  limits : Tbl Nat
  therm : Tbl Nat
  group : Tbl Nat
  next : Tbl (Option Nat)
  held : Tbl (Option Nat)
  gather : Bool
  gatherTick : Nat
  rowDirty : Bool
  nrack : Nat
  nslot : List Nat
  ep : Tbl EpCap
  fd : Tbl (Option Nat)
  follow : Option (Nat × List (Nat × Nat))
  drops : List (Nat × Nat)
  follows : List (Nat × Nat)
  haboob : Option HabFrame
  habSent : List HabFrame
  hseq : Nat
  habRacks : Nat
  bindTime : List Nat
  snapPos : Nat
  trimRacks : Nat
  staged : List (Nat × Nat × Nat)
  deriving DecidableEq, Repr, Inhabited

/-- One record of a CAP frame (R204). -/
structure CapRec where
  capNow : Nat := 0
  capNext : Nat := 0
  dropCap : Nat := 0
  holdCap : Nat := 0
  warm : Nat := 0
  member : Bool := false
  off : Bool := false
  dropped : Bool := false
  bind : Nat := 0
  deriving DecidableEq, Repr

/-- One DROP frame (R205): entries, and for a FOLLOW frame APPLY_SEQ, APPLY_SEC and APPLY_NS. -/
structure DropFrame where
  entries : List (Nat × Nat)
  follow : Option (Nat × Nat × Nat)
  deriving DecidableEq, Repr

/-- One ABORT frame (R226). -/
structure AbortFrame where
  epoch : Nat
  applySeq : Nat
  cause : Nat
  nmiss : Nat
  firstMiss : Nat
  deriving DecidableEq, Repr

/-- What a lane sends on both Ethernet ports in a tick (R77, R202, R226): header fields, the Haboob frames, DROP frames, the fields
common to the CAP frames, the CAP records by endpoint, ABORT frames. `pend` holds EPOCH_NEXT, APPLY_SEC, APPLY_NS, APPLY_SEQ. -/
structure EthOut where
  claim : Nat
  seq : Nat
  merged : Bool
  conserv : Bool
  node : Nat
  tstamp : Nat
  haboob : List HabFrame
  drops : List DropFrame
  nrec : List Nat
  habRacks : Nat
  offRacks : Nat
  timeFree : Bool
  epochNow : Nat
  pend : Option (Nat × Nat × Nat × Nat)
  slew : Nat
  recs : Tbl CapRec
  aborts : List AbortFrame
  deriving DecidableEq, Repr

/-- A frame a receiver acts on (R79): CAP with the receiver's record, DROP with its value if it has an entry and its TIME_FREE,
HABOOB, ABORT, a claim beacon. -/
inductive RxBody
  | cap (rec : CapRec) (hab rackOff timeFree : Bool) (pend : Option (Nat × Nat × Nat × Nat)) (slew : Nat)
  | drop (cap : Option Nat) (follow : Option (Nat × Nat × Nat)) (timeFree : Bool)
  | haboob (named off : Bool) (hseq : Nat)
  | abort (epoch : Nat)
  | beacon
  deriving DecidableEq, Repr

/-- A frame at a receiver: TYPE, SEG, claim, SEQ, EMERGENCY, body. -/
structure RxFrame where
  typ : Nat
  seg : Nat
  claim : Nat
  seq : Nat
  emergency : Bool
  port : Nat
  body : RxBody
  deriving DecidableEq, Repr

/-- The ACK of R223; `ports` is the bit map of the ports whose source MAC addresses it is sent to (R222). -/
structure AckMsg where
  endpoint : Nat
  epoch : Nat
  cap : Nat
  ptpLocked : Bool
  again : Bool
  seq : Nat
  ports : Nat
  deriving DecidableEq, Repr

/-- A package power agent as a receiver of caps (R79, R207–R214): whether it has acted on a CAP frame since its start (or since it
reverted), C, C at the last frame boundary and at the one before it, whether a record was acted on since the last boundary, the power it keeps
at least (0 none), AUTH, the last SEQ acted on by 256 × TYPE + SEG, frames held, its pending transaction
(epoch, CAP_NEXT, APPLY_SEC, APPLY_NS, APPLY_SEQ), the lowest drop acted on since the prepare, FOLLOW entries with their apply times,
aborted epochs, Haboobs acted on with their ticks, its last record's DROP_CAP, HOLD_CAP, WARM, SLEW and CAP_NOW, shutdown requested, the tick of the
last CAP frame acted on, the tick of the last frame acted on, whether the present HOLD by silence is in force, its clock's lock, the
ports that brought CAP frames, the epoch and SEQ of its last ACK with the count sent and the ticks of the first and the last, and the ACKs on their way. -/
structure Recv where
  acted : Bool := false
  c : Nat := 0xFFFF
  cBound : Nat := 0xFFFF
  cPrev : Nat := 0xFFFF
  newRec : Bool := false
  keep : Nat := 0
  auth : Option Nat := none
  lastSeq : Tbl (Option Nat) := []
  holds : List RxFrame := []
  pend : Option (Nat × Nat × Nat × Nat × Nat) := none
  since : Option Nat := none
  follow : List (Nat × Nat × Nat × Nat) := []
  aborted : List Nat := []
  hseqs : List (Nat × Nat) := []
  dropCap : Option Nat := none
  holdCap : Nat := 0
  warm : Nat := 0
  slew : Nat := 0
  capNow : Nat := 0
  shutdown : Bool := false
  lastCap : Option Nat := none
  lastAct : Option Nat := none
  silent : Bool := false
  locked : Bool := false
  timeFree : Bool := false
  ports : Nat := 0
  ackEpoch : Nat := 0
  ackCount : Nat := 0
  ackSeq : Nat := 0
  ackFirst : Nat := 0
  ackLast : Nat := 0
  ackOut : List AckMsg := []
  deriving DecidableEq, Repr


/-! ## Slipface -/

/-- One item of the actuator part (R228): KIND, PAGE, channel or live offset, value. -/
structure ActItem where
  kind : Nat
  page : Nat
  chan : Nat
  value : Nat
  deriving DecidableEq, Repr

/-- A transaction (R219–R229): epoch, the ticks P and A, APPLY_SEQ; members with T_e, their binding sources; actuator items decided by
P5; pages of a host request; whether it carries a bank swap, a host request, a restatement and of which chips; endpoints acknowledged
and mismatched; its phase (0 ended, 1 prepared, 2 COMMIT decided, 3 aborted); abort cause and tick, members missing and the lowest. -/
structure Txn where
  epoch : Nat
  p : Nat
  a : Nat
  aseq : Nat
  members : Tbl (Option Nat)
  binds : Tbl (Option Nat)
  items : List ActItem
  pages : List Nat
  swap : Bool
  host : Bool
  restate : List Nat
  acked : Tbl Bool
  mism : Tbl Bool
  phase : Nat
  cause : Nat
  abortTick : Nat
  nmiss : Nat
  first : Nat
  deriving DecidableEq, Repr

/-- The Slipface engine of a lane (R219–R230): the transaction last staged, aborted transactions whose ABORT frames are due, epochs
staged with their A, the last epoch staged and the last committed, a host request waiting with its SWAP, the pages, swap and
host request that a protective action's abort leaves for the next decision tick, the RESULT and epoch of the host request, SPLIT
and the chips to restate, the last boundary A with the epoch committed, LAST, CAUSE, the three counters, late ACKs and the lowest
member missing at the deadline, ACKs received in the tick (endpoint, epoch, CAP, tick of the last byte). -/
structure SlipSt where
  cur : Option Txn
  aborted : List Txn
  recent : List (Nat × Nat)
  lastEpoch : Nat
  epochNow : Nat
  hreq : Option (List Nat × Bool)
  redo : Option (List Nat × Bool × Bool)
  hres : Nat
  hepoch : Nat
  split : Bool
  splitChips : List Nat
  lastA : Option (Nat × Nat)
  lastOut : Nat
  cause : Nat
  commits : Nat
  aborts : Nat
  splits : Nat
  late : Nat
  firstMiss : Nat
  acks : List (Nat × Nat × Nat × Nat)
  deriving DecidableEq, Repr, Inhabited


/-! ## Playa: valve banks, fans, pumps -/

/-- The actuator frame of R249, with its Slipface section (R228): OP, APPLY_SEQ16, EPOCH and items. Valve items are (channel, value
word of R240). -/
structure ActFrame where
  merged : Bool
  conserv : Bool
  posLoad : Bool
  claim : Nat
  seq : Nat
  bankEn : Nat
  bankSafe : Nat
  chEn : Tbl Bool
  pos : Tbl Nat
  pump : List Nat
  fan : List Nat
  items : List (Nat × Nat)
  op : Nat
  applySeq16 : Nat
  epoch : Nat
  slip : List ActItem
  deriving DecidableEq, Repr

/-- A class I candidate (R242): the command's value word, and the claim, MERGED and SEQ of the frame that brought it. -/
structure Cand where
  value : Nat
  claim : Nat
  merged : Bool
  seq : Nat
  deriving DecidableEq, Repr

/-- One valve channel of Playa (R234–R248): position (0 UNKNOWN, 1 OPEN, 2 CLOSED), phase (0 IDLE, 1 BOOST, 2 PEAK, 3 HOLD), WAIT,
FAULT, candidate, last recorded and last ignored CMD_ID, RESULT, DIAG (bits SLOW, NO_PEAK, CUT, HOLD_END), time-to-peak, time of the
last MOVED verdict, the value word of the recorded command, the verdict of the running profile (none, NO_MOVE, MOVED), its number
with the values latched as its BOOST started (R235: BOOST_I, effective peak and hold in 10 mA, BOOST_T in TU, PEAK_T and HOLD_T in ms), the order in
which its HOLD began, MOVED verdicts of the chip's life. -/
structure VCh where
  pos : Nat := 0
  phase : Nat := 0
  wait : Bool := false
  fault : Bool := false
  cand : Option Cand := none
  cmdId : Nat := 0
  ignId : Nat := 0
  result : Nat := 0
  diag : Nat := 0
  ttp : Nat := 0xFF
  moveT : Nat := 0
  value : Nat := 0
  verdict : Option Bool := none
  profile : Nat := 0
  boostI : Nat := 0
  boostT : Nat := 0
  peakI : Nat := 0
  peakT : Nat := 0
  holdI : Nat := 0
  holdT : Nat := 0
  holdSeq : Nat := 0
  strokes : Nat := 0
  deriving DecidableEq, Repr

/-- One valve bank (R232, R238, R243, R244): rail in 0.1 V, converter recharging, its governor request out, the queue of channels
(protective commands first), IGNORED and REFUSED, the last refusal, the next HOLD order, BANK_EN as last taken from a frame (R250). -/
structure VBank where
  rail : Nat := 0
  recharge : Bool := false
  request : Bool := false
  queue : List Nat := []
  ignored : Nat := 0
  refused : Nat := 0
  refCh : Nat := 0
  refCause : Nat := 0
  refTick : Nat := 0
  holdNext : Nat := 0
  en : Bool := false
  deriving DecidableEq, Repr

/-- One fan channel (R255–R261, R270): the duty field received, applied duty and duty of the last boundary, state as byte 5 of R271
(0 RUN, 1 START, 2 KICK, 3 TACH_LOST, 4 BLOCKED, 5 OFF), kick number, edges counted in the window or kick and its start, tick of the
last edge, ticks at stall current, tick the present run of regular edges began, current, speed, tachometer window, SLOW with its runs,
output released, whether its group was RAISED in the last shaping, compare register loaded. -/
structure FanCh where
  field : Nat := 0x8000
  applied : Nat := 0
  db : Nat := 0
  state : Nat := 5
  kick : Nat := 0
  edges : Nat := 0
  start : Nat := 0
  lastEdge : Nat := 0
  stallRun : Nat := 0
  goodFrom : Option Nat := none
  cur : Nat := 0
  rpm : Option Nat := none
  tach : PulseWin := ⟨[], none⟩
  tick : PulseTick := ⟨0, 0, 0⟩
  slow : Bool := false
  slowRun : Nat := 0
  fastRun : Nat := 0
  released : Bool := false
  raised : Bool := false
  compare : Nat := 0
  deriving DecidableEq, Repr

/-- One pump channel (R255, R258, R259, R265–R268): duty field, applied duty and duty of the last boundary, start requested,
a grant seen by a tick boundary (R258), tachometer, TACH_LOST with the tick of the last edge, of the run of regular edges and the ticks without an edge while the drive runs, Modbus registers 0000h–0005h, missing replies,
polls since the last good reply, MB_LOST, LOSS_CFG_BAD, the tick of the last loss-configuration poll, a firmware Modbus command waiting and its
stage, output released, compare register. -/
structure PumpCh where
  field : Nat := 0x8000
  applied : Nat := 0
  db : Nat := 0
  requested : Bool := false
  ramp : Bool := false
  rpm : Option Nat := none
  tach : PulseWin := ⟨[], none⟩
  tick : PulseTick := ⟨0, 0, 0⟩
  lastEdge : Nat := 0
  goodFrom : Option Nat := none
  noEdge : Nat := 0
  tachLost : Bool := false
  mb : List Nat := [0, 0, 0, 0, 0, 0]
  missRun : Nat := 0
  age : Nat := 0xFF
  mbLost : Bool := false
  lossBad : Bool := false
  lossRead : Option Nat := none
  released : Bool := false
  compare : Nat := 0
  deriving DecidableEq, Repr

/-- What a Modbus request out on a pump bus asks (R266, R268). -/
inductive MbKind | status | lossRead | setLoss | readBack | write
  deriving DecidableEq, Repr

/-- A firmware Modbus command (PUMP_MB_CMD): pump, its kind, LOSS_MS or register and value. -/
structure MbCmd where
  pump : Nat
  kind : MbKind
  reg : Nat
  value : Nat
  deriving DecidableEq, Repr

/-- The pump bus of a chip (R266): the request out (pump of the chip, kind, ticks since its start), firmware commands waiting,
PUMP_MB_CMD.RESULT. -/
structure MbBus where
  out : Option (Nat × MbKind × Nat)
  cmd : Option MbCmd
  result : Nat
  deriving DecidableEq, Repr

/-- A Playa chip (R80, R228, R232, R240–R263): frames received in the tick from lane A and lane B, CRC failures seen, the claim and SEQ
chosen at the last boundary, consecutive boundaries without a chosen frame, WDOG, POS_LOST, the epoch committed at the last boundary,
the committed items of the frame chosen for tick A−2, its six banks, channels keyed by module channel, fans keyed by module channel,
its two pumps, the pump bus, the live RWS words homed in it, whether it is powered. -/
structure Chip where
  rxA : Option ActFrame
  rxB : Option ActFrame
  badCrc : Bool
  sawA : Bool
  sawB : Bool
  chosen : Option (Nat × Nat)
  auth : Nat
  silent : Nat
  wdog : Bool
  posLost : Bool
  epoch : Nat
  prevSlip : Option (Nat × Nat × List ActItem)
  banks : Tbl VBank
  ch : Tbl VCh
  fans : Tbl FanCh
  pumps : Tbl PumpCh
  mb : MbBus
  live : RegFile
  powered : Bool
  deriving DecidableEq, Repr

/-- A status report of a chip (R251, R271): the chip as of the report, the states of its banks then, and STATE and
GRANTED of its pumps. -/
structure ChipRep where
  chip : Chip
  bankState : List BState
  bankSafe : List Bool
  pumpState : List BState
  pumpGranted : List Bool
  deriving DecidableEq, Repr

/-- A valve command the lanes are carrying out (R240, R245): target, STRONG, PROT, phase (0 new, 1 sent, 2 to be sent again), CMD_ID,
emissions left, tick of the last emission, whether it ended NO_MOVE once. -/
structure Want where
  tgt : Nat
  strong : Bool
  prot : Bool
  phase : Nat
  id : Nat
  left : Nat
  last : Nat
  tries : Nat
  deriving DecidableEq, Repr

/-- The lanes' side of the actuators (R240, R241, R245, R249, R258, R262, R265): status reports received in the tick and latched, tracked
positions, last CMD_ID of each channel, commands being carried out, stuck valves with their target, duty fields of the last frame and
the last duties decided, whether a rule has started the standby pump and as a bypass, pumps stopped by a dry-run verdict, ticks of grant
and of duty 0 of each pump, valve items of the tick, destinations whose loop output P5 overrode, strokes of each channel. -/
structure ActSt where
  repIn : List (Nat × ChipRep)
  rep0 : Option ChipRep
  rep1 : Option ChipRep
  tracked : Tbl Nat
  cid : Tbl Nat
  want : Tbl (Option Want)
  stuck : Tbl Nat
  pumpF : List Nat
  fanF : List Nat
  lastPump : List Nat
  lastFan : List Nat
  sbOn : Bool
  sbBypass : Bool
  grantTick : List (Option Nat)
  zeroTick : List (Option Nat)
  items : List (Nat × Nat)
  strokes : Tbl Nat
  standbyNow : Bool
  standbyUrgent : Bool
  deriving DecidableEq, Repr, Inhabited


/-! ## Protection -/

/-- A verdict of 8 (or 41) consecutive ticks with its release (R277, R278, R284, R285): standing, the tick it was entered, the runs
towards entry and towards release, whether its shutdown timer has expired. -/
structure Latch where
  on : Bool
  since : Nat
  onRun : Nat
  offRun : Nat
  shut : Bool
  deriving DecidableEq, Repr, Inhabited

/-- The protection rules of a lane (R272–R293): the four verdicts with timers, flow decline with its runs and the pair 5 readings of
the last 1,024 ticks (newest first), racks with RACK_OFF, isolated, blind, with a leak Haboob, of the operator Haboob, CDU leak
positions, racks whose trims close next tick, racks reopening (request sent), dry-run verdicts and their three runs per pump, hold-up
(latched, tick H, episodes), dew override and breach, pair 5 LOST, STUCK, ONE_FEED, a PROT_CMD due in P5 with its rack, RESULT, Q_cmd
(Q16 L/min), the setpoint override in force (loop, Q16), Haboobs decided since the last Haboob frame (racks, cause, OFF), and whether a HANDOVER is latched (R368). -/
structure ProtSt where
  flowStop : Latch
  pressHi : Latch
  pressMax : Latch
  supOver : Latch
  flowDecl : Bool
  eRun : Nat
  nRun : Nat
  win : List Int
  roff : Nat
  iso : Nat
  blind : Nat
  cdu : Nat
  leaks : Nat
  leakHab : Nat
  op : Nat
  tclose : List Nat
  reopen : Nat
  reopenSent : Nat
  dry : Nat
  dryAB : List Nat
  dryA : List Nat
  dryB : List Nat
  hup : Bool
  hTick : Option Nat
  hCount : Nat
  dewAbs : Nat
  dewOn : Bool
  breachRun : Nat
  breach : Bool
  lost5 : Bool
  stuck : Bool
  oneFeed : Bool
  cmd : Option (Nat × Nat)
  res : Nat
  qcmd : Int
  spOver : Option (Nat × Int)
  spSet : Option (Nat × Int)
  noRise : Bool
  conserv : Bool
  advRun : Nat
  hab : List (Nat × Nat × Bool)
  quiet : Bool
  deriving DecidableEq, Repr, Inhabited



/-! ## The Caravan ring -/

/-- A HALL report as the module builds and keeps it (R307): its 32 bytes. -/
abbrev HallBytes := List Nat

/-- What a PAIR frame carries (R306); SNAP and LOG hold lane state words, whose layout the spec does not give. A module that only forwards
a frame does not look into its INPUT or STATUS. -/
inductive PairBody
  | req (gen mode : Nat)
  | accept (gen : Nat)
  | snap (chunk : Nat)
  | log
  | input (m : Option InputMsg)
  | status (m : Option StatusMsg)
  | handover (gen : Nat)
  | bSet (seq : Nat) (fin : Bool)
  deriving DecidableEq, Repr

/-- The payload of a Caravan frame (R298). -/
inductive CBody
  | link (leaving : Bool)
  | disc (init rgen : Nat) (list : List DiscEnt)
  | discEnd (init rgen : Nat) (list : List DiscEnt)
  | assign (init rgen : Nat) (line : Bool) (list : List AsgEnt)
  | pair (lane : Nat) (body : PairBody)
  | hall (bytes : HallBytes)
  | data (bytes : List Nat)
  | echo (ts : Nat)
  deriving DecidableEq, Repr

/-- A Caravan frame in a queue or on the line (R297): its header fields the ring uses, and its payload; `own` marks a DATA frame of
CRVN_TX_BUF. -/
structure CFrame where
  dst : Nat
  bcast : Bool
  src : Nat
  ttl : Nat
  west : Bool
  rseq : Nat
  rgen : Nat
  body : CBody
  own : Bool
  deriving DecidableEq, Repr

/-- A port (R294, R298, R300): whether its domain has woken, its ticks of WAIT_PEER, its contact, PCS lock now and throughout this tick, what
this tick brought, its runs, LINK_UP, its queues in order of arrival and the frame on the line. -/
structure CPort where
  woken : Bool
  waiting : Bool
  waitTicks : Nat
  contact : Bool
  lock : Bool
  lockAll : Bool
  linkNow : Bool
  leaving : Bool
  goodRun : Nat
  missRun : Nat
  linkUp : Bool
  queue : List CFrame
  line : Option CFrame
  deriving DecidableEq, Repr

/-- A discovery this node initiated (R302): the tick its DISCs left in, the ports they left by, and the lists that came back as DISC_END. -/
structure DiscRun where
  tick : Nat
  east : Bool
  west : Bool
  endE : Option (List DiscEnt)
  endW : Option (List DiscEnt)
  deriving DecidableEq, Repr

/-- The Caravan core (R294–R308): ports, the relay command and the tick it was last given, the address store, the adopted order (UID and address, eastward), what DISC
entries said of each UID (CDU_ID, PAIR_EN), the settle count of R301 and whether DISC or ASSIGN was received since, the discovery of its own, INITs met with
their tick, failures, the tick of the next try, the last ASSIGN adopted, RSEQ, HALL reports with the frame they came in, the last frame a
HALL was sent in, DATA waiting, and the ECHO outstanding (destination, time, tick). -/
structure CrvnSt where
  p0 : CPort
  p1 : CPort
  relay : Bool
  relayAt : Nat
  stored : Option Nat
  order : List (Nat × Option Nat)
  closed : Bool
  known : Tbl (Nat × Bool)
  settle : Option Nat
  heard : Bool
  disc : Option DiscRun
  seen : List (Nat × Nat)
  fails : Nat
  retry : Option Nat
  lastAsg : Option (Nat × Nat)
  rseq : Nat
  hall : Tbl (Option (HallBytes × Nat))
  hallSent : Option Nat
  rx : List (Nat × List Nat)
  echo : Option (Nat × Nat × Nat)
  deriving DecidableEq, Repr

def CPort.init : CPort := ⟨false, false, 0, false, false, false, false, false, 0, 0, false, [], none⟩
def CrvnSt.init : CrvnSt :=
  { p0 := .init, p1 := .init, relay := false, relayAt := 0, stored := none, order := [], closed := false, known := [], settle := none, heard := false, disc := none,
    seen := [], fails := 0, retry := none, lastAsg := none, rseq := 0, hall := [], hallSent := none, rx := [], echo := none }


/-! ## Hervi, UCIe, PTP and the Ethernet ports -/

/-- A Redfish subscription (R320): its number, the event kinds (bit 0 shutdown requests, 1 binding-source changes, 2 protection verdicts) and
the racks it names. -/
structure Sub where
  id : Nat
  kinds : Nat
  racks : Nat
  deriving DecidableEq, Repr

/-- A request for lane writes in Hervi's queue (R318): its source (0 Redfish or policy, 1 tamper clear, 2 attestation), its batches left, and
whether the first of them is in the mailbox. -/
structure LaneReq where
  src : Nat
  batches : List (List MboxEntry)
  sent : Bool
  deriving DecidableEq, Repr

/-- The Hervi die (R290, R310, R317–R321, R328, R363, R364): running, Redfish up, halted; its boot-flash bank and images, the tick a trial bank
was booted in; Xoide's images in that flash (the one in use, the one beside it), whether the new one is being tried and the set that was
active before; on-die SRAM bytes; subscriptions, the request queue, the last tag, the last HTTP answer, the racks whose OFF has been sent, the
manifest to load again after an Xoide reset, the binding sources and protection verdicts last told,
and the events sent in the present frame (subscription, kind, rack). -/
structure HerviSt where
  up : Bool
  redfish : Bool
  halted : Bool
  bank : Nat
  img0 : Option (List Nat)
  img1 : Option (List Nat)
  trial : Option Nat
  xOld : Option (List Nat)
  xNew : Option (List Nat)
  xUpdate : Option Nat
  policy : Option (List Nat)
  sram : Tbl Nat
  subs : List Sub
  nextSub : Nat
  reqs : List LaneReq
  tag : Nat
  status : Nat
  answer : List Nat
  relayed : Nat
  xset : Option Manifest
  binds : Tbl Nat
  verdicts : Nat
  sent : List (Nat × Nat × Nat)
  deriving DecidableEq, Repr

/-- One UCIe module (R314–R316): trained, next sequence of each direction, the highest received intact from each, the numbers kept for
replay, credits granted, flits carried and the flit counts of the last NAKs. -/
structure UMod where
  up : Bool
  seqX : Nat
  seqH : Nat
  ackX : Nat
  ackH : Nat
  keptX : List Nat
  keptH : List Nat
  credX : Nat
  credH : Nat
  flits : Nat
  naks : List Nat
  deriving DecidableEq, Repr

/-- A completion on its way to Hervi: TAG, STATUS, the bytes not yet delivered, whether a flit of it has been, and the XA of those bytes. -/
structure Cpl where
  tag : Nat
  status : Nat
  data : List Nat
  begun : Bool
  xa : Nat
  deriving DecidableEq, Repr

/-- A memory access of Hervi that has not been performed (R312): TAG, XA, whether it writes, the bytes to write or the number to read. -/
structure MemAcc where
  tag : Nat
  xa : Nat
  write : Bool
  data : List Nat
  len : Nat
  deriving DecidableEq, Repr

/-- The link (R312–R316): modules, register and memory completions not yet delivered, memory accesses outstanding,
the Xoide interrupt requests as Hervi has them, the data of the last memory read delivered, quadrants a Hervi access keeps awake, and the
STATUS of the last completion delivered. -/
structure UcieSt where
  m0 : UMod
  m1 : UMod
  regCpl : List Cpl
  memCpl : List Cpl
  out : List MemAcc
  irqs : Nat
  memData : List Nat
  awake : Nat
  status : Nat
  deriving DecidableEq, Repr

/-- A message the PTP engine sends (R322): its kind as IEEE 1588 numbers messageType, domain, and in an Announce priority1, clockClass and priority2. -/
structure PtpMsg where
  kind : Nat
  domain : Nat
  prio1 : Nat
  clockClass : Nat
  prio2 : Nat
  deriving DecidableEq, Repr

/-- The PTP engine (R324): consecutive Syncs within 50 ns, beyond 500 ns, and ticks since the last. -/
structure PtpSt where
  goodRun : Nat
  badRun : Nat
  since : Nat
  deriving DecidableEq, Repr

/-- An Ethernet port (R91, R378): link up, an 88B5h frame in the present tick, the ticks without one, and whether the identification memory of its
cable reports active or optical media. -/
structure EthSt where
  link : Bool
  seen : Bool
  missRun : Nat
  optical : Bool
  deriving DecidableEq, Repr

def HerviSt.init : HerviSt :=
  { up := false, redfish := false, halted := false, bank := 0, img0 := none, img1 := none, trial := none, xOld := none, xNew := none, xUpdate := none,
    policy := none, sram := [], subs := [], nextSub := 1, reqs := [], tag := 0, status := 0, answer := [], relayed := 0, xset := none, binds := [], verdicts := 0, sent := [] }
def UMod.init : UMod := ⟨false, 0, 0, 4095, 4095, [], [], 0, 0, 0, []⟩
def UcieSt.init : UcieSt := ⟨.init, .init, [], [], [], 0, [], 0, 0⟩
def PtpSt.init : PtpSt := ⟨0, 0, 0⟩
def EthSt.init : EthSt := ⟨false, false, 0, false⟩


/-! ## Security and presence -/

/-- What one holder keeps of the service panel (R335–R338): its window in the present tick, the present press and whether it has opened the
window, ticks left of a press's window, STUCK and the ticks released since, the jumper's runs, fitted, accepted, refused; the loop's last
sample and open run; the tamper latch with cause and tick, the stored serial, the serial last read, reads without answer; a close that waits for
the boundary, whether a press's window makes W, and the button's last sample. -/
structure PanelSt where
  w : Bool
  press : Nat
  opened : Bool
  left : Nat
  stuck : Bool
  relRun : Nat
  jIn : Nat
  jOut : Nat
  fitted : Bool
  accepted : Bool
  refused : Bool
  closed : Bool
  openRun : Nat
  tamper : Bool
  cause : Nat
  ttick : Nat
  stored : Nat
  now : Nat
  mute : Nat
  closing : Bool
  byPress : Bool
  button : Bool
  deriving DecidableEq, Repr

/-- A running attestation (R333): nonce words, report address. -/
structure AttRun where
  nonce : List Nat
  addr : Nat
  deriving DecidableEq, Repr

/-- Hervi security (R329–R334, R339–R341): its tamper latch, the attestation running, fuse blows in progress (die, start tick), debug open per
die, measurement digests, certificate digests and boot counts of dies 0–5, and the hash of the Auvewick key the dies have fused (R325). -/
structure SecSt where
  tamper : Bool
  att : Option AttRun
  blows : List (Nat × Nat)
  dbg : Nat
  meas : List Nat
  certs : List Nat
  boots : List Nat
  auvKey : Nat
  deriving DecidableEq, Repr

/-- A lane's security part (R328, R333, R336): ticks its window has differed from the sequencer's and DISAGREE, the refusal of the other bank
at boot, signing ticks left of the lane and of its Playa, and the signatures made, as free words. -/
structure LaneSec where
  disRun : Nat
  disagree : Bool
  bankRefused : Bool
  signLeft : Nat
  playaLeft : Nat
  sig : Option Nat
  psig : Option Nat
  deriving DecidableEq, Repr

def PanelSt.init : PanelSt :=
  { w := false, press := 0, opened := false, left := 0, stuck := false, relRun := 0, jIn := 0, jOut := 0, fitted := false, accepted := false,
    refused := false, closed := false, openRun := 0, tamper := false, cause := 0, ttick := 0, stored := 0, now := 0, mute := 0, closing := false, byPress := false, button := false }
def SecSt.init : SecSt := ⟨false, none, [], 0, List.replicate 6 0, List.replicate 6 0, List.replicate 6 0, factoryKey⟩
def LaneSec.init : LaneSec := ⟨0, false, false, 0, 0, none, none⟩

/-! ## Recorders and inventory -/

/-- The main recorder (R342, R345–R350): entries oldest first, the next SEQ, the intake queue with the time of each occurrence, its peak, the
64-bit EVENTS and LOST counters per class, the highest cursor written, entries
overwritten unread, whether the recorder runs, and each lane's own-series counters and the shared-series counters as last added. -/
structure MainRec where
  entries : List Entry
  head : Nat
  queue : List (Occ × TimeSt)
  peak : Nat
  events : List Nat
  lost : List Nat
  lastCursor : Nat
  unread : Nat
  running : Bool
  seenA : List Nat
  seenB : List Nat
  seenSh : List Nat
  deriving DecidableEq, Repr

/-- The shared series (R348): its number and class counters, part of the state computed in step. -/
structure SharedRec where
  num : Nat
  counts : List Nat
  deriving DecidableEq, Repr, Inhabited

/-- A lane recorder (R342, R347–R349): entries of both series, oldest first; the own series number and class counts; occurrences lost;
entries with an undelivered change and the tick from which it may be sent; the tick and COUNT each entry was last sent with; entries opened
this tick; what the lane's flash holds of it: the log, the own number and counts, the losses and the shared series. -/
structure LaneRec where
  entries : List Entry
  ownNum : Nat
  ownCounts : List Nat
  lost : List Nat
  undeliv : List (Nat × Nat)
  sent : Tbl (Nat × Nat)
  openedNow : Nat
  flashLog : List Entry
  flashNum : Nat
  flashOwn : List Nat
  flashLost : List Nat
  flashSh : SharedRec
  deriving DecidableEq, Repr

/-- One inventory record (R351): serial bytes, INSTALLED, SECONDS, CYCLES, AUX, and the stroke base of a valve (R352). -/
structure InvRec where
  serial : List Nat := []
  installed : Nat := 0
  seconds : Nat := 0
  cycles : Nat := 0
  aux : Nat := 0
  base : Nat := 0
  deriving DecidableEq, Repr

/-- The inventory (R351): the live records keyed by 256 × kind + index, and the copies last written to the sequencer store and lane
flash. -/
structure InvSt where
  live : Tbl InvRec
  stored : Tbl InvRec
  deriving DecidableEq, Repr


/-! ## Updates and the twin -/

/-- One flash bank of a lane (R360): the words staged into it, and the image it holds, once known. -/
structure FwBank where
  words : Tbl Nat
  deriving DecidableEq, Repr

/-- A lane's firmware flash (R327, R360–R362): banks, the bank running, PHASE, FAIL_CODE, SVN staged, RESULT, the tick VERIFY was applied in
and the tick ACTIVATE was, while the trial lasts, and whether the LOCK of R362 is in force for it. -/
structure LaneFw where
  b0 : FwBank
  b1 : FwBank
  run : Nat
  phase : Nat
  fail : Nat
  svn : Nat
  result : Nat
  verify : Option Nat
  trial : Option Nat
  lock : Bool
  deriving DecidableEq, Repr

/-- The twin procedure (R366–R370, R389): whether the module owns the field, released it in a handover, boots passive and waits in the second
slot; SLOT_ID, PEER_OWN_N low and its runs; pairing: ticks to the next REQ, ACCEPT seen, chunks and logs taken, equal comparisons, agreeing
ticks, PATH_OK, the peer's address, ticks without a PAIR STATUS, whether one came in this tick and the last RHASH and SEQ; on the twin: a
HANDOVER sent, the B latched with its FINAL; on the running module: pairing accepted, snapshot chunks sent, the GEN of a latched HANDOVER with its
tick, B as a tick count, FINAL; the tick the field was last taken under a handover; the mirror's number; RESULT of TWIN_CMD. -/
structure TwinSt where
  owner : Bool
  released : Bool
  passive : Bool
  waiting : Bool
  slot : Bool
  peerOwn : Bool
  lowRun : Nat
  highRun : Nat
  reqWait : Nat
  accepted : Bool
  chunks : Nat
  logs : Nat
  eqRun : Nat
  pathRun : Nat
  pathOk : Bool
  peerNode : Nat
  missRun : Nat
  statusIn : Bool
  rhash : Nat
  peerSeq : Nat
  peerGen : Nat
  paired : Bool
  handing : Bool
  bSeq : Nat
  bFinal : Bool
  serving : Bool
  served : Nat
  hand : Option (Nat × Nat)
  bTick : Option Nat
  sentFinal : Bool
  tookAt : Option Nat
  mirror : Nat
  result : Nat
  deriving DecidableEq, Repr

def FwBank.init : FwBank := ⟨[]⟩
def LaneFw.init : LaneFw := ⟨.init, .init, 0, 0, 0, 0, 0, none, none, false⟩
def TwinSt.init : TwinSt :=
  { owner := false, released := false, passive := false, waiting := false, slot := false, peerOwn := false, lowRun := 0, highRun := 0, reqWait := 0,
    accepted := false, chunks := 0, logs := 0, eqRun := 0, pathRun := 0, pathOk := false, peerNode := 0, missRun := 0, statusIn := false, rhash := 0,
    peerSeq := 0, peerGen := 0, paired := false, handing := false, bSeq := 0, bFinal := false, serving := false, served := 0, hand := none, bTick := none,
    sentFinal := false, tookAt := none, mirror := 0, result := 0 }

/-! ## The lane and the module -/

/-- The state both lanes compute in step and a returning lane copies (R88): writable registers of the lane-owned pages and everything
the lanes decide from the agreed inputs; `macs` are the row MAC addresses (R370); `advPrev` is the last advisory taken, so that one that has expired is not taken again. -/
structure RowSt where
  regs : RegFile
  sens : SensSt
  loops : LoopSt
  caps : CapSt
  slip : SlipSt
  act : ActSt
  prot : ProtSt
  adv : Option AdvHeld
  advPrev : Option AdvHeld
  recSh : SharedRec
  events : List Occ
  irqs : List (Nat × Nat)
  errs : List (Nat × Nat)
  macs : List Nat
  deriving DecidableEq, Repr, Inhabited

/-- The record a lane keeps in its flash (R76, R131, R206, R292, R355, R370): generation, the writable fields of the lane-owned pages,
both coefficient banks and the active one, the cap tables and row configuration, HSEQ, leak, dry-run and stuck verdicts, isolated and
blind racks, racks shut down, CDU leak positions, tracked positions, channels whose profile ran without a verdict, the committed epoch,
hold-up episodes, last CMD_ID of each channel, the row MAC addresses. -/
structure FlashRec where
  gen : Nat
  regs : RegFile
  bank0 : LoopBank
  bank1 : LoopBank
  active : Nat
  budget : Tbl Nat
  limits : Tbl Nat
  therm : Tbl Nat
  group : Tbl Nat
  nrack : Nat
  nslot : List Nat
  hseq : Nat
  leak : Tbl Bool
  dry : Nat
  stuck : Tbl Nat
  iso : Nat
  blind : Nat
  roff : Nat
  cdu : Nat
  tracked : Tbl Nat
  running : List Nat
  epoch : Nat
  hCount : Nat
  cid : Tbl Nat
  macs : List Nat
  deriving DecidableEq, Repr

/-- A Seif lane: its own part, its front end, its calibration store, the state computed in step, and the copy of its pages that its bus
interface shows (R39). -/
structure Lane where
  core : LaneCore
  fe : FrontEnd
  cal : CalSt
  trace : TraceSt
  recd : LaneRec
  flash : FlashRec
  ownEvents : List Occ
  actOut : Option ActFrame
  ethOut : Option EthOut
  row : RowSt
  pub : RegFile
  deriving DecidableEq, Repr

/-! ## Initial values -/

/-- The sensing state after reset. -/
def SensSt.init : SensSt :=
  { chan := [], pairs := List.replicate 6 {}, leak := [], dewBus := [⟨none, []⟩, ⟨none, []⟩], dewMiss := [], dewRun := 0, dewVerdict := false, dewMax := 0,
    dewValid := 0, dewFixed := false, dewFloor := 0, hot := [], summ := [], summIn := [], missingPkg := 0, suspectPkg := 0 }
def LoopSt.init : LoopSt :=
  { bank0 := ⟨[], []⟩, bank1 := ⟨[], []⟩, active := 0, checked := false, badCode := 0, badLoop := 0, crc := 0, swaps := 0, armedAt := none,
    swapNext := false, txnSwap := false, checkDue := none, result := 0, run := [], overNow := [], outs := [], tripped := [], swappedNow := false }
def CapSt.init : CapSt :=
  { budget := [], limits := [], therm := [], group := [], next := [], held := [], gather := false, gatherTick := 0, rowDirty := false, nrack := 0,
    nslot := List.replicate 24 0, ep := [], fd := [], follow := none, drops := [], follows := [], haboob := none, habSent := [], hseq := 0, habRacks := 0,
    bindTime := List.replicate 8 0, snapPos := 0, trimRacks := 0, staged := [] }
def SlipSt.init : SlipSt :=
  { cur := none, aborted := [], recent := [], lastEpoch := 0, epochNow := 0, hreq := none, redo := none, hres := 0, hepoch := 0, split := false, splitChips := [],
    lastA := none, lastOut := 0, cause := 0, commits := 0, aborts := 0, splits := 0, late := 0, firstMiss := 0xFFF, acks := [] }
def ActSt.init : ActSt :=
  { repIn := [], rep0 := none, rep1 := none, tracked := [], cid := [], want := [], stuck := [], pumpF := List.replicate 4 0x8000,
    fanF := List.replicate 48 0x8000, lastPump := List.replicate 4 0, lastFan := List.replicate 48 0, sbOn := false, sbBypass := false,
    grantTick := List.replicate 4 none, zeroTick := List.replicate 4 none, items := [], strokes := [], standbyNow := false, standbyUrgent := false }
def Latch.init : Latch := ⟨false, 0, 0, 0, false⟩
def ProtSt.init : ProtSt :=
  { flowStop := .init, pressHi := .init, pressMax := .init, supOver := .init, flowDecl := false, eRun := 0, nRun := 0, win := [], roff := 0, iso := 0,
    blind := 0, cdu := 0, leaks := 0, leakHab := 0, op := 0, tclose := [], reopen := 0, reopenSent := 0, dry := 0, dryAB := List.replicate 4 0,
    dryA := List.replicate 4 0, dryB := List.replicate 4 0, hup := false, hTick := none, hCount := 0, dewAbs := 0, dewOn := false, breachRun := 0,
    breach := false, lost5 := false, stuck := false, oneFeed := false, cmd := none, res := 0, qcmd := 0, spOver := none, spSet := none, noRise := false,
    conserv := false, advRun := 0, hab := [], quiet := false }
/-- A lane's row state with nothing known. -/
def RowSt.init : RowSt :=
  { regs := [], sens := .init, loops := .init, caps := .init, slip := .init, act := .init, prot := .init, adv := none, advPrev := none,
    recSh := ⟨0, List.replicate 8 0⟩, events := [], irqs := [], errs := [], macs := [0, 0] }
def FlashRec.init : FlashRec :=
  { gen := 0, regs := [], bank0 := ⟨[], []⟩, bank1 := ⟨[], []⟩, active := 0, budget := [], limits := [], therm := [], group := [], nrack := 0,
    nslot := List.replicate 24 0, hseq := 0, leak := [], dry := 0, stuck := [], iso := 0, blind := 0, roff := 0, cdu := 0, tracked := [],
    running := [], epoch := 0, hCount := 0, cid := [], macs := [0, 0] }
def RotSt.init : RotSt := ⟨0, 0, 0, 0, 0, false, false, false, none⟩
def LaneCore.init : LaneCore :=
  { mode := .boot, bootDone := false, admitted := false, bootWait := 0, probRun := 0, mergeEndDue := false, stDue := false, gen := 0,
    claim := 0, otherClaim := 0, seq := 0, hash := 0, rhash := 0, mismatch := 0, equalRun := 0, stCount := 0, stFails := 0, stLast := 0, stOwn := none,
    cause := 0, takeovers := 0, merge := false, mergeStart := 0, bothFail := false, stFail := false, linkDown := false, aonLost := false,
    inputMiss := false, missRun := 0, goodRun := 0, statusIn := none, statusLast := none, statusOwn := none, inputIn := none, advOwn := none, advPend := none,
    inmPend := false, markTick := none, selftestIn := none, selftestOut := none, recordOut := none, await := .nothing, stTick := none, rot := .init,
    serving := none, mergeDue := false, chunks := 0, logs := 0, copyFails := [], cmdResult := 0, secResult := 0, cmdIn := none, cmdWait := none, takeoverCmd := false, linkErrCrc := 0,
    linkMissing := 0, verdictOwn := [], verdictIn := none, verdictWait := false, playaSawA := false, playaSawB := false }
def CalSt.init : CalSt :=
  { set := [], len := 4128, stage := [], phase := .idle, failCode := 0, result := 0, age := 0, foreign := false, leaveCh := none, switchDue := false,
    calResult := 0 }
def TraceSt.init : TraceSt :=
  { state := .idle, buf := [], pos := 0, count := 0, left := 0, tick := 0, prev := List.replicate 8 0, force := false }
def LaneRec.init : LaneRec :=
  ⟨[], 0, List.replicate 8 0, List.replicate 8 0, [], [], 0, [], 0, List.replicate 8 0, List.replicate 8 0, ⟨0, List.replicate 8 0⟩⟩

/-- The module. -/
structure State where
  time : TimeSt
  regs : RegFile
  fuses : RegFile
  blk : Tbl Blk
  mbox : MboxSt
  hilo : Tbl (Option Nat)
  gov : GovSt
  pwr : PwrSt
  xopp : DieOpp
  hopp : DieOpp
  x : XoideSt
  crvn : CrvnSt
  herv : HerviSt
  ucie : UcieSt
  ptp : PtpSt
  eth0 : EthSt
  eth1 : EthSt
  panS : PanelSt
  panA : PanelSt
  panB : PanelSt
  sec : SecSt
  lsecA : LaneSec
  lsecB : LaneSec
  fwA : LaneFw
  fwB : LaneFw
  twin : TwinSt
  chip0 : Chip
  chip1 : Chip
  recv : Tbl Recv
  laneA : Lane
  laneB : Lane
  ingest : Ingest
  fwd : List SummaryIn
  agents : Tbl Agent
  mrec : MainRec
  inv : InvSt
  rdData : Nat
  freeCtr : Nat
  pending : List Instr
  deriving DecidableEq, Repr

/-- A Playa chip without power. -/
def Chip.init : Chip :=
  { rxA := none, rxB := none, badCrc := false, sawA := false, sawB := false, chosen := none, auth := 0, silent := 0, wdog := false, posLost := true,
    epoch := 0, prevSlip := none, banks := [], ch := [], fans := [], pumps := [],
    mb := ⟨none, none, 0⟩, live := [], powered := false }
/-- A lane before its rail first comes up: the factory flash record. Conservative policy stands until forecasts have come (R289). -/
def Lane.init : Lane :=
  { core := .init, fe := ⟨[], []⟩, cal := .init, trace := .init, recd := .init, flash := .init, ownEvents := [], actOut := none, ethOut := none,
    row := { RowSt.init with prot := { ProtSt.init with conserv := true } }, pub := [] }
def MainRec.init : MainRec :=
  { entries := [], head := 1, queue := [], peak := 0, events := List.replicate 8 0, lost := List.replicate 8 0, lastCursor := 0, unread := 0,
    running := false, seenA := List.replicate 8 0, seenB := List.replicate 8 0, seenSh := List.replicate 8 0 }
def GovSt.init : GovSt :=
  { raised := [], ended := [], queue := [], admitted := [], granting := [], pumpGap := 0, ergGap := 0, overRun := 0, underRun := 0, hold := false,
    overNow := false, blocked := 0, peak := 0, bypasses := 0, waitTotal := 0 }
def PwrSt.init : PwrSt :=
  { vinA := 0, vinB := 0, iin := 0, seqSupply := false, storage := false, laneRail := false, pkgRail := false, supplyLow := false, oneFeed := false,
    aonLost := false, holdup := false }
/-- A lane's flash as delivered: the factory's Seif image in both banks (DESIGN CHOICE, log entries 5 and 18). -/
def LaneFw.factory : LaneFw := { LaneFw.init with b0 := ⟨packWords 0 (factoryImage 2)⟩, b1 := ⟨packWords 0 (factoryImage 2)⟩ }

/-- The module right after reset (R353): no feed has come up, every block is OFF, every register holds its reset value. What a part keeps
without power, and the spec gives no value for, is as log entries 4 to 6 say. -/
def State.reset : State :=
  { time := ⟨0, 0, 0, 0, 0⟩, regs := [], fuses := [], blk := [(0x110, { en := true }), (0x111, { en := true })], mbox := ⟨none, none, false, none, none⟩,
    hilo := [], gov := .init, pwr := .init, xopp := .xoide, hopp := .hervi, x := .init, crvn := .init,
    herv := { HerviSt.init with img0 := some (factoryImage 0), img1 := some (factoryImage 0), xOld := some (factoryImage 1) }, ucie := .init, ptp := .init,
    eth0 := .init, eth1 := .init, panS := .init, panA := .init, panB := .init, sec := .init, lsecA := .init, lsecB := .init, fwA := .factory,
    fwB := .factory, twin := .init, chip0 := .init, chip1 := .init, recv := [], laneA := .init, laneB := .init, ingest := .init, fwd := [], agents := [],
    mrec := .init, inv := ⟨[], []⟩, rdData := 0, freeCtr := 0, pending := [] }

/-- The ways the machine stops with a fault. -/
inductive Fault
  /-- No command of this model raises a fault: the block has no address a command can name that the spec says does not exist
  without giving the access a result (R27, R47). Safe. -/
  | none
  deriving DecidableEq, Repr

/-- The ways a command is refused a meaning. -/
inductive Refusal
  /-- Raised by an arm of `exec` whose command has no meaning yet. Safe: no statement holds of a next state. -/
  | notModelled (mnemonic : String)
  deriving DecidableEq, Repr

end Sys2Proof.Machine
end

