-- ==== Sys2Proof/Machine/Ops.lean ====
section
/-! DEFINITION. The named operations over the module's state: registers and their fields, page interrupts and error counts, block
states, lanes. -/
namespace Sys2Proof.Machine
open Sys2Proof

/-! ### Registers -/

/-- The word at an aperture offset of a register file. -/
def rget (rf : RegFile) (off : Nat) : Word := tget (resetWord off) rf off
/-- Write the word at an aperture offset. -/
def rset (rf : RegFile) (off : Nat) (v : Word) : RegFile := tset (resetWord off) rf off v
/-- Bits lo to lo + w − 1 of a number, and a number with those bits replaced. -/
def bitsOf (x lo w : Nat) : Nat := x / 2 ^ lo % 2 ^ w
def putBits (x lo w v : Nat) : Nat := x - bitsOf x lo w * 2 ^ lo + v % 2 ^ w * 2 ^ lo
/-- The value of a named field. -/
def fget (rf : RegFile) (f : Fld) : Nat := bitsOf (rget rf f.off).toNat f.lo f.w
/-- Write a named field. -/
def fset (rf : RegFile) (f : Fld) (v : Nat) : RegFile :=
  rset rf f.off (BitVec.ofNat 32 (putBits (rget rf f.off).toNat f.lo f.w v))
/-- The two's complement value of a named field. -/
def fgetS (rf : RegFile) (f : Fld) : Int := sx f.w (fget rf f)
/-- Add to a field with saturation at its largest value. -/
def fsat (rf : RegFile) (f : Fld) (n : Nat) : RegFile := fset rf f (satAdd (2 ^ f.w - 1) (fget rf f) n)
/-- Bring every register of page p back to its reset word. -/
def clearPage (rf : RegFile) (p : Nat) : RegFile := tclear rf (p * 0x1000) (p * 0x1000 + 0x1000)

/-- A field of the module's own pages. -/
def State.fld (s : State) (f : Fld) : Nat := fget s.regs f
def State.setFld (s : State) (f : Fld) (v : Nat) : State := { s with regs := fset s.regs f v }
def State.satFld (s : State) (f : Fld) (n : Nat) : State := { s with regs := fsat s.regs f n }

/-! ### Page headers (R30–R32) -/

def hdrIrq (p : Nat) : Nat := p * 0x1000 + 0x10
def hdrIrqEn (p : Nat) : Nat := p * 0x1000 + 0x14
def hdrErr (p : Nat) : Nat := p * 0x1000 + 0x18
def hdrLastSeq (p : Nat) : Nat := p * 0x1000 + 0x1C
def hdrEpoch (p : Nat) : Nat := p * 0x1000 + 0x20
def hdrGate (p : Nat) : Nat := p * 0x1000 + 0x24

/-- Set bit b of PG_IRQ of page p. -/
def regIrq (rf : RegFile) (p b : Nat) : RegFile :=
  rset rf (hdrIrq p) (rget rf (hdrIrq p) ||| BitVec.ofNat 32 (2 ^ b))
def State.irq (s : State) (p b : Nat) : State := { s with regs := regIrq s.regs p b }

/-- Count an error with its code in PG_ERR_CNT and set PG_IRQ.ERR (R32). -/
def regErr (rf : RegFile) (p code : Nat) : RegFile :=
  let w := (rget rf (hdrErr p)).toNat
  regIrq (rset rf (hdrErr p) (BitVec.ofNat 32 (satAdd 0xFFFF (w % 65536) 1 + 65536 * (code % 256)))) p 2
def State.err (s : State) (p code : Nat) : State := { s with regs := regErr s.regs p code }
/-- A refused access: counted with its code, and PG_IRQ.ACCESS set (R38). -/
def State.refuse (s : State) (p code : Nat) : State := (s.err p code).irq p 3

/-- PG_GATE bits of a page. -/
def State.locked (s : State) (p : Nat) : Bool := bitOf (rget s.regs (hdrGate p)).toNat 2
/-- The sequencer's presence window, and a lane's: the AND of its own and the sequencer's (R336). -/
def State.presence (s : State) : Bool := s.panS.w
def State.laneWin (s : State) : LaneId → Bool
  | .a => s.panA.w && s.panS.w
  | .b => s.panB.w && s.panS.w

/-- The interrupt request of a page (R31). -/
def State.irqReq (s : State) (p : Nat) : Bool := (rget s.regs (hdrIrq p) &&& rget s.regs (hdrIrqEn p)) != 0

/-- Whether a page answers (R47): a page on the module register bus needs the lane rail, one of Xoide's its supply and the UCIe link. -/
def reachable (s : State) (p : Nat) : Bool :=
  match pageInfo p with
  | none => false
  | some i =>
    match i.home with
    | .hervi => true
    | .bus => s.pwr.laneRail
    | .xoide => s.pwr.pkgRail && (s.ucie.m0.up || s.ucie.m1.up)

/-! ### Blocks (R33–R35) -/

/-- The key of a block: its page, or 100h + n for pump n, or 110h + p for Caravan port p. -/
def blkKey : BlockId → Nat
  | .page p => p.toNat
  | .pump n => 0x100 + n.val
  | .port p => 0x110 + p.val
/-- The page a block belongs to. -/
def blkPage : BlockId → Nat
  | .page p => p.toNat
  | .pump _ => 0x48
  | .port _ => 0x70
def blkGet (s : State) (k : Nat) : Blk := tget {} s.blk k
def blkSet (s : State) (k : Nat) (b : Blk) : State := { s with blk := tset {} s.blk k b }
/-- The page of a block key. -/
def keyPage (k : Nat) : Nat := if k < 0x100 then k else if k < 0x110 then 0x48 else 0x70

/-! ### Playa's chips and valve banks -/

def State.chip (s : State) (c : Nat) : Chip := if c = 0 then s.chip0 else s.chip1
def State.setChip (s : State) (c : Nat) (x : Chip) : State := if c = 0 then { s with chip0 := x } else { s with chip1 := x }
def State.modChip (s : State) (c : Nat) (f : Chip → Chip) : State := s.setChip c (f (s.chip c))
/-- Bank b of the module and channel k of the module (R232). -/
def State.bank (s : State) (b : Nat) : VBank := tget {} (s.chip (b / 6)).banks (b % 6)
def State.setBank (s : State) (b : Nat) (x : VBank) : State := s.modChip (b / 6) (fun c => { c with banks := tset {} c.banks (b % 6) x })
def State.vch (s : State) (k : Nat) : VCh := tget {} (s.chip (k / 48)).ch k
def State.setVch (s : State) (k : Nat) (x : VCh) : State := s.modChip (k / 48) (fun c => { c with ch := tset {} c.ch k x })
/-- End a channel's running profile at once (R237, R248): before a verdict the position becomes UNKNOWN; `cut` sets DIAG.CUT. -/
def vchCut (cut : Bool) (x : VCh) : VCh :=
  if x.phase = 0 then x
  else { x with phase := 0, pos := if x.verdict.isNone then 0 else x.pos, diag := if cut then x.diag ||| 4 else x.diag }
/-- Refuse every waiting command of a bank as DISABLED (R252). -/
def bankDrain (b : Nat) (s : State) : State :=
  let q := (s.bank b).queue
  let s := q.foldl (fun s n => s.setVch (8 * b + n) { s.vch (8 * b + n) with wait := false, result := 9 }) s
  s.setBank b { s.bank b with queue := [] }
/-- A bank in FAULT (R252): switch open, profiles cut, converter off, waiting commands DISABLED. -/
def bankCut (b : Nat) (s : State) : State :=
  let s := bankDrain b s
  let s := (upto 8).foldl (fun s n => s.setVch (8 * b + n) (vchCut true (s.vch (8 * b + n)))) s
  s.setBank b { s.bank b with recharge := false, request := false }
/-- The bank's converter asks for admission (R238). -/
def bankRequest (b : Nat) (s : State) : State :=
  let x := s.bank b
  if x.recharge || x.request then s
  else { s.setBank b { x with request := true } with gov := { s.gov with raised := s.gov.raised ++ [⟨⟨.valve, b⟩, 0, false⟩] } }
/-- The converter goes off: its steady cost leaves the ledger (R238). -/
def bankConverterOff (b : Nat) (s : State) : State :=
  let x := s.bank b
  if x.recharge then { s.setBank b { x with recharge := false } with gov := { s.gov with ended := ⟨.valve, b⟩ :: s.gov.ended } } else s
/-- A request withdrawn before admission leaves its queue without cost (R55). -/
def govWithdraw (g : GovSt) (i : GovItem) : GovSt :=
  { g with raised := g.raised.filter (fun r => r.item != i), queue := g.queue.filter (fun r => r.item != i) }
/-- A bank's request not yet admitted is withdrawn (R55). -/
def bankWithdraw (b : Nat) (s : State) : State := { s.setBank b { s.bank b with request := false } with gov := govWithdraw s.gov ⟨.valve, b⟩ }
/-- What a valve bank does on entering a state (R252). -/
def bankEnter (b : Nat) (st : BState) (s : State) : State :=
  match st with
  | .starting => if (s.bank b).rail < 650 then bankRequest b s else s
  | .stopping => bankWithdraw b (bankDrain b s)
  | .off => bankConverterOff b (bankWithdraw b (bankDrain b s))
  | .fault => bankCut b (bankConverterOff b (bankWithdraw b s))
  | .run => s

/-! ### Xoide -/

def State.tile (s : State) (t : Nat) : Tile := tget {} s.x.tiles t
def State.setTile (s : State) (t : Nat) (x : Tile) : State := { s with x := { s.x with tiles := tset {} s.x.tiles t x } }
def State.onX (s : State) (f : XoideSt → XoideSt) : State := { s with x := f s.x }
/-- The XA word of word 0 of tile 0 (R166). -/
def xaTile : Nat := 0x4100000000 / 8
/-- PG_STAT.STATE (R33). -/
def bstateNum : BState → Nat
  | .off => 0
  | .starting => 1
  | .run => 2
  | .stopping => 3
  | .fault => 4
/-- Show domain n, 1–40, clocked or stopped (CLK_DOM_RUN). -/
def domRun (n : Nat) (on : Bool) (s : State) : State :=
  if n = 0 then s
  else if n ≤ 32 then s.setFld F.CLK_DOM_RUN_LO_RUN (putBitN (s.fld F.CLK_DOM_RUN_LO_RUN) (n - 1) on)
  else s.setFld F.CLK_DOM_RUN_HI_RUN (putBitN (s.fld F.CLK_DOM_RUN_HI_RUN) (n - 33) on)
/-- The governed item a block starts with (R51), if any. -/
def blkItem (k : Nat) : Option GovItem :=
  if 0x80 ≤ k ∧ k ≤ 0x87 then some ⟨.erg, k - 0x80⟩
  else if 0x8A ≤ k ∧ k ≤ 0x8E then some ⟨.lpddr, k - 0x8A⟩
  else if 0x78 ≤ k ∧ k ≤ 0x79 then some ⟨.eth, k - 0x78⟩
  else if 0x100 ≤ k ∧ k < 0x104 then some ⟨.pump, k - 0x100⟩
  else if 0x30 ≤ k ∧ k ≤ 0x3B then some ⟨.valve, k - 0x30⟩
  else none
/-- Record a stop: the item's costs leave the ledger in the next sequencer cycle (R53, R54). -/
def govStop (g : GovSt) (i : GovItem) : GovSt := { g with ended := i :: g.ended }
/-- The block with key k stops: its costs leave the ledger. -/
def State.stopCost (s : State) (k : Nat) : State :=
  match blkItem k with
  | some i => { s with gov := govStop s.gov i }
  | none => s
/-- A quadrant enters self-refresh (R51): its clock stops, its cost leaves the ledger, and it needs a new admission to wake. -/
def quadRest (q : Nat) (s : State) : State :=
  let k := 0x8A + q
  ((domRun (29 + q) false (blkSet s k { blkGet s k with granted := false })).setFld (F.XMEM_STAT_SR q) 1).stopCost k
/-- An erg's clock stops (R51, R165): its cost leaves the ledger, and it needs a new admission to wake. -/
def ergRest (n : Nat) (s : State) : State :=
  let k := 0x80 + n
  ((domRun (21 + n) false (blkSet s k { blkGet s k with granted := false })).setFld (F.ERG_STAT_AWAKE n) 0).stopCost k
/-- Every erg sleeps. -/
def ergsAsleep (s : State) : Bool := (upto 8).all (fun n => s.fld (F.ERG_STAT_AWAKE n) == 0)
/-- A quadrant that can enter self-refresh: in RUN, awake, and no access of Hervi keeps it awake (R313). -/
def quadIdleNow (s : State) (q : Nat) : Bool :=
  (blkGet s (0x8A + q)).state == .run && s.fld (F.XMEM_STAT_SR q) == 0 && !bitOf s.ucie.awake q
/-- Once the last erg sleeps the on-die network stops and every quadrant enters self-refresh (R51). -/
def xoideRest (s : State) : State :=
  if ergsAsleep s then (upto 5).foldl (fun s q => if quadIdleNow s q then quadRest q s else s) (domRun 20 false s) else s
/-- An awake erg goes to sleep; one that sleeps only loses its grant. -/
def ergAsleep (n : Nat) (s : State) : State :=
  if s.fld (F.ERG_STAT_AWAKE n) = 1 then xoideRest (ergRest n s) else blkSet s (0x80 + n) { blkGet s (0x80 + n) with granted := false }
/-- An erg's clock runs; the on-die network is started with the first erg (R49). -/
def ergAwake (n : Nat) (s : State) : State := domRun 20 true ((domRun (21 + n) true s).setFld (F.ERG_STAT_AWAKE n) 1)
/-- Zero codewords in every word of an erg's tiles (R165). -/
def ergClear (n : Nat) (s : State) : State :=
  s.onX (fun x => { x with tiles := tclear x.tiles (72 * n) (72 * n + 72), errs := tclear x.errs (xaTile + 72 * n * 32768) (xaTile + (72 * n + 72) * 32768) })
/-- What an erg (key 80h + n) or a quadrant (8Ah + n) does on entering a state (R165, R174); an erg under FORCE_SAFE stays asleep (R35). -/
def xEnter (k : Nat) (st : BState) (s : State) : State :=
  if 0x80 ≤ k ∧ k ≤ 0x87 then
    let n := k - 0x80
    match st with
    | .starting => (((ergClear n s).setFld (F.ERG_STAT_START_FAIL n) 0).setFld (F.ERG_STAT_BAD_TILE n) 0x7F).setFld (F.ERG_STAT_FAULT_CAUSE n) 0
    | .run => (if (blkGet s k).safe then ergRest n s else ergAwake n s).onX (fun x => { x with reloadNew := if x.active.isSome then setBitN x.reloadNew n else x.reloadNew })
    | .stopping => s
    | _ => ergAsleep n s
  else if 0x8A ≤ k ∧ k ≤ 0x8E then
    let n := k - 0x8A
    match st with
    | .starting => (s.setFld (F.XMEM_STAT_TRAINED n) 0).setFld (F.XMEM_STAT_FAULT_PKG n) 0
    | .run => ((domRun (29 + n) true s).setFld (F.XMEM_STAT_TRAINED n) 1).setFld (F.XMEM_STAT_SR n) 0
    | .stopping => s
    | .off => (domRun (29 + n) false s).setFld (F.XMEM_STAT_TRAINED n) 0
    | .fault => ((domRun (29 + n) false s).setFld (F.XMEM_STAT_TRAINED n) 0).irq k 9
  else s

/-! ### Caravan ports -/

def State.cport (s : State) (p : Nat) : CPort := if p = 0 then s.crvn.p0 else s.crvn.p1
def State.setCport (s : State) (p : Nat) (x : CPort) : State :=
  { s with crvn := if p = 0 then { s.crvn with p0 := x } else { s.crvn with p1 := x } }
def State.modCport (s : State) (p : Nat) (f : CPort → CPort) : State := s.setCport p (f (s.cport p))
/-- The class of a frame (R298). -/
def CBody.cls : CBody → Nat
  | .link _ | .disc _ _ _ | .discEnd _ _ _ | .assign _ _ _ _ => 0
  | .pair _ _ => 1
  | .hall _ => 2
  | .data _ | .echo _ => 3
/-- Put a frame on an idle line, or at the end of its class's queue of 16; the answer says whether it was taken (R298). -/
def portTake (f : CFrame) (x : CPort) : CPort × Bool :=
  match x.line with
  | none => ({ x with line := some f }, true)
  | some _ =>
    if 16 ≤ (x.queue.filter (fun g => g.body.cls == f.body.cls)).length then (x, false) else ({ x with queue := x.queue ++ [f] }, true)
/-- Send a frame out of port p; one that meets a full queue is counted in DROP. -/
def portSend (p : Nat) (f : CFrame) (s : State) : State :=
  let (x, ok) := portTake f (s.cport p)
  if ok then s.setCport p x else s.satFld (F.CRVN_PORT_ERR_DROP p) 1
/-- The next frame this node originates (R297): TTL 64, its address while it has one, its RSEQ. -/
def crvnFrame (dst : Nat) (bcast west : Bool) (body : CBody) (s : State) : CFrame :=
  { dst := dst, bcast := bcast, src := if s.fld F.CRVN_STAT_ADDR_VALID = 1 then s.fld F.CRVN_STAT_ADDR else 0, ttl := 64, west := west,
    rseq := s.crvn.rseq, rgen := s.fld F.CRVN_RGEN_RGEN, body := body, own := false }
def crvnNext (s : State) : State := { s with crvn := { s.crvn with rseq := (s.crvn.rseq + 1) % 2 ^ 32 } }
def sendLink (p : Nat) (leaving : Bool) (s : State) : State := crvnNext (portSend p (crvnFrame 0 false (p == 1) (.link leaving) s) s)
/-- De-energise both relays (R294); the contacts follow. -/
def relayOff (s : State) : State :=
  ({ s with crvn := {
    s.crvn with
    relay := false, relayAt := if s.crvn.relay then s.time.count else s.crvn.relayAt
    p0 := { s.crvn.p0 with contact := false }, p1 := { s.crvn.p1 with contact := false } } }).setFld F.CRVN_STAT_INSERTED 0
/-- A port that is not awake keeps a port that has woken in STARTING waiting with WAIT_PEER = 1 (R294). -/
def peerWaits (p : Nat) (s : State) : State :=
  let s := s.modCport p (fun x => { x with woken := false, waiting := false })
  let wait := (blkGet s (0x110 + (1 - p))).state == .starting && (s.cport (1 - p)).woken
  if wait then s.modCport (1 - p) (fun x => { x with waiting := true }) else s
/-- What a port does on entering a state (R294). A port that a fault of the other stops sends its LEAVING, as every port that stops does. -/
def portEnter (p : Nat) (st : BState) (s : State) : State :=
  match st with
  | .starting => s.modCport p (fun x => { x with woken := false, waiting := false, waitTicks := 0 })
  | .run => s.modCport p (fun x => { x with waiting := false, waitTicks := 0, goodRun := 0, missRun := 0 })
  | .stopping => relayOff (sendLink 1 true (sendLink 0 true (peerWaits p s)))
  | .off =>
    let s := domRun (9 + p) false s
    let s := if (blkGet s (0x110 + (1 - p))).state = .off then domRun 11 false s else s
    (peerWaits p s).modCport p (fun x => { x with lock := false, lockAll := false, queue := [], line := none })
  | .fault =>
    let s := relayOff ((peerWaits p s).modCport p (fun x => { x with lock := false, lockAll := false, queue := [], line := none }))
    let k := 0x110 + (1 - p)
    let b := blkGet s k
    if b.state = .run then (sendLink (1 - p) true (peerWaits (1 - p) (blkSet s k { b with state := .stopping, pend := b.en }))).irq 0x70 0 else s

/-- Count a cycle of an inventory item, keyed by 256 × kind + index (R351). -/
def invCycle (key : Nat) (s : State) : State :=
  { s with inv := { s.inv with live := tmod {} s.inv.live key (fun r => { r with cycles := (r.cycles + 1) % 2 ^ 32 }) } }
/-- A die boots: its boot count (R334), the CYCLES of its inventory record (R351), and the blow of its fuse that a power loss interrupted
begins again (R341). -/
def dieBoot (d : Nat) (s : State) : State :=
  invCycle (256 + d) { s with sec := {
    s.sec with
    boots := lset s.sec.boots d ((lget 0 s.sec.boots d + 1) % 2 ^ 32)
    blows := s.sec.blows.map (fun x => if x.1 = d then (d, s.time.count) else x) } }
/-- Items whose CYCLES count a change of state: the four LPDDR6 packages of a quadrant that starts, a pump that reaches RUN. -/
def invMove (k : Nat) (st : BState) (s : State) : State :=
  if 0x8A ≤ k ∧ k ≤ 0x8E ∧ st = .starting then (upto 4).foldl (fun s i => invCycle (2 * 256 + 4 * (k - 0x8A) + i) s) s
  else if 0x100 ≤ k ∧ k < 0x104 ∧ st = .run then invCycle (3 * 256 + (k - 0x100)) s
  else s
/-- An Ethernet port's link follows its state (R353: STARTING includes training). -/
def ethEnter (p : Nat) (st : BState) (s : State) : State :=
  let f := fun (x : EthSt) => { x with link := st == .run, missRun := 0 }
  let s := if p = 0 then { s with eth0 := f s.eth0 } else { s with eth1 := f s.eth1 }
  let s := if st = .off then domRun (12 + p) false s else s
  s.setFld (F.ETH_STAT_LINK p) (b2n (st == .run))

def State.eth (s : State) (p : Nat) : EthSt := if p = 0 then s.eth0 else s.eth1
def State.setEth (s : State) (p : Nat) (x : EthSt) : State := if p = 0 then { s with eth0 := x } else { s with eth1 := x }
/-- What arrives at a port in RUN shows that its link is up again after a loss (log 85). -/
def ethBack (p : Nat) (s : State) : State :=
  if (blkGet s (0x78 + p)).state = .run ∧ (s.eth p).link = false then (s.setEth p { s.eth p with link := true }).setFld (F.ETH_STAT_LINK p) 1 else s
/-- What a port hears: nothing while it has no link. -/
def ethHear (p : Nat) (f : State → State) (s : State) : State :=
  let s := ethBack p s
  if (s.eth p).link then f s else s
/-- A frame of EtherType 88B5h arrives at a port whose link is up (R91). -/
def ethSeen (p : Nat) (s : State) : State :=
  if (s.eth p).link then (s.setEth p { s.eth p with seen := true }).setFld (F.ETH_STAT_PATH_OK p) 1 else s
/-- Ethernet counters wrap. -/
def ethCount (f : Fld) (n : Nat) (s : State) : State := s.setFld f (s.fld f + n)
def State.umod (s : State) (m : Nat) : UMod := if m = 0 then s.ucie.m0 else s.ucie.m1
def State.setUmod (s : State) (m : Nat) (x : UMod) : State := { s with ucie := if m = 0 then { s.ucie with m0 := x } else { s.ucie with m1 := x } }
/-- UCIE_STAT as the modules stand. -/
def ucieShow (s : State) : State :=
  ((s.setFld F.UCIE_STAT_MOD0_UP (b2n s.ucie.m0.up)).setFld F.UCIE_STAT_MOD1_UP (b2n s.ucie.m1.up)).setFld F.UCIE_STAT_DEGRADED
    (b2n (s.ucie.m0.up != s.ucie.m1.up))
/-- The UCIe link on entering a state: training has ended with both modules up; OFF takes both down. -/
def ucieEnter (st : BState) (s : State) : State :=
  match st with
  | .run => ucieShow ((s.setUmod 0 { s.umod 0 with up := true }).setUmod 1 { s.umod 1 with up := true })
  | .off => ucieShow ((s.setUmod 0 { s.umod 0 with up := false }).setUmod 1 { s.umod 1 with up := false })
  | _ => s

/-- Move a block to a state: PG_IRQ.STATE_CHG, and FAULT too when it enters FAULT (R30). -/
def blkMove (s : State) (k : Nat) (st : BState) : State :=
  let b := blkGet s k
  if b.state = st then s
  else
    let s := (invMove k st (blkSet s k { b with state := st })).irq (keyPage k) 0
    let s := if 0x30 ≤ k ∧ k ≤ 0x3B then bankEnter (k - 0x30) st s
             else if k = 0x110 ∨ k = 0x111 then portEnter (k - 0x110) st s
             else if k = 0x78 ∨ k = 0x79 then ethEnter (k - 0x78) st s else if k = 0x90 then ucieEnter st s else xEnter k st s
    if st = .fault then s.irq (keyPage k) 1 else s

/-! ### Lanes -/

def State.lane (s : State) : LaneId → Lane
  | .a => s.laneA
  | .b => s.laneB
def State.setLane (s : State) (l : LaneId) (x : Lane) : State :=
  match l with
  | .a => { s with laneA := x }
  | .b => { s with laneB := x }
def otherLane : LaneId → LaneId
  | .a => .b
  | .b => .a
def laneNum : LaneId → Nat
  | .a => 0
  | .b => 1
def State.modLane (s : State) (l : LaneId) (f : Lane → Lane) : State := s.setLane l (f (s.lane l))
/-- Apply a change in the lanes that `who` names. -/
def onWho (who : LaneId → Bool) (f : Lane → Lane) (s : State) : State :=
  let s := if who .a then s.modLane .a f else s
  if who .b then s.modLane .b f else s
/-- Lanes whose claims carry a nonzero RANK (R41: the voting lanes). -/
def LaneMode.votes : LaneMode → Bool
  | .probation | .standby | .authority => true
  | _ => false
/-- The deciding lanes of R42. -/
def LaneMode.decides : LaneMode → Bool
  | .standby | .authority => true
  | _ => false
def Lane.votes (l : Lane) : Bool := l.core.mode.votes
/-- A lane whose core runs: every state but BOOT before its boot is complete. -/
def Lane.running (l : Lane) : Bool := l.core.bootDone || l.core.mode != .boot
/-- Apply a function to the shared state of every lane that computes in step. -/
def Lane.onRow (l : Lane) (f : RowSt → RowSt) : Lane := if l.votes then { l with row := f l.row } else l
def State.onRows (s : State) (f : RowSt → RowSt) : State :=
  { s with laneA := s.laneA.onRow f, laneB := s.laneB.onRow f }
def State.onVoting (s : State) (f : Lane → Lane) : State :=
  { s with laneA := if s.laneA.votes then f s.laneA else s.laneA, laneB := if s.laneB.votes then f s.laneB else s.laneB }

/-- R75: claim c1 is higher than claim c2. -/
def higherClaim (c1 c2 : Nat) : Bool :=
  let d := (c1 / 256 + 256 - c2 / 256 % 256) % 256
  (1 ≤ d && d ≤ 127) || (d == 0 && c1 % 256 > c2 % 256)
/-- Of the two lanes' claims, c1 is the higher: R75 between nonzero claims. DESIGN CHOICE (log 70): a claim of 0000h is never the higher one
(R80, R84). -/
def outranks (c1 c2 : Nat) : Bool := c1 != 0 && (c2 == 0 || higherClaim c1 c2)
/-- The lane with the higher claim in force. -/
def State.lead (s : State) : LaneId := if outranks s.laneB.core.claim s.laneA.core.claim then .b else .a

/-- A shared event of the row state (R348), by class, unit page, sub-unit, event kind and argument. -/
def RowSt.ev (r : RowSt) (cls unit sub code arg : Nat) : RowSt :=
  { r with events := r.events ++ [⟨cls, 4, unit, sub, 0, code, arg⟩] }
/-- An event of the lane itself (its own series). -/
def Lane.ev (l : Lane) (id : LaneId) (cls unit sub code arg : Nat) : Lane :=
  { l with ownEvents := l.ownEvents ++ [⟨cls, 2 + laneNum id, unit, sub, 0, code, arg⟩] }
/-- An event of a Playa chip: it reports through the lanes, and each running lane records it in its own series (R342, R348). -/
def State.playaEv (s : State) (chip unit sub code arg : Nat) : State :=
  let f := fun (l : Lane) => if l.running then { l with ownEvents := l.ownEvents ++ [⟨2, 5 + chip, unit, sub, 0, code, arg⟩] } else l
  { s with laneA := f s.laneA, laneB := f s.laneB }
/-- Ask the bus interface to set bit b of PG_IRQ of page p. -/
def RowSt.irq (r : RowSt) (p b : Nat) : RowSt := { r with irqs := (p, b) :: r.irqs }
/-- Ask the bus interface to count an error of page p with a code. -/
def RowSt.err (r : RowSt) (p code : Nat) : RowSt := { r with errs := (p, code) :: r.errs }
def RowSt.f (r : RowSt) (f : Fld) : Nat := fget r.regs f
def RowSt.setF (r : RowSt) (f : Fld) (v : Nat) : RowSt := { r with regs := fset r.regs f v }

/-- Bring the interrupts and errors the lanes asked for to the pages' headers; both lanes report the same error, which counts once. -/
def State.flush (s : State) : State :=
  let errs := if s.laneA.row.errs.isEmpty then s.laneB.row.errs else s.laneA.row.errs
  let rf := (s.laneA.row.irqs ++ s.laneB.row.irqs).foldl (fun rf e => regIrq rf e.1 e.2) s.regs
  { s with regs := errs.foldl (fun rf e => regErr rf e.1 e.2) rf,
           laneA := { s.laneA with row := { s.laneA.row with irqs := [], errs := [] } },
           laneB := { s.laneB with row := { s.laneB.row with irqs := [], errs := [] } } }

/-- Whether the lanes would apply a write to page p: not LOCKED, and the presence window open where the write needs it (R43). -/
def State.laneOk (s : State) (p : Nat) (needsPresence : Bool) : Bool :=
  !s.locked p && (!needsPresence || ((s.laneWin .a || !s.laneA.votes) && (s.laneWin .b || !s.laneB.votes) && s.presence))
/-- Apply a lane-owned write's effect in every voting lane when the lanes accept it. -/
def State.laneWrite (s : State) (p : Nat) (needsPresence : Bool) (f : Lane → Lane) : State :=
  if s.laneOk p needsPresence then (s.onVoting f).flush else s

/-- The PTP instant of the present tick's boundary plus `ahead` ticks: seconds and whole nanoseconds (R396). -/
def tickInst (t : TimeSt) (ahead : Nat) : Nat × Nat :=
  let n := t.frame * 8 + t.tick + ahead
  (t.sec + n / 8192, n % 8192 * 1000000000 / 8192)

/-- Take a free value from the counter (R-less; see Config.freeWord). -/
def State.free (s : State) (w : Nat) : Nat × State := (Config.freeWord s.freeCtr % 2 ^ w, { s with freeCtr := s.freeCtr + 1 })

end Sys2Proof.Machine
end

