-- ==== Sys2Proof/Machine/Blocks.lean ====
section
/-! DEFINITION. The block state machine and the common page header's commands (R31–R35), and the bus error counter (R27, R47). -/
namespace Sys2Proof.Machine
open Sys2Proof

/-- Blocks that reach RUN only after the governor's grant; a valve bank is admitted only if its rail needs a recharge (R252). -/
def blkGoverned (k : Nat) : Bool := (blkItem k).isSome && !(decide (0x30 ≤ k ∧ k ≤ 0x3B))
/-- Blocks that follow the STATE machine of R33. -/
def blkHasState (k : Nat) : Bool :=
  if k < 0x100 then
    match pageInfo k with
    | some i => bitOf i.cap 3
    | none => false
  else decide (k < 0x104 ∨ k = 0x110 ∨ k = 0x111)

/-- Raise an admission request, sampled in the next sequencer cycle (R54). -/
def govRaise (g : GovSt) (i : GovItem) (bypass : Bool) : GovSt := { g with raised := g.raised ++ [⟨i, 0, bypass⟩] }
def State.withdraw (s : State) (k : Nat) : State :=
  match blkItem k with
  | some i => { s with gov := govWithdraw s.gov i }
  | none => s

/-- Whether pump channel n may run (R265, R277, R280): the page's EN and its own EN, no dry-run verdict, and for the standby pump a rule
that has started it. -/
def pumpAllowed (s : State) (n : Nat) : Bool :=
  let r := (s.lane s.lead).row
  (blkGet s 0x48).en && (blkGet s (0x100 + n)).en && !bitOf r.prot.dry n && (n != r.f F.PUMP_CFG_STANDBY || r.act.sbOn)
/-- Bring a pump channel's STATE in line with whether it may run; under FORCE_SAFE no channel starts or stops (R265). -/
def pumpSync (n : Nat) (s : State) : State :=
  let k := 0x100 + n
  let b := blkGet s k
  if (blkGet s 0x48).safe then s
  else if pumpAllowed s n then
    match b.state with
    | .off => if b.pend then s else blkMove (blkSet s k { b with granted := false }) k .starting
    | .stopping => blkSet s k { b with pend := true }
    | _ => s
  else
    match b.state with
    | .starting => (blkMove s k .stopping).withdraw k
    | .run => blkMove s k .stopping
    | .fault => if b.en then s else blkMove s k .stopping
    | .stopping => blkSet s k { b with pend := false }
    | .off => s
def pumpSyncAll (s : State) : State := (upto 4).foldl (fun s n => pumpSync n s) s
/-- The page state of the pump page: RUN while any channel is RUN, OFF while every channel is OFF (R265). -/
def pumpPage (s : State) : State :=
  let st := (upto 4).map (fun n => (blkGet s (0x100 + n)).state)
  if st.contains .run then blkMove s 0x48 .run
  else if st.all (fun x => x == .off) then blkMove s 0x48 .off
  else blkMove s 0x48 ((st.filter (fun x => x != .off)).head?.getD .off)
/-- EN of the pump page or of a pump channel written. -/
def pumpEnable (k : Nat) (on : Bool) (s : State) : State :=
  pumpPage (pumpSyncAll (blkSet s k { blkGet s k with en := on }))

/-- Whether a Caravan port may run (R294): the core's EN and its own. -/
def portAllowed (s : State) (p : Nat) : Bool := (blkGet s 0x70).en && (blkGet s (0x110 + p)).en
/-- Page 070 is RUN while any port is RUN and OFF while both are OFF. -/
def crvnPage (s : State) : State :=
  let a := (blkGet s 0x110).state
  let b := (blkGet s 0x111).state
  if a = .run ∨ b = .run then blkMove s 0x70 .run else if a = .off ∧ b = .off then blkMove s 0x70 .off else blkMove s 0x70 (if a = .off then b else a)
/-- EN of a port written; a core that is not enabled keeps its ports OFF. -/
def portEnable (p : Nat) (on : Bool) (s : State) : State :=
  let k := 0x110 + p
  let s := blkSet s k { blkGet s k with en := on }
  let b := blkGet s k
  crvnPage (if portAllowed s p then
    match b.state with
    | .off => blkMove (blkSet s k { b with pend := false }) k .starting
    | .stopping => blkSet s k { b with pend := true }
    | _ => s
  else
    match b.state with
    | .starting => blkMove (blkSet s k { b with pend := false }) k .stopping
    | .run => blkMove (blkSet s k { b with pend := false }) k .stopping
    | .fault => blkMove (blkSet s k { b with pend := false }) k .stopping
    | _ => blkSet s k { b with pend := false })
/-- A core that is not enabled, or in reset: both ports OFF and the relays de-energised (R294, R295). -/
def crvnDown (s : State) : State :=
  let off := fun (s : State) (p : Nat) => let s := blkMove s (0x110 + p) .off; blkSet s (0x110 + p) { blkGet s (0x110 + p) with pend := false }
  crvnPage (relayOff (off (off s 0) 1))
/-- PG_CTRL.EN of page 070 written. -/
def crvnEnable (on : Bool) (s : State) : State :=
  let s := blkSet s 0x70 { blkGet s 0x70 with en := on }
  if on then
    crvnPage ((upto 2).foldl (fun s p =>
      let b := blkGet s (0x110 + p)
      if b.en ∧ b.state = .off then blkMove (blkSet s (0x110 + p) { b with pend := false }) (0x110 + p) .starting else s) s)
  else crvnDown s

/-- A valve bank: its EN and FORCE_SAFE reach it with the frame its chip chooses (R250). -/
def isBank (k : Nat) : Bool := decide (0x30 ≤ k ∧ k ≤ 0x3B)
/-- An Ethernet port whose cable reports active or optical media (R378). -/
def cableBad (s : State) (k : Nat) : Bool := (k == 0x78 && s.eth0.optical) || (k == 0x79 && s.eth1.optical)
/-- A block takes EN = 1 (R33, R34): OFF moves to STARTING, STOPPING sets PEND, other states ignore it. A port refuses to start a cable that is
not passive copper and counts the refusal (R378). -/
def blockOn (k : Nat) (s : State) : State :=
  let b := blkGet s k
  match b.state with
  | .off => if cableBad s k then s.err k 0x80 else blkMove (blkSet s k { b with granted := false, pend := false }) k .starting
  | .stopping => blkSet s k { b with pend := true }
  | _ => s
/-- A block takes EN = 0 (R33, R34, R55): STARTING, RUN and FAULT move to STOPPING, a pending enable clears, a request waiting is withdrawn. -/
def blockOff (k : Nat) (s : State) : State :=
  let b := blkGet s k
  let s := blkSet s k { b with pend := false }
  match b.state with
  | .starting => (blkMove s k .stopping).withdraw k
  | .run => (blkMove s k .stopping).withdraw k
  | .fault => blkMove s k .stopping
  | _ => s
/-- EN = 1 written; a block without a STATE machine only holds the bit (R30). -/
def blockEnable (k : Nat) (s : State) : State :=
  if k = 0x48 ∨ (0x100 ≤ k ∧ k < 0x104) then pumpEnable k true s else
  if k = 0x70 then crvnEnable true s else if k = 0x110 ∨ k = 0x111 then portEnable (k - 0x110) true s else
  let s := blkSet s k { blkGet s k with en := true }
  if isBank k || !blkHasState k then s else blockOn k s
/-- EN = 0 written. -/
def blockDisable (k : Nat) (s : State) : State :=
  if k = 0x48 ∨ (0x100 ≤ k ∧ k < 0x104) then pumpEnable k false s else
  if k = 0x70 then crvnEnable false s else if k = 0x110 ∨ k = 0x111 then portEnable (k - 0x110) false s else
  let s := blkSet s k { blkGet s k with en := false }
  if isBank k || !blkHasState k then s else blockOff k s
/-- A stop the block orders itself (R33): RUN moves to STOPPING, PEND set while EN is 1. -/
def blockSelfStop (k : Nat) (s : State) : State :=
  let b := blkGet s k
  if b.state = .run then blkMove (blkSet s k { b with pend := b.en }) k .stopping else s
/-- A block of its own reaches OFF by a reset: no enable waits, no request waits and nothing is left in the ledger. -/
def blkOff (k : Nat) (s : State) : State :=
  let s := blkMove s k .off
  ((blkSet s k { blkGet s k with pend := false, rst := false, granted := false }).withdraw k).stopCost k
/-- RST_REQ completed (R33): the block is OFF; the pump page takes its channels with it, the Caravan page its ports and relays, a valve bank
ends its profiles. EN and FORCE_SAFE stay as last written (R34). DESIGN CHOICE (log 24): the reset is complete in the cycle of the write,
so RST_REQ reads 0, and it touches no register of the block's own, since R30 and R33 name nothing else that it returns. -/
def blockReset (k : Nat) (s : State) : State :=
  if k = 0x70 then crvnDown s
  else if k = 0x48 then pumpPage ((upto 4).foldl (fun s n => blkOff (0x100 + n) s) s)
  else if 0x100 ≤ k ∧ k < 0x104 then pumpPage (blkOff k s)
  else if k = 0x110 ∨ k = 0x111 then crvnPage (blkOff k (relayOff s))
  else if isBank k then blkOff k (bankCut (k - 0x30) (bankConverterOff (k - 0x30) s))
  else blkOff k s
/-- FORCE_SAFE written (R35): in effect at once, released at the next tick boundary; a valve bank takes both with a frame. -/
def blockForceSafe (k : Nat) (on : Bool) (s : State) : State :=
  let b := blkGet s k
  if isBank k then blkSet s k { b with forceSafe := on } else
  let s := blkSet s k { b with forceSafe := on, safe := on || b.safe }
  if on ∧ (k = 0x70 ∨ k = 0x110 ∨ k = 0x111) then relayOff s else s
/-- A port's change of state shows in page 070. -/
def portSync (k : Nat) (s : State) : State := if k = 0x110 ∨ k = 0x111 then crvnPage s else s
/-- STARTING with the block ready, admission included, moves to RUN; a valve bank is ready once its rail is at or above 64.0 V (R252). -/
def blockReady (k : Nat) (s : State) : State :=
  let b := blkGet s k
  if k = 0x70 ∨ k = 0x110 ∨ k = 0x111 then s
  else if b.state = .starting ∧ (blkGoverned k = false ∨ b.granted = true) ∧ ¬ (0x30 ≤ k ∧ k ≤ 0x3B ∧ (s.bank (k - 0x30)).rail < 640) then blkMove s k .run else s
/-- What keeps a block in STOPPING: a valve bank's profiles still running (R252), an erg still awake (R165). -/
def stopBusy (s : State) (k : Nat) : Bool :=
  (isBank k && (upto 8).any (fun n => (s.vch (8 * (k - 0x30) + n)).phase != 0)) ||
  (decide (0x80 ≤ k ∧ k ≤ 0x87) && s.fld (F.ERG_STAT_AWAKE (k - 0x80)) == 1)
/-- Shutdown complete: STOPPING moves to OFF. -/
def blockStopComplete (k : Nat) (s : State) : State :=
  let b := blkGet s k
  if b.state = .stopping ∧ stopBusy s k = false then portSync k ((blkMove (blkSet s k { b with granted := false }) k .off).stopCost k) else s
/-- Whether the EN in force of a block that is OFF is 1: a bank's is the one its chip took, a channel's and a port's includes the page's. The
pump and Caravan pages have no STATE but that of their channels and ports. -/
def blkWanted (s : State) (k : Nat) : Bool :=
  if k = 0x48 ∨ k = 0x70 then false
  else if 0x100 ≤ k ∧ k < 0x104 then pumpAllowed s (k - 0x100) && !(blkGet s 0x48).safe
  else if k = 0x110 ∨ k = 0x111 then portAllowed s (k - 0x110)
  else if isBank k then (s.bank (k - 0x30)).en
  else (blkGet s k).en
/-- One block clock after OFF: STARTING with PEND set, which clears (R34), or with EN still 1 after a reset (R33). -/
def blockPendStart (k : Nat) (s : State) : State :=
  let b := blkGet s k
  if b.state = .off ∧ (b.pend = true ∨ blkWanted s k = true) then
    let s := portSync k (blkMove (blkSet s k { b with pend := false, granted := false }) k .starting)
    if 0x100 ≤ k ∧ k < 0x104 then pumpPage s else s
  else s
/-- A quadrant that fails in STARTING names the packages that failed training: at least one, which the command does not say (free). -/
def trainFail (k : Nat) (s : State) : State :=
  if 0x8A ≤ k ∧ k ≤ 0x8E then
    let (v, s) := s.free 4
    s.setFld (F.XMEM_STAT_FAULT_PKG (k - 0x8A)) (1 + v % 15)
  else s
/-- A detected fault (R33); an erg or a quadrant stops with it, and its costs leave the ledger (R53); a pump channel sets BLOCK_IRQ bit 11 of its page. -/
def blockFault (k : Nat) (s : State) : State :=
  if (blkGet s k).state = .fault then s
  else
    let trained := (blkGet s k).state != .starting
    let s := portSync k ((blkMove s k .fault).withdraw k)
    let s := if 0x80 ≤ k ∧ k ≤ 0x8E then s.stopCost k else s
    let s := if 0x100 ≤ k ∧ k < 0x104 then pumpPage (s.irq 0x48 11) else s
    let s := if trained then s else trainFail k s
    if k = 0x110 ∨ k = 0x111 then s.setFld (F.CRVN_PORT_STAT_CAUSE (k - 0x110)) 4 else s

/-! ### Refusals of a write -/

/-- An access to an unassigned page, or one whose target does not respond (R27, R47). -/
def busErr (s : State) (addr : Nat) (write : Bool) : State :=
  ((s.satFld F.SYS_BUS_ERR_COUNT 1).setFld F.SYS_BUS_ERR_ADDR_ADDR addr).setFld F.SYS_BUS_ERR_ADDR_WRITE (b2n write)
/-- Reserved lane pages (R394). -/
def lanePageReserved (p : Nat) : Bool := decide (0x10 ≤ p ∧ p ≤ 0x2F ∧ 0xD ≤ p % 16)
/-- Lane-owned pages whose PG_CTRL the mailbox writes; of lane B's pages 020 and 02B, as for their other fields (R137 and its like). -/
def ctrlByMailbox (p : Nat) (laneOwned : Bool) : Bool :=
  laneOwned && (decide (p < 0x20 ∨ 0x2F < p) || p == 0x20 || p == 0x2B) && !lanePageReserved p
/-- A write to a page's PG_CTRL (R30, R32, R33): refused on a LOCKED page; a lane-owned page takes it only through the mailbox, any other only
directly; SYS has none. -/
def ctrlWrite (id : BlockId) (via : Via) (f : Nat → State → State) (s : State) : State :=
  let p := blkPage id
  match pageInfo p with
  | none => busErr s (p * 0x1000 + 8) true
  | some i =>
    match via with
    | .direct =>
      if !reachable s p then busErr s (p * 0x1000 + 8) true
      else if s.locked p then s.refuse p 4
      else if i.laneOwned then s.refuse p 1
      else if p = 0 then s else f (blkKey id) s
    | .mailbox => if s.locked p then s else if ctrlByMailbox p i.laneOwned then f (blkKey id) s else s

def execBlockEnable (blk : BlockId) (via : Via) (s : State) : Host.Outcome State Fault Refusal :=
  .next (ctrlWrite blk via blockEnable s)
def execBlockDisable (blk : BlockId) (via : Via) (s : State) : Host.Outcome State Fault Refusal :=
  .next (ctrlWrite blk via blockDisable s)
def execBlockReady (blk : BlockId) (s : State) : Host.Outcome State Fault Refusal :=
  .next (if blkHasState (blkKey blk) then blockReady (blkKey blk) s else s)
def execBlockStopComplete (blk : BlockId) (s : State) : Host.Outcome State Fault Refusal :=
  .next (if blkHasState (blkKey blk) then blockStopComplete (blkKey blk) s else s)
def execPendingEnableStart (blk : BlockId) (s : State) : Host.Outcome State Fault Refusal :=
  .next (if blkHasState (blkKey blk) then blockPendStart (blkKey blk) s else s)
def execBlockFault (blk : BlockId) (s : State) : Host.Outcome State Fault Refusal :=
  .next (if blkHasState (blkKey blk) then blockFault (blkKey blk) s else s)

/-! ### Header commands -/

/-- R31: bits written 1 clear unless an event sets them in the same cycle; bits 7:4 are reserved (R30). -/
def irqClear (p : Nat) (bits same : Word) (s : State) : State :=
  { s with regs := rset s.regs (hdrIrq p) ((rget s.regs (hdrIrq p) &&& ~~~bits) ||| (same &&& 0xFFFFFF0F)) }
def execIrqClear (page : BitVec 8) (bits same : Word) (s : State) : Host.Outcome State Fault Refusal :=
  .next (if reachable s page.toNat then irqClear page.toNat bits same s else busErr s (hdrIrq page.toNat) true)
/-- R32: CLR sets COUNT and LAST_CODE to 0; an increment in the same cycle leaves COUNT at 1 and LAST_CODE at the new code. -/
def errCntClear (p : Nat) (same : Option (BitVec 8)) (s : State) : State :=
  let s := { s with regs := rset s.regs (hdrErr p) 0 }
  match same with
  | some c => s.err p c.toNat
  | none => s
def execErrCntClear (page : BitVec 8) (same : Option (BitVec 8)) (s : State) : Host.Outcome State Fault Refusal :=
  .next (if reachable s page.toNat then errCntClear page.toNat same s else busErr s (hdrErr page.toNat) true)
/-- R47: SYS_BUS_ERR.CLR. -/
def execBusErrClear (s : State) : Host.Outcome State Fault Refusal :=
  .next (if s.locked 0 then s.refuse 0 4 else s.setFld F.SYS_BUS_ERR_COUNT 0)
/-- R47: no response within 1,024 uncore cycles: a read returns 0, a write is discarded, and the access is counted. -/
def execBusTimeout (addr : BitVec 20) (write : Bool) (s : State) : Host.Outcome State Fault Refusal :=
  .next { busErr s addr.toNat write with rdData := if write then s.rdData else 0 }

end Sys2Proof.Machine
end

