-- ==== Sys2Proof/Machine/Governor.lean ====
section
/-! DEFINITION. The inrush governor (R51–R58). Currents are in 10 mA units, times in sequencer cycles. -/
namespace Sys2Proof.Machine
open Sys2Proof

/-- R53: steady cost, surge cost, surge window and spacing of a class, and its priority. -/
def govSteady : GovClass → Nat
  | .lane => 0 | .valve => 10 | .pump => 0 | .lpddr => 20 | .erg => 70 | .eth => 0
def govSurge : GovClass → Nat
  | .lane => 50 | .valve => 0 | .pump => 20 | .lpddr => 25 | .erg => 90 | .eth => 60
def govWindow : GovClass → Nat
  | .lane => 16384 | .valve => 0 | .pump => 16384 | .lpddr => 64 | .erg => 269 | .eth => 16384
def govSpacing : GovClass → Nat
  | .pump => 25165824 | .erg => 269 | _ => 0
def govPrio : GovClass → Nat
  | .lane => 1 | .valve => 2 | .pump => 3 | .lpddr => 4 | .erg => 5 | .eth => 6
def govClasses : List GovClass := [.lane, .valve, .pump, .lpddr, .erg, .eth]
/-- R52: the budget, 12.00 A, and the base cost, 3.00 A. -/
def govBudget : Nat := 1200
def govBase : Nat := 300

/-- What an admitted item costs now. -/
def admCost (a : GovAdm) : Nat := govSteady a.item.cls + (if a.surgeLeft = 0 then 0 else govSurge a.item.cls)
/-- The ledger of R52. -/
def govLedger (g : GovSt) : Nat := govBase + nsum (g.admitted.map admCost)
/-- Whether an item fits the budget. -/
def govFits (g : GovSt) (i : GovItem) : Bool := decide (govLedger g + govSteady i.cls + govSurge i.cls ≤ govBudget)
/-- Cycles left of a class's spacing interval. -/
def govGap (g : GovSt) : GovClass → Nat
  | .pump => g.pumpGap
  | .erg => g.ergGap
  | _ => 0
/-- Admit an item: into the ledger, its spacing interval starts, its grant is 2 cycles away. -/
def govAdmit (g : GovSt) (i : GovItem) : GovSt :=
  { g with admitted := g.admitted ++ [⟨i, govWindow i.cls⟩], granting := g.granting ++ [(i, 2)],
           pumpGap := if i.cls = .pump then govSpacing .pump else g.pumpGap,
           ergGap := if i.cls = .erg then govSpacing .erg else g.ergGap,
           queue := g.queue.filter (fun r => r.item != i) }
/-- R56: a bypass is admitted whatever the budget and the spacing. -/
def govBypass (g : GovSt) (i : GovItem) : GovSt :=
  let g := govAdmit { g with bypasses := satAdd 0xFFFF g.bypasses 1 } i
  { g with overNow := decide (govBudget < govLedger g) }

/-- Step 1 of R54: surge windows run down and the costs of recorded stops leave. -/
def govStep1 (g : GovSt) : GovSt :=
  { g with admitted := (g.admitted.map (fun a => { a with surgeLeft := a.surgeLeft - 1 })).filter (fun a =>
             !(g.ended.contains a.item) && !(a.surgeLeft == 0 && govSteady a.item.cls == 0)),
           ended := [], pumpGap := g.pumpGap - 1, ergGap := g.ergGap - 1 }
/-- Insert a sampled request behind requests of its cycle with a smaller instance number. -/
def insReq (r : GovReq) : List GovReq → List GovReq
  | [] => [r]
  | x :: xs => if x.item.inst ≤ r.item.inst then x :: insReq r xs else r :: x :: xs
/-- Step 2 of R54: sampled requests join their queues; a bypass is admitted in the cycle it is sampled. -/
def govStep2 (g : GovSt) : GovSt :=
  let q := g.raised.filter (fun r => !r.bypass)
  let b := g.raised.filter (fun r => r.bypass)
  let g := { g with raised := [], queue := g.queue ++ q.foldl (fun l r => insReq r l) [] }
  b.foldl (fun g r => govBypass g r.item) g
/-- Step 3 for one class: admit queue heads while each fits and no spacing runs. Answers the new governor and whether the class is
blocked on budget. -/
def govClassGo (c : GovClass) : Nat → GovSt → GovSt × Bool
  | 0, g => (g, false)
  | k + 1, g =>
    match g.queue.filter (fun r => r.item.cls == c) with
    | [] => (g, false)
    | r :: _ =>
      if !govFits g r.item then (g, true)
      else if govGap g c ≠ 0 then (g, false)
      else govClassGo c k (govAdmit g r.item)
/-- Step 3 of R54: the classes in priority order; a class blocked on budget blocks every lower one (R55); under HOLD or OVER only the lane
class is evaluated (R56, R57), as from HOLDUP (R292). -/
def govStep3 (laneOnly : Bool) : List GovClass → GovSt → GovSt
  | [], g => { g with blocked := 0 }
  | c :: cs, g =>
    if (g.hold || g.overNow || laneOnly) && c != .lane then { g with blocked := 0 }
    else
      let (g', bl) := govClassGo c (g.queue.length + 1) g
      if bl then { g' with blocked := govPrio c } else govStep3 laneOnly cs g'
/-- R57: the runs of measured current and HOLD. -/
def govMeasure (iin : Nat) (g : GovSt) : GovSt :=
  { g with overRun := runNext (decide (govBudget < iin)) g.overRun, underRun := runNext (decide (iin ≤ 1150)) g.underRun }
def govHold (g : GovSt) : GovSt := if 16 ≤ g.overRun then { g with hold := true } else g
def govHoldClear (g : GovSt) : GovSt := if 16 ≤ g.underRun then { g with hold := false } else g
/-- Waiting requests: erg and quadrant ones count for Xoide's INRUSH throttle (R66). -/
def govWaiting (g : GovSt) : Nat := g.queue.length
def govXoideWaiting (g : GovSt) : Nat := (g.queue.filter (fun r => r.item.cls == .erg || r.item.cls == .lpddr)).length

/-! ### Grants -/

/-- The key of the block an item starts. -/
def itemBlk (i : GovItem) : Option Nat :=
  match i.cls with
  | .erg => some (0x80 + i.inst)
  | .lpddr => some (0x8A + i.inst)
  | .eth => some (0x78 + i.inst)
  | .pump => some (0x100 + i.inst)
  | .valve => some (0x30 + i.inst)
  | .lane => none
/-- A bank's converter runs from the grant (R238); a bank that has left STARTING and RUN keeps it off, and the cost leaves the ledger (R252). -/
def bankGrant (b : Nat) (s : State) : State :=
  let st := (blkGet s (0x30 + b)).state
  let x := { s.bank b with request := false }
  if st = .starting ∨ st = .run then s.setBank b { x with recharge := true }
  else { s.setBank b x with gov := { s.gov with ended := ⟨.valve, b⟩ :: s.gov.ended } }
/-- The grant reaches the requester (R54): its block is granted, a lane is admitted (R81). -/
def grantReach (i : GovItem) (s : State) : State :=
  match itemBlk i with
  | some k =>
    let s := blkSet s k { blkGet s k with granted := true }
    if i.cls = .valve then bankGrant i.inst s else s
  | none =>
    s.modLane (if i.inst = 0 then .a else .b) (fun l => { l with core := { l.core with admitted := true } })
def grantItem (i : GovItem) (s : State) : State :=
  if s.gov.granting.any (fun x => x.1 == i) then
    grantReach i { s with gov := { s.gov with granting := s.gov.granting.filter (fun x => x.1 != i) } }
  else s
/-- The grants of a sequencer cycle: those admitted 2 cycles before it (R54). -/
def grantsDue (s : State) : State :=
  let g := { s.gov with granting := s.gov.granting.map (fun (x : GovItem × Nat) => (x.1, x.2 - 1)) }
  (g.granting.filter (fun (x : GovItem × Nat) => x.2 == 0)).foldl (fun s (x : GovItem × Nat) => grantItem x.1 s) { s with gov := g }

/-- The register views of the INRUSH page that the governor keeps current. -/
def govShow (s : State) : State :=
  let g := s.gov
  let l := govLedger g
  let n := fun c => min 15 ((g.queue.filter (fun r => r.item.cls == c)).length)
  let pend := n .lane + 16 * n .valve + 256 * n .pump + 4096 * n .lpddr + 65536 * n .erg + 1048576 * n .eth
  let s := { s with gov := { g with peak := max g.peak l } }
  let s := (s.setFld F.INRUSH_LEDGER_AMPS l).setFld F.INRUSH_LEDGER_PEAK (max g.peak l)
  let s := (s.setFld F.INRUSH_PEND_LANE pend).setFld F.INRUSH_BLOCK_CLASS g.blocked
  let s := (s.setFld F.INRUSH_BLOCK_HOLD (b2n g.hold)).setFld F.INRUSH_BLOCK_OVER (b2n g.overNow)
  let s := (s.setFld F.INRUSH_PUMP_GAP_REMAIN (ceilDiv g.pumpGap 16)).setFld F.INRUSH_BYPASS_COUNT g.bypasses
  (s.setFld F.INRUSH_WAIT_LO_COUNT (g.waitTotal % 2 ^ 32)).setFld F.INRUSH_WAIT_HI_COUNT (g.waitTotal / 2 ^ 32)

/-- R66: the throttle conditions of a die, given slowness order (`slow a b`: a is slower than b), and its request. -/
def thrTick (slow : Nat → Nat → Bool) (req : Nat) (cap : Bool) (d : DieOpp) : DieOpp :=
  let worst := fun x => !(slow d.thermLim x) && !(cap && slow d.capLim x) && !(slow d.supplyLim x)
  { d with thrTherm := d.thrTherm + b2n (slow d.thermLim req && worst d.thermLim),
           thrCap := d.thrCap + b2n (cap && slow d.capLim req && worst d.capLim),
           thrDroop := d.thrDroop + b2n d.stretch,
           thrSupply := d.thrSupply + b2n (slow d.supplyLim req && worst d.supplyLim),
           thrOverrun := d.thrOverrun + b2n d.overrun }
/-- CLK_HERVI_OPP.REQ: values above 8h are taken as 8h. -/
def herviReq (s : State) : Nat := min 8 (s.fld F.CLK_HERVI_OPP_REQ)

/-- R59: the tile clock in MHz of OPP0–OPP7. -/
def oppMhz (n : Nat) : Nat := 1250 - 125 * min n 7
/-- Add to a 64-bit counter of an erg held in two words. -/
def ergAct (lo hi : Nat → Fld) (n v : Nat) (s : State) : State :=
  let x := (s.fld (lo n) + 2 ^ 32 * s.fld (hi n) + v) % 2 ^ 64
  (s.setFld (lo n) (x % 2 ^ 32)).setFld (hi n) (x / 2 ^ 32)
/-- One sequencer cycle of the governor (R54), of the measured-current hold (R57) and of the throttle durations (R66). -/
def governorCycle (iin : Nat) (s : State) : State :=
  let s := grantsDue ({ s with pwr := { s.pwr with iin := iin } }.setFld F.PWR_IIN_AMPS iin)
  let hold0 := s.gov.hold
  let over0 := s.gov.overNow
  let g := govHoldClear (govHold (govMeasure iin s.gov))
  let g := govStep2 (govStep1 g)
  let g := { g with overNow := g.overNow && decide (govBudget < govLedger g) }
  let g := govStep3 s.pwr.holdup govClasses g
  let g := { g with queue := g.queue.map (fun r => { r with age := r.age + 1 }), waitTotal := (g.waitTotal + govWaiting g) % 2 ^ 64 }
  let s := { s with gov := g }
  let s := if g.hold && !hold0 then s.irq 3 8 else s
  let s := if g.overNow && !over0 then s.irq 3 9 else s
  let s := if g.queue.any (fun r => decide (16384 < r.age)) then s.irq 3 10 else s
  let x := thrTick (fun a b => decide (b < a)) (s.fld F.XPWR_OPP_REQ) true s.xopp
  let h := thrTick (fun a b => decide (a < b)) (herviReq s) false s.hopp
  govShow { s with xopp := { x with thrInrush := x.thrInrush + govXoideWaiting g }, hopp := h }
def execGovernorCycle (iin : BitVec 12) (s : State) : Host.Outcome State Fault Refusal := .next (governorCycle iin.toNat s)

def execInrushRequest (item : GovItem) (s : State) : Host.Outcome State Fault Refusal :=
  .next { s with gov := govRaise s.gov item false }
def execGrant (item : GovItem) (s : State) : Host.Outcome State Fault Refusal := .next (grantItem item s)
/-- R53: an item's surge cost leaves the ledger when its window ends. -/
def govSurgeEnd (i : GovItem) (g : GovSt) : GovSt :=
  let l := g.admitted.map (fun a => if a.item = i then { a with surgeLeft := 0 } else a)
  { g with admitted := l.filter (fun a => !(a.surgeLeft == 0 && govSteady a.item.cls == 0)) }
def execSurgeWindowEnd (item : GovItem) (s : State) : Host.Outcome State Fault Refusal :=
  .next (govShow { s with gov := govSurgeEnd item s.gov })
/-- R55: a class's spacing interval ends. -/
def govSpacingEnd (c : GovClass) (g : GovSt) : GovSt :=
  match c with
  | .pump => { g with pumpGap := 0 }
  | .erg => { g with ergGap := 0 }
  | _ => g
def execSpacingIntervalEnd (cls : GovClass) (s : State) : Host.Outcome State Fault Refusal :=
  .next (govShow { s with gov := govSpacingEnd cls s.gov })
/-- R56: the urgent start of a standby pump is admitted in the cycle it is sampled: the request the lane raised for it, or, where none waits and
none is admitted yet, one for this command. -/
def bypassStart (i : GovItem) (g : GovSt) : GovSt :=
  let mine := fun (r : GovReq) => r.bypass && r.item == i
  if !g.raised.any mine && g.admitted.any (fun a => a.item == i) then g
  else govBypass { g with raised := g.raised.filter (fun r => !mine r) } i
def execBypassStart (pump : Fin 4) (s : State) : Host.Outcome State Fault Refusal :=
  let s' := govShow { s with gov := bypassStart ⟨.pump, pump.val⟩ s.gov }
  .next (if s'.gov.overNow && !s.gov.overNow then s'.irq 3 9 else s')
def execInrushHold (s : State) : Host.Outcome State Fault Refusal :=
  let s' := govShow { s with gov := govHold s.gov }
  .next (if s'.gov.hold && !s.gov.hold then s'.irq 3 8 else s')
def execInrushHoldClear (s : State) : Host.Outcome State Fault Refusal := .next (govShow { s with gov := govHoldClear s.gov })
/-- INRUSH_LEDGER.PEAK_CLR sets PEAK to AMPS. -/
def ledgerPeakClear (s : State) : State :=
  State.setFld { s with gov := { s.gov with peak := govLedger s.gov } } F.INRUSH_LEDGER_PEAK (govLedger s.gov)
def execLedgerPeakClear (s : State) : Host.Outcome State Fault Refusal :=
  .next (if s.locked 3 then s.refuse 3 4 else ledgerPeakClear s)
/-- R58: every queued Xoide request and every ledger entry of an erg or a quadrant is dropped. -/
def govDropXoide (g : GovSt) : GovSt :=
  let keep := fun (i : GovItem) => !(i.cls == .erg || i.cls == .lpddr)
  { g with raised := g.raised.filter (fun r => keep r.item), queue := g.queue.filter (fun r => keep r.item),
           admitted := g.admitted.filter (fun a => keep a.item), granting := g.granting.filter (fun x => keep x.1) }

end Sys2Proof.Machine
end

