-- ==== Sys2Proof/Machine/Crc.lean ====
section
/-! DEFINITION. The cyclic codes the frames and messages carry. -/
namespace Sys2Proof.Machine

/-- k steps of a reflected CRC register with polynomial `p`. -/
def crcR (p : Nat) : Nat → Nat → Nat
  | 0, c => c
  | k + 1, c => crcR p k (if c % 2 = 1 then (c / 2) ^^^ p else c / 2)
/-- k steps of a most-significant-first CRC register of w bits with polynomial `p`. -/
def crcL (w p : Nat) : Nat → Nat → Nat
  | 0, c => c
  | k + 1, c => crcL w p k (let d := 2 * c; if d / 2 ^ w % 2 = 1 then (d % 2 ^ w) ^^^ p else d % 2 ^ w)
def crcRBytes (p : Nat) : List Nat → Nat → Nat
  | [], c => c
  | b :: r, c => crcRBytes p r (crcR p 8 (c ^^^ (b % 256)))
def crcLBytes (w p : Nat) : List Nat → Nat → Nat
  | [], c => c
  | b :: r, c => crcLBytes w p r (crcL w p 8 (c ^^^ (b % 256 * 2 ^ (w - 8))))

/-- CRC-32 of IEEE 802.3 (R70). -/
def crc32 (l : List Nat) : Nat := crcRBytes 0xEDB88320 l 0xFFFFFFFF ^^^ 0xFFFFFFFF
/-- CRC-64 of ECMA-182, initial value 0, no final inversion (R78). -/
def crc64 (l : List Nat) : Nat := crcLBytes 64 0x42F0E1EBA9EA3693 l 0
/-- CRC-16 of LOOP_OUT: polynomial 1021h, initial value FFFFh, no final inversion (R124). -/
def crc16 (l : List Nat) : Nat := crcLBytes 16 0x1021 l 0xFFFF
/-- CRC-16 of Modbus RTU. -/
def crc16Modbus (l : List Nat) : Nat := crcRBytes 0xA001 l 0xFFFF

end Sys2Proof.Machine
end

