-- ==== Sys2Proof/Machine/Calib.lean ====
section
/-! DEFINITION. The calibration set: its image, the check of a staged image, and the commands that stage, commit and switch a set and
recalibrate one channel (R112–R116). -/
namespace Sys2Proof.Machine
open Sys2Proof

/-- Words of the image of R113 before its CRC. -/
def calWords : Nat := 1031
/-- The length of the image in bytes. -/
def calLen : Nat := 4128
/-- The first word of the entries of record t, the entry's words, and its COUNT. -/
def calRecAt (t : Nat) : Nat :=
  if t = 1 then 9 else if t = 2 then 266 else if t = 3 then 395 else if t = 4 then 428 else if t = 5 then 445
  else if t = 6 then 454 else 647
def calRecWords (t : Nat) : Nat := if t ≤ 2 then 4 else if t ≤ 5 then 1 else if t = 6 then 2 else 8
def calRecCount (t : Nat) : Nat :=
  if t = 1 then 64 else if t = 2 then 32 else if t = 3 then 32 else if t = 4 then 16 else if t = 5 then 8
  else if t = 6 then 96 else 48

/-- A word of the factory image: header and record headers of R113, WET_TH of R113, record 06h of R236; the constants the spec leaves
to manufacture at their nominal value. -/
def calFactoryWord (k : Nat) : Nat :=
  if k = 0 then 0x4C41434F
  else if k = 1 then 0x00070001
  else if k = 2 then calLen
  else if k < 8 then 0
  else if k = 8 then 0x00400001
  else if k < 265 then (if (k - 9) % 2 = 1 then 0x10000 else 0)
  else if k = 265 then 0x00200002
  else if k < 394 then (if (k - 266) % 2 = 1 then 0x10000 else 0)
  else if k = 394 then 0x00200003
  else if k < 427 then 3000
  else if k = 427 then 0x00100004
  else if k < 444 then 0x10000
  else if k = 444 then 0x00080005
  else if k < 453 then 0
  else if k = 453 then 0x00600006
  else if k < 646 then (if (k - 454) % 2 = 0 then 0x00140000 else 0x00640014)
  else if k = 646 then 0x00300007
  else if k < 1031 then ((k - 647) % 8 + 1) * 1250
  else 0
/-- The module's serial number, as its factory image carries it (R113; log 5). -/
def moduleSerial (i : Nat) : Nat := calFactoryWord (4 + i)

/-- A word of the set in force. -/
def calWord (c : CalSt) (k : Nat) : Nat := tget (calFactoryWord k) c.set k
/-- Word j of entry i of record t of the set in force. -/
def calEntry (c : CalSt) (t i j : Nat) : Nat := calWord c (calRecAt t + calRecWords t * i + j)
/-- The generation and origin of the set in force. -/
def calGen (c : CalSt) : Nat := calWord c 3
def calUser (c : CalSt) : Bool := calWord c 1 / 256 % 256 == 1
/-- The image of the set in force as bytes: its words and the CRC-32 over every preceding byte. -/
def calBody (w : Nat → Nat) : List Nat := ((upto calWords).map (fun k => leBytes 4 (w k))).flatten
def calCrc (c : CalSt) : Nat := crc32 (calBody (calWord c))
/-- A word of the staged image. -/
def stgWord (c : CalSt) (k : Nat) : Nat := tget 0 c.stage k
def stgCrc (c : CalSt) : Nat := stgWord c calWords
/-- Word at byte offset `o` of the set in force as LCAL_RDATA shows it: 0 beyond LEN. -/
def calRead (c : CalSt) (o : Nat) : Nat :=
  if calLen ≤ o then 0 else if o / 4 = calWords then calCrc c else calWord c (o / 4)

/-- The checked range of one entry of record t (R113, R236, R270), given its words. -/
def calEntryOk (t : Nat) (w : Nat → Nat) : Bool :=
  let ofs := fun x => decide (-1311 ≤ sx 32 x ∧ sx 32 x ≤ 1311)
  let gain := fun x => decide (0xE666 ≤ x ∧ x ≤ 0x1199A)
  if t ≤ 2 then ofs (w 0) && gain (w 1) && ofs (w 2) && gain (w 3)
  else if t = 3 then decide (1000 ≤ w 0 ∧ w 0 ≤ 40000)
  else if t = 4 then decide (0x10000 ≤ w 0 ∧ w 0 ≤ 1000 * 0x10000)
  else if t = 5 then decide (-500 ≤ sx 16 (w 0) ∧ sx 16 (w 0) ≤ 500 ∧ w 0 / 65536 = 0)
  else if t = 6 then
    decide (-40 ≤ sx 8 (w 0) ∧ sx 8 (w 0) ≤ 40 ∧ -20 ≤ sx 8 (w 0 / 256) ∧ sx 8 (w 0 / 256) ≤ 20
      ∧ 5 ≤ w 0 / 65536 % 256 ∧ w 0 / 65536 % 256 ≤ 100 ∧ w 0 / 16777216 = 0
      ∧ 1 ≤ w 1 % 65536 ∧ w 1 % 65536 ≤ 127 ∧ w 1 % 65536 + 1 ≤ w 1 / 65536 ∧ w 1 / 65536 ≤ 128)
  else
    (upto 8).all (fun j => decide (w j % 65536 ≤ 10000 ∧ w j / 65536 ≤ 30000)) &&
    (upto 7).all (fun j => decide (w j % 65536 < w (j + 1) % 65536))

/-- FAIL_CODE of a staged image, 0 when it passes, in the order of the codes (R114 step 4). -/
def calCheck (c : CalSt) : Nat :=
  let w := stgWord c
  if w 0 ≠ 0x4C41434F ∨ w 1 % 256 ≠ 1 then 1
  else if w 2 ≠ calLen then 2
  else if stgCrc c ≠ crc32 (calBody w) then 3
  else if w 1 / 65536 ≠ 7 ∨ ¬ (upto 7).all (fun i => w (calRecAt (i + 1) - 1) == (i + 1) + 65536 * calRecCount (i + 1)) then 4
  else if ¬ (upto 7).all (fun i => (upto (calRecCount (i + 1))).all (fun n =>
      calEntryOk (i + 1) (fun j => w (calRecAt (i + 1) + calRecWords (i + 1) * n + j)))) then 5
  else if ¬ c.foreign ∧ ¬ (upto 4).all (fun i => w (4 + i) == moduleSerial i) then 6
  else if w 3 ≠ (calGen c + 1) % 2 ^ 32 then 7
  else 0

/-- LCAL_CMD STAGE (R114 step 1). -/
def calStage (c : CalSt) : CalSt :=
  match c.phase with
  | .idle | .staging | .failed => { c with phase := .staging, stage := [], failCode := 0, result := 0 }
  | _ => { c with result := 3 }

/-- LCAL_WDATA_k at byte offset `off` of the staging area (R114 step 2): no effect unless PHASE is STAGING. -/
def calWdata (off k data : Nat) (c : CalSt) : CalSt :=
  if c.phase = .staging then { c with stage := tset 0 c.stage ((off + 4 * k) / 4) data } else c

/-- LCAL_CMD COMMIT and COMMIT_FOREIGN (R114 steps 3 and 4). -/
def calCommit (foreign : Bool) (c : CalSt) : CalSt :=
  if c.phase = .staging then { c with phase := .checking, age := 0, foreign := foreign, result := 0 } else { c with result := 3 }

/-- LCAL_CMD ABORT discards the staged image. -/
def calAbort (c : CalSt) : CalSt :=
  if c.phase = .idle then { c with result := 3 } else { c with phase := .idle, stage := [], leaveCh := none }

/-- A failed commit: PHASE FAILED with its code, the staged image discarded, the set in force kept (R114 step 6). -/
def calFail (code : Nat) (c : CalSt) : CalSt :=
  { c with phase := .failed, failCode := code, stage := [], result := 2,
           calResult := if c.leaveCh.isSome then 5 else c.calResult, leaveCh := none }

/-- Phases between the apply tick of COMMIT and the switch. -/
def CalPhase.busy : CalPhase → Bool
  | .checking | .writing | .ready => true
  | _ => false

/-- The check of the staged image (R114 step 4): WRITING, or FAILED with its code. -/
def calChecked (c : CalSt) : CalSt :=
  if c.phase = .checking then (if calCheck c = 0 then { c with phase := .writing } else calFail (calCheck c) c) else c
/-- The flash write and the read back have ended (R114 step 4): READY, or FAILED with 08h. -/
def calReady (flashOk : Bool) (c : CalSt) : CalSt :=
  let c := calChecked c
  if c.phase = .writing then (if flashOk then { c with phase := .ready } else calFail 8 c) else c

/-- Make the staged set the set in force (R114 step 5). -/
def calSwitchOne (c : CalSt) : CalSt :=
  { c with set := (upto calWords).foldl (fun t k => tset (calFactoryWord k) t k (stgWord c k)) [], len := calLen, stage := [],
           phase := .idle, failCode := 0, result := 1, calResult := if c.leaveCh.isSome then 1 else c.calResult }

/-- The timeout of R114 step 6, 2,048 ticks after the apply tick. -/
def calTimeout (c : CalSt) : CalSt := if c.phase.busy ∧ 2048 ≤ c.age then calFail 9 c else c

/-- Record type, entry of the calibration image for channel n of group g. -/
def calRecOf (g n : Nat) : Nat × Nat :=
  if g < 2 then (1, 32 * g + n) else if g < 4 then (2, 16 * (g - 2) + n) else if g < 6 then (3, 16 * (g - 4) + n)
  else if g = 6 then (4, n) else (5, n)

/-- The image LEAVE builds (R116 step 4): the set in force with one entry replaced, ORIGIN 01h and the next generation. -/
def calLeaveImage (c : CalSt) (g n : Nat) (v : List Nat) : Tbl Nat :=
  let (t, i) := calRecOf g n
  let at0 := calRecAt t + calRecWords t * i
  let w := fun k =>
    if k = 1 then 0x00070101
    else if k = 3 then (calGen c + 1) % 2 ^ 32
    else if at0 ≤ k ∧ k < at0 + calRecWords t then lget 0 v (k - at0)
    else calWord c k
  tset 0 ((upto calWords).foldl (fun t k => tset 0 t k (w k)) []) calWords (crc32 (calBody w))

end Sys2Proof.Machine
end

