-- ==== Sys2Proof/Machine/Events.lean ====
section
/-! DEFINITION. The model's numbers of the event kinds the recorders hold; `Config.eventCode` gives each its CODE (the spec lists no
event codes). -/
namespace Sys2Proof.Machine

def Ev.calCancelled : Nat := 1
def Ev.chanState : Nat := 2
def Ev.pairLost : Nat := 3
def Ev.leakVerdict : Nat := 4
def Ev.feTrip : Nat := 5
def Ev.pvLost : Nat := 6
def Ev.bankCheck : Nat := 7
def Ev.bankSwap : Nat := 8
def Ev.gatherTimeout : Nat := 9
def Ev.bindChange : Nat := 10
def Ev.drop : Nat := 11
def Ev.pkgOffEnd : Nat := 12
def Ev.pkgOff : Nat := 13
def Ev.slipAbort : Nat := 14
def Ev.slipSplit : Nat := 15
def Ev.fanBlocked : Nat := 16
def Ev.fanTachLost : Nat := 17
def Ev.lossCfgBad : Nat := 18
def Ev.valveStuck : Nat := 19
def Ev.valveRefused : Nat := 20
def Ev.valveFailed : Nat := 21
def Ev.pumpStartFail : Nat := 22
def Ev.holdup : Nat := 23
def Ev.leak : Nat := 24
def Ev.cduLeak : Nat := 25
def Ev.leakBlind : Nat := 26
def Ev.leakStuck : Nat := 27
def Ev.pressHi : Nat := 28
def Ev.pressMax : Nat := 29
def Ev.supOver : Nat := 30
def Ev.flowStop : Nat := 31
def Ev.dryRun : Nat := 32
def Ev.flowDecl : Nat := 33
def Ev.dewOver : Nat := 34
def Ev.dewBreach : Nat := 35
def Ev.restore : Nat := 36
def Ev.shutdown : Nat := 37
def Ev.haboob : Nat := 38
def Ev.conserv : Nat := 39
def Ev.loopAuto : Nat := 40
def Ev.laneOut : Nat := 41
def Ev.laneResync : Nat := 42
def Ev.laneBoot : Nat := 43
def Ev.takeover : Nat := 44
def Ev.mergeStart : Nat := 45
def Ev.mergeEnd : Nat := 46
def Ev.authorityLost : Nat := 47
def Ev.linkDown : Nat := 48
def Ev.linkUp : Nat := 49
def Ev.laneProbation : Nat := 50
def Ev.hashMismatch : Nat := 51
def Ev.laneStandby : Nat := 52
def Ev.selfTest : Nat := 53
def Ev.rotationFault : Nat := 54
def Ev.rotationOverdue : Nat := 55
def Ev.aonLost : Nat := 56
def Ev.xeccUe : Nat := 57
def Ev.ergIllegal : Nat := 58
def Ev.ergResidue : Nat := 59
def Ev.fitting : Nat := 60
def Ev.jobFailed : Nat := 61
def Ev.advLate : Nat := 62
def Ev.swapAbandoned : Nat := 63
def Ev.frameAbandoned : Nat := 64
def Ev.jobRepeatFail : Nat := 65
def Ev.swapDone : Nat := 66
def Ev.ergFault : Nat := 67
def Ev.thermalStop : Nat := 68
def Ev.waitPeer : Nat := 69
def Ev.overfull : Nat := 70
def Ev.discovery : Nat := 71
def Ev.discFail : Nat := 72
def Ev.tamper : Nat := 73
def Ev.buttonStuck : Nat := 74
def Ev.jumperRefused : Nat := 75
def Ev.windowDisagree : Nat := 76
def Ev.slotRemoved : Nat := 77
def Ev.ownerEnrolled : Nat := 78
def Ev.ownerRevoked : Nat := 79
def Ev.tamperCleared : Nat := 80
def Ev.svnRaised : Nat := 81
def Ev.debugOpen : Nat := 82
def Ev.debugKilled : Nat := 83
def Ev.invSet : Nat := 84
def Ev.bankRefused : Nat := 85
def Ev.mboxNotLane : Nat := 86
def Ev.mboxTagReuse : Nat := 87
def Ev.herviBank : Nat := 88
def Ev.peerOwn : Nat := 89
def Ev.oneFeed : Nat := 90
def Ev.disagree : Nat := 91
def Ev.swapDropped : Nat := 92
def Ev.standbyStart : Nat := 93

end Sys2Proof.Machine
end

