-- ==== Sys2Proof/Machine/Sense.lean ====
section
/-! DEFINITION. Sensing: samples, conversion (R97, R98), channel and pair validation (R99, R100), leak ropes (R101), flow pulses
(R102), dew points (R104, R105), hot spots (R110, R111) and the recalibration of a channel (R116). -/
namespace Sys2Proof.Machine
open Sys2Proof

/-! ### Conversion -/

/-- STATE of SENS_CH_STAT (R99). -/
def chStateNum : ChState → Nat
  | .off => 0 | .valid => 1 | .suspect => 2 | .fault => 3 | .cal => 4 | .ret => 5
/-- PHASE of LCAL_STAT. -/
def calPhaseNum : CalPhase → Nat
  | .idle => 0 | .staging => 1 | .checking => 2 | .writing => 3 | .ready => 4 | .failed => 5
/-- A quotient stored as Q32: the floor when it is whole, else the floor or one more as the spec leaves open (R98). -/
def qdiv (n d : Int) : Int := if n % d = 0 then n / d else if Config.roundUp n d then n / d + 1 else n / d
/-- Saturate to Q32. -/
def q32 (x : Int) : Int := clampI (-2147483648) 2147483647 x

/-- The Callendar–Van Dusen ratio R/R₀ at t/65,536 °C, times 10¹⁵ × 65,536⁴ (R98). -/
def cvd (t : Int) : Int :=
  1000000000000000 * 65536 ^ 4 + 3908300000000 * t * 65536 ^ 3 - 577500000 * t * t * 65536 ^ 2
    - (if t < 0 then 4183 * (t - 6553600) * t * t * t else 0)
/-- The greatest t between lo and hi with R(t) at or below x mΩ / 2³², by bisection. -/
def cvdFind (x : Int) : Nat → Int → Int → Int
  | 0, lo, _ => lo
  | k + 1, lo, hi =>
    let m := (lo + hi) / 2
    if cvd m * (4294967296 * 1000000) ≤ x * (1000000000000000 * 65536 ^ 4) then cvdFind x k m hi else cvdFind x k lo m
/-- RTD resistance, in mΩ times 2³², to temperature, Q32 binary point 16. -/
def rtdTemp (x : Int) : Int :=
  let t := cvdFind x 27 (-13107200) 55705600
  if cvd t * (4294967296 * 1000000) = x * (1000000000000000 * 65536 ^ 4) then t
  else if Config.roundUp x 1 then t + 1 else t

/-- The span of R98 step 1 in the units of a front end: nA, µV, mΩ. -/
def elecSpan (g mode : Nat) : Int :=
  if g < 2 then (if mode = 0 then 24000000 else 12000000) else if g < 4 then 2000000 else 100000000
def elecOrigin (g mode : Nat) : Int := if g < 2 ∧ mode ≠ 0 then -1000000 else 0
/-- The raw code of R98 step 1; of a dew point channel, the received dew point in 0.01 °C. -/
def rawCode (g mode : Nat) (e : Int) : Nat :=
  if g = 7 then ux 16 e else (clampI 0 0xFFFF ((e - elecOrigin g mode) * 65536 / elecSpan g mode)).toNat

/-- R98 step 2: the calibrated quantity times 2³², for the owner path or the cross path. -/
def calX (c : CalSt) (g n mode : Nat) (cross : Bool) (e : Int) : Int :=
  if g < 4 then
    let (t, i) := calRecOf g n
    let j := if cross then 2 else 0
    (e * 65536 - sx 32 (calEntry c t i j) * elecSpan g mode) * (calEntry c t i (j + 1) : Int)
  else e * 4294967296
/-- R98 steps 2 to 4: the value of a sample, Q32 binary point 16. -/
def chanValue (rf : RegFile) (c : CalSt) (g n mode : Nat) (cross : Bool) (e : Int) : Int :=
  let x := calX c g n mode cross e
  if g < 2 then
    let lo := fgetS rf (F.SENS_CH_LO g n)
    let hi := fgetS rf (F.SENS_CH_HI g n)
    let x0 : Int := if mode = 0 then 4000000 else 0
    let sp : Int := if mode = 0 then 16000000 else 10000000
    q32 (qdiv (lo * (sp * 4294967296) + (x - x0 * 4294967296) * (hi - lo)) (sp * 4294967296))
  else if g < 4 then q32 (rtdTemp x)
  else if g < 6 then q32 (qdiv (e * 65536) 1000000)
  else if g = 7 then q32 (qdiv ((e + sx 16 (calEntry c 5 n 0)) * 65536) 100)
  else q32 e

/-! ### Range check (R99) -/

/-- The cause of a sample out of range: 0 none, 1 under, 2 over, 3 open, 4 short. -/
def rangeCause (g mode : Nat) (e : Int) : Nat :=
  if g < 2 then
    if mode = 0 then (if e < 3600000 then 1 else if 21000000 < e then 2 else 0)
    else (if e < -200000 then 1 else if 10500000 < e then 2 else 0)
  else if g < 4 then
    if e < 100000 then 4 else if e < 803000 then 1 else if 4000000 < e then 3 else if 1758000 < e then 2 else 0
  else if g = 7 then (if e < -4000 then 1 else if 6000 < e then 2 else 0)
  else 0

/-- A channel out of range for 16 consecutive ticks enters FAULT. -/
def chanRangeFault (c : Chan) : Chan :=
  if 16 ≤ c.oorRun ∧ (c.state = .valid ∨ c.state = .suspect ∨ c.state = .ret) then
    { c with state := .fault, cause := c.oorCause, faults := satAdd 0xFFFF c.faults 1, used := false }
  else c
/-- A FAULT channel in range for 8,192 consecutive ticks returns to VALID. -/
def chanRangeRecover (c : Chan) : Chan :=
  if c.state = .fault ∧ 8192 ≤ c.inRun then { c with state := .valid, cause := 0 } else c
/-- Copies differing for 2,048 consecutive ticks make a channel SUSPECT with cause PATH. -/
def chanPathSuspect (c : Chan) : Chan :=
  if c.state = .valid ∧ 2048 ≤ c.diffRun then { c with state := .suspect, cause := 5 } else c
/-- A PATH-SUSPECT channel whose copies agree for 8,192 ticks returns to VALID. -/
def chanPathRecover (c : Chan) : Chan :=
  if c.state = .suspect ∧ c.cause = 5 ∧ 8192 ≤ c.sameRun then { c with state := .valid, cause := 0 } else c

/-! ### Samples of a tick -/

/-- The samples a lane evaluates in a tick: its own front end's, and the other front end's when its INPUT arrived (R69, R73). -/
structure SampleSrc where
  id : LaneId
  own : FrontEnd
  other : Option FrontEnd
  deriving DecidableEq, Repr

/-- The owner path's sample and the cross path's sample of a channel. -/
def srcOwner (s : SampleSrc) (g n : Nat) : Option Int :=
  if sensOwner g n = laneNum s.id then tget none s.own.elec (32 * g + n)
  else match s.other with
    | some f => tget none f.elec (32 * g + n)
    | none => none
def srcCross (s : SampleSrc) (g n : Nat) : Option Int :=
  if sensOwner g n = laneNum s.id then
    match s.other with
    | some f => tget none f.elec (32 * g + n)
    | none => none
  else tget none s.own.elec (32 * g + n)
/-- Whether the lane takes this channel from its own cross-fed copy: the other lane owns it and its INPUT is missing (R73). -/
def srcFallback (s : SampleSrc) (g n : Nat) : Bool := sensOwner g n != laneNum s.id && s.other.isNone

/-! ### Flow pulses (R102) -/

/-- The frequency of R102 as numerator and denominator, edges per cycle of the counter's clock: window ticks, newest first, the last
edge, the time of the boundary and the hold limit in cycles. -/
def pulseFreq (w : List PulseTick) (last : Option Nat) (now hold : Nat) : Nat × Nat :=
  let n := nsum (w.map (·.edges))
  let first := (w.filter (fun p => p.edges != 0)).getLast?.map (·.tFirst)
  match last, first with
  | some tl, some tf =>
    if 2 ≤ n then
      let a := n - 1
      let b := tl - tf
      if a * (now - tl) > b then (if now - tl = 0 then (a, b) else (1, now - tl)) else (a, b)
    else if now - tl ≤ hold then (1, now - tl) else (0, 1)
  | some tl, none => if now - tl ≤ hold then (1, now - tl) else (0, 1)
  | none, _ => (0, 1)
/-- Flow of a pulse channel in L/min, Q32 binary point 16: 60 × f / K at 16.384 MHz. -/
def pulseFlow (c : CalSt) (n : Nat) (w : PulseWin) (tick : Nat) : Int :=
  let (a, b) := pulseFreq (w.ticks.filter (fun p => decide (tick * 2000 ≤ p.tLast + 16000))) w.last (tick * 2000) (8192 * 2000)
  let k := calEntry c 4 n 0
  if b * k = 0 then 0 else q32 (qdiv (60 * (a : Int) * 16384000 * 65536 * 65536) ((b : Int) * (k : Int)))
/-- Add a tick's edges to a counter's window of `size` ticks. -/
def pulseAdd (size : Nat) (p : PulseTick) (w : PulseWin) : PulseWin :=
  { ticks := (p :: w.ticks).take size, last := if p.edges = 0 then w.last else some p.tLast }

/-! ### One channel in P3 -/

def chanMode (rf : RegFile) (g n : Nat) : Nat := fget rf (F.SENS_CH_CFG_MODE g n)

/-- Edges of a counter in the tick before a boundary. -/
def edgesNow (w : PulseWin) (tick : Nat) : Nat :=
  match w.ticks with
  | p :: _ => if tick * 2000 ≤ p.tLast + 2000 then p.edges else 0
  | [] => 0
/-- The pulse counter of the cross path. -/
def srcPulseX (s : SampleSrc) (n : Nat) : PulseWin :=
  if sensOwner 6 n = laneNum s.id then (match s.other with | some f => tget ⟨[], none⟩ f.pulse n | none => ⟨[], none⟩)
  else tget ⟨[], none⟩ s.own.pulse n
/-- The pulse counter a channel is read from: the owner's, or the other front end's in the fallback of R73. -/
def srcPulse (s : SampleSrc) (n : Nat) : PulseWin :=
  if sensOwner 6 n = laneNum s.id then tget ⟨[], none⟩ s.own.pulse n
  else match s.other with
    | some f => tget ⟨[], none⟩ f.pulse n
    | none => tget ⟨[], none⟩ s.own.pulse n

/-- Range and path checks of R99 on channel n of group g: an OFF channel whose EN is set becomes VALID, one whose EN is cleared OFF;
a channel in CAL keeps its raw codes current and is not evaluated. A leak channel's run of in-range ticks is `leakEval`'s. -/
def chanEval (rf : RegFile) (cal : CalSt) (src : SampleSrc) (tick g n : Nat) (c : Chan) : Chan :=
  if fget rf (F.SENS_CH_CFG_EN g n) = 0 then { faults := c.faults }
  else
    let c := if c.state = .off then { c with state := .valid, cause := 0 } else c
    if g = 6 then
      let w := srcPulse src n
      let x := pulseFlow cal n w tick
      let c := { c with rawOwn := edgesNow w tick, rawX := edgesNow (srcPulseX src n) tick, inRun := c.inRun + 1, oorRun := 0, seen := true }
      if c.state = .cal then { c with used := false, calTicks := c.calTicks + 1 }
      else chanRangeRecover { c with value := x, used := c.state = .valid || c.state = .suspect }
    else
      let mode := chanMode rf g n
      let own := srcOwner src g n
      let crs := srcCross src g n
      let c := { c with rawOwn := match own with | some e => rawCode g mode e | none => c.rawOwn,
                        rawX := match crs with | some e => rawCode g mode e | none => c.rawX, pathDiff := false, seen := false }
      let fb := srcFallback src g n
      let smp := if fb then crs else own
      match smp with
      | none => { c with used := false, calTicks := if c.state = .cal then c.calTicks + 1 else c.calTicks }
      | some e =>
        if c.state = .cal then { c with used := false, calTicks := c.calTicks + 1 }
        else
          let cause := rangeCause g mode e
          let c := { c with seen := true }
          let c :=
            if g = 4 ∨ g = 5 then { c with value := chanValue rf cal g n mode fb e, used := c.state = .valid || c.state = .suspect }
            else if cause ≠ 0 then chanRangeFault { c with oorRun := c.oorRun + 1, oorCause := cause, inRun := 0, used := false }
            else
              let c := chanRangeRecover { c with oorRun := 0, inRun := c.inRun + 1 }
              { c with value := chanValue rf cal g n mode fb e, used := c.state = .valid || c.state = .suspect }
          match own, crs with
          | some eo, some ex =>
            if g < 4 then
              let lim : Int := if g < 2 then elecSpan g mode / 200 else 2000
              let diff := decide (lim < eo - ex ∨ eo - ex < -lim)
              chanPathRecover (chanPathSuspect
                { c with pathDiff := diff, diffRun := runNext diff c.diffRun, sameRun := runNext (!diff) c.sameRun })
            else c
          | _, _ => c

/-! ### Pairs -/

/-- The two channels of pair k (R96), as 32 × group + channel. -/
def pairKeyA (k : Nat) : Nat := if k < 3 then k else if k < 5 then 64 + (k - 3) else 192
def pairKeyB (k : Nat) : Nat := if k < 3 then 32 + k else if k < 5 then 96 + (k - 3) else 200
def chanAt (s : SensSt) (key : Nat) : Chan := tget {} s.chan key
def setChan (s : SensSt) (key : Nat) (c : Chan) : SensSt := { s with chan := tset {} s.chan key c }
def pairAt (s : SensSt) (k : Nat) : PairSt := lget {} s.pairs k
/-- A band field in Q32 binary point 16: 0.1 kPa, 0.01 °C or 0.1 L/min units, times the divisor. -/
def pairBandOver (rf : RegFile) (k : Nat) (d : Int) : Bool :=
  let u : Int := if k = 3 ∨ k = 4 then 100 else 10
  decide ((fget rf (F.SENS_PAIR_BAND 0 k) : Int) * 65536 < d.natAbs * u)

def inPairState (st : ChState) : Bool := st == .valid || st == .suspect

/-- Pair sensors differing beyond the band for 2,048 consecutive ticks both become SUSPECT with cause PAIR, one that comes back while the run
lasts too. -/
def pairSuspectOp (k : Nat) (s : SensSt) : SensSt :=
  let p := pairAt s k
  let a := chanAt s (pairKeyA k)
  let b := chanAt s (pairKeyB k)
  if 2048 ≤ p.outRun ∧ inPairState a.state ∧ inPairState b.state then
    let s := setChan (setChan s (pairKeyA k) { a with state := .suspect, cause := 6 }) (pairKeyB k) { b with state := .suspect, cause := 6 }
    { s with pairs := lset s.pairs k { p with suspect := true } }
  else s
/-- A SUSPECT pair within its band for 8,192 consecutive ticks clears to VALID. -/
def pairRecoverOp (k : Nat) (s : SensSt) : SensSt :=
  let p := pairAt s k
  let a := chanAt s (pairKeyA k)
  let b := chanAt s (pairKeyB k)
  let sus := fun (c : Chan) => c.state == .suspect && c.cause == 6
  if 8192 ≤ p.inRun ∧ (p.suspect ∨ sus a ∨ sus b) then
    let f := fun (c : Chan) => if sus c then { c with state := .valid, cause := 0 } else c
    let s := setChan (setChan s (pairKeyA k) (f a)) (pairKeyB k) (f b)
    { s with pairs := lset s.pairs k { p with suspect := false } }
  else s
/-- RETURN becomes VALID after 2,048 consecutive ticks within the pair band, or in range outside a pair (R116 step 5). -/
def chanReturnValid (c : Chan) : Chan :=
  if c.state = .ret ∧ 2048 ≤ c.retRun then { c with state := .valid, cause := 0, retRun := 0 } else c

/-- The pair check of R99 and LOST of R100 for pair k; a sensor in RETURN is compared with its partner (R116 step 5). -/
def pairEval (rf : RegFile) (k : Nat) (s : SensSt) : SensSt :=
  let a := chanAt s (pairKeyA k)
  let b := chanAt s (pairKeyB k)
  let overNow := pairBandOver rf k (a.value - b.value)
  let p := pairAt s k
  let s :=
    if a.used ∧ b.used then
      let s := { s with pairs := lset s.pairs k { p with outRun := runNext overNow p.outRun, inRun := runNext (!overNow) p.inRun } }
      pairRecoverOp k (pairSuspectOp k s)
    else s
  let retStep := fun (s : SensSt) (key : Nat) (me other : Chan) =>
    if me.state = .ret ∧ me.seen ∧ me.oorRun = 0 ∧ other.used then
      if overNow then
        let s := setChan s key { me with state := .suspect, cause := 6, retRun := 0 }
        { s with pairs := lset s.pairs k { pairAt s k with inRun := 0 } }
      else setChan s key (chanReturnValid { me with retRun := me.retRun + 1 })
    else s
  let s := retStep (retStep s (pairKeyA k) a b) (pairKeyB k) b a
  let a := chanAt s (pairKeyA k)
  let b := chanAt s (pairKeyB k)
  let p := pairAt s k
  let higher := pairDir k = 0
  let useB := if a.used && b.used then (if higher then decide (a.value < b.value) else decide (b.value < a.value)) else !a.used
  { s with pairs := lset s.pairs k { p with lost := !a.used && !b.used, usedB := useB && b.used } }

/-- The reading of pair k in its conservative direction; none when the quantity is LOST (R96, R100). -/
def pairRead (s : SensSt) (k : Nat) : Option Int :=
  let a := chanAt s (pairKeyA k)
  let b := chanAt s (pairKeyB k)
  if a.used then
    if b.used then some (if pairDir k = 0 then max a.value b.value else min a.value b.value) else some a.value
  else if b.used then some b.value else none
/-- The lower of TSUP1 and TSUP2, for the dew point check (R96). -/
def tsupLow (s : SensSt) : Option Int :=
  let a := chanAt s (pairKeyA 3)
  let b := chanAt s (pairKeyB 3)
  if a.used then (if b.used then some (min a.value b.value) else some a.value) else if b.used then some b.value else none

/-- A RETURN channel outside the pairs becomes VALID after 2,048 consecutive in-range ticks; a tick without a sample neither counts nor breaks
the run. -/
def retEvalFree (g n : Nat) (c : Chan) : Chan :=
  if (sensPairOf g n).isNone ∧ c.state = .ret ∧ c.seen then
    chanReturnValid { c with retRun := if c.oorRun = 0 then c.retRun + 1 else 0 }
  else c

/-! ### Leak ropes (R101) -/

/-- The class of a leak reading in mΩ against WET_TH in Ω. -/
def leakClass (wetTh : Nat) (e : Int) : LeakClass :=
  if e < 100000 then .short else if e < (wetTh : Int) * 1000 then .wet else if e ≤ 50000000 then .dry else .opened
def LeakClass.isWet : LeakClass → Bool
  | .wet | .short => true
  | _ => false
def LeakClass.isBad : LeakClass → Bool
  | .opened | .short => true
  | _ => false

/-- A path reading WET or SHORT in 8 consecutive ticks latches the verdict. -/
def leakVerdictOp (l : LeakCh) : LeakCh := if 8 ≤ l.wetOwn ∨ 8 ≤ l.wetX then { l with verdict := true } else l
/-- A path reading OPEN or SHORT in 16 consecutive ticks puts the channel in FAULT. -/
def leakFaultOp (l : LeakCh) (c : Chan) : Chan :=
  if (16 ≤ l.badRun ∨ 16 ≤ l.badX) ∧ (c.state = .valid ∨ c.state = .suspect ∨ c.state = .ret) then
    { c with state := .fault, cause := if l.own = .short ∨ (l.own ≠ .opened ∧ l.cross = .short) then 4 else 3, faults := satAdd 0xFFFF c.faults 1, used := false }
  else c

/-- Leak channel k (0–31) in P3: a path without a sample in the tick is not classified, which breaks no run. DESIGN CHOICE (log 73): a channel
leaves FAULT, or RETURN, after 8,192, or 2,048, consecutive ticks in which no sampled path reads OPEN or SHORT. -/
def leakEval (cal : CalSt) (src : SampleSrc) (k : Nat) (s : SensSt) : SensSt :=
  let g := 4 + k / 16
  let n := k % 16
  let key := 32 * g + n
  let c := chanAt s key
  if c.state = .off ∨ c.state = .cal then s
  else
    let th := calEntry cal 3 k 0
    let l := tget {} s.leak k
    let own : Option LeakClass := (if srcFallback src g n then srcCross src g n else srcOwner src g n).map (leakClass th)
    let crs : Option LeakClass := (srcCross src g n).map (leakClass th)
    let wet := fun (x : Option LeakClass) (run : Nat) => match x with | some y => runNext y.isWet run | none => run
    let bad := fun (x : Option LeakClass) (run : Nat) => match x with | some y => runNext y.isBad run | none => run
    let l := leakVerdictOp { l with own := own.getD l.own, cross := crs.getD l.cross, wetOwn := wet own l.wetOwn, wetX := wet crs l.wetX,
                                    badRun := bad own l.badRun, badX := bad crs l.badX }
    let worse : Bool := (match own with | some y => y.isBad | none => false) || (match crs with | some y => y.isBad | none => false)
    let c := if own.isNone && crs.isNone then c
      else if worse then { c with inRun := 0, retRun := if c.state = .ret then 0 else c.retRun }
      else
        let c := chanRangeRecover { c with inRun := c.inRun + 1 }
        chanReturnValid (if c.state = .ret then { c with retRun := c.retRun + 1 } else c)
    let s := { s with leak := tset {} s.leak k l }
    setChan s key (leakFaultOp l { c with used := c.seen && inPairState c.state })

/-- SENS_LEAK_CLR: a verdict whose both paths read DRY clears. -/
def leakClear (bits : Nat) (s : SensSt) : SensSt :=
  { s with leak := (upto 32).foldl (fun t k =>
      let l := tget {} t k
      if bitOf bits k ∧ l.own = .dry ∧ l.cross = .dry then tset {} t k { l with verdict := false } else t) s.leak }
/-- Leak verdicts as a bit map over leak channels. -/
def leakBits (s : SensSt) : Nat := nsum ((upto 32).map (fun k => if (tget {} s.leak k).verdict then 2 ^ k else 0))

/-! ### Dew point (R104, R105) -/

/-- Values of the VALID dew point sensors in 0.01 °C, the unit they arrive in: the hundredth nearest to the Q32 value. -/
def dewValidList (s : SensSt) : List Int :=
  (upto 8).filterMap (fun n => let c := chanAt s (224 + n); if c.state = .valid ∧ c.used then some ((c.value * 100 + 32768) / 65536) else none)
def maxI : List Int → Int → Int
  | [], m => m
  | x :: r, m => maxI r (if m < x then x else m)
/-- The dew point floor of R105, the run, and the verdict, which stands in a tick that follows 8 such ticks. -/
def dewEval (rf : RegFile) (s : SensSt) : SensSt :=
  let v := dewValidList s
  let fixed : Int := (fget rf (F.SENS_DEW_FIXED 0) : Int) * 100
  let margin : Int := (fget rf (F.SENS_DEW_MARGIN 0) : Int) * 10
  let (d, fx) := match v with
    | [] => (fixed, true)
    | [x] => (if x < fixed then (fixed, true) else (x, false))
    | x :: r => (maxI r x, false)
  let floor := d + margin
  let under := match tsupLow s with
    | some t => decide (t * 100 < floor * 65536)
    | none => false
  let run := match tsupLow s with
    | some _ => runNext under s.dewRun
    | none => s.dewRun
  { s with dewMax := match v with | [] => 0 | x :: r => maxI r x, dewValid := v.length, dewFixed := fx, dewFloor := floor,
           dewVerdict := decide (8 ≤ s.dewRun), dewRun := run }
/-- The dew point floor in Q32 with binary point 16, not below it. -/
def dewFloorQ (s : SensSt) : Int := -((-(s.dewFloor * 65536)) / 100)

/-- The request for a sensor: function 04h from 0000h, count 4 (R104). -/
def dewRequest (addr : Nat) : List Nat :=
  let body := [addr, 4, 0, 0, 0, 4]
  body ++ leBytes 2 (crc16Modbus body)
/-- The poll of R104 in a tick whose SYS_TICK_COUNT mod 64 is 0: both buses poll sensor (count div 64) mod 4, at its address. -/
def dewPoll (count : Nat) (s : SensSt) : SensSt :=
  if count % 64 = 0 then { s with dewBus := s.dewBus.map (fun _ => ⟨some (count / 64 % 4, 0), dewRequest (count / 64 % 4 + 1)⟩) } else s
/-- Ticks from a Modbus request's start to the tick in which the 40 ticks after its last character expire: characters of 11 bits at
115.2 kbit/s (R5, R104, R266). -/
def modbusWait (chars : Nat) : Nat := 40 + (chars * 11 * 8192 + 115199) / 115200
/-- A missing reply ends the run of in-range ticks; the third in a row puts the sensor in FAULT with cause no reply. -/
def dewMissing (n : Nat) (s : SensSt) : SensSt :=
  let m := (tget {} s.dewMiss n).miss + 1
  let s := { s with dewMiss := tset {} s.dewMiss n ⟨m⟩ }
  let c := { chanAt s (224 + n) with inRun := 0 }
  setChan s (224 + n) (if 3 ≤ m ∧ (inPairState c.state || c.state == ChState.ret) = true then
    { c with state := .fault, cause := 8, faults := satAdd 0xFFFF c.faults 1, used := false } else c)
/-- A latched reply ends the poll: a good one gives the sample, and after three missing ones starts the run of R99 that leaves FAULT; another
counts as missing. -/
def dewReply (bus : Nat) (good : Bool) (s : SensSt) : SensSt :=
  match lget ⟨none, []⟩ s.dewBus bus with
  | ⟨some (k, _), q⟩ =>
    let s := { s with dewBus := lset s.dewBus bus ⟨none, q⟩ }
    let n := 4 * bus + k
    if good then
      let c := chanAt s (224 + n)
      let back := decide (3 ≤ (tget {} s.dewMiss n).miss)
      setChan { s with dewMiss := tset {} s.dewMiss n ⟨0⟩ } (224 + n) (if back then { c with inRun := 0 } else c)
    else dewMissing n s
  | _ => s
/-- A poll without a reply counts as missing once its window has ended: the request goes out in P7, so its 40 ticks end one tick later than those
of a request that starts at a boundary (log 43). -/
def dewTimeout (bus : Nat) (s : SensSt) : SensSt :=
  match lget ⟨none, []⟩ s.dewBus bus with
  | ⟨some (k, age), q⟩ => if modbusWait 8 + 1 ≤ age then dewMissing (4 * bus + k) { s with dewBus := lset s.dewBus bus ⟨none, q⟩ } else s
  | _ => s
/-- One tick of the poll timers. -/
def dewAge (s : SensSt) : SensSt :=
  { s with dewBus := s.dewBus.map (fun b => { b with poll := b.poll.map (fun x => (x.1, x.2 + 1)) }) }

/-! ### Hot spots (R110, R111) -/

/-- Hot spot h of endpoint e. -/
def hotAt (s : SensSt) (e h : Nat) : HotSpot := tget {} s.hot (8 * e + h)
/-- Two valid codes further apart than SENS_HS.BAND: code steps are 1/128 °C. -/
def hotDiffers (band a b : Nat) : Bool := a != 0xFFFF && b != 0xFFFF && decide (band * 128 < absDiff a b * 10)
/-- Marks become SUSPECT 2,048 ticks after the first latched difference, or after the first tick without a valid reading. -/
def hotSuspectOp (tick : Nat) (h : HotSpot) : HotSpot :=
  match h.diffFrom with
  | some t => if t + 2048 ≤ tick then { h with suspect := true } else h
  | none => if 2048 < h.noneRun then { h with suspect := true } else h
/-- Marks clear after 8,192 ticks of agreement. -/
def hotClearOp (tick : Nat) (h : HotSpot) : HotSpot :=
  match h.sameFrom with
  | some t => if t + 8192 ≤ tick then { h with suspect := false } else h
  | none => h
/-- A summary's pair of codes latched at a tick. A summary with one valid sensor counts as within the band; one with none breaks both
runs. -/
def hotLatch (band tick a b : Nat) (h : HotSpot) : HotSpot :=
  if a = 0xFFFF ∧ b = 0xFFFF then { h with a := a, b := b, diffFrom := none, sameFrom := none }
  else if hotDiffers band a b then
    { h with a := a, b := b, noneRun := 0, sameFrom := none, diffFrom := if h.diffFrom.isSome then h.diffFrom else some tick }
  else { h with a := a, b := b, noneRun := 0, diffFrom := none, sameFrom := if h.sameFrom.isSome then h.sameFrom else some tick }
/-- Latch a summary in P1 (R110); a package without one until now starts each hot spot from what hot spot 0 stood for. -/
def summLatch (band tick : Nat) (x : SummaryIn) (s : SensSt) : SensSt :=
  let first := (tget {} s.summ x.endpoint).tick.isNone
  let z := tget {} s.hot (8 * x.endpoint)
  let s := { s with summ := tset {} s.summ x.endpoint ⟨x.mapSeq, x.hot, some tick⟩ }
  { s with hot := (upto 8).foldl (fun t h =>
      if h < x.hot then
        tset {} t (8 * x.endpoint + h)
          (hotLatch band tick (lget 0xFFFF x.codes (2 * h)) (lget 0xFFFF x.codes (2 * h + 1))
            (if first then z else tget {} t (8 * x.endpoint + h)))
      else t) s.hot }
/-- An endpoint enters the row configuration: no summary of it has been latched since (R111). -/
def summForget (e : Nat) (s : SensSt) : SensSt :=
  { s with summ := tset {} s.summ e {}, hot := (upto 8).foldl (fun t h => tset {} t (8 * e + h) {}) s.hot }
/-- A summary latched more than 24 ticks ago, or never, is missing (R110). -/
def summMissing (s : SensSt) (e tick : Nat) : Bool :=
  match (tget {} s.summ e).tick with
  | some t => decide (t + 24 < tick)
  | none => true
/-- Hot spots of a package: as its last summary says; hot spot 0 stands for all of them until a summary has come (R111). -/
def hotCount (s : SensSt) (e : Nat) : Nat := if (tget {} s.summ e).tick.isNone then 1 else (tget {} s.summ e).hot
/-- One tick of the hot spots of a configured endpoint. -/
def hotTick (tick e : Nat) (s : SensSt) : SensSt :=
  let n := hotCount s e
  let missing := summMissing s e tick
  { s with hot := (upto 8).foldl (fun t h =>
      if h < n then
        let x := tget {} t (8 * e + h)
        let none := missing || (x.a == 0xFFFF && x.b == 0xFFFF)
        tset {} t (8 * e + h) (hotClearOp tick (hotSuspectOp tick
          { x with noneRun := runNext none x.noneRun, sameFrom := if none then Option.none else x.sameFrom }))
      else t) s.hot }
/-- Whether endpoint e has a SUSPECT hot spot. -/
def pkgSuspect (s : SensSt) (e : Nat) : Bool :=
  (upto (hotCount s e)).any (fun h => (hotAt s e h).suspect)

/-! ### Recalibrating one channel (R116) -/

def calBusy (s : SensSt) : Bool := s.chan.any (fun x => x.2.state == .cal)
/-- SENS_CAL_CMD as the command wrote it. -/
def calSel (cmd g n : Nat) (l : Lane) : Lane :=
  let rf := fset (fset (fset l.row.regs (F.SENS_CAL_CMD_CMD 0) cmd) (F.SENS_CAL_CMD_GROUP 0) g) (F.SENS_CAL_CMD_CH 0) n
  { l with row := { l.row with regs := rf } }
/-- SENS_CAL_CMD ENTER. DESIGN CHOICE (log 78): REFUSED_STATE for a channel that is OFF or absent, before REFUSED_BUSY, before REFUSED_PARTNER,
which a SAFETY channel outside the pairs gets too. -/
def calEnter (g n : Nat) (l : Lane) : Lane :=
  let l := calSel 1 g n l
  let s := l.row.sens
  let key := 32 * g + n
  let c := chanAt s key
  let res :=
    if sensGrpCount g ≤ n ∨ c.state = .off then 4
    else if calBusy s then 3
    else match sensPairOf g n with
      | some k => if (chanAt s (if pairKeyA k = key then pairKeyB k else pairKeyA k)).state = .valid then 1 else 2
      | none => if fget l.row.regs (F.SENS_CH_CFG_SAFETY g n) = 1 then 2 else 1
  if res = 1 then
    { l with row := { l.row with sens := setChan s key { c with state := .cal, used := false, calTicks := 0 } },
             cal := { l.cal with calResult := 1 } }
  else { l with cal := { l.cal with calResult := res } }
/-- SENS_CAL_CMD LEAVE: build and commit the set with the channel's new constants. -/
def calLeave (g n : Nat) (l : Lane) : Lane :=
  let l := calSel 2 g n l
  let key := 32 * g + n
  if (chanAt l.row.sens key).state = .cal ∧ ¬ l.cal.phase.busy then
    let rf := l.row.regs
    let v := [fget rf (F.SENS_CAL_OFS_OWN 0), fget rf (F.SENS_CAL_GAIN_OWN 0), fget rf (F.SENS_CAL_OFS_X 0), fget rf (F.SENS_CAL_GAIN_X 0)]
    { l with cal := { l.cal with stage := calLeaveImage l.cal g n v, phase := .checking, age := 0, foreign := false,
                                 leaveCh := some key, calResult := 0 } }
  else { l with cal := { l.cal with calResult := 4 } }
/-- A channel in CAL returns to RETURN with its old constants (CANCEL, or 3,600 s without LEAVE). -/
def calReturn (key : Nat) (r : RowSt) : RowSt :=
  let c := chanAt r.sens key
  if c.state = .cal then
    { r with sens := setChan r.sens key { c with state := .ret, cause := 0, retRun := 0, calTicks := 0 } }.ev 3 (0x50 + key / 32) (key % 32) Ev.calCancelled 0
  else r
/-- SENS_CAL_CMD CANCEL. -/
def calCancel (g n : Nat) (l : Lane) : Lane :=
  let l := calSel 3 g n l
  if (chanAt l.row.sens (32 * g + n)).state = .cal then
    { l with row := calReturn (32 * g + n) l.row, cal := { l.cal with calResult := 1 } }
  else { l with cal := { l.cal with calResult := 4 } }
/-- 3,600 s in CAL: 29,491,200 ticks. -/
def calAbandon (key : Nat) (r : RowSt) : RowSt :=
  if (chanAt r.sens key).state = .cal ∧ 29491200 ≤ (chanAt r.sens key).calTicks then calReturn key r else r
/-- The switch of R114 step 5 on one lane; the channel whose LEAVE it commits enters RETURN. -/
def calSwitchLane (l : Lane) : Lane :=
  let key := l.cal.leaveCh
  let l := { l with cal := { calSwitchOne l.cal with leaveCh := none, switchDue := false } }
  match key with
  | some k =>
    let c := chanAt l.row.sens k
    { l with row := { l.row with sens := setChan l.row.sens k { c with state := .ret, cause := 0, retRun := 0, calTicks := 0 } } }
  | none => l

/-! ### P3 of one lane -/

/-- The channels in use: those whose EN is set and those not OFF. -/
def chanKeys : List (Nat × Nat) := ((upto 8).map (fun g => (upto (sensGrpCount g)).map (fun n => (g, n)))).flatten
def events2 (f : Nat → Option Nat) (ks : List Nat) (unit code : Nat) (r : RowSt) : RowSt :=
  ks.foldl (fun r k => match f k with | some sub => r.ev 3 unit sub code 0 | none => r) r
/-- An event for each channel whose state changed in P3. -/
def chanEvents (old new : SensSt) (r : RowSt) : RowSt :=
  chanKeys.foldl (fun r (g, n) =>
    let a := chanAt old (32 * g + n)
    let b := chanAt new (32 * g + n)
    if a.state = b.state then r else r.ev 3 (0x50 + g) n Ev.chanState (100 * a.faults + b.cause)) r

/-- P3 of a lane (R17, R99–R105): channels, pairs, leaks, dew points, in that order. -/
def senseTick (cal : CalSt) (src : SampleSrc) (tick : Nat) (r : RowSt) : RowSt :=
  let s0 := r.sens
  let s := chanKeys.foldl (fun s (g, n) => setChan s (32 * g + n) ((if g = 4 ∨ g = 5 then id else retEvalFree g n) (chanEval r.regs cal src tick g n (chanAt s (32 * g + n))))) s0
  let s := (upto 6).foldl (fun s k => pairEval r.regs k s) s
  let s := (upto 32).foldl (fun s k => leakEval cal src k s) s
  let s := dewEval r.regs ((upto 2).foldl (fun s b => dewTimeout b s) (dewAge s))
  let r := chanEvents s0 s { r with sens := s }
  let r := (upto 6).foldl (fun r k => if (pairAt s k).lost && !(pairAt s0 k).lost then r.ev 3 0x50 k Ev.pairLost 0 else r) r
  let r := (upto 32).foldl (fun r k => if (tget {} s.leak k).verdict && !(tget {} s0.leak k).verdict then r.ev 0 (0x54 + k / 16) (k % 16) Ev.leakVerdict 0 else r) r
  (upto 256).foldl (fun r k => calAbandon k r) r

end Sys2Proof.Machine
end

