-- ==== Sys2Proof/Machine/Loop.lean ====
section
/-! DEFINITION. The loop engine (R117–R137): Q32 arithmetic, sources, one run of a loop, modes and trips, coefficient banks, traces. -/
namespace Sys2Proof.Machine
open Sys2Proof

/-! ### Q32 arithmetic (R118) -/

/-- rsh: floor((a + 2^(s−1)) / 2^s), halves toward +∞. -/
def rsh (a : Int) (s : Nat) : Int := if s = 0 then a else (a + ((2 ^ (s - 1) : Nat) : Int)) / ((2 ^ s : Nat) : Int)
def satQ (x : Int) : Int := clampI (-2147483648) 2147483647 x
def overQ (x : Int) : Bool := decide (x < -2147483648 ∨ 2147483647 < x)
/-- A source value of binary point b at the loop's SBP. -/
def convQ (b sbp : Nat) (x : Int) : Int :=
  if sbp < b then satQ (rsh x (b - sbp)) else satQ (x * ((2 ^ (sbp - b) : Nat) : Int))
/-- Whether a conversion saturates. -/
def convOver (b sbp : Nat) (x : Int) : Bool := if sbp < b then overQ (rsh x (b - sbp)) else overQ (x * ((2 ^ (sbp - b) : Nat) : Int))

/-! ### Descriptors -/

def LoopSt.act (l : LoopSt) : LoopBank := if l.active = 0 then l.bank0 else l.bank1
def LoopSt.edit (l : LoopSt) : LoopBank := if l.active = 0 then l.bank1 else l.bank0
def LoopSt.setEdit (l : LoopSt) (b : LoopBank) : LoopSt := if l.active = 0 then { l with bank1 := b } else { l with bank0 := b }
/-- Word w of loop j's descriptor in a bank, and its fields. -/
def bWord (b : LoopBank) (j w : Nat) : Nat := tget 0 b.words (18 * j + w)
def bLut (b : LoopBank) (j k c : Nat) : Nat := tget 0 b.lut (192 * j + 3 * k + c)
def bS (b : LoopBank) (j w : Nat) : Int := sx 32 (bWord b j w)
def bDir (b : LoopBank) (j : Nat) : Nat := bitsOf (bWord b j 0) 0 1
def bDestType (b : LoopBank) (j : Nat) : Nat := bitsOf (bWord b j 0) 1 2
def bLutEn (b : LoopBank) (j : Nat) : Nat := bitsOf (bWord b j 0) 3 1
def bBumpless (b : LoopBank) (j : Nat) : Nat := bitsOf (bWord b j 0) 4 1
def bAw (b : LoopBank) (j : Nat) : Nat := bitsOf (bWord b j 0) 5 1
def bDest (b : LoopBank) (j : Nat) : Nat := bitsOf (bWord b j 0) 8 6
def bDiv (b : LoopBank) (j : Nat) : Nat := bitsOf (bWord b j 0) 16 4
def bLutN (b : LoopBank) (j : Nat) : Nat := bitsOf (bWord b j 0) 24 7
def bPvSrc (b : LoopBank) (j : Nat) : Nat := bitsOf (bWord b j 1) 0 16
def bSpSrc (b : LoopBank) (j : Nat) : Nat := bitsOf (bWord b j 1) 16 16
def bFfSrc (b : LoopBank) (j : Nat) : Nat := bitsOf (bWord b j 2) 0 16
def bPhase (b : LoopBank) (j : Nat) : Nat := bitsOf (bWord b j 2) 16 10
def bSbp (b : LoopBank) (j : Nat) : Nat := bitsOf (bWord b j 3) 0 5
def bSh (b : LoopBank) (j k : Nat) : Nat := bitsOf (bWord b j 3) (5 * k) 5
def bFeTicks (b : LoopBank) (j : Nat) : Nat := bitsOf (bWord b j 15) 0 16
def bFeAct (b : LoopBank) (j : Nat) : Nat := bitsOf (bWord b j 15) 16 2

def loopAt (l : LoopSt) (j : Nat) : LoopRun := tget {} l.run j
def setLoop (l : LoopSt) (j : Nat) (r : LoopRun) : LoopSt := { l with run := tset {} l.run j r }
/-- LOOP_MODE.MODE of loop j: 0 OFF, 1 AUTO, 2 MANUAL, 3 HOLD. -/
def loopMode (rf : RegFile) (j : Nat) : Nat := fget rf (F.LOOP_MODE_MODE (j / 16) (j % 16))
def loopSp (rf : RegFile) (j : Nat) : Int := fgetS rf (F.LOOP_SP (j / 16) (j % 16))
def loopMan (rf : RegFile) (j : Nat) : Int := fgetS rf (F.LOOP_MAN_OUT (j / 16) (j % 16))
/-- The effective mode (R126): 4 is SAFE. -/
def effMode (mode act : Nat) (trip : Bool) : Nat :=
  if mode = 0 then 0 else if trip ∧ act = 1 then 3 else if mode = 3 then 3 else if trip ∧ act = 2 then 4 else mode
/-- The node of loop j: 0 in OFF (R126). -/
def loopNode (rf : RegFile) (l : LoopSt) (j : Nat) : Int := if loopMode rf j = 0 then 0 else (loopAt l j).u

/-! ### Sources (R119, R127) -/

/-- What a run reads beside the loop state: sensing, actuator feedback in rev/min (pump channels 0–3, fan channels 64 + n; none when
TACH_LOST or absent), the advisory's feedforward slots, ADV_VALID, the lower bound R287 sets on a loop's setpoint, the merged setpoint of R85, what R201 adds
to a loop's setpoint and the dew point floor below which the supply setpoint is never commanded (R105), all at binary point 16. -/
structure LoopEnv where
  rf : RegFile
  sens : SensSt
  feedback : Tbl (Option Nat)
  slots : List Int
  advValid : Bool
  spOver : Option (Nat × Int)
  spSet : Option (Nat × Int)
  trimAdd : Nat → Int
  floor : Nat × Int

/-- A source's value and binary point; none when it is unusable. -/
def srcRaw (env : LoopEnv) (l : LoopSt) (code : Nat) : Option (Int × Nat) :=
  let kind := code / 4096
  if kind = 1 then
    let c := chanAt env.sens (32 * bitsOf code 8 3 + bitsOf code 0 5)
    if c.used then some (c.value, 16) else none
  else if kind = 2 then (pairRead env.sens (bitsOf code 0 3)).map (fun x => (x, 16))
  else if kind = 3 then
    let k := bitsOf code 0 6
    if loopMode env.rf k = 0 then none else some ((loopAt l k).u, bSbp l.act k)
  else if kind = 4 then
    if env.advValid then some (lget 0 env.slots (bitsOf code 0 4), 16) else none
  else if kind = 5 then
    let key := if bitsOf code 6 2 = 0 then bitsOf code 0 6 else 64 + bitsOf code 0 6
    (tget none env.feedback key).map (fun n => (satQ ((n : Int) * 65536), 16))
  else none
/-- A source value at the loop's SBP; none when it is unusable. -/
def srcRead (env : LoopEnv) (l : LoopSt) (sbp code : Nat) : Option Int := (srcRaw env l code).map (fun x => convQ x.2 sbp x.1)
/-- Whether a source's conversion to the loop's SBP saturates (R118). -/
def srcOver (env : LoopEnv) (l : LoopSt) (sbp code : Nat) : Bool :=
  match srcRaw env l code with | some x => convOver x.2 sbp x.1 | none => false
/-- Whether one of the conversions of a run saturates. -/
def convSat (env : LoopEnv) (l : LoopSt) (j : Nat) : Bool :=
  let b := l.act
  let s := bSbp b j
  srcOver env l s (bPvSrc b j) || srcOver env l s (bSpSrc b j) || srcOver env l s (bFfSrc b j)
def pvRead (env : LoopEnv) (l : LoopSt) (j : Nat) : Option Int := srcRead env l (bSbp l.act j) (bPvSrc l.act j)
/-- The effective setpoint: LOOP_SP or the source named, raised by the dew point override (R287), or the merged one (R85), and for the loop of
PROT_DEW never below the dew point floor (R105). -/
def spRead (env : LoopEnv) (l : LoopSt) (j : Nat) : Option Int :=
  let own := if bSpSrc l.act j = 0 then some (loopSp env.rf j) else srcRead env l (bSbp l.act j) (bSpSrc l.act j)
  own.map (fun x =>
    let x := satQ (x + convQ 16 (bSbp l.act j) (env.trimAdd j))
    let x := match env.spOver with | some (k, v) => if k = j then max x (convQ 16 (bSbp l.act j) v) else x | none => x
    let x := match env.spSet with | some (k, v) => if k = j then convQ 16 (bSbp l.act j) v else x | none => x
    if env.floor.1 = j then max x (convQ 16 (bSbp l.act j) env.floor.2) else x)
/-- An unusable feedforward reads LOOP_FF_CONS. -/
def ffRead (env : LoopEnv) (l : LoopSt) (j : Nat) : Int :=
  if bFfSrc l.act j / 4096 = 0 then 0
  else match srcRead env l (bSbp l.act j) (bFfSrc l.act j) with
    | some x => x
    | none => bS l.act j 17

/-! ### Gain lookup (R121) -/

/-- The lookup among entries k, k + 1, … : the gain, whether a result saturated, the path. -/
def lutSeek (b : LoopBank) (j sbp : Nat) (x : Int) : Nat → Nat → Int × Bool × Nat
  | 0, k => (sx 32 (bLut b j k 1), false, 1)
  | f + 1, k =>
    let xk := sx 32 (bLut b j k 0)
    if x = xk then (sx 32 (bLut b j k 1), false, 2)
    else if x < sx 32 (bLut b j (k + 1) 0) then
      let y := sx 32 (bLut b j k 1) + rsh (sx 32 (bLut b j k 2) * (x - xk)) sbp
      (satQ y, overQ y, 3)
    else lutSeek b j sbp x f (k + 1)
def lutGain (b : LoopBank) (j : Nat) (x : Int) : Int × Bool × Nat :=
  if bLutEn b j = 0 then (0x1000000, false, 0)
  else
    let n := bLutN b j
    if x < sx 32 (bLut b j 0 0) then (sx 32 (bLut b j 0 1), false, 1)
    else if sx 32 (bLut b j (n - 1) 0) ≤ x then (sx 32 (bLut b j (n - 1) 1), false, 1)
    else lutSeek b j (bSbp b j) x (n - 1) 0

/-! ### One run (R120) -/

/-- The following-error check of R126 after a run in AUTO: the count, and whether the loop trips now. -/
def feCheck (b : LoopBank) (j : Nat) (e : Int) (r : LoopRun) : LoopRun × Bool :=
  if bS b j 14 < e.natAbs then
    let n := satAdd 0xFFFF r.feCnt (2 ^ bDiv b j)
    if bFeTicks b j ≤ n then ({ r with feCnt := n, feTrip := true }, !r.feTrip) else ({ r with feCnt := n }, false)
  else ({ r with feCnt := 0 }, false)

/-- The computation of R120 with usable sources, in effective mode AUTO (1), MANUAL (2) or SAFE (4); `conv` says that a source's conversion
saturated. -/
def loopCompute (b : LoopBank) (j eff : Nat) (man pv sp ff : Int) (conv overridden : Bool) (r : LoopRun) : LoopRun :=
  let dir := bDir b j
  let e0 := if dir = 1 then pv - sp else sp - pv
  let e1 := satQ e0
  let e := if (e1.natAbs : Int) ≤ bS b j 13 then 0 else e1
  let d0 := if r.first then 0 else if dir = 1 then pv - r.pv else r.pv - pv
  let d := satQ d0
  let (g, gSat, path) := lutGain b j (e.natAbs : Int)
  let ge0 := rsh (g * e) 24
  let ge := satQ ge0
  let p0 := rsh (bS b j 4 * ge) (bSh b j 1)
  let i0 := rsh (bS b j 5 * ge) (bSh b j 2)
  let dd0 := rsh (bS b j 6 * d) (bSh b j 3)
  let f0 := rsh (bS b j 7 * ff) (bSh b j 4)
  let p := satQ p0
  let di := satQ i0
  let dt := satQ dd0
  let f := satQ f0
  let frozen := overridden || eff == 4 ||
    (bAw b j == 1 && r.outClamp && (if r.clampHigh then decide (0 < di) else decide (di < 0)))
  let di := if frozen then 0 else di
  let imin := bS b j 8
  let imax := bS b j 9
  let s1 := r.i + di
  let i1 := clampI imin imax (satQ s1)
  let bumpless := eff == 1 && (r.boot || (bBumpless b j == 1 && r.swapped))
  let pre0 := r.u - p - dt - f
  let i2 := if bumpless then clampI imin imax (satQ pre0) else i1
  let u0 := p + i2 + dt + f
  let u1 := if eff = 2 then man else satQ u0
  let omin := bS b j 10
  let omax := bS b j 11
  let u2 := clampI omin omax u1
  let slewL := bS b j 12
  let u3 := if slewL ≠ 0 then clampI (r.u - slewL) (r.u + slewL) u2 else u2
  let u4 := if eff = 4 then bS b j 16 else u3
  let man0 := u4 - p - dt - f
  let i3 := if eff = 2 then clampI imin imax (satQ man0) else i2
  let sat := conv || overQ e0 || overQ d0 || gSat || overQ ge0 || overQ p0 || overQ i0 || overQ dd0 || overQ f0 || overQ s1 ||
    (bumpless && overQ pre0) || (eff != 2 && overQ u0) || (eff == 2 && overQ man0)
  { r with u := u4, i := i3, pv := pv, sp := sp, err := e, g := g, p := p, d := dt, path := path, ran := true, sat := sat,
           iClamp := i3 == imin || i3 == imax, outClamp := eff != 4 && u2 != u1, clampHigh := decide (omax < u1),
           slew := eff != 4 && u3 != u2,
           pvLost := false, overridden := overridden, first := false, swapped := false, boot := false }

/-- Whether loop j is due in a tick (R120, R125). -/
def loopDue (b : LoopBank) (j count : Nat) : Bool := count % 2 ^ bDiv b j == bPhase b j
/-- The duty of an output, 0.01 % (R124): round(U × 100 / 2^SBP), halves upward, clamped to 0–10,000. -/
def outDuty (sbp : Nat) (u : Int) : Nat := (clampI 0 10000 ((200 * u + ((2 ^ sbp : Nat) : Int)) / ((2 ^ (sbp + 1) : Nat) : Int))).toNat
/-- The key of a destination in the table of overridden destinations. -/
def destKey (t d : Nat) : Nat := 64 * t + d

/-- The LOOP_OUT message, 12 bytes in network byte order (R124). -/
def loopOutBytes (m : LoopOutMsg) : List Nat :=
  let body := [0x0A, 64 * m.destType + m.dest] ++ beBytes 2 m.claim ++ beBytes 4 m.seq ++ beBytes 2 m.duty
  body ++ beBytes 2 (crc16 body)
/-- Slot j of P4 (R117, R120, R124–R127): run the loop if it is due, emit its LOOP_OUT, check its following error. -/
def loopSlot (env : LoopEnv) (emit : Bool) (claim seq count j : Nat) (x : LoopSt × List Occ) : LoopSt × List Occ :=
  let (l, evs) := x
  let b := l.act
  let mode := loopMode env.rf j
  let r := loopAt l j
  if mode = 0 ∨ ¬ loopDue b j count then (if r.ran then (setLoop l j { r with ran := false }, evs) else (l, evs))
  else
    let overNow := tget false l.overNow (destKey (bDestType b j) (bDest b j)) && bDestType b j != 0
    let send := fun (l : LoopSt) (u : Int) =>
      if emit && bDestType b j != 0 && !overNow then
        { l with outs := l.outs ++ [⟨bDestType b j, bDest b j, claim, seq, outDuty (bSbp b j) u⟩] }
      else l
    let eff := effMode mode (bFeAct b j) r.feTrip
    if eff = 3 then (send (setLoop l j { r with ran := false, first := true, overridden := overNow }) r.u, evs)
    else
      match pvRead env l j, spRead env l j with
      | some pv, some sp =>
        let r' := loopCompute b j eff (loopMan env.rf j) pv sp (ffRead env l j) (convSat env l j) overNow r
        if mode = 1 then
          let (r'', trip) := feCheck b j r'.err r'
          let l := send (setLoop l j r'') r''.u
          if trip then ({ l with tripped := l.tripped ++ [j] }, evs ++ [⟨1, 4, 0x14 + j / 16, j % 16, 0, Ev.feTrip, j⟩]) else (l, evs)
        else (send (setLoop l j r') r'.u, evs)
      | pv, _ =>
        let l := send (setLoop l j { r with ran := true, pvLost := true, first := true, swapped := false, overridden := overNow }) r.u
        let arg := if pv.isNone then bPvSrc b j else bSpSrc b j
        (l, if r.pvLost then evs else evs ++ [⟨1, 4, 0x14 + j / 16, j % 16, 0, Ev.pvLost, arg⟩])

/-- P4 of the loop engine: slots 0 to 63 in order. -/
def loopTick (env : LoopEnv) (emit : Bool) (claim seq count : Nat) (l : LoopSt) : LoopSt × List Occ :=
  (upto 64).foldl (fun x j => loopSlot env emit claim seq count j x) ({ l with outs := [], tripped := [] }, [])

/-- The duty of the loop that drives a destination, where a loop not in OFF drives it: the held output of R125. -/
def destDuty (rf : RegFile) (l : LoopSt) (t d : Nat) : Option Nat :=
  ((upto 64).filter (fun j => loopMode rf j != 0 && bDestType l.act j == t && bDest l.act j == d)).head?.map
    (fun j => outDuty (bSbp l.act j) (loopAt l j).u)

/-! ### Following-error clear and modes (R126) -/

/-- LENG_FE_CLR: clear the trips of the bits written; the effective mode returns to LOOP_MODE.MODE. -/
def feClear (base bits : Nat) (l : LoopSt) : LoopSt :=
  (upto 32).foldl (fun l n =>
    if bitOf bits n then
      let r := loopAt l (base + n)
      setLoop l (base + n) { r with feTrip := false, feCnt := 0 }
    else l) l
/-- A change of LOOP_MODE: entering AUTO or MANUAL from OFF or HOLD makes the next run a first run. -/
def modeChange (j old new : Nat) (l : LoopSt) : LoopSt :=
  if (new = 1 ∨ new = 2) ∧ (old = 0 ∨ old = 3) then setLoop l j { loopAt l j with first := true } else l

/-! ### Bank check and swap (R128–R130) -/

/-- R119: whether a source code is valid for a field (0 PV, 1 SP, 2 FF) and its target exists. -/
def srcValid (field code : Nat) : Bool :=
  let kind := code / 4096
  if kind = 0 then code == 0
  else if kind = 1 then decide (bitsOf code 0 5 < sensGrpCount (bitsOf code 8 3) ∧ code % 256 / 32 = 0 ∧ bitsOf code 11 1 = 0)
  else if kind = 2 then decide (code % 4096 < 6)
  else if kind = 3 then decide (code % 4096 < 64)
  else if kind = 4 then field == 2 && decide (code % 4096 < 16)
  else if kind = 5 then field == 0 && (decide (code % 4096 < 4) || decide (64 ≤ code % 4096 ∧ code % 4096 < 64 + 48))
  else false
/-- R129 code 7 also refuses a PV or SP naming a channel whose EN is 0. -/
def srcDisabled (rf : RegFile) (code : Nat) : Bool :=
  code / 4096 == 1 && fget rf (F.SENS_CH_CFG_EN (bitsOf code 8 3) (bitsOf code 0 5)) == 0
/-- Whether two loops drive one channel (R129 code 6). -/
def destClash (t1 d1 t2 d2 : Nat) : Bool :=
  t1 != 0 && ((t1 == t2 && d1 == d2) || (t1 == 2 && t2 == 3 && d1 / 16 == d2) || (t1 == 3 && t2 == 2 && d2 / 16 == d1))
/-- The first failing code of loop j in the edit bank, 0 when it passes. -/
def bankCheckLoop (rf : RegFile) (b : LoopBank) (j : Nat) : Nat :=
  let n := bLutN b j
  if bS b j 9 < bS b j 8 then 1
  else if bS b j 11 < bS b j 10 ∨ bS b j 16 < bS b j 10 ∨ bS b j 11 < bS b j 16 then 2
  else if bLutEn b j = 1 ∧ (n < 2 ∨ ¬ (upto (n - 1)).all (fun k => decide (sx 32 (bLut b j k 0) < sx 32 (bLut b j (k + 1) 0)))) then 3
  else if ¬ (upto (n - 1)).all (fun k =>
      let y := sx 32 (bLut b j k 1) + rsh (sx 32 (bLut b j k 2) * (sx 32 (bLut b j (k + 1) 0) - sx 32 (bLut b j k 0))) (bSbp b j)
      decide ((y - sx 32 (bLut b j (k + 1) 1)).natAbs ≤ 0x100)) then 4
  else if 2 ^ bDiv b j ≤ bPhase b j then 5
  else if loopMode rf j ≠ 0 ∧ (upto j).any (fun k => loopMode rf k != 0 && destClash (bDestType b j) (bDest b j) (bDestType b k) (bDest b k)) then 6
  else if ¬ srcValid 0 (bPvSrc b j) ∨ ¬ srcValid 1 (bSpSrc b j) ∨ ¬ srcValid 2 (bFfSrc b j) ∨ srcDisabled rf (bPvSrc b j) ∨ srcDisabled rf (bSpSrc b j) then 7
  else if bDestType b j ≠ 0 ∧
      (bS b j 10 < 0 ∨ 100 * ((2 ^ bSbp b j : Nat) : Int) < bS b j 10 ∨ bS b j 11 < 0 ∨ 100 * ((2 ^ bSbp b j : Nat) : Int) < bS b j 11) then 8
  else 0
/-- The first failing loop and its code. -/
def bankCheckFrom (rf : RegFile) (b : LoopBank) : List Nat → Nat × Nat
  | [] => (0, 0)
  | j :: js => let c := bankCheckLoop rf b j; if c = 0 then bankCheckFrom rf b js else (c, j)
/-- LENG_BANK_CRC: CRC-32 over the image of the edit bank. -/
def bankCrc (b : LoopBank) : Nat :=
  crc32 ((((upto (64 * 18)).map (fun k => leBytes 4 (tget 0 b.words k))) ++ ((upto (64 * 192)).map (fun k => leBytes 4 (tget 0 b.lut k)))).flatten)

/-- Whether a swap is armed (R130). -/
def bankArmed (l : LoopSt) : Bool := l.armedAt.isSome || l.txnSwap || l.swapNext
/-- A bank command in P0 of its apply tick (R130): 1 CHECK, 2 SWAP, 3 SWAP_AT, 4 CANCEL, 5 COPY. -/
def bankCmd (rf : RegFile) (cmd count : Nat) (l : LoopSt) : LoopSt :=
  if cmd = 1 then { l with checkDue := some 1, result := 0 }
  else if cmd = 2 then (if bankArmed l then { l with result := 5 } else { l with checkDue := some 2, result := 0 })
  else if cmd = 3 then
    let t := fget rf F.LENG_SWAP_TICK
    if 2147483648 ≤ (t + 4294967296 - (count + 1) % 4294967296) % 4294967296 then { l with result := 4 }
    else if bankArmed l then { l with result := 5 }
    else { l with armedAt := some t, result := 0 }
  else if cmd = 4 then (if l.armedAt.isSome then { l with armedAt := none, result := 6 } else { l with result := 1 })
  else if cmd = 5 then
    if bankArmed l then { l with result := 5 } else { l.setEdit l.act with checked := false, result := 1 }
  else l
/-- The bank check in P4 for the command due (R129, R130). -/
def bankCheckRun (rf : RegFile) (l : LoopSt) : LoopSt × List Occ :=
  match l.checkDue with
  | none => (l, [])
  | some cmd =>
    let (code, j) := bankCheckFrom rf l.edit (upto 64)
    let crc := bankCrc l.edit
    let l := { l with checkDue := none, badCode := code, badLoop := j, crc := crc }
    let ev : List Occ := [⟨1, 4, 0x13, 0xFFFF, 0, Ev.bankCheck, code⟩]
    if code ≠ 0 then ({ l with checked := false, result := 2, armedAt := if cmd = 3 then none else l.armedAt }, ev)
    else
      let l := { l with checked := true }
      if cmd = 1 then ({ l with result := 1 }, ev)
      else if crc ≠ fget rf F.LENG_SWAP_CRC then ({ l with result := 3, armedAt := if cmd = 3 then none else l.armedAt }, ev)
      else ({ l with result := 1, swapNext := true }, ev)
/-- A SWAP_AT whose check tick has come: the tick before LENG_SWAP_TICK. -/
def swapAtDue (count : Nat) (l : LoopSt) : LoopSt :=
  match l.armedAt with
  | some t => if t % 4294967296 = (count + 1) % 4294967296 then { l with checkDue := some 3 } else l
  | none => l
/-- The swap: the banks change places, CHECKED clears, every loop's next run is its first since a swap. -/
def bankSwap (l : LoopSt) : LoopSt :=
  { l with active := 1 - l.active, checked := false, swaps := (l.swaps + 1) % 4294967296, swappedNow := true,
           run := (upto 64).foldl (fun t j => tmod {} t j (fun r => { r with swapped := true })) l.run }
/-- The swap due at this boundary, if any (R130); a SWAP_AT stays armed until it. -/
def bankSwapDue (l : LoopSt) : LoopSt := if l.swapNext then bankSwap { l with swapNext := false, armedAt := none } else l
/-- Write word w of loop j's descriptor in the edit bank; any write clears CHECKED. -/
def bankWrite (j w v : Nat) (l : LoopSt) : LoopSt :=
  { l.setEdit { l.edit with words := tset 0 l.edit.words (18 * j + w) v } with checked := false }
def lutWrite (j k c v : Nat) (l : LoopSt) : LoopSt :=
  { l.setEdit { l.edit with lut := tset 0 l.edit.lut (192 * j + 3 * k + c) v } with checked := false }

/-! ### Traces (R134–R136) -/

/-- The signal channel c samples. -/
def traceSample (rf : RegFile) (l : LoopSt) (c : Nat) : Nat :=
  if fget rf (F.LENG_TRC_SRC_EN c) = 0 then 0
  else
    let r := loopAt l (fget rf (F.LENG_TRC_SRC_LOOP c))
    let sig := fget rf (F.LENG_TRC_SRC_SIG c)
    ux 32 (if sig = 0 then r.sp else if sig = 1 then r.pv else if sig = 2 then r.err else if sig = 3 then r.g
      else if sig = 4 then r.p else if sig = 5 then r.i else if sig = 6 then r.d else r.u)
/-- Whether the trigger condition of R135 holds at cycle 10,240. DESIGN CHOICE (log 79): a sample equal to LENG_TRC_LEVEL has crossed it. -/
def traceTrig (rf : RegFile) (l : LoopSt) (mismatch mergeIn : Bool) (smp : List Nat) (t : TraceSt) : Bool :=
  let k := fget rf F.LENG_TRC_TRIG_KIND
  t.force ||
  (k == 1 && l.tripped.contains (fget rf F.LENG_TRC_TRIG_LOOP)) ||
  (k == 2 &&
    (let c := fget rf F.LENG_TRC_TRIG_CH
     let lv := sx 32 (fget rf F.LENG_TRC_LEVEL_LEVEL)
     let a := sx 32 (lget 0 t.prev c)
     let b := sx 32 (lget 0 smp c)
     if fget rf F.LENG_TRC_TRIG_SLOPE = 0 then decide (a < lv ∧ lv ≤ b) else decide (lv < a ∧ b ≤ lv))) ||
  (k == 3 && mismatch) || (k == 4 && mergeIn) || (k == 5 && !l.tripped.isEmpty) || (k == 6 && l.swappedNow)
/-- One tick of the trace. -/
def traceTick (rf : RegFile) (l : LoopSt) (mismatch mergeIn : Bool) (count : Nat) (t : TraceSt) : TraceSt :=
  let smp := (upto 8).map (traceSample rf l)
  let put := fun (t : TraceSt) =>
    { t with buf := (upto 8).foldl (fun b c => tset 0 b (4096 * c + t.pos) (lget 0 smp c)) t.buf, pos := (t.pos + 1) % 4096,
             count := t.count + 1, prev := smp }
  match t.state with
  | .armed =>
    let pre := fget rf F.LENG_TRC_CTRL_PRE
    if pre ≤ t.count ∧ traceTrig rf l mismatch mergeIn smp t then
      let t := put t
      if 4095 ≤ pre then { t with state := .frozen, tick := count % 4294967296, force := false }
      else { t with state := .triggered, left := 4095 - pre, tick := count % 4294967296, force := false }
    else put t
  | .triggered =>
    let t := put t
    if t.left ≤ 1 then { t with state := .frozen, left := 0 } else { t with left := t.left - 1 }
  | _ => { t with prev := smp }
/-- ARM. DESIGN CHOICE (log 79): while ARMED or TRIGGERED it has no effect. -/
def traceArm (t : TraceSt) : TraceSt :=
  match t.state with
  | .idle | .frozen => { t with state := .armed, buf := [], pos := 0, count := 0, left := 0, force := false }
  | _ => t
/-- FORCE: the trigger, ignored until PRE samples have been recorded since ARM. -/
def traceForce (pre : Nat) (t : TraceSt) : TraceSt := if t.state = .armed ∧ pre ≤ t.count then { t with force := true } else t
def traceStop (t : TraceSt) : TraceSt := { t with state := .idle, force := false }
/-- Sample i (0 the oldest) of channel c once FROZEN. -/
def traceRead (t : TraceSt) (c i : Nat) : Nat := tget 0 t.buf (4096 * c + (t.pos + i) % 4096)

end Sys2Proof.Machine
end

