-- ==== Sys2Proof/Machine/LoopCmd.lean ====
section
/-! DEFINITION. The meanings of the loop engine and trace commands. -/
namespace Sys2Proof.Machine
open Sys2Proof

def rowLoops (f : LoopSt → LoopSt) (r : RowSt) : RowSt := { r with loops := f r.loops }
def laneRow (f : RowSt → RowSt) (l : Lane) : Lane := { l with row := f l.row }
/-- LENG_FE_CLR_LO (base 0) or _HI (base 32). -/
def execLengFeClr (hi : Bool) (bits : Word) (s : State) : Host.Outcome State Fault Refusal :=
  .next (s.laneWrite 0x13 false (laneRow (rowLoops (feClear (if hi then 32 else 0) bits.toNat))))
/-- A bank command applied in P0 of tick A; a check due in the same tick's P4 runs with it. -/
def rowBankCmd (cmd count : Nat) (r : RowSt) : RowSt :=
  let l := bankCmd r.regs cmd count r.loops
  let (l, ev) := bankCheckRun r.regs (if cmd = 3 then swapAtDue count l else l)
  { r with loops := l, events := r.events ++ ev }
def execBankCmdCheck (s : State) : Host.Outcome State Fault Refusal :=
  .next (s.laneWrite 0x13 false (laneRow (rowBankCmd 1 s.time.count)))
def execBankCmdSwap (s : State) : Host.Outcome State Fault Refusal :=
  .next (s.laneWrite 0x13 false (laneRow (rowBankCmd 2 s.time.count)))
def execBankCmdSwapAt (s : State) : Host.Outcome State Fault Refusal :=
  .next (s.laneWrite 0x13 false (laneRow (rowBankCmd 3 s.time.count)))
def execBankCmdCancel (s : State) : Host.Outcome State Fault Refusal :=
  .next (s.laneWrite 0x13 false (laneRow (rowBankCmd 4 s.time.count)))
def execBankCmdCopy (s : State) : Host.Outcome State Fault Refusal :=
  .next (s.laneWrite 0x13 false (laneRow (rowBankCmd 5 s.time.count)))
/-- The swap due at the boundary, with its event (R130). -/
def rowBankSwap (r : RowSt) : RowSt :=
  if r.loops.swapNext then { r with loops := bankSwapDue r.loops }.ev 1 0x13 0xFFFF Ev.bankSwap 0 else r
def execBankSwap (s : State) : Host.Outcome State Fault Refusal := .next (s.onRows rowBankSwap)
/-- LENG_LUT_S: store S_k of the entry at LENG_LUT_PTR in the edit bank; INC advances IDX, which stops at 3Fh. -/
def rowLutS (v : Nat) (r : RowSt) : RowSt :=
  let j := r.f F.LENG_LUT_PTR_LOOP
  let k := r.f F.LENG_LUT_PTR_IDX
  let r := { r with loops := lutWrite j k 2 v r.loops }
  if r.f F.LENG_LUT_PTR_INC = 1 then r.setF F.LENG_LUT_PTR_IDX (min 63 (k + 1)) else r
def execLutEntryWrite (slope : Word) (s : State) : Host.Outcome State Fault Refusal :=
  .next (s.laneWrite 0x13 false (laneRow (rowLutS slope.toNat)))
def laneTrace (f : TraceSt → TraceSt) (l : Lane) : Lane := { l with trace := f l.trace }
/-- LENG_TRC_CTRL FORCE with the lane's PRE. -/
def laneForce (l : Lane) : Lane := laneTrace (traceForce (l.row.f F.LENG_TRC_CTRL_PRE)) l
def execTraceArm (s : State) : Host.Outcome State Fault Refusal := .next (s.laneWrite 0x13 false (laneTrace traceArm))
def execTraceForce (s : State) : Host.Outcome State Fault Refusal := .next (s.laneWrite 0x13 false laneForce)
def execTraceStop (s : State) : Host.Outcome State Fault Refusal := .next (s.laneWrite 0x13 false (laneTrace traceStop))

end Sys2Proof.Machine
end

