-- ==== Sys2Proof/Machine/Caps.lean ====
section
/-! DEFINITION. The cap engine of a lane (R193–R201, R217, R218): table words, readings, ceilings, targets, binding sources, drops and
group follow-ups, warm floors. Caps are in 0.25 W. -/
namespace Sys2Proof.Machine
open Sys2Proof

/-! ### Configuration and table words -/

/-- The configured endpoints (R194). -/
def capEndpoints (c : CapSt) : List Nat :=
  ((upto c.nrack).map (fun r => (upto (lget 0 c.nslot r)).map (fun n => 96 * r + n))).flatten
def capConfigured (c : CapSt) (e : Nat) : Bool := decide (e / 96 < c.nrack ∧ e % 96 < lget 0 c.nslot (e / 96))
/-- The bit map of configured racks. -/
def confRacks (c : CapSt) : Nat := 2 ^ c.nrack - 1

/-- The reset words of R217. -/
def capReset (sel : Nat) : Nat :=
  if sel = 0 then 0xFFFFFFFF else if sel = 1 then 0x1F400640 else if sel = 2 then 0x00012C69 else 0x06400000
/-- The word of table `sel` in force for an endpoint. -/
def capWord (c : CapSt) (sel e : Nat) : Nat :=
  tget (capReset sel) (if sel = 0 then c.budget else if sel = 1 then c.limits else if sel = 2 then c.therm else c.group) e
def capSetWord (c : CapSt) (sel e v : Nat) : CapSt :=
  if sel = 0 then { c with budget := tset (capReset 0) c.budget e v }
  else if sel = 1 then { c with limits := tset (capReset 1) c.limits e v }
  else if sel = 2 then { c with therm := tset (capReset 2) c.therm e v }
  else { c with group := tset (capReset 3) c.group e v }
/-- The word as the writes applied so far leave it: held, else applied and waiting, else in force. A held word is the later one: it is written
after every word that waits, since a release empties the staging copy (R218). -/
def capLatest (c : CapSt) (sel e : Nat) : Nat :=
  match (if sel = 0 then tget none c.held e else none) with
  | some v => v
  | none =>
    match tget none c.next (4 * e + sel) with
    | some v => v
    | none => capWord c sel e
/-- CAPC_TBL_RDATA: the held word while GATHER holds one, else the word in force. -/
def capShown (c : CapSt) (sel e : Nat) : Nat :=
  if 2304 ≤ e then 0
  else match (if sel = 0 then tget none c.held e else none) with
    | some v => v
    | none => capWord c sel e
def capRack (c : CapSt) (e : Nat) : Nat := capWord c 0 e % 65536
def capHost (c : CapSt) (e : Nat) : Nat := capWord c 0 e / 65536
def capFloor (c : CapSt) (e : Nat) : Nat := capWord c 1 e % 65536
def capMax (c : CapSt) (e : Nat) : Nat := capWord c 1 e / 65536
def capTrip (c : CapSt) (e : Nat) : Int := (capWord c 2 e % 256 : Nat)
def capTheta (c : CapSt) (e : Nat) : Nat := bitsOf (capWord c 2 e) 8 16
def capWarmOk (c : CapSt) (e : Nat) : Bool := bitOf (capWord c 2 e) 24
def capGroup (c : CapSt) (e : Nat) : Nat := capWord c 3 e % 1024
def capHoldCap (c : CapSt) (e : Nat) : Nat := capWord c 3 e / 65536

def epAt (c : CapSt) (e : Nat) : EpCap := tget {} c.ep e
def setEp (c : CapSt) (e : Nat) (x : EpCap) : CapSt := { c with ep := tset {} c.ep e x }
def modEp (c : CapSt) (e : Nat) (f : EpCap → EpCap) : CapSt := setEp c e (f (epAt c e))

/-- CAPC_TBL_WDATA_k applied (R217, R218): held while GATHER is 1, otherwise waiting for the next decision tick. -/
def capTblWrite (e sel v : Nat) (c : CapSt) : CapSt :=
  if 2304 ≤ e then c
  else if sel = 0 ∧ c.gather then { c with held := tset none c.held e (some v) }
  else { c with next := tset none c.next (4 * e + sel) (some v) }
/-- Every held word is released together and GATHER clears. -/
def capRelease (c : CapSt) : CapSt :=
  { c with next := c.held.foldl (fun t x => tset none t (4 * x.1) x.2) c.next, held := [], gather := false }
/-- CAPC_BUDGET_CTRL.GATHER written in a tick. -/
def capGatherWrite (on : Bool) (tick : Nat) (c : CapSt) : CapSt :=
  if on then { c with gather := true, gatherTick := tick } else capRelease c
/-- GATHER clears itself 8,192 ticks after it was last written 1. -/
def gatherTimeout (tick : Nat) (r : RowSt) : RowSt :=
  if r.caps.gather ∧ r.caps.gatherTick + 8192 ≤ tick then
    { r with caps := capRelease r.caps }.ev 4 0x60 0xFFFF Ev.gatherTimeout 0
  else r

/-! ### Readings -/

/-- The advisory in force, when ADV_VALID. -/
def advRec (r : RowSt) (e : Nat) : Option AdvRec :=
  match r.adv with
  | some a => let x := tget {} a.msg.recs e; if bitOf x.flags 0 then some x else none
  | none => none
/-- TSUP of R111 and R201: the higher reading of pair 3, or PROT_TEMP.TSUP_LOST while the pair is LOST (R288). -/
def tsupRead (r : RowSt) : Int :=
  match pairRead r.sens 3 with
  | some x => x
  | none => (r.f F.PROT_TEMP_TSUP_LOST : Int) * 65536
/-- The substitute of R111: HI of the advisory record, else TSUP + P × SENS_HS_THETA. -/
def hotSubst (r : RowSt) (e : Nat) : Int :=
  match advRec r e with
  | some x => x.hi
  | none => q32 (tsupRead r + qdiv (((epAt r.caps e).c * r.f (F.SENS_HS_THETA_THETA 0) : Nat) * 65536) 40000)
/-- A summary code in Q32: 1/128 °C from −64 °C. -/
def hotCode (x : Nat) : Int := ((x : Int) - 8192) * 512
/-- The reading used for one hot spot (R111). -/
def hotUsed (r : RowSt) (e : Nat) (h : HotSpot) : Int :=
  let va := h.a != 0xFFFF
  let vb := h.b != 0xFFFF
  let m := if va ∧ vb then max (hotCode h.a) (hotCode h.b) else if va then hotCode h.a else hotCode h.b
  if !va && !vb then hotSubst r e else if h.suspect then max m (hotSubst r e) else m
/-- The highest reading used for a package (R111). DESIGN CHOICE (log 76): a package whose fresh summary says HOTSPOTS = 0 has no reading, and the
substitute is used. -/
def pkgReading (r : RowSt) (tick e : Nat) : Int :=
  let n := (tget {} r.sens.summ e).hot
  if summMissing r.sens e tick ∨ n = 0 then hotSubst r e
  else maxI ((upto n).map (fun h => hotUsed r e (hotAt r.sens e h))) (-2147483648)

/-! ### Ceilings and targets (R195–R197) -/

/-- A field in 0.1 °C as Q32 at binary point 16 (R197; log 80). -/
def tenths (n : Nat) : Int := q32 (qdiv ((n : Int) * 65536) 10)
/-- c + d / THETA rounded down to 0.25 W (R197, R198): d in Q32 °C, THETA in 0.0001 °C/W, the quotient in Q32 W. -/
def capAdj (c : Nat) (d : Int) (theta : Nat) : Int :=
  q32 ((c : Int) * 16384 + q32 (qdiv (d * 10000) ((max 1 theta : Nat) : Int))) / 16384
/-- T_lim in Q32: TRIP − MARGIN, less the SUSPECT step (R197). -/
def capTlim (r : RowSt) (e : Nat) : Int :=
  let step : Int := if pkgSuspect r.sens e then tenths (r.f (F.SENS_HS_STEP 0)) else 0
  q32 (capTrip r.caps e * 65536 - tenths (r.f F.CAPC_THERM_MARGIN) - step)
/-- The new ceiling of an endpoint at a decision tick: R273 under a Haboob, R197, then R279 in flow decline. -/
def capCeil (r : RowSt) (tick e : Nat) : Nat :=
  let c := r.caps
  let x := epAt c e
  let tlim := capTlim r e
  let rd := pkgReading r tick e
  let tf : Int := match advRec r e with
    | some a => max a.hi rd
    | none => q32 (rd + tenths (r.f F.CAPC_THERM_CONS))
  let hyst : Int := tenths (r.f F.CAPC_THERM_HYST)
  let rise := !r.prot.conserv && !r.prot.noRise
  let v :=
    if bitOf c.habRacks (e / 96) then capFloor c e
    else if tlim < tf then max (capFloor c e) (capAdj x.c (tlim - tf) (capTheta c e)).toNat
    else if tf ≤ tlim - hyst ∧ rise then min (capMax c e) (capAdj x.c (tlim - hyst - tf) (capTheta c e)).toNat
    else x.ceil
  if r.prot.flowDecl then max (capFloor c e) (min v (x.c - r.f F.PROT_DECL2_DOWN)) else v
/-- I_e of R195 step 1. -/
def capI (c : CapSt) (e : Nat) : Nat := min (epAt c e).ceil (min (capRack c e) (min (capHost c e) (capMax c e)))
/-- G_k of R195 step 2 for every group, over the configured endpoints. -/
def capGroups (c : CapSt) (eps : List Nat) : Tbl Nat :=
  eps.foldl (fun t e => let g := capGroup c e; if g = 0 then t else tset 0xFFFF t g (min (tget 0xFFFF t g) (capI c e))) []
/-- T_e of R195 and its binding source of R196, before a drop or a Haboob is considered. -/
def capTarget (r : RowSt) (groups : Tbl Nat) (e : Nat) : Nat × Nat :=
  let c := r.caps
  let x := epAt c e
  let g := capGroup c e
  let t1 := if g = 0 then capI c e else tget 0xFFFF groups g
  let t2 := max t1 (capFloor c e)
  let t3 := if x.c < t2 then (let t := min t2 (x.c + r.f F.CAPC_SLEW_UP); if r.prot.conserv then min t x.c else t) else t2
  let b := if t1 < capFloor c e then 7 else if t3 < t2 then 5
    else if t3 = capMax c e then 0 else if t3 = x.ceil then 1 else if t3 = capRack c e then 2
    else if t3 = capHost c e then 3 else 4
  (t3, b)
/-- EMERGENCY binds while a drop or a Haboob frame is in force for the endpoint (R196). -/
def bindNow (c : CapSt) (e b : Nat) : Nat := if (epAt c e).dropped || bitOf c.habRacks (e / 96) then 6 else b
/-- Change an endpoint's binding source, with its event (R196). -/
def setBind (e b : Nat) (r : RowSt) : RowSt :=
  let x := epAt r.caps e
  if x.bind = b then r
  else { r with caps := setEp r.caps e { x with bind := b, bindFrames := 0 } }.ev 4 0x60 e Ev.bindChange (x.bind * 8 + b + 64 * x.bindFrames)

/-- The emission of a drop for an endpoint: C_e falls to it, the drop is in force (R193, R198). -/
def capLower (tick e v : Nat) (r : RowSt) : RowSt :=
  let r := { r with caps := modEp r.caps e (fun x =>
    let w := min v x.c
    { x with c := w, dropped := true, dropTick := tick, since := some (match x.since with | some y => min y w | none => w) }) }
  setBind e 6 r

/-- R198 for one endpoint in P5 of a tick. After its first drop an endpoint is dropped again only to a value below C_e. -/
def capDropOne (tick e : Nat) (r : RowSt) : RowSt :=
  let c := r.caps
  let x := epAt c e
  let rd := pkgReading r tick e
  let d := min x.c (max (capFloor c e) (capAdj x.c (capTlim r e - rd) (capTheta c e)).toNat)
  if rd < capTrip c e * 65536 - tenths (r.f F.CAPC_THERM_EMERG) ∨ (x.hot ∧ ¬ d < x.c) then r
  else
    let g := capGroup c e
    let c := modEp c e (fun x => { x with hot := true })
    let c := { c with drops := c.drops ++ [(e, d)],
                      fd := if g = 0 then c.fd else tset none c.fd g (some (match tget none c.fd g with | some y => min y d | none => d)) }
    (capLower tick e d { r with caps := c }).ev 4 0x60 e Ev.drop d
def capDrops (tick : Nat) (r : RowSt) : RowSt := (capEndpoints r.caps).foldl (fun r e => capDropOne tick e r) r

/-- R200: in tick 7 of a frame the groups with drops follow at the next boundary. -/
def capFollowOut (tick : Nat) (r : RowSt) : RowSt :=
  if tick % 8 ≠ 7 then r
  else
    let c := r.caps
    let fs := (capEndpoints c).filterMap (fun e =>
      match (if capGroup c e = 0 then none else tget none c.fd (capGroup c e)) with
      | some d => let v := max d (capFloor c e); if v < (epAt c e).c then some (e, v) else none
      | none => none)
    { r with caps := { c with fd := [], follows := fs, follow := if fs.isEmpty then c.follow else some (tick + 1, fs) } }
/-- R200: the FOLLOW values take effect at the boundary of the next frame. -/
def capFollowApply (tick : Nat) (r : RowSt) : RowSt :=
  match r.caps.follow with
  | some (t, fs) =>
    if t = tick then fs.foldl (fun r x => capLower tick x.1 x.2 r) { r with caps := { r.caps with follow := none } } else r
  | none => r

/-- Words and the row configuration that wait for a decision tick take effect (R194, R217). An endpoint entering the configuration starts
at HOLD_CAP_e, without a summary (R111). -/
def capLoadWords (r : RowSt) : RowSt :=
  let c := r.caps
  let c := c.next.foldl (fun c x => match x.2 with | some v => capSetWord c (x.1 % 4) (x.1 / 4) v | none => c) { c with next := [] }
  if c.rowDirty then
    let old := c
    let c := { c with rowDirty := false, nrack := min 24 (r.f F.CAPC_ROW_NRACK),
                      nslot := (upto 24).map (fun k => min 96 (r.f (F.CAPC_RACK_NSLOT k))) }
    let entered := (capEndpoints c).filter (fun e => !capConfigured old e)
    { r with caps := entered.foldl (fun c e => setEp c e { c := capHoldCap c e, ceil := capHoldCap c e }) c, sens := entered.foldl (fun t e => summForget e t) r.sens }
  else { r with caps := c }
/-- C_e and CEIL_e at HOLD_CAP_e after a lane boot (R197, R355). -/
def capBoot (c : CapSt) : CapSt :=
  (capEndpoints c).foldl (fun c e => setEp c e { c := capHoldCap c e, ceil := capHoldCap c e }) { c with ep := [] }

/-- The decision tick (R195–R197): new ceilings, targets, binding sources. Answers the row and the endpoints whose T_e differs from C_e
with T_e and the source that will bind. -/
def capDecide (tick : Nat) (r : RowSt) : RowSt × List (Nat × Nat × Nat) :=
  let eps := capEndpoints r.caps
  let ceils := eps.map (fun e => (e, capCeil r tick e))
  let r := { r with caps := ceils.foldl (fun c x => modEp c x.1 (fun y => { y with ceil := x.2 })) r.caps }
  let groups := capGroups r.caps eps
  let ts := eps.map (fun e => (e, capTarget r groups e))
  let staged := ts.filter (fun x => x.2.1 != (epAt r.caps x.1).c)
  let still := ts.filter (fun x => x.2.1 == (epAt r.caps x.1).c)
  let r := still.foldl (fun r x =>
    let y := epAt r.caps x.1
    let r := if y.dropped ∧ y.dropTick < tick then { r with caps := setEp r.caps x.1 { y with dropped := false } } else r
    setBind x.1 (bindNow r.caps x.1 x.2.2) r) r
  let bt := eps.foldl (fun l e => let b := (epAt r.caps e).bind; lset l b ((lget 0 l b + 1) % 2 ^ 64)) r.caps.bindTime
  ({ r with caps := eps.foldl (fun c e => modEp c e (fun y => { y with bindFrames := y.bindFrames + 1 })) { r.caps with bindTime := bt } },
   staged.map (fun x => (x.1, x.2.1, x.2.2)))

/-- The commit of a transaction's cap part (R193): C_e is the lower of T_e and every drop emitted since it was staged in tick `p`. -/
def capCommit (p : Nat) (members binds : Tbl (Option Nat)) (r : RowSt) : RowSt :=
  members.foldl (fun r m =>
    match m.2 with
    | some t =>
      let x := epAt r.caps m.1
      let v := match x.since with | some y => min t y | none => t
      let r := { r with caps := setEp r.caps m.1 { x with c := v, dropped := x.dropped && decide (p < x.dropTick) } }
      match tget none binds m.1 with
      | some b => setBind m.1 (bindNow r.caps m.1 b) r
      | none => r
    | none => r) r
/-- No earlier drop counts towards the transaction being staged (R193). -/
def capSinceClear (c : CapSt) : CapSt := { c with ep := c.ep.foldl (fun t x => tset {} t x.1 { x.2 with since := none }) c.ep }

/-! ### Haboobs and warm floors -/

/-- The Haboob frame of a tick (R206, R273): racks, lowest cause, OFF; C_e falls to FLOOR_e for every endpoint named. -/
def capHaboob (tick racks cause : Nat) (off : Bool) (r : RowSt) : RowSt :=
  let h := (r.caps.hseq + 1) % 2 ^ 32
  let f : HabFrame := ⟨racks, cause, off, h, tick⟩
  let r := { r with caps := { r.caps with hseq := h, haboob := some f, habSent := f :: r.caps.habSent, habRacks := r.caps.habRacks ||| racks } }
  ((capEndpoints r.caps).filter (fun e => bitOf racks (e / 96))).foldl (fun r e =>
    let fl := capFloor r.caps e
    setBind e 6 { r with caps := modEp r.caps e (fun x => { x with c := fl, since := some (match x.since with | some y => min y fl | none => fl) }) }) r
/-- The Haboobs emitted in a tick: each in the tick that decided it and the next two, the newest first (R202; DESIGN CHOICE, log 81: the order). -/
def habEmitted (tick : Nat) (c : CapSt) : List HabFrame := c.habSent.filter (fun h => decide (tick ≤ h.tick + 2))

/-- Idleness of one endpoint (R201). -/
def capIdleOne (tick : Nat) (tsup : Int) (e : Nat) (r : RowSt) : RowSt :=
  let x := epAt r.caps e
  let rd := pkgReading r tick e
  let below := decide (rd < q32 (tsup + tenths (r.f F.CAPC_WARM2_IDLE_DT)))
  let x := { x with idleRun := runNext below x.idleRun, idle := below && x.idle }
  let x := if r.f F.CAPC_WARM_DWELL * 8192 ≤ x.idleRun then { x with idle := true } else x
  let set : Int := (r.f F.CAPC_WARM_SET : Int) * 65536
  let on := if rd < set then true else if set + (r.f F.CAPC_WARM_HYST : Int) * 65536 ≤ rd then false else x.warmOn
  { r with caps := setEp r.caps e { x with warmOn := on } }
/-- WARM of an endpoint's record (R201). -/
def capWarm (r : RowSt) (e : Nat) : Nat :=
  let x := epAt r.caps e
  if r.f F.CAPC_WARM_EN = 1 ∧ x.idle ∧ x.warmOn ∧ capWarmOk r.caps e ∧ ¬ x.dropped ∧ ¬ bitOf r.caps.habRacks (e / 96) ∧ ¬ x.off ∧
      ¬ bitOf r.prot.roff (e / 96) then min (r.f F.CAPC_WARM2_FLOOR) x.c else 0
/-- Racks all of whose packages are idle, while CAPC_WARM.EN is 1. -/
def capIdleRacks (r : RowSt) : Nat :=
  if r.f F.CAPC_WARM_EN = 1 then
    nsum ((upto r.caps.nrack).map (fun k =>
      if (upto (lget 0 r.caps.nslot k)).all (fun n => (epAt r.caps (96 * k + n)).idle) ∧ 0 < lget 0 r.caps.nslot k then 2 ^ k else 0))
  else 0
def capIdle (tick : Nat) (r : RowSt) : RowSt :=
  let r := (capEndpoints r.caps).foldl (fun r e => capIdleOne tick (tsupRead r) e r) r
  { r with caps := { r.caps with trimRacks := capIdleRacks r } }
/-- IDLE_DWELL: an endpoint whose run below TSUP + IDLE_DT has reached DWELL seconds is idle. -/
def idleDwell (e : Nat) (r : RowSt) : RowSt :=
  let x := epAt r.caps e
  if capConfigured r.caps e ∧ r.f F.CAPC_WARM_DWELL * 8192 ≤ x.idleRun then { r with caps := setEp r.caps e { x with idle := true } } else r

/-! ### Package shutdown (R286) -/

/-- OFF of one endpoint after this tick's drops. -/
def pkgOffOne (tick e : Nat) (r : RowSt) : RowSt :=
  let x := epAt r.caps e
  let rd := pkgReading r tick e
  let trip := capTrip r.caps e
  if x.off then
    let n := runNext (decide (rd < trip * 65536 - tenths (r.f F.CAPC_THERM_MARGIN))) x.coolRun
    if 8192 ≤ n then { r with caps := setEp r.caps e { x with off := false, tripRun := 0, coolRun := 0 } }.ev 4 0x60 e Ev.pkgOffEnd 0
    else { r with caps := setEp r.caps e { x with coolRun := n } }
  else
    let n := runNext (decide (trip * 65536 ≤ rd) && x.c == capFloor r.caps e) x.tripRun
    if 8 ≤ n then ({ r with caps := setEp r.caps e { x with off := true, tripRun := n, coolRun := 0 } }.ev 4 0x60 e Ev.pkgOff 0).irq 0x18 9
    else { r with caps := setEp r.caps e { x with tripRun := n } }
def pkgOffTick (tick : Nat) (r : RowSt) : RowSt := (capEndpoints r.caps).foldl (fun r e => pkgOffOne tick e r) r
/-- PACKAGE_OFF and PACKAGE_OFF_CLEAR as the runs stand. -/
def pkgOffSet (e : Nat) (r : RowSt) : RowSt :=
  let x := epAt r.caps e
  if !x.off && decide (8 ≤ x.tripRun) then ({ r with caps := setEp r.caps e { x with off := true, coolRun := 0 } }.ev 4 0x60 e Ev.pkgOff 0).irq 0x18 9 else r
def pkgOffClear (e : Nat) (r : RowSt) : RowSt :=
  let x := epAt r.caps e
  if x.off && decide (8192 ≤ x.coolRun) then { r with caps := setEp r.caps e { x with off := false, tripRun := 0, coolRun := 0 } }.ev 4 0x60 e Ev.pkgOffEnd 0 else r

end Sys2Proof.Machine
end

