-- ==== Sys2Proof/Machine/Slip.lean ====
section
/-! DEFINITION. Slipface in a lane (R219–R230): host requests, staging, acknowledgements, outcome, abort, commit, SPLIT. -/
namespace Sys2Proof.Machine
open Sys2Proof

/-! ### Pages with RWS fields -/

/-- A page in lane A's numbering. -/
def foldPage (p : Nat) : Nat := if 0x20 ≤ p ∧ p < 0x30 then p - 0x10 else p
/-- Live offsets of the RWS words of a page (R36). -/
def rwsOffs (p : Nat) : List Nat :=
  if 0x14 ≤ p ∧ p ≤ 0x17 then (upto 32).map (fun i => 0x100 + 4 * i)
  else if 0x30 ≤ p ∧ p ≤ 0x3B then (upto 12).map (fun i => 0x120 + 16 * (i / 3) + 4 * (i % 3))
  else []
/-- Pages homed in Playa: the valve banks. -/
def playaPage (p : Nat) : Bool := decide (0x30 ≤ p ∧ p ≤ 0x3B)
def wordAt (rf : RegFile) (p o : Nat) : Nat := (rget rf (p * 0x1000 + o)).toNat
def setWordAt (rf : RegFile) (p o v : Nat) : RegFile := rset rf (p * 0x1000 + o) (BitVec.ofNat 32 v)

/-! ### The transaction -/

/-- The pending transaction: prepared or with COMMIT decided. -/
def slipPending (s : SlipSt) : Option Txn :=
  match s.cur with
  | some t => if t.phase = 1 ∨ t.phase = 2 then some t else none
  | none => none
/-- Members not acknowledged, in ascending order. -/
def txnMissing (t : Txn) : List Nat := (t.members.filter (fun m => !tget false t.acked m.1)).map (fun m => m.1)
/-- The actuator part as it stands: the RWS words of the named Playa pages from the shadow copies (R37), and the other items. -/
def txnItems (rf : RegFile) (t : Txn) : List ActItem :=
  ((t.pages.filter playaPage).map (fun p => (rwsOffs p).map (fun o => (⟨4, p, o, wordAt rf p (o + 0x700)⟩ : ActItem)))).flatten ++
    t.items.filter (fun i => !(i.kind == 4 && t.pages.contains i.page))
/-- Boundary A of R220. -/
def slipBoundary (tick : Nat) : Nat := (tick + 6 + 7) / 8 * 8
/-- The items that restate a chip (R229): the duties of its pumps and fans, and its live RWS words. -/
def restateItems (r : RowSt) (chip : Nat) : List ActItem :=
  (upto 2).map (fun i => (⟨2, 0, 2 * chip + i, lget 0 r.act.pumpF (2 * chip + i) % 16384⟩ : ActItem)) ++
  (upto 24).map (fun i => (⟨3, 0, 24 * chip + i, lget 0 r.act.fanF (24 * chip + i) % 16384⟩ : ActItem)) ++
  ((upto 6).map (fun b => (rwsOffs (0x30 + 6 * chip + b)).map (fun o =>
    (⟨4, 0x30 + 6 * chip + b, o, wordAt r.regs (0x30 + 6 * chip + b) o⟩ : ActItem)))).flatten

/-- The first cause of the table of R225 that applies: members unacknowledged in tick A−2 come before every cause that arises in it. -/
def slipCause (tick cause : Nat) (t : Txn) : Nat :=
  let miss := txnMissing t
  if t.phase = 1 ∧ tick + 2 = t.a ∧ !miss.isEmpty then (if miss.all (fun e => tget false t.mism e) then 2 else 1) else cause
/-- Abort the pending transaction with a cause (R225, R226). A superseded one hands its swap and restatement on. -/
def slipAbort (tick cause : Nat) (r : RowSt) : RowSt :=
  match slipPending r.slip with
  | none => r
  | some t =>
    let cause := slipCause tick cause t
    let miss := txnMissing t
    let t := { t with phase := 3, cause := cause, abortTick := tick, nmiss := min 0xFFFF miss.length, first := miss.head?.getD 0xFFFF }
    let s := { r.slip with cur := some t, aborted := r.slip.aborted ++ [t], aborts := (r.slip.aborts + 1) % 2 ^ 32, lastOut := 2,
                           cause := cause, hres := if t.host then 3 else r.slip.hres }
    let r := { r with slip := s }
    let redo := if cause = 4 ∧ ¬ (t.pages.isEmpty ∧ t.swap = false) then some (t.pages, t.swap, t.host) else r.slip.redo
    let r := if cause = 6 then r
      else { r with slip := { r.slip with splitChips := (r.slip.splitChips.filter (fun c => !t.restate.contains c)) ++ t.restate, redo := redo },
                    loops := if t.swap then { r.loops with txnSwap := false } else r.loops }
    r

/-- Whether the request waiting fits beside the items of a restatement (R221: at most 128). -/
def hreqFits (pages : List Nat) (n : Nat) : Bool := decide (12 * (pages.filter playaPage).length + n ≤ 128)

/-- The pages, the swap and the host request of a decision tick (R221, R230): what an abort for a protective action left, then the request that
waits, if it fits beside `used` items. A request whose swap is refused is not staged. -/
def slipRequest (used : Nat) (decision : Bool) (r : RowSt) : (List Nat × Bool × Bool) × RowSt :=
  if !decision then (([], false, false), r)
  else
    let bad := !r.loops.checked || bankArmed r.loops
    let refused := fun (w : Bool) => w && bad
    let a := match r.slip.redo with
      | some (p, w, h) => if refused w then ([], false, false) else (p, w, h)
      | none => ([], false, false)
    let r := match r.slip.redo with
      | some (_, w, h) => { r with slip := { r.slip with redo := none, hres := if refused w && h then 8 else r.slip.hres } }
      | none => r
    match r.slip.hreq with
    | some (p, w) =>
      let new := p.filter (fun q => !a.1.contains q)
      if !hreqFits (new ++ a.1) used then (a, r)
      else if w && (bad || a.2.1) then (a, { r with slip := { r.slip with hreq := none, hres := 8 } })
      else ((new ++ a.1, w || a.2.1, true), { r with slip := { r.slip with hreq := none } })
    | none => (a, r)

/-- Stage a transaction in P5 of a tick (R219–R221): the cap targets, and in a decision tick a chip to restate and the host request waiting.
`seq` is the tick's SEQ. A chip's restatement takes 98 of the 128 items, so that a decision tick stages one (R229). -/
def slipStage (tick seq : Nat) (decision : Bool) (staged : List (Nat × Nat × Nat)) (r : RowSt) : RowSt :=
  if r.prot.hTick.isSome || r.prot.quiet then r
  else
    let old := match slipPending r.slip with | some t => if t.p < tick then some t else none | none => none
    let oldPages := match old with | some t => t.pages | none => []
    let oldItems := match old with | some t => t.items | none => []
    let oldChips := match old with | some t => t.restate | none => []
    let chips := if decision && oldChips.isEmpty then r.slip.splitChips.take 1 else []
    let rest := (chips.map (restateItems r)).flatten
    let (req, r) := slipRequest (rest.length + oldItems.length + 12 * (oldPages.filter playaPage).length) decision r
    let pages := req.1 ++ oldPages.filter (fun p => !req.1.contains p)
    let items := rest ++ oldItems.filter (fun i => !rest.any (fun j => j.kind == i.kind && j.page == i.page && j.chan == i.chan))
    let chips' := chips ++ oldChips.filter (fun c => !chips.contains c)
    let swap := req.2.1 || (match old with | some t => t.swap | none => false)
    let host := req.2.2 || (match old with | some t => t.host | none => false)
    if staged.isEmpty && req.1.isEmpty && rest.isEmpty && !req.2.1 && !(decision && old.isSome) then r
    else if staged.isEmpty && pages.isEmpty && items.isEmpty && !swap then slipAbort tick 6 r
    else
      let r := if old.isSome then slipAbort tick 6 r else r
      let e := (r.slip.lastEpoch + 1) % 2 ^ 32
      let e := if e = 0 then 1 else e
      let a := slipBoundary tick
      let t : Txn :=
        { epoch := e, p := tick, a := a, aseq := (seq + (a - tick)) % 2 ^ 32,
          members := staged.foldl (fun m x => tset none m x.1 (some x.2.1)) [],
          binds := staged.foldl (fun m x => tset none m x.1 (some x.2.2)) [],
          items := items, pages := pages, swap := swap, host := host, restate := chips', acked := [], mism := [], phase := 1,
          cause := 0, abortTick := 0, nmiss := 0, first := 0xFFFF }
      { r with slip := { r.slip with cur := some t, lastEpoch := e, recent := ((e, a) :: r.slip.recent).take 16, firstMiss := 0xFFF,
                                     hres := if host then 1 else r.slip.hres, hepoch := if host then e else r.slip.hepoch,
                                     splitChips := r.slip.splitChips.filter (fun c => !chips'.contains c) },
               loops := if swap then { r.loops with txnSwap := true } else r.loops,
               caps := capSinceClear r.caps }

/-! ### Acknowledgements and outcome -/

/-- Latch one ACK in P1 (R224). -/
def slipAck (s : SlipSt) (x : Nat × Nat × Nat × Nat) : SlipSt :=
  let (ep, epoch, cap, t) := x
  match s.recent.filter (fun y => y.1 == epoch) with
  | [] => s
  | (_, a) :: _ =>
    if a - 2 ≤ t then { s with late := satAdd 0xFFFF s.late 1 }
    else
      match s.cur with
      | some u =>
        if u.epoch = epoch ∧ u.phase = 1 then
          match tget none u.members ep with
          | some v =>
            if v = cap then { s with cur := some { u with acked := tset false u.acked ep true } }
            else { s with cur := some { u with mism := tset false u.mism ep true } }
          | none => s
        else s
      | none => s
def slipLatch (s : SlipSt) : SlipSt := s.acks.foldl slipAck { s with acks := [] }
/-- The acknowledgement timer in P2 of tick A−2 (R224). -/
def slipDeadline (tick : Nat) (s : SlipSt) : SlipSt :=
  match s.cur with
  | some t => if t.phase = 1 ∧ tick + 2 = t.a then { s with firstMiss := (txnMissing t).head?.getD 0xFFF } else s
  | none => s
/-- The outcome in P5 of tick A−2 (R225); a host ABORT of that tick waits for it. -/
def slipOutcome (tick : Nat) (r : RowSt) : RowSt :=
  match r.slip.cur with
  | some t =>
    if t.phase = 1 ∧ tick + 2 = t.a then
      if (txnMissing t).isEmpty && t.cause == 0 then { r with slip := { r.slip with cur := some { t with phase := 2 } } }
      else slipAbort tick t.cause r
    else r
  | none => r
/-- Whether a LOOP_OUT message commands an item: its own pump or fan channel, or a channel of its group (R124, R230). -/
def outItem (m : LoopOutMsg) (i : ActItem) : Bool :=
  (i.kind == 2 && m.destType == 1 && m.dest == i.chan) ||
    (i.kind == 3 && ((m.destType == 2 && m.dest == i.chan) || (m.destType == 3 && m.dest == i.chan / 16)))
/-- R230: a protective action or a loop output that commands an item of the actuator part aborts the transaction. -/
def slipProtect (tick : Nat) (valves : List Nat) (standby : Option Nat) (outs : List LoopOutMsg) (r : RowSt) : RowSt :=
  match slipPending r.slip with
  | some t =>
    if (txnItems r.regs t).any (fun i => (i.kind == 1 && valves.contains i.chan) || (i.kind == 2 && standby == some i.chan) || outs.any (fun m => outItem m i)) then
      slipAbort tick 4 r
    else r
  | none => r

/-! ### Commit (R229) -/

/-- Copy the shadow words of the named pages to the live copies and write PG_TXN_EPOCH. -/
def rwsCommit (pages : List Nat) (epoch : Nat) (rf : RegFile) : RegFile :=
  pages.foldl (fun rf p =>
    rset ((rwsOffs p).foldl (fun rf o => setWordAt rf p o (wordAt rf p (o + 0x700))) rf) (hdrEpoch p) (BitVec.ofNat 32 epoch)) rf
/-- Restated register items write the live copies too. -/
def itemsCommit (items : List ActItem) (epoch : Nat) (rf : RegFile) : RegFile :=
  items.foldl (fun rf i =>
    if i.kind = 4 then rset (setWordAt rf i.page i.chan i.value) (hdrEpoch i.page) (BitVec.ofNat 32 epoch) else rf) rf
/-- P0 of a tick: a committed transaction's lane part at boundary A, its swap while CHECKED is 1 (R130); aborted transactions end at theirs. -/
def slipP0 (tick : Nat) (r : RowSt) : RowSt :=
  let ended := r.slip.aborted.filter (fun t => t.a == tick)
  let s := { r.slip with aborted := r.slip.aborted.filter (fun t => decide (tick < t.a)),
                         lastA := if ended.isEmpty then r.slip.lastA else some (tick, 0) }
  let s := match s.cur with
    | some t => if t.phase = 3 ∧ t.a ≤ tick then { s with cur := some { t with phase := 0 } } else s
    | none => s
  let r := { r with slip := s }
  match s.cur with
  | some t =>
    if t.phase = 2 ∧ t.a = tick then
      let r := capCommit t.p t.members t.binds r
      let rf := itemsCommit (t.items.filter (fun i => !t.pages.contains i.page)) t.epoch (rwsCommit t.pages t.epoch r.regs)
      let r := { r with regs := rf,
                        slip := { r.slip with cur := some { t with phase := 0 }, epochNow := t.epoch, lastA := some (tick, t.epoch),
                                              commits := (r.slip.commits + 1) % 2 ^ 32, lastOut := 1,
                                              hres := if t.host then 2 else r.slip.hres,
                                              split := r.slip.split && (t.restate.isEmpty || !r.slip.splitChips.isEmpty) } }
      if !t.swap then r
      else if r.loops.checked then { r with loops := bankSwap { r.loops with txnSwap := false } }.ev 1 0x13 0xFFFF Ev.bankSwap 0
      else { r with loops := { r.loops with txnSwap := false } }.ev 1 0x13 0xFFFF Ev.swapDropped t.epoch
    else r
  | none => r
/-- P3 of tick A+1: compare a chip's reported epoch with the lane's own outcome (R229). -/
def slipSplit (tick chip epoch : Nat) (r : RowSt) : RowSt :=
  match r.slip.lastA with
  | some (a, e) =>
    if a + 1 = tick ∧ epoch ≠ e then
      { r with slip := { r.slip with split := true, splits := (r.slip.splits + 1) % 2 ^ 32,
                                     splitChips := r.slip.splitChips.filter (fun c => c != chip) ++ [chip] } }.ev 2 0x61 chip Ev.slipSplit e
    else r
  | none => r
/-- The Slipface section of the tick's actuator frame (R228): OP, APPLY_SEQ16, EPOCH, items. -/
def slipSection (tick : Nat) (r : RowSt) : Nat × Nat × Nat × List ActItem :=
  match slipPending r.slip with
  | some t => if t.phase = 2 then (2, t.aseq % 65536, t.epoch, txnItems r.regs t) else (1, t.aseq % 65536, t.epoch, [])
  | none =>
    match r.slip.aborted.reverse.filter (fun t => decide (t.abortTick ≤ tick ∧ tick < t.a)) with
    | t :: _ => (3, t.aseq % 65536, t.epoch, [])
    | [] => (0, 0, 0, [])
/-- The ABORT frames of the tick (R226). -/
def slipAborts (tick : Nat) (s : SlipSt) : List AbortFrame :=
  (s.aborted.filter (fun t => decide (t.abortTick ≤ tick ∧ tick < t.a))).map (fun t => ⟨t.epoch, t.aseq, t.cause, t.nmiss, t.first⟩)

/-! ### Host requests (R221) -/

/-- The pages named by SLIP_HREQ_PAGES, each once. -/
def hreqPages (rf : RegFile) : List Nat :=
  let w := (upto 8).map (fun i => bitsOf (rget rf (if i < 4 then 0x61120 else 0x61124)).toNat (8 * (i % 4)) 8)
  (w.filter (fun p => p != 0)).foldl (fun l p => if l.contains (foldPage p) then l else l ++ [foldPage p]) []
/-- SUBMIT. -/
def slipSubmit (swap : Bool) (r : RowSt) : RowSt :=
  let pages := hreqPages r.regs
  let res := if r.slip.hreq.isSome then 5
    else if (pages.isEmpty && !swap) || pages.any (fun p => (rwsOffs p).isEmpty) then 4
    else if !hreqFits pages 0 then 6 else 0
  { r with slip := { r.slip with hres := res, hreq := if res = 0 then some (pages, swap) else r.slip.hreq } }
/-- WITHDRAW. -/
def slipWithdraw (r : RowSt) : RowSt :=
  if r.slip.hreq.isSome then { r with slip := { r.slip with hreq := none, hres := 9 } } else { r with slip := { r.slip with hres := 7 } }
/-- ABORT applied in a tick: the pending transaction aborts with cause 05h up to tick A−2, in that tick in the outcome of its P5. -/
def slipOperator (tick : Nat) (r : RowSt) : RowSt :=
  match slipPending r.slip with
  | some t =>
    if tick + 2 = t.a ∧ t.phase = 1 then { r with slip := { r.slip with cur := some { t with cause := 5 }, hres := 3 } }
    else if tick + 2 ≤ t.a then let r := slipAbort tick 5 r; { r with slip := { r.slip with hres := 3 } }
    else { r with slip := { r.slip with hres := 7 } }
  | none => { r with slip := { r.slip with hres := 7 } }

end Sys2Proof.Machine
end

