-- ==== Sys2Proof/Machine/Playa.lean ====
section
/-! DEFINITION. The Playa chips: valve channels and banks (R234–R248, R252), fans (R255–R263, R270), pumps (R258, R265–R268), the
choice of a frame and the commit of the actuator part (R80, R228). -/
namespace Sys2Proof.Machine
open Sys2Proof

/-- The registers of the lane-owned pages as the lane with the higher claim holds them. -/
def State.leadRegs (s : State) : RegFile := (s.lane s.lead).row.regs
/-- The calibration set in force. -/
def State.leadCal (s : State) : CalSt := (s.lane s.lead).cal

/-! ### Valve commands (R240–R245) -/

def valTarget (v : Nat) : Nat := v % 4
def valStrong (v : Nat) : Bool := bitOf v 2
def valProt (v : Nat) : Bool := bitOf v 3
def valId (v : Nat) : Nat := bitsOf v 8 8
/-- The value word of R240. -/
def valWord (tgt : Nat) (strong prot : Bool) (id : Nat) : Nat := tgt % 4 + 4 * b2n strong + 8 * b2n prot + 256 * (id % 256)
/-- The profile a channel's command uses (R235). -/
def valProfile (k v : Nat) : Nat := 2 * valveClass (k % 8) + b2n (valStrong v)
/-- Record 06h of a channel: PEAK_TRIM, HOLD_TRIM, DET_TH, TTP_MIN, TTP_MAX (R236). -/
def vPeakTrim (c : CalSt) (k : Nat) : Int := sx 8 (bitsOf (calEntry c 6 k 0) 0 8)
def vHoldTrim (c : CalSt) (k : Nat) : Int := sx 8 (bitsOf (calEntry c 6 k 0) 8 8)
def vDetTh (c : CalSt) (k : Nat) : Nat := bitsOf (calEntry c 6 k 0) 16 8
def vTtpMin (c : CalSt) (k : Nat) : Nat := bitsOf (calEntry c 6 k 1) 0 16
def vTtpMax (c : CalSt) (k : Nat) : Nat := bitsOf (calEntry c 6 k 1) 16 16
/-- A field of a bank's profile p as the chip holds it. -/
def profFld (s : State) (b : Nat) (f : Fld) : Nat := fget (s.chip (b / 6)).live f
/-- The effective hold of a command, 10 mA (R235). -/
def effHold (s : State) (k v : Nat) : Nat :=
  (clampI 50 150 ((profFld s (k / 8) (F.VBANK_PROF_B_HOLD_I (k / 8) (valProfile k v)) : Int) + vHoldTrim (s.leadCal) k)).toNat
/-- The effective peak of a command, 10 mA (R235). -/
def effPeak (s : State) (k v : Nat) : Nat :=
  (clampI 100 400 ((profFld s (k / 8) (F.VBANK_PROF_B_PEAK_I (k / 8) (valProfile k v)) : Int) + vPeakTrim (s.leadCal) k)).toNat
/-- The holds of a bank's channels in HOLD (R243). -/
def holdSum (s : State) (b : Nat) : Nat :=
  nsum ((upto 8).map (fun n => let x := s.vch (8 * b + n); if x.phase = 3 then x.holdI else 0))
/-- A channel of the bank in BOOST or PEAK. -/
def bankActive (s : State) (b : Nat) : Option Nat :=
  ((upto 8).filter (fun n => let p := (s.vch (8 * b + n)).phase; p == 1 || p == 2)).head?
/-- The rail is boost-ready (R238). BOOST_MIN is in 0.5 V, the rail in 0.1 V. -/
def bankReady (s : State) (b : Nat) : Bool := decide (5 * fget s.leadRegs (F.VBANK_RAIL_CFG_BOOST_MIN b) ≤ (s.bank b).rail)

/-- Join the queue: a protective command behind the waiting protective ones, ahead of the others (R244). -/
def bankJoin (b n : Nat) (prot : Bool) (s : State) : State :=
  let x := s.bank b
  let isP := fun m => valProt (s.vch (8 * b + m)).value
  let q := if prot then x.queue.filter isP ++ [n] ++ x.queue.filter (fun m => !isP m) else x.queue ++ [n]
  s.setBank b { x with queue := q }
def bankLeave (b n : Nat) (s : State) : State := s.setBank b { s.bank b with queue := (s.bank b).queue.filter (fun m => m != n) }

/-- Case 4 to 6 of R242 for a command that acts. -/
def valveAct (chEn : Bool) (k v : Nat) (s : State) : State :=
  let b := k / 8
  let n := k % 8
  let x := s.vch k
  if x.phase ≠ 0 then
    let s := s.setVch k { x with ignId := valId v }
    s.setBank b { s.bank b with ignored := satAdd 0xFFFF (s.bank b).ignored 1 }
  else if x.wait then
    if valTarget v = 0 then bankLeave b n (s.setVch k { x with cmdId := valId v, value := v, wait := false, result := 13 })
    else s.setVch k { x with cmdId := valId v, value := v, result := 1 }
  else
    let x := { x with cmdId := valId v, value := v }
    let blk := blkGet s (0x30 + b)
    if valTarget v = 0 then s.setVch k { x with result := 0 }
    else if !chEn || blk.state != .run || blk.safe then s.setVch k { x with result := 9 }
    else if x.fault then s.setVch k { x with result := 10 }
    else if x.pos = 0 then s.setVch k { x with result := 8 }
    else if valTarget v = x.pos then s.setVch k { x with result := 5 }
    else bankJoin b n (valProt v) (s.setVch k { x with result := 1, wait := true })

/-- R242 for one item of the chosen frame; `confirmed` when it is part of a committed actuator part. -/
def valveItem (claim seq : Nat) (merged : Bool) (chEn confirmed : Bool) (k v : Nat) (s : State) : State :=
  let x := s.vch k
  if valTarget v = 3 then s.err (0x30 + k / 8) 0x80
  else if valId v = x.cmdId ∨ valId v = x.ignId then s
  else if valveClass (k % 8) = 0 ∧ ¬ confirmed then
    let new : Cand := ⟨v, claim, merged, seq⟩
    match x.cand with
    | none => s.setVch k { x with cand := some new }
    | some c =>
      if valId c.value ≠ valId v then s.setVch k { x with cand := some new }
      else if seq = (c.seq + 1) % 2 ^ 32 ∧ valTarget c.value = valTarget v ∧ valStrong c.value = valStrong v ∧
          (c.claim = claim ∨ (c.merged ∧ merged)) then valveAct chEn k v (s.setVch k { x with cand := none })
      else s.setVch k { x with cand := some new }
  else valveAct chEn k v s

/-- Candidates that the frame just chosen does not confirm are dropped (R242). -/
def candDrop (chip : Nat) (chosen : Option (Nat × List (Nat × Nat))) (s : State) : State :=
  (upto 48).foldl (fun s i =>
    let k := 48 * chip + i
    let x := s.vch k
    match x.cand with
    | none => s
    | some c =>
      let keep : Bool := match chosen with
        | some (seq, items) => decide (seq = c.seq) || (decide (seq = (c.seq + 1) % 2 ^ 32) && items.any (fun it => it.1 == k && valId it.2 == valId c.value))
        | none => false
      if keep then s else s.setVch k { x with cand := none }) s

/-- End HOLDs for a protective command until the sum leaves room (R243): first channels whose command has PROT = 0, then PROT = 1, the
HOLD that began earliest first. -/
def holdPreempt (b need : Nat) : Nat → State → State
  | 0, s => s
  | f + 1, s =>
    if holdSum s b + need < 400 then s
    else
      let hs := (upto 8).filter (fun n => (s.vch (8 * b + n)).phase == 3)
      let pick := fun (l : List Nat) => l.foldl (fun (m : Option Nat) n =>
        match m with
        | some j => if (s.vch (8 * b + n)).holdSeq < (s.vch (8 * b + j)).holdSeq then some n else some j
        | none => some n) none
      let cand := match pick (hs.filter (fun n => !valProt (s.vch (8 * b + n)).value)) with
        | some n => some n
        | none => pick hs
      match cand with
      | some n =>
        let x := s.vch (8 * b + n)
        holdPreempt b need f (s.setVch (8 * b + n) { x with phase := 0, diag := x.diag ||| 8 })
      | none => s
/-- PROFILE_START (R243): the head of the queue starts when its conditions hold; the profile keeps the register values of this cycle (R235). -/
def profileStart (b : Nat) (s : State) : State :=
  match (s.bank b).queue with
  | [] => s
  | n :: _ =>
    let k := 8 * b + n
    let v := (s.vch k).value
    let need := effHold s k v
    let blk := blkGet s (0x30 + b)
    if (bankActive s b).isSome ∨ ¬ bankReady s b ∨ blk.state ≠ .run ∨ blk.safe then s
    else
      let s := if valProt v then holdPreempt b need 8 s else s
      if holdSum s b + need < 400 then
        let x := s.vch k
        let p := valProfile k v
        bankLeave b n (s.setVch k { x with wait := false, phase := 1, result := 2, diag := 0, ttp := 0xFF, verdict := none, profile := p,
                                           boostI := profFld s b (F.VBANK_PROF_A_BOOST_I b p), boostT := profFld s b (F.VBANK_PROF_A_BOOST_T b p),
                                           peakI := effPeak s k v, peakT := profFld s b (F.VBANK_PROF_C_PEAK_T b p), holdI := need,
                                           holdT := profFld s b (F.VBANK_PROF_C_HOLD_T b p) })
      else s
/-- COMMAND_WAIT_TIMEOUT (R244): the head of the queue is evaluated first; a command that starts in this cycle has started. -/
def waitTimeout (k : Nat) (s : State) : State :=
  let b := k / 8
  let s := profileStart b s
  let x := s.vch k
  if x.wait then
    let free := (bankActive s b).isNone && (decide (holdSum s b + effHold s k x.value < 400) || valProt x.value)
    let res := if free && !bankReady s b then 7 else 6
    let s := bankLeave b (k % 8) (s.setVch k { x with wait := false, result := res })
    let y := s.bank b
    (s.setBank b { y with refused := satAdd 0xFFFF y.refused 1, refCh := k % 8, refCause := res, refTick := s.time.count % 2 ^ 24 }).irq (0x30 + b) 8
  else s

/-! ### A running profile (R234, R237, R246–R248) -/

/-- A check of R237 switches a channel off into FAULT. -/
def vchFault (k res : Nat) (s : State) : State :=
  let x := s.vch k
  let pos := x.pos
  (s.setVch k { x with phase := 0, fault := true, result := res, pos := pos }).irq (0x30 + k / 8) 9
/-- The verdict NO_MOVE (R248). -/
def vchNoMove (k : Nat) (s : State) : State :=
  (s.setVch k { s.vch k with verdict := some false, result := 4 }).irq (0x30 + k / 8) 10
/-- BOOST_END: the time-to-peak in TU, or none when BOOST_T ended BOOST; the latched BOOST_T ends it before any later peak (R234). -/
def boostEnd (k : Nat) (ttp : Option Nat) (s : State) : State :=
  let x := s.vch k
  if x.phase ≠ 1 then s
  else
    match ttp.filter (fun t => decide (t ≤ x.boostT)) with
    | some t =>
      let s := s.setVch k { x with ttp := t }
      if t < vTtpMin s.leadCal k then vchFault k 12 s
      else
        let s := s.setVch k { s.vch k with phase := 2, diag := (s.vch k).diag ||| (if vTtpMax s.leadCal k < t then 1 else 0) }
        if valveClass (k % 8) = 0 ∧ x.verdict = none then vchNoMove k s else s
    | none =>
      let s := s.setVch k { x with ttp := 0xFF, phase := 2, diag := x.diag ||| 2 }
      if valveClass (k % 8) = 0 ∧ x.verdict = none then vchNoMove k s else s
/-- PEAK_END: HOLD begins; a class T channel without a verdict reports NO_MOVE. -/
def peakEnd (k : Nat) (s : State) : State :=
  let x := s.vch k
  if x.phase ≠ 2 then s
  else
    let b := k / 8
    let y := s.bank b
    let s := (s.setVch k { x with phase := 3, holdSeq := y.holdNext }).setBank b { y with holdNext := y.holdNext + 1 }
    if x.verdict = none then vchNoMove k s else s
def holdEnd (k : Nat) (s : State) : State := if (s.vch k).phase = 3 then s.setVch k { s.vch k with phase := 0 } else s
/-- PROFILE_CUT: 250 ms after its start (R234, R248). -/
def profileCut (k : Nat) (s : State) : State :=
  if (s.vch k).phase = 0 then s
  else
    let s := s.setVch k (vchCut true (s.vch k))
    if (s.vch k).pos = 0 then s.irq (0x30 + k / 8) 11 else s
/-- Whether a detection sample shows movement (R246, R247). -/
def detMoved (th k : Nat) : DetSample → Bool
  | .dip m smp => valveClass (k % 8) == 0 && decide (50 ≤ m ∧ th ≤ m - smp)
  | .kink i v0 v1 v2 => valveClass (k % 8) == 1 && decide (2 ≤ i ∧ th ≤ (v2 - 2 * v1 + v0).natAbs)
/-- MOVE_VERDICT (R246–R248): MOVED toggles the position. -/
def moveVerdict (k : Nat) (d : DetSample) (t : Nat) (s : State) : State :=
  let x := s.vch k
  let inPhase := if valveClass (k % 8) = 0 then x.phase == 1 else x.phase == 2
  if inPhase && x.verdict.isNone && detMoved (vDetTh s.leadCal k) k d then
    s.setVch k { x with verdict := some true, result := 3, moveT := t, strokes := satAdd 0xFFFFFFFF x.strokes 1,
                        pos := if x.pos = 1 then 2 else if x.pos = 2 then 1 else 0 }
  else s
def railSet (b rail : Nat) (s : State) : State := s.setBank b { s.bank b with rail := rail }

def execProfileStart (bank : Fin 12) (rail : BitVec 10) (s : State) : Host.Outcome State Fault Refusal :=
  .next (profileStart bank.val (railSet bank.val rail.toNat s))
def execBoostEnd (ch : Fin 96) (ttp : Option (BitVec 8)) (s : State) : Host.Outcome State Fault Refusal :=
  .next (boostEnd ch.val (ttp.map (·.toNat)) s)
def execPeakEnd (ch : Fin 96) (s : State) : Host.Outcome State Fault Refusal := .next (peakEnd ch.val s)
def execHoldEnd (ch : Fin 96) (s : State) : Host.Outcome State Fault Refusal := .next (holdEnd ch.val s)
def execProfileCut (ch : Fin 96) (s : State) : Host.Outcome State Fault Refusal := .next (profileCut ch.val s)
/-- OPEN_COIL: the current at 6 TU after BOOST starts, 10 mA. -/
def execOpenCoil (ch : Fin 96) (cur : BitVec 12) (s : State) : Host.Outcome State Fault Refusal :=
  .next (if (s.vch ch.val).phase = 1 ∧ cur.toNat < 20 then vchFault ch.val 11 s else s)
/-- CHANNEL_OVERCURRENT: the current held for 32 consecutive sequencer cycles, 10 mA. -/
def execChannelOvercurrent (ch : Fin 96) (cur : BitVec 12) (s : State) : Host.Outcome State Fault Refusal :=
  .next (if (s.vch ch.val).phase ≠ 0 ∧ 750 < cur.toNat then vchFault ch.val 12 s else s)
def execSwitchOvercurrent (bank : Fin 12) (cur : BitVec 12) (s : State) : Host.Outcome State Fault Refusal :=
  .next (if 1000 < cur.toNat then blockFault (0x30 + bank.val) s else s)
def execRailOvervoltage (bank : Fin 12) (rail : BitVec 10) (s : State) : Host.Outcome State Fault Refusal :=
  .next (if 690 < rail.toNat then blockFault (0x30 + bank.val) (bankConverterOff bank.val (railSet bank.val rail.toNat s)) else railSet bank.val rail.toNat s)
def execCommandWaitTimeout (ch : Fin 96) (s : State) : Host.Outcome State Fault Refusal := .next (waitTimeout ch.val s)
def execMoveVerdict (ch : Fin 96) (d : DetSample) (t : BitVec 16) (s : State) : Host.Outcome State Fault Refusal :=
  .next (moveVerdict ch.val d t.toNat s)
/-- BOOST_RECHARGE_REQUEST: the rail has fallen below 63.0 V in a bank that is in use. -/
def boostRequest (b rail : Nat) (s : State) : State :=
  let s := railSet b rail s
  let st := (blkGet s (0x30 + b)).state
  if rail < 630 ∧ (st = .run ∨ st = .starting) then bankRequest b s else s
def execBoostRechargeRequest (bank : Fin 12) (rail : BitVec 10) (s : State) : Host.Outcome State Fault Refusal :=
  .next (boostRequest bank.val rail.toNat s)
def boostRechargeEnd (b rail : Nat) (s : State) : State :=
  let s := railSet b rail s
  if 650 ≤ rail then bankConverterOff b s else s
/-- A rail seen at a boundary: the converter asks for admission below 63.0 V and ends its recharge at 65.0 V (R238). -/
def railLevel (b rail : Nat) (s : State) : State := boostRechargeEnd b rail (boostRequest b rail s)
def execBoostRechargeEnd (bank : Fin 12) (rail : BitVec 10) (s : State) : Host.Outcome State Fault Refusal :=
  .next (boostRechargeEnd bank.val rail.toNat s)
/-- BANK_START_TIMEOUT: 2 s after admission the rail has not reached 64.0 V. -/
def bankStartTimeout (b rail : Nat) (s : State) : State :=
  let s := railSet b rail s
  if (blkGet s (0x30 + b)).state = .starting ∧ (s.bank b).recharge ∧ rail < 640 then blockFault (0x30 + b) s else s
def execBankStartTimeout (bank : Fin 12) (rail : BitVec 10) (s : State) : Host.Outcome State Fault Refusal :=
  .next (bankStartTimeout bank.val rail.toNat s)
/-- VBANK_CH_CLR. -/
def vchClear (b bits : Nat) (s : State) : State :=
  (upto 8).foldl (fun s n => if bitOf bits n then s.setVch (8 * b + n) { s.vch (8 * b + n) with fault := false } else s) s
def execVbankChClr (bank : Fin 12) (bits : BitVec 8) (s : State) : Host.Outcome State Fault Refusal :=
  .next (if s.laneOk (0x30 + bank.val) false then vchClear bank.val bits.toNat s else s)
/-- The position a lane tracks of a channel. -/
def posTrack (k pos : Nat) (r : RowSt) : RowSt := { r with act := { r.act with tracked := tset 0 r.act.tracked k pos } }
/-- VBANK_POS_SET takes OPEN or CLOSED, for a channel with no profile running or waiting (R248). -/
def posFree (s : State) (k pos : Nat) : Bool := decide ((s.vch k).phase = 0 ∧ (s.vch k).wait = false ∧ (pos = 1 ∨ pos = 2))
/-- VBANK_POS_SET with GO (R248): the chip's position and the tracked one of the lanes that take the write. -/
def posSet (who : LaneId → Bool) (k pos : Nat) (s : State) : State :=
  if posFree s k pos then
    onWho who (fun l => { l with row := posTrack k pos l.row }) (s.setVch k { s.vch k with pos := pos })
  else s
def execVbankPosSet (bank : Fin 12) (ch : Fin 8) (pos : BitVec 2) (s : State) : Host.Outcome State Fault Refusal :=
  .next (if s.laneOk (0x30 + bank.val) true then posSet (fun id => (s.lane id).votes) (8 * bank.val + ch.val) pos.toNat s else s)

/-! ### Duties and shaping (R254–R258) -/

def fanAt (s : State) (c : Nat) : FanCh := tget {} (s.chip (c / 24)).fans c
def setFan (s : State) (c : Nat) (x : FanCh) : State :=
  let s := if x.state = 1 ∧ (fanAt s c).state ≠ 1 then invCycle (4 * 256 + c) s else s
  s.modChip (c / 24) (fun h => { h with fans := tset {} h.fans c x })
def pumpAt (s : State) (n : Nat) : PumpCh := tget {} (s.chip (n / 2)).pumps (n % 2)
def setPump (s : State) (n : Nat) (x : PumpCh) : State := s.modChip (n / 2) (fun h => { h with pumps := tset {} h.pumps (n % 2) x })
def fieldDuty (f : Nat) : Nat := f % 16384
def fieldOff (f : Nat) : Bool := bitOf f 15
def fieldUrgent (f : Nat) : Bool := bitOf f 14
/-- Group g is RAISED: a channel of it is BLOCKED (R261). -/
def groupRaised (s : State) (g : Nat) : Bool := (upto 16).any (fun i => (fanAt s (16 * g + i)).state == 4)
/-- The enabled skip bands of a fan channel (R257). -/
def skipBands (rf : RegFile) (c : Nat) : List (Nat × Nat) :=
  ((upto 4).filter (fun k => fget rf (F.FAN_SKIP_EN (c / 16) (c % 16) k) == 1)).map
    (fun k => (fget rf (F.FAN_SKIP_LO (c / 16) (c % 16) k), fget rf (F.FAN_SKIP_HI (c / 16) (c % 16) k)))
def skipUp (bands : List (Nat × Nat)) (d : Nat) : Nat := bands.foldl (fun d b => if b.1 < d ∧ d < b.2 then b.2 else d) d
/-- The computation of R256. -/
def fanShape (rf : RegFile) (raised : Bool) (c : Nat) (x : FanCh) : Nat :=
  if fieldOff x.field then 0
  else
    let d := if x.state = 2 then 10000
      else if x.state = 4 then 0
      else
        let d := fieldDuty x.field + (if x.state = 3 then 1000 else 0) + (if raised then fget rf (F.FANG_CFG_RAISE (c / 16)) else 0)
        min d 10000
    let bands := skipBands rf c
    let d := skipUp bands d
    let d := max d (x.db - 500)
    skipUp bands d
def fanUpdate (s : State) (c : Nat) : State :=
  let x := fanAt s c
  let up := groupRaised s (c / 16)
  setFan s c { x with raised := up, applied := if x.released then x.applied else fanShape s.leadRegs up c x }
/-- The shaping of R258: 0 with OFF and before the first boundary after the grant, else within 200 of the duty of the last boundary. -/
def pumpShape (ramp : Bool) (x : PumpCh) : Nat :=
  if fieldOff x.field ∨ ¬ ramp then 0 else clampN (x.db - 200) (x.db + 200) (fieldDuty x.field)
/-- Whether a pump's start has been granted. -/
def pumpGranted (s : State) (n : Nat) : Bool :=
  let b := blkGet s (0x100 + n)
  b.granted
def pumpUpdate (s : State) (n : Nat) : State :=
  let x := pumpAt s n
  setPump s n { x with applied := if x.released then x.applied else pumpShape (x.ramp && pumpGranted s n) x }
/-- Take a duty field (R255); a duty above 10,000 is discarded and counted with code 80h. -/
def takeFan (c f : Nat) (s : State) : State :=
  if 10000 < fieldDuty f then s.err (0x40 + c / 16) 0x80 else fanUpdate (setFan s c { fanAt s c with field := f }) c
def takePump (n f : Nat) (s : State) : State :=
  if 10000 < fieldDuty f then s.err 0x48 0x80 else pumpUpdate (setPump s n { pumpAt s n with field := f }) n
/-- The fan and pump duties of a frame, for the chip's own channels. -/
def takeDuties (chip : Nat) (f : ActFrame) (s : State) : State :=
  let s := (upto 24).foldl (fun s i => takeFan (24 * chip + i) (lget 0x8000 f.fan (24 * chip + i)) s) s
  (upto 2).foldl (fun s i => takePump (2 * chip + i) (lget 0x8000 f.pump (2 * chip + i)) s) s
/-- ACTUATOR_FRAME: a lane's frame reaches a chip (R80, R250). Its duties act on receipt when its claim is at or above the one the chip
follows. -/
def actuatorFrame (chip : Nat) (lane : LaneId) (crcOk : Bool) (s : State) : State :=
  match (s.lane lane).actOut with
  | none => s
  | some f =>
    if !(s.chip chip).powered then s
    else if !crcOk then s.modChip chip (fun c => { c with badCrc := true })
    else if bitsOf f.claim 1 7 = 0 then s
    else
      let s := s.modChip chip (fun c => match lane with
        | .a => { c with rxA := some f, sawA := true }
        | .b => { c with rxB := some f, sawB := true })
      if higherClaim (s.chip chip).auth f.claim then s else takeDuties chip f (s.modChip chip (fun c => { c with auth := f.claim }))
def execActuatorFrame (chip : Fin 2) (lane : LaneId) (crcOk : Bool) (s : State) : Host.Outcome State Fault Refusal :=
  .next (actuatorFrame chip.val lane crcOk s)
/-- LOOP_OUT (R124, R255): message `idx` of the lane's tick; discarded for a channel whose last frame field had OFF = 1. -/
def loopOutMsg (chip : Nat) (m : LoopOutMsg) (s : State) : State :=
  if !(s.chip chip).powered ∨ bitsOf m.claim 1 7 = 0 ∨ higherClaim (s.chip chip).auth m.claim then s
  else
    let fan := fun c s => if c / 24 = chip ∧ ¬ fieldOff (fanAt s c).field then takeFan c m.duty s else s
    if m.destType = 1 then
      if m.dest / 2 = chip ∧ m.dest < 4 ∧ ¬ fieldOff (pumpAt s m.dest).field then
        takePump m.dest (m.duty + (if fieldUrgent (pumpAt s m.dest).field then 16384 else 0)) s
      else s
    else if m.destType = 2 then (if m.dest < 48 then fan m.dest s else s)
    else if m.destType = 3 then (if m.dest < 3 then (upto 16).foldl (fun s i => fan (16 * m.dest + i) s) s else s)
    else s
def execLoopOut (chip : Fin 2) (lane : LaneId) (idx : BitVec 6) (crcOk : Bool) (s : State) : Host.Outcome State Fault Refusal :=
  .next (match (s.lane lane).row.loops.outs[idx.toNat]? with
    | some m => if crcOk then loopOutMsg chip.val m s else s
    | none => s)
/-- The compare value of a duty (R254): round(d × N / 10,000), halves upward. -/
def dutyCompare (n d : Nat) : Nat := (2 * d * n + 10000) / 20000
/-- DUTY_LOAD: the duty reaches the channel's compare register. -/
def execDutyLoad (out : OutId) (s : State) : Host.Outcome State Fault Refusal :=
  .next (match out with
    | .fan c => setFan s c.val { fanAt s c.val with compare := dutyCompare 2048 (fanAt s c.val).applied }
    | .pump n => setPump s n.val { pumpAt s n.val with compare := dutyCompare 51200 (pumpAt s n.val).applied })

/-! ### Speeds and fan states (R259–R262, R270) -/

def tickAdd (ts : Nat) (p : PulseTick) : PulseTick := if p.edges = 0 then ⟨1, ts, ts⟩ else { p with edges := p.edges + 1, tLast := ts }
/-- TACH_EDGE: a falling edge at a PWM cycle (6,250 to a tick). -/
def execTachEdge (out : OutId) (ts : Nat) (s : State) : Host.Outcome State Fault Refusal :=
  .next (match out with
    | .fan c => setFan s c.val { fanAt s c.val with tick := tickAdd ts (fanAt s c.val).tick }
    | .pump n => setPump s n.val { pumpAt s n.val with tick := tickAdd ts (pumpAt s n.val).tick })
/-- The speed of R259 in rev/min at a boundary: `p` pulses a revolution, window 2,048 ticks, hold limit 8,192 ticks. -/
def tachRpm (p now : Nat) (w : PulseWin) : Nat :=
  let (a, b) := pulseFreq w.ticks w.last now (8192 * 6250)
  if b * p = 0 then 0 else min 0xFFFE (qdiv (((60 * 51200000 * a : Nat)) : Int) ((p * b : Nat) : Int)).toNat
/-- The time of the boundary that ends tick `tick`, in PWM cycles. -/
def pwmEnd (tick : Nat) : Nat := (tick + 1) * 6250
/-- Current at stall level: outside the normal band (R260). -/
def fanStall (rf : RegFile) (c : Nat) (x : FanCh) : Bool :=
  x.cur < fget rf (F.FANG_CUR_NORM_LO (c / 16)) || fget rf (F.FANG_CUR_NORM_HI (c / 16)) < x.cur
def fanStart (tick : Nat) (x : FanCh) : FanCh := { x with state := 1, start := tick, edges := 0, kick := 0, stallRun := 0, goodFrom := none }
def fanKick (tick k : Nat) (x : FanCh) : FanCh := { x with state := 2, kick := k, start := tick, edges := 0, stallRun := 0 }
def fanRun (x : FanCh) : FanCh := { x with state := 0, kick := 0, stallRun := 0 }
/-- START whose window has run without 2 edges (FAN_START_WINDOW_END); not judged below MIN_DUTY; edges of the
present tick count (R16). -/
def fanWindowEnd (rf : RegFile) (tick c : Nat) (x : FanCh) : FanCh :=
  if x.state = 1 ∧ x.start + 16384 ≤ tick ∧ x.edges + x.tick.edges < 2 ∧ fget rf (F.FANG_CFG_MIN_DUTY (c / 16)) ≤ x.applied then
    (if fanStall rf c x then fanKick tick 1 x else { x with state := 3, goodFrom := none, stallRun := 0 })
  else x
/-- RUN without an edge for 4,096 ticks (FAN_EDGE_TIMEOUT); an edge of the present tick wins (R16). -/
def fanEdgeTimeout (rf : RegFile) (tick c : Nat) (x : FanCh) : FanCh :=
  if x.state = 0 ∧ x.tick.edges = 0 ∧ x.lastEdge + 4096 ≤ tick ∧ fget rf (F.FANG_CFG_MIN_DUTY (c / 16)) ≤ x.applied then
    (if fanStall rf c x then fanKick tick 1 x else { x with state := 3, goodFrom := none, stallRun := 0 })
  else x
/-- A kick that ends without 2 edges (FAN_KICK_END), those of the present tick counted (R16). -/
def fanKickEnd (tick : Nat) (x : FanCh) : FanCh :=
  if x.state = 2 ∧ x.start + 4096 ≤ tick ∧ x.edges + x.tick.edges < 2 then (if x.kick < 3 then fanKick tick (x.kick + 1) x else { x with state := 4, kick := 0 }) else x
/-- Regular edges for 8,192 ticks (FAN_TACH_RECOVERY). -/
def fanTachRecover (tick : Nat) (x : FanCh) : FanCh :=
  match x.goodFrom with
  | some t => if x.state = 3 ∧ t + 8192 ≤ tick then fanRun x else x
  | none => x
/-- 16 ticks at stall current in TACH_LOST (FAN_STALL). -/
def fanStallKick (tick : Nat) (x : FanCh) : FanCh := if x.state = 3 ∧ 16 ≤ x.stallRun then fanKick tick 1 x else x
/-- Edges of the ending tick and the current, before any timer (R16). -/
def fanSample (rf : RegFile) (tick c cur : Nat) (x : FanCh) : FanCh :=
  let n := x.tick.edges
  let w := pulseAdd 2048 x.tick x.tach
  let good := if n = 0 then (match x.goodFrom with | some t => if tick < x.lastEdge + 4096 then some t else none | none => none)
    else if x.goodFrom.isSome ∧ tick ≤ x.lastEdge + 4096 then x.goodFrom else some tick
  let above := decide (fget rf (F.FANG_CFG_MIN_DUTY (c / 16)) ≤ x.applied)
  let x := { x with cur := min 255 cur, tach := w, tick := ⟨0, 0, 0⟩, edges := x.edges + n, lastEdge := if n = 0 then x.lastEdge else tick, goodFrom := good }
  { x with stallRun := runNext (above && fanStall rf c x && x.state == 3) x.stallRun }
/-- The transitions of R261 at a boundary, `was` the duty applied at the boundary before. -/
def fanStep (rf : RegFile) (tick c was : Nat) (wasOff : Bool) (x : FanCh) : FanCh :=
  let min := fget rf (F.FANG_CFG_MIN_DUTY (c / 16))
  if fieldOff x.field then (if x.state = 4 then x else { x with state := 5, kick := 0 })
  else if x.state ≠ 4 ∧ (x.state = 5 ∨ wasOff ∨ (was < min ∧ min ≤ x.applied)) then fanStart tick x
  else if (x.state = 1 ∨ x.state = 2) ∧ 2 ≤ x.edges then fanRun x
  else fanStallKick tick (fanTachRecover tick (fanKickEnd tick (fanEdgeTimeout rf tick c (fanWindowEnd rf tick c x))))
/-- The event and interrupt bit of a fan that entered BLOCKED or TACH_LOST. -/
def fanReport (c : Nat) (old new : FanCh) (s : State) : State :=
  let ev := fun code (s : State) => s.playaEv (c / 24) (0x40 + c / 16) (c % 16) code 0
  if new.state = 4 ∧ old.state ≠ 4 then ev Ev.fanBlocked (s.irq (0x40 + c / 16) 8)
  else if new.state = 3 ∧ old.state ≠ 3 then ev Ev.fanTachLost (s.irq (0x40 + c / 16) 9)
  else s
/-- Apply one of the transitions to a channel now. -/
def fanApply (c : Nat) (f : RegFile → Nat → FanCh → FanCh) (s : State) : State :=
  let x := fanAt s c
  let y := f s.leadRegs s.time.count x
  fanUpdate (fanReport c x y (setFan s c y)) c
def execFanStartWindowEnd (ch : Fin 48) (s : State) : Host.Outcome State Fault Refusal :=
  .next (fanApply ch.val (fun rf t => fanWindowEnd rf t ch.val) s)
def execFanEdgeTimeout (ch : Fin 48) (s : State) : Host.Outcome State Fault Refusal :=
  .next (fanApply ch.val (fun rf t => fanEdgeTimeout rf t ch.val) s)
def execFanKickEnd (ch : Fin 48) (s : State) : Host.Outcome State Fault Refusal := .next (fanApply ch.val (fun _ t => fanKickEnd t) s)
def execFanTachRecovery (ch : Fin 48) (s : State) : Host.Outcome State Fault Refusal :=
  .next (fanApply ch.val (fun _ t => fanTachRecover t) s)
def execFanStall (ch : Fin 48) (s : State) : Host.Outcome State Fault Refusal := .next (fanApply ch.val (fun _ t => fanStallKick t) s)
/-- FAN_CLR: BLOCKED clears; a channel not OFF starts again, one that is OFF stays OFF. -/
def fanClear (g bits : Nat) (s : State) : State :=
  (upto 16).foldl (fun s i =>
    let c := 16 * g + i
    let x := fanAt s c
    if bitOf bits i ∧ x.state = 4 then fanUpdate (setFan s c (if fieldOff x.field then { x with state := 5 } else fanStart s.time.count x)) c else s) s
def execFanClr (group : Fin 3) (bits : BitVec 16) (s : State) : Host.Outcome State Fault Refusal :=
  .next (if s.laneOk (0x40 + group.val) false then fanClear group.val bits.toNat s else s)
/-- The curve speed at a duty (R270), in rev/min × 10,000: record 07h, interpolated between points and held flat beyond the ends. -/
def curveGo (c : CalSt) (ch d : Nat) : Nat → Nat → Nat
  | 0, i => 10000 * bitsOf (calEntry c 7 ch i) 16 16
  | f + 1, i =>
    let d0 := bitsOf (calEntry c 7 ch i) 0 16
    let d1 := bitsOf (calEntry c 7 ch (i + 1)) 0 16
    let r0 := bitsOf (calEntry c 7 ch i) 16 16
    let r1 := bitsOf (calEntry c 7 ch (i + 1)) 16 16
    if d ≤ d0 then 10000 * r0
    else if d < d1 then ((10000 * (r0 : Int)) + qdiv (10000 * ((d : Int) - d0) * ((r1 : Int) - r0)) ((d1 : Int) - d0)).toNat
    else curveGo c ch d f (i + 1)
def fanCurve (c : CalSt) (ch d : Nat) : Nat := curveGo c ch d 7 0
def fanSlowOp (x : FanCh) : FanCh := if 8192 ≤ x.slowRun then { x with slow := true } else x
def fanSlowClear (x : FanCh) : FanCh := if 8192 ≤ x.fastRun then { x with slow := false } else x
/-- SLOW's runs at a boundary (R270). -/
def fanSlowTick (c : CalSt) (ch : Nat) (x : FanCh) : FanCh :=
  if x.state ≠ 0 then { x with slowRun := 0, fastRun := 0 }
  else
    let low := match x.rpm with
      | some n => decide (100 * 10000 * n < 70 * fanCurve c ch x.applied)
      | none => false
    let x := { x with slowRun := runNext low x.slowRun, fastRun := runNext (!low && x.rpm.isSome) x.fastRun }
    if x.slow then fanSlowClear x else fanSlowOp x
def execFanSlow (ch : Fin 48) (s : State) : Host.Outcome State Fault Refusal := .next (setFan s ch.val (fanSlowOp (fanAt s ch.val)))
def execFanSlowClear (ch : Fin 48) (s : State) : Host.Outcome State Fault Refusal := .next (setFan s ch.val (fanSlowClear (fanAt s ch.val)))
/-- One fan channel at a boundary: edges and current, the update of a chosen frame, then its transition (R256, R259–R261). -/
def fanBoundary (tick c cur : Nat) (chosen : Bool) (s : State) : State :=
  let rf := s.leadRegs
  let x0 := fanAt s c
  let s := setFan s c (fanSample rf tick c cur x0)
  let wasOff := x0.state == 5 && !fieldOff x0.field
  let s := if chosen then fanUpdate s c else s
  let y := fanStep rf tick c x0.db wasOff (fanAt s c)
  fanReport c x0 y (setFan s c y)
/-- After every channel of the chip has moved: shaping with the groups as they are now, where a frame was chosen or the channel's protection state,
its group's RAISED included, has changed from `was`; then speed, SLOW, D_b (R256, R259, R270). -/
def fanSettle (tick c was : Nat) (chosen : Bool) (s : State) : State :=
  let x := fanAt s c
  let s := if chosen ∨ x.state ≠ was ∨ x.raised ≠ groupRaised s (c / 16) then fanUpdate s c else s
  let y := fanAt s c
  let z := fanSlowTick s.leadCal c { y with rpm := if y.state = 3 then none else some (tachRpm 2 (pwmEnd tick) y.tach) }
  setFan s c { z with db := z.applied }

/-! ### Pumps (R258, R265, R266, R268) -/

/-- TACH_LOST of a pump (R265): no edge for 8,192 ticks while the drive reports running. -/
def pumpTachLostOp (x : PumpCh) : PumpCh := if 8192 ≤ x.noEdge ∧ x.tick.edges = 0 then { x with tachLost := true } else x
def execPumpTachLost (pump : Fin 4) (s : State) : Host.Outcome State Fault Refusal :=
  .next (setPump s pump.val (pumpTachLostOp (pumpAt s pump.val)))
/-- R357: at the boundary of the first frame chosen after a reset, a pump that is running already enters RUN without a governor request. -/
def pumpRunning (n : Nat) (rpm : Option Nat) (s : State) : State :=
  let b := blkGet s (0x100 + n)
  match rpm with
  | some v =>
    if b.state = .starting ∧ fget s.leadRegs F.PUMP_START_RUN_RPM ≤ v then
      blockReady (0x100 + n) { blkSet s (0x100 + n) { b with granted := true } with gov := govWithdraw s.gov ⟨.pump, n⟩ }
    else s
  | none => s
/-- One pump channel at a boundary: edges, TACH_LOST, the governor request, the update of a chosen frame, D_b. `first`: the chip chose its first
frame. -/
def pumpBoundary (tick n : Nat) (first chosen : Bool) (s : State) : State :=
  let x := pumpAt s n
  let ppr := fget s.leadRegs (F.PUMP_CH_CTRL_PPR n)
  let k := x.tick.edges
  let w := pulseAdd 2048 x.tick x.tach
  let good := if k = 0 then (match x.goodFrom with | some t => if tick < x.lastEdge + 4096 then some t else none | none => none)
    else if x.goodFrom.isSome ∧ tick ≤ x.lastEdge + 4096 then x.goodFrom else some tick
  let x := { x with tach := w, tick := ⟨0, 0, 0⟩, lastEdge := if k = 0 then x.lastEdge else tick, goodFrom := good,
                    noEdge := runNext (k == 0 && bitOf (lget 0 x.mb 5) 0) x.noEdge }
  let x := if x.tachLost then (match x.goodFrom with | some t => if t + 8192 ≤ tick then { x with tachLost := false } else x | none => x)
    else pumpTachLostOp x
  let x := { x with rpm := if x.tachLost then none else some (tachRpm ppr (pwmEnd tick) w) }
  let s := if first then pumpRunning n x.rpm s else s
  let start := !fieldOff x.field && (blkGet s (0x100 + n)).state == .starting && !(blkGet s (0x100 + n)).granted && !x.requested
  let s := if start then { s with gov := govRaise s.gov ⟨.pump, n⟩ (fieldUrgent x.field) } else s
  let x := { x with requested := if (blkGet s (0x100 + n)).granted || fieldOff x.field then false else start || x.requested,
                    ramp := (blkGet s (0x100 + n)).granted }
  let s := setPump s n x
  let s := if chosen then pumpUpdate s n else s
  setPump s n { pumpAt s n with db := (pumpAt s n).applied }

/-- A poll that ends missing (R266): three in a row set MB_LOST. -/
def mbMissing (n : Nat) (s : State) : State :=
  let x := pumpAt s n
  let m := satAdd 0xFF x.missRun 1
  let lost := x.mbLost || decide (3 ≤ m)
  let s := setPump s n { x with missRun := m, mbLost := lost, age := satAdd 0xFF x.age 1 }
  if lost && !x.mbLost then s.irq 0x48 9 else s
def setBus (chip : Nat) (f : MbBus → MbBus) (s : State) : State := s.modChip chip (fun c => { c with mb := f c.mb })
/-- A firmware command's outcome: PUMP_MB_CMD.RESULT. -/
def mbResult (chip res : Nat) (s : State) : State := setBus chip (fun b => { b with result := res, cmd := none }) s
/-- PUMP_POLL (R266, R268): at a boundary with SEQ mod 64 = 0 a request goes to pump ((SEQ div 64) mod 2). A firmware command takes its
pump's slot; the first poll, and the first in every 3,600 s, reads the loss configuration; the period runs from the poll. -/
def pumpPoll (chip : Nat) (s : State) : State :=
  let c := s.chip chip
  match c.chosen with
  | none => s
  | some (_, seq) =>
    if seq % 64 ≠ 0 ∨ c.mb.out.isSome then s
    else
      let i := seq / 64 % 2
      let x := tget {} c.pumps i
      let kind := match c.mb.cmd with
        | some m => if m.pump % 2 = i then m.kind else .status
        | none => .status
      let due : Bool := match x.lossRead with | some t => decide (t + 29491200 ≤ s.time.count) | none => true
      let kind := if kind = .status ∧ due = true then .lossRead else kind
      let s := if kind = .lossRead then setPump s (2 * chip + i) { pumpAt s (2 * chip + i) with lossRead := some s.time.count } else s
      setBus chip (fun b => { b with out := some (i, kind, 0) }) s
/-- The loss configuration read back (R268). -/
def lossCheck (n act ms : Nat) (s : State) : State :=
  let bad := act != 2 || ms < 100 || 500 < ms
  let x := pumpAt s n
  let s := setPump s n { x with lossBad := bad }
  if bad && !x.lossBad then (s.irq 0x48 10).playaEv (n / 2) 0x48 n Ev.lossCfgBad act else s
/-- MODBUS_REPLY (R266, R268): a reply latched in the tick; registers in `regs`. -/
def modbusReply (chip : Nat) (crcOk exc : Bool) (regs : List Nat) (s : State) : State :=
  match (s.chip chip).mb.out with
  | none => s
  | some (i, kind, _) =>
    let n := 2 * chip + i
    let s := setBus chip (fun b => { b with out := none }) s
    if !crcOk || exc then
      let s := mbMissing n s
      match kind with
      | .status | .lossRead => s
      | _ => mbResult chip (if crcOk then 3 else 2) s
    else
      let x := pumpAt s n
      let s := setPump s n { x with missRun := 0, mbLost := false, age := 0 }
      match kind with
      | .status => setPump s n { pumpAt s n with mb := (upto 6).map (fun j => lget 0 regs j) }
      | .lossRead => lossCheck n (lget 0 regs 0) (lget 0 regs 1) s
      | .setLoss => setBus chip (fun b => { b with cmd := b.cmd.map (fun m => { m with kind := .readBack }) }) s
      | .readBack =>
        let want := match (s.chip chip).mb.cmd with | some m => m.value | none => 0
        let s := lossCheck n (lget 0 regs 0) (lget 0 regs 1) s
        mbResult chip (if lget 0 regs 0 = 2 ∧ lget 0 regs 1 = want then 1 else 4) s
      | .write => mbResult chip 1 s
/-- Boundaries from a request to the end of its poll: its characters at 115.2 kbit/s, 11 bits each, then 40 ticks (R5, R266, R267). -/
def mbWindow (kind : MbKind) : Nat :=
  let chars := match kind with | .setLoss => 13 | _ => 8
  modbusWait chars
/-- MODBUS_REPLY_TIMEOUT: no reply within 40 ticks of the end of the request. -/
def modbusTimeout (chip : Nat) (s : State) : State :=
  match (s.chip chip).mb.out with
  | some (i, kind, t) =>
    if mbWindow kind ≤ t then
      let s := mbMissing (2 * chip + i) (setBus chip (fun b => { b with out := none }) s)
      match kind with
      | .status | .lossRead => s
      | _ => mbResult chip 2 s
    else s
  | none => s
def execPumpPoll (chip : Fin 2) (s : State) : Host.Outcome State Fault Refusal := .next (pumpPoll chip.val s)
def execModbusReply (chip : Fin 2) (crcOk exc : Bool) (regs : List Nat) (s : State) : Host.Outcome State Fault Refusal :=
  .next (modbusReply chip.val crcOk exc regs s)
def execModbusReplyTimeout (chip : Fin 2) (s : State) : Host.Outcome State Fault Refusal := .next (modbusTimeout chip.val s)
/-- LOSS_CONFIG_READ: the values of holding registers 0100h and 0101h of a pump (R268). -/
def execLossConfigRead (pump : Fin 4) (act ms : BitVec 16) (s : State) : Host.Outcome State Fault Refusal :=
  .next (lossCheck pump.val act.toNat ms.toNat (setPump s pump.val { pumpAt s pump.val with lossRead := some s.time.count }))
/-- PUMP_MB_CMD SET_LOSS and WRITE queue for the pump's next poll slot; both need the presence window. -/
def mbCommand (n : Nat) (m : MbCmd) (s : State) : State :=
  if s.laneOk 0x48 true then setBus (n / 2) (fun b => { b with cmd := some m, result := 0 }) s else s
def execPumpMbSetLoss (pump : Fin 4) (ms : BitVec 9) (s : State) : Host.Outcome State Fault Refusal :=
  .next (mbCommand pump.val ⟨pump.val, .setLoss, 0x100, ms.toNat⟩ s)
def execPumpMbWrite (pump : Fin 4) (s : State) : Host.Outcome State Fault Refusal :=
  .next (mbCommand pump.val ⟨pump.val, .write, fget s.leadRegs F.PUMP_MB_WR_REG, fget s.leadRegs F.PUMP_MB_WR_VALUE⟩ s)

/-! ### Silence, reset, and the boundary of a chip (R80, R228, R263, R357) -/

/-- Release every fan and pump output of a chip: the fans and drives run at full speed (R263). -/
def chipRelease (chip : Nat) (s : State) : State :=
  let s := (upto 24).foldl (fun s i => let c := 24 * chip + i; setFan s c { fanAt s c with released := true, applied := 10000, db := 10000 }) s
  (upto 2).foldl (fun s i => let n := 2 * chip + i; setPump s n { pumpAt s n with released := true, applied := 10000, db := 10000 }) s
/-- PLAYA_WATCHDOG: 16,384 boundaries without a chosen frame, shown by the fan groups the chip serves. -/
def chipWatchdog (chip : Nat) (s : State) : State :=
  if 16384 ≤ (s.chip chip).silent ∧ (s.chip chip).wdog = false then
    let s := chipRelease chip (s.modChip chip (fun c => { c with wdog := true }))
    (upto 2).foldl (fun s g => s.irq (0x40 + chip + g) 10) s
  else s
def execPlayaWatchdog (chip : Fin 2) (s : State) : Host.Outcome State Fault Refusal := .next (chipWatchdog chip.val s)
/-- The outputs come back, and WDOG clears, at the first boundary with a chosen frame; shaping resumes from 10,000 (R263, R357). -/
def chipResume (chip : Nat) (s : State) : State :=
  let s := s.modChip chip (fun c => { c with wdog := false })
  let s := (upto 24).foldl (fun s i => let c := 24 * chip + i; setFan s c { fanAt s c with released := false }) s
  (upto 2).foldl (fun s i => let n := 2 * chip + i; setPump s n { pumpAt s n with released := false }) s
/-- The requests of a chip's banks and pumps that wait are withdrawn (R55). -/
def chipWithdraw (chip : Nat) (g : GovSt) : GovSt :=
  (upto 2).foldl (fun g i => govWithdraw g ⟨.pump, 2 * chip + i⟩) ((upto 6).foldl (fun g b => govWithdraw g ⟨.valve, 6 * chip + b⟩) g)
/-- The banks of a chip in reset are OFF, not SAFE and take EN anew (R33, R250, R357). -/
def chipBanksOff (chip : Nat) (s : State) : State :=
  (upto 6).foldl (fun s b =>
    let s := blkMove s (0x30 + 6 * chip + b) .off
    let s := s.setBank (6 * chip + b) { s.bank (6 * chip + b) with en := false, queue := [], recharge := false, request := false }
    blkSet s (0x30 + 6 * chip + b) { blkGet s (0x30 + 6 * chip + b) with pend := false, safe := false, granted := false }) s
/-- A chip right after its reset (R241, R357): outputs released, positions UNKNOWN, POS_LOST set, banks OFF. Strokes and rails stay. -/
def chipReset (chip : Nat) (s : State) : State :=
  let s := chipBanksOff chip { s with gov := chipWithdraw chip s.gov }
  let old := s.chip chip
  let s := s.setChip chip { old with rxA := none, rxB := none, badCrc := false, sawA := false, sawB := false, chosen := none, auth := 0, silent := 0,
                                     wdog := false, posLost := true, epoch := 0, prevSlip := none, live := [],
                                     ch := old.ch.foldl (fun t x => tset {} t x.1 { strokes := x.2.strokes }) [],
                                     fans := [], pumps := [], mb := ⟨none, none, 0⟩ }
  chipRelease chip s
def execPlayaReset (chip : Fin 2) (s : State) : Host.Outcome State Fault Refusal :=
  .next (if (s.chip chip.val).powered then dieBoot (4 + chip.val) ((upto 6).foldl (fun s b => s.irq (0x30 + 6 * chip.val + b) 11) (chipReset chip.val s)) else s)

/-- The frame chosen among those received in the ending tick (R80). -/
def chipChoose (c : Chip) : Option ActFrame :=
  match c.rxA, c.rxB with
  | some a, some b => if higherClaim b.claim a.claim then some b else some a
  | some a, none => some a
  | none, some b => some b
  | none, none => none
/-- POS_LOAD (R241): every UNKNOWN channel with no profile running takes the frame's position. -/
def posLoad (chip : Nat) (f : ActFrame) (s : State) : State :=
  let s := (upto 48).foldl (fun s i =>
    let k := 48 * chip + i
    let x := s.vch k
    if x.pos = 0 ∧ x.phase = 0 then s.setVch k { x with pos := tget 0 f.pos k } else s) s
  s.modChip chip (fun c => { c with posLost := false })
/-- Whether an item of the actuator part is addressed to a chip. -/
def itemChip (i : ActItem) : Nat :=
  if i.kind = 1 then i.chan / 48 else if i.kind = 2 then i.chan / 2 else if i.kind = 3 then i.chan / 24 else (i.page - 0x30) / 6
/-- Whether the frame of the ending tick commits the actuator part at this boundary (R228): it carries COMMIT, and its SEQ is that of tick A−1. -/
def commitsNow (f : ActFrame) : Bool := f.op == 2 && (f.seq + 1) % 65536 == f.applySeq16
/-- The valve commands of a committed actuator part that act: a class I command needs the same command in the frame chosen for tick A−2. -/
def commitValves (chip : Nat) (prev : Option (Nat × Nat × List ActItem)) (f : ActFrame) : List (Nat × Nat) :=
  let both : ActItem → Bool := fun i => match prev with
    | some (e, q, l) => decide (e = f.epoch) && decide (f.seq = (q + 1) % 2 ^ 32) && l.any (fun j => j.kind == 1 && j.chan == i.chan &&
        valId j.value == valId i.value && valTarget j.value == valTarget i.value && valStrong j.value == valStrong i.value)
    | none => false
  (f.slip.filter (fun i => i.kind == 1 && itemChip i == chip && (valveClass (i.chan % 8) == 1 || both i))).map (fun i => (i.chan, i.value))
/-- Insert a valve command behind those of lower or equal channels. -/
def insValve (x : Nat × Nat × Bool) : List (Nat × Nat × Bool) → List (Nat × Nat × Bool)
  | [] => [x]
  | y :: ys => if x.1 < y.1 then x :: y :: ys else y :: insValve x ys
/-- The valve commands of a boundary in ascending channel order (R244): the frame's items, and those of a committed actuator part (true). -/
def boundaryValves (chip : Nat) (prev : Option (Nat × Nat × List ActItem)) (f : ActFrame) : List (Nat × Nat × Bool) :=
  let own := (f.items.filter (fun (i : Nat × Nat) => i.1 / 48 == chip)).map (fun i => (i.1, i.2, false))
  let com := if commitsNow f then (commitValves chip prev f).map (fun i => (i.1, i.2, true)) else []
  (own ++ com).foldl (fun l x => insValve x l) []
/-- The commit of the rest of the actuator part at boundary A (R228): duties and register fields. -/
def chipCommit (chip : Nat) (f : ActFrame) (s : State) : State :=
  let s := (f.slip.filter (fun i => itemChip i == chip)).foldl (fun s i =>
    if i.kind = 2 then (let f := (pumpAt s i.chan).field; if fieldOff f then s else takePump i.chan (i.value + 16384 * b2n (fieldUrgent f)) s)
    else if i.kind = 3 then (if fieldOff (fanAt s i.chan).field then s else takeFan i.chan i.value s)
    else if i.kind = 4 then s.modChip chip (fun c => { c with live := setWordAt c.live i.page i.chan i.value })
    else s) s
  s.modChip chip (fun c => { c with epoch := f.epoch })
/-- A bank takes its EN and FORCE_SAFE from the chosen frame (R250, R252): SAFE refuses what waits; a change of EN acts. -/
def bankTake (b : Nat) (en safe : Bool) (s : State) : State :=
  let k := 0x30 + b
  let s := if safe then bankDrain b s else s
  let s := blkSet s k { blkGet s k with safe := safe }
  let was := (s.bank b).en
  let s := s.setBank b { s.bank b with en := en }
  if en && !was then blockOn k s else if was && !en then blockOff k s else s
/-- The boundary of a chip. `cur` holds the fan currents of the ending tick in 20 mA, `rails` the bank rails in 0.1 V. -/
def playaBoundary (chip : Nat) (cur rails : List Nat) (s : State) : State :=
  let tick := s.time.count
  let s := (upto 6).foldl (fun s b => match rails[b]? with | some v => railLevel (6 * chip + b) v s | none => s) s
  let c := s.chip chip
  let s := s.modChip chip (fun c => { c with epoch := 0 })
  let s : State := match chipChoose c with
    | some (f : ActFrame) =>
      let s := chipResume chip s
      let s := s.modChip chip (fun c => { c with chosen := some (f.claim, f.seq), auth := f.claim, silent := 0 })
      let s := if higherClaim c.auth f.claim then takeDuties chip f s else s
      let s := if f.posLoad then posLoad chip f s else s
      let s := (upto 6).foldl (fun s b => bankTake (6 * chip + b) (bitOf f.bankEn (6 * chip + b)) (bitOf f.bankSafe (6 * chip + b)) s) s
      let s := (boundaryValves chip c.prevSlip f).foldl (fun s i => valveItem f.claim f.seq f.merged (tget true f.chEn i.1) i.2.2 i.1 i.2.1 s) s
      let s := candDrop chip (some (f.seq, f.items.filter (fun (i : Nat × Nat) => i.1 / 48 == chip))) s
      let s := if commitsNow f then chipCommit chip f s else s
      s.modChip chip (fun c => { c with prevSlip := if f.op = 2 then some (f.epoch, f.seq, f.slip) else none })
    | none =>
      let s := candDrop chip none s
      chipWatchdog chip (s.modChip chip (fun c => { c with chosen := none, silent := c.silent + 1, prevSlip := none }))
  let s := s.modChip chip (fun c => { c with rxA := none, rxB := none, badCrc := false, sawA := false, sawB := false,
                                             mb := { c.mb with out := c.mb.out.map (fun (x : Nat × MbKind × Nat) => (x.1, x.2.1, x.2.2 + 1)) } })
  let chosen := (chipChoose c).isSome
  let was := (upto 24).map (fun i => (fanAt s (24 * chip + i)).state)
  let s := (upto 24).foldl (fun s i => fanBoundary tick (24 * chip + i) (lget 0 cur i) chosen s) s
  let s := (upto 24).foldl (fun s i => fanSettle tick (24 * chip + i) (lget 0 was i) chosen s) s
  let s := (upto 2).foldl (fun s i => pumpBoundary tick (2 * chip + i) (c.posLost && (tget {} c.pumps 0).released && chosen) chosen s) s
  pumpPoll chip (modbusTimeout chip s)
def execPlayaTickBoundary (chip : Fin 2) (cur rails : List Nat) (s : State) : Host.Outcome State Fault Refusal :=
  .next (if (s.chip chip.val).powered then playaBoundary chip.val cur rails s else s)

/-- The status report of a chip (R251, R271), as of its cycle 5,800. -/
def chipReport (chip : Nat) (s : State) : ChipRep :=
  let blk := fun (i : Nat) => blkGet s (0x30 + 6 * chip + i)
  let pump := fun (i : Nat) => blkGet s (0x100 + 2 * chip + i)
  ⟨s.chip chip, (upto 6).map (fun b => (blk b).state), (upto 6).map (fun b => (blk b).safe), (upto 2).map (fun i => (pump i).state),
    (upto 2).map (fun i => (pump i).granted)⟩
/-- PLAYA_STATUS_REPORT: a chip's report reaches a lane, which latches it in P1 of the next tick. -/
def statusReport (chip : Nat) (lane : LaneId) (crcOk : Bool) (s : State) : State :=
  if crcOk ∧ (s.chip chip).powered then
    s.modLane lane (fun l => { l with row := { l.row with act := { l.row.act with
      repIn := (l.row.act.repIn.filter (fun x => x.1 != chip)) ++ [(chip, chipReport chip s)] } } })
  else s
def execPlayaStatusReport (chip : Fin 2) (lane : LaneId) (crcOk : Bool) (s : State) : Host.Outcome State Fault Refusal :=
  .next (statusReport chip.val lane crcOk s)

end Sys2Proof.Machine
end

