-- ==== Sys2Proof/Machine/Actuators.lean ====
section
/-! DEFINITION. The lanes' side of the actuators: latched reports and tracked positions (R241), valve commands (R240, R245), pump channels
and fan groups (R262, R265), duty fields (R255, R272), the standby pump. -/
namespace Sys2Proof.Machine
open Sys2Proof

/-! ### Reports -/

/-- The latched report of a chip, of the bank of the module, of a channel, a pump, a fan. -/
def actRep (a : ActSt) (chip : Nat) : Option ChipRep := if chip = 0 then a.rep0 else a.rep1
def repBank (a : ActSt) (b : Nat) : Option VBank := (actRep a (b / 6)).map (fun r => tget {} r.chip.banks (b % 6))
def repCh (a : ActSt) (k : Nat) : Option VCh := (actRep a (k / 48)).map (fun r => tget {} r.chip.ch k)
def repPump (a : ActSt) (n : Nat) : Option PumpCh := (actRep a (n / 2)).map (fun r => tget {} r.chip.pumps (n % 2))
def repFan (a : ActSt) (c : Nat) : Option FanCh := (actRep a (c / 24)).map (fun r => tget {} r.chip.fans c)
/-- Isolation valves of a rack: supply side on chip 0, return side on chip 1; the trim valve of each is 4 channels on (R232). -/
def isoSupply (rack : Nat) : Nat := 8 * (rack / 4) + rack % 4
def isoReturn (rack : Nat) : Nat := 48 + isoSupply rack
/-- The rack of a valve channel. -/
def chRack (k : Nat) : Nat := 4 * (k / 8 % 6) + k % 4

def rowAct (f : ActSt → ActSt) (r : RowSt) : RowSt := { r with act := f r.act }
def setWant (k : Nat) (w : Option Want) (a : ActSt) : ActSt := { a with want := tset none a.want k w }

/-- Latch one chip's report in P1 (R241, R251): while the chip reports POS_LOST the lanes keep their own positions. -/
def latchRep (chip : Nat) (rep : ChipRep) (a : ActSt) : ActSt :=
  let a := if chip = 0 then { a with rep0 := some rep } else { a with rep1 := some rep }
  if rep.chip.posLost then a
  else { a with tracked := (upto 48).foldl (fun t i => tset 0 t (48 * chip + i) (tget {} rep.chip.ch (48 * chip + i)).pos) a.tracked,
                strokes := (upto 48).foldl (fun t i => tset 0 t (48 * chip + i) (tget {} rep.chip.ch (48 * chip + i)).strokes) a.strokes }
/-- The result of a command as the report shows it (R244, R245). -/
def wantOutcome (k : Nat) (w : Want) (res : Nat) (r : RowSt) : RowSt :=
  let drop := rowAct (setWant k none)
  if res = 3 ∨ res = 5 ∨ res = 13 then drop r
  else if res = 4 then
    if w.tries = 0 then rowAct (setWant k (some { w with strong := true, tries := 1, phase := 2 })) r
    else (drop { r with act := { r.act with stuck := tset 0 r.act.stuck k w.tgt } }).ev 2 (0x30 + k / 8) (k % 8) Ev.valveStuck w.tgt
  else if res = 6 ∨ res = 7 then
    let r := r.ev 2 (0x30 + k / 8) (k % 8) Ev.valveRefused res
    if w.prot then rowAct (setWant k (some { w with phase := 2 })) r else drop r
  else (drop r).ev 2 (0x30 + k / 8) (k % 8) Ev.valveFailed res
/-- What the report latched in a tick says of a command whose last frame is two ticks old. One the chip dropped (R242) is emitted again as it was
first; one it ignored waits for its channel and bank. -/
def wantStep (tick k : Nat) (r : RowSt) : RowSt :=
  match (tget none r.act.want k : Option Want) with
  | some w =>
    if w.phase = 1 ∧ w.left = 0 ∧ w.last + 2 ≤ tick then
      match repCh r.act k with
      | some x =>
        if x.cmdId ≠ w.id then rowAct (setWant k (some { w with phase := if x.ignId = w.id then 2 else 0 })) r
        else if x.result = 1 ∨ x.result = 2 then r
        else wantOutcome k w x.result r
      | none => r
    else r
  | none => r
/-- P1: the reports of the ending tick (R241, R245, R282). -/
def actLatch (tick : Nat) (r : RowSt) : RowSt :=
  let a := r.act.repIn.foldl (fun a (x : Nat × ChipRep) => latchRep x.1 x.2 a) { r.act with repIn := [] }
  let a := { a with stuck := a.stuck.filter (fun (x : Nat × Nat) => tget 0 a.tracked x.1 != x.2) }
  (upto 96).foldl (fun r k => wantStep tick k r) { r with act := a }

/-! ### Valve commands -/

/-- A rule asks for a position of a channel; the same request, at least as protective, stands. -/
def wantValve (k tgt : Nat) (prot : Bool) (r : RowSt) : RowSt :=
  match (tget none r.act.want k : Option Want) with
  | some w => if w.tgt = tgt ∧ (w.prot ∨ ¬ prot) then r else rowAct (setWant k (some ⟨tgt, false, prot, 0, 0, 0, 0, 0⟩)) r
  | none => rowAct (setWant k (some ⟨tgt, false, prot, 0, 0, 0, 0, 0⟩)) r
/-- Effective hold of a channel's profile, as the lanes compute it (R235, R245). -/
def laneHold (rf : RegFile) (cal : CalSt) (k : Nat) (strong : Bool) : Nat :=
  (clampI 50 150 ((fget rf (F.VBANK_PROF_B_HOLD_I (k / 8) (2 * valveClass (k % 8) + b2n strong)) : Int) + vHoldTrim cal k)).toNat
/-- Hold sum of a bank as reported. -/
def repHold (a : ActSt) (b : Nat) : Nat :=
  nsum ((upto 8).map (fun n => match repCh a (8 * b + n) with | some x => if x.phase = 3 then x.holdI else 0 | none => 0))
/-- The bank of a channel is free for a command that is not protective (R245). -/
def bankFree (r : RowSt) (cal : CalSt) (k : Nat) (strong : Bool) : Bool :=
  match repBank r.act (k / 8) with
  | none => false
  | some b =>
    b.queue.isEmpty && (upto 8).all (fun n => match repCh r.act (8 * (k / 8) + n) with | some x => x.phase != 1 && x.phase != 2 | none => false) &&
      (match repCh r.act k with | some x => x.phase == 0 | none => false) &&
      decide (repHold r.act (k / 8) + laneHold r.regs cal k strong < 400)
/-- The bank's rail is boost-ready as reported (R292). -/
def repReady (r : RowSt) (k : Nat) : Bool :=
  match repBank r.act (k / 8) with
  | some b => decide (5 * fget r.regs (F.VBANK_RAIL_CFG_BOOST_MIN (k / 8)) ≤ b.rail)
  | none => false
/-- The next CMD_ID of a channel (R240). -/
def nextCid (c : Nat) : Nat := c % 255 + 1
/-- A command kept back: under HOLDUP all but a protective one on a boost-ready bank (R292), under a latched HANDOVER all but a protective
one (R368). -/
def keptBack (r : RowSt) (k : Nat) (w : Want) : Bool := (r.prot.hTick.isSome && !(w.prot && repReady r k)) || (r.prot.quiet && !w.prot)
/-- Give one waiting command its number when it may be emitted (R245): a protective one at once, one sent again when its bank is free, any other on a
free bank and no more than one to each bank. Answers the row and the banks so used. -/
def issueOne (cal : CalSt) (k : Nat) (x : RowSt × List Nat) : RowSt × List Nat :=
  let (r, banks) := x
  match (tget none r.act.want k : Option Want) with
  | some w =>
    let now : Bool := (w.phase == 0 && w.prot) || ((w.phase == 0 || w.phase == 2) && (w.prot || !banks.contains (k / 8)) && bankFree r cal k w.strong)
    if !keptBack r k w && now then
      let id := nextCid (tget 0 r.act.cid k)
      let w := { w with phase := 1, id := id, left := if valveClass (k % 8) = 0 then 2 else 1 }
      (rowAct (fun a => setWant k (some w) { a with cid := tset 0 a.cid k id }) r, if w.prot then banks else (k / 8) :: banks)
    else (r, banks)
  | none => (r, banks)
/-- Emit one numbered command: a class I command in two consecutive frames (R92). -/
def emitOne (tick k : Nat) (r : RowSt) : RowSt :=
  match (tget none r.act.want k : Option Want) with
  | some w =>
    if w.phase = 1 ∧ 0 < w.left ∧ !keptBack r k w then
      rowAct (fun a => setWant k (some { w with left := w.left - 1, last := tick })
        { a with items := a.items ++ [(k, valWord w.tgt w.strong w.prot w.id)] }) r
    else r
  | none => r
/-- The valve items of a tick. -/
def valveIssue (tick : Nat) (cal : CalSt) (r : RowSt) : RowSt :=
  let r := rowAct (fun a => { a with items := [] }) r
  let (r, _) := (upto 96).foldl (fun x k => issueOne cal k x) (r, ([] : List Nat))
  (upto 96).foldl (fun r k => emitOne tick k r) r

/-! ### The standby pump and the verdicts on pumps -/

/-- The lane holds an over-pressure verdict. -/
def overPress (r : RowSt) : Bool := r.prot.pressHi.on || r.prot.pressMax.on
/-- A rule starts the standby pump at a duty (R272, R277, R279, R280): not with a dry-run or an over-pressure verdict. -/
def startStandby (bypass : Bool) (duty : Nat) (r : RowSt) : RowSt :=
  let n := r.f F.PUMP_CFG_STANDBY
  if bitOf r.prot.dry n || overPress r then r
  else
    let a := r.act
    let last := lget 0 a.lastPump n
    { r with act := { a with lastPump := lset a.lastPump n (if a.sbOn then max last duty else duty),
                             sbBypass := if a.sbOn then a.sbBypass || bypass else bypass, sbOn := true,
                             standbyNow := true, standbyUrgent := a.standbyUrgent || bypass } }.ev 0 0x18 n Ev.standbyStart duty
/-- A pump's applied duty as reported, else the last field. -/
def pumpApplied (r : RowSt) (n : Nat) : Nat :=
  match repPump r.act n with
  | some x => x.applied
  | none => lget 0 r.act.lastPump n
/-- The duty pumps. -/
def dutyPumps (r : RowSt) : List Nat := (upto 4).filter (fun n => n != r.f F.PUMP_CFG_STANDBY)
/-- The highest duty among the duty pumps in RUN (R279); with none in RUN, full duty. -/
def topDuty (st : List BState) (r : RowSt) : Nat :=
  match ((dutyPumps r).filter (fun n => lget .off st n == .run)).map (fun n => pumpApplied r n) with
  | [] => 10000
  | x :: xs => xs.foldl max x

/-! ### Pump channels and fan groups, once a tick (R262, R265) -/

/-- Ticks of grant and of applied duty 0 of a channel. -/
def pumpTimesOne (tick : Nat) (st : BState) (granted : Bool) (n : Nat) (a : ActSt) : ActSt :=
  let g : Option Nat := if st = .starting then (match lget none a.grantTick n with | some t => some t | none => if granted then some tick else none) else none
  let zero : Bool := match repPump a n with | some x => x.applied == 0 | none => false
  let z : Option Nat := if st = .stopping then (match lget none a.zeroTick n with | some t => some t | none => if zero then some tick else none) else none
  { a with grantTick := lset a.grantTick n g, zeroTick := lset a.zeroTick n z }
def pumpStates (s : State) : List BState := (upto 4).map (fun n => (blkGet s (0x100 + n)).state)
def fanStates (s : State) : List BState := (upto 3).map (fun g => (blkGet s (0x40 + g)).state)
/-- PUMP_START_TIMEOUT: TIME seconds after the grant below RUN_RPM; under FORCE_SAFE no channel starts or stops. -/
def pumpStartTimeout (n : Nat) (s : State) : State :=
  let r := (s.lane s.lead).row
  if (blkGet s 0x48).safe then s
  else
  match (blkGet s (0x100 + n)).state, (lget none r.act.grantTick n : Option Nat) with
  | .starting, some g =>
    if g + 8192 * r.f F.PUMP_START_TIME ≤ s.time.count then
      (blockFault (0x100 + n) s).onRows (fun r => r.ev 2 0x48 n Ev.pumpStartFail 0)
    else s
  | _, _ => s
/-- PUMP_STOP_TIMEOUT: 30 s after the applied duty reached 0; not under FORCE_SAFE. -/
def pumpStopTimeout (n : Nat) (s : State) : State :=
  let r := (s.lane s.lead).row
  if (blkGet s 0x48).safe then s
  else
  match (blkGet s (0x100 + n)).state, (lget none r.act.zeroTick n : Option Nat) with
  | .stopping, some z => if z + 30 * 8192 ≤ s.time.count then blockStopComplete (0x100 + n) s else s
  | _, _ => s
/-- The transitions of one pump channel. -/
def pumpGo (n : Nat) (s : State) : State :=
  let r := (s.lane s.lead).row
  let k := 0x100 + n
  let speed : Option Nat := match repPump r.act n with | some x => x.rpm | none => none
  match (blkGet s k).state with
  | .starting =>
    match speed with
    | some v => if r.f F.PUMP_START_RUN_RPM ≤ v then blockReady k s else pumpStartTimeout n s
    | none => pumpStartTimeout n s
  | .stopping =>
    match speed with
    | some v => if 4 * v < r.f F.PUMP_START_RUN_RPM then blockStopComplete k s else pumpStopTimeout n s
    | none => pumpStopTimeout n s
  | .off => blockPendStart k s
  | _ => s
/-- R265 for every channel, and the page's STATE; the standby pump's bypass ends when it runs. -/
def pumpTick (s : State) : State :=
  if (blkGet s 0x48).safe then s
  else
    let s := pumpSyncAll s
    let st := pumpStates s
    let gr := (upto 4).map (fun n => (blkGet s (0x100 + n)).granted)
    let s := s.onRows (rowAct (fun a => (upto 4).foldl (fun a n => pumpTimesOne s.time.count (lget .off st n) (lget false gr n) n a) a))
    let s := pumpPage ((upto 4).foldl (fun s n => pumpGo n s) s)
    s.onRows (fun r => if (blkGet s (0x100 + r.f F.PUMP_CFG_STANDBY)).state = .run then rowAct (fun a => { a with sbBypass := false }) r else r)
/-- The enabled channels of a fan group. -/
def fanEnabled (r : RowSt) (g : Nat) : List Nat := (upto 16).filter (fun i => r.f (F.FAN_CH_CFG_EN g i) == 1)
/-- R262 for one group; a channel whose report is missing is in no known state. Under FORCE_SAFE a start is not awaited. -/
def fanGroupTick (g : Nat) (s : State) : State :=
  let r := (s.lane s.lead).row
  let k := 0x40 + g
  let reps := (fanEnabled r g).map (fun i => repFan r.act (16 * g + i))
  let xs := reps.filterMap id
  let whole := !reps.any (fun x => x.isNone)
  let b := blkGet s k
  if whole && !xs.isEmpty && xs.all (fun x => x.state == 4) && b.state != .fault && b.state != .off && b.state != .stopping then blockFault k s
  else
    match b.state with
    | .starting => if (whole && xs.all (fun x => x.state == 0 || x.state == 3 || x.state == 4)) || b.safe then blockReady k s else s
    | .stopping => if whole && xs.all (fun x => x.applied == 0) then blockStopComplete k s else s
    | .off => blockPendStart k s
    | _ => s
def fanTick (s : State) : State := (upto 3).foldl (fun s g => fanGroupTick g s) s

/-! ### Duty fields -/

def dutyField (d : Nat) (urgent off : Bool) : Nat := if off then 0x8000 else d % 16384 + 16384 * b2n urgent
/-- The upper bound rules set on a pump's duty (R282, R284, R288). -/
def pumpBound (r : RowSt) (n : Nat) : Nat :=
  let duty := n != r.f F.PUMP_CFG_STANDBY
  let b0 := if (pairRead r.sens 0).isNone then pumpApplied r n else 10000
  let b1 := if r.prot.pressHi.on && duty then pumpApplied r n - 200 else 10000
  let b2 := if r.prot.stuck && duty then r.f F.PROT_LEAK_STUCK_DUTY else 10000
  min b0 (min b1 b2)
/-- A field other than the loop output for the channel overrides the loop (R124). -/
def dutyOver (base : Option Nat) (f : Nat) : Bool := match base with | some b => bitOf f 15 || f % 16384 != b | none => false
/-- The field of one pump (R255, R265, R272): the loop's output, else the last value P5 decided. -/
def pumpField (st : BState) (safe : Bool) (n : Nat) (r : RowSt) : RowSt :=
  let base := destDuty r.regs r.loops 1 n
  let set := fun (f : Nat) (last : Nat) =>
    { r with act := { r.act with pumpF := lset r.act.pumpF n f, lastPump := lset r.act.lastPump n last },
             loops := { r.loops with overNow := tset false r.loops.overNow (destKey 1 n) (dutyOver base f) } }
  let last := lget 0 r.act.lastPump n
  if safe then set (dutyField (pumpApplied r n) false (st == .off)) last
  else match st with
    | .off => set (dutyField 0 false true) last
    | .stopping | .fault => set 0 last
    | _ =>
      let d0 := match base with | some b => if n = r.f F.PUMP_CFG_STANDBY ∧ r.act.sbOn then max b last else b | none => last
      let d := min d0 (pumpBound r n)
      set (dutyField d (n == r.f F.PUMP_CFG_STANDBY && r.act.sbBypass && st == .starting) false) (if base.isSome then last else d)
/-- The loop output for a fan channel: its own loop's, else its group's. -/
def fanBase (r : RowSt) (c : Nat) : Option Nat := match destDuty r.regs r.loops 2 c with | some b => some b | none => destDuty r.regs r.loops 3 (c / 16)
/-- The field of one fan channel (R255, R262, R285). -/
def fanField (st : BState) (safe : Bool) (c : Nat) (r : RowSt) : RowSt :=
  let base := fanBase r c
  let en := r.f (F.FAN_CH_CFG_EN (c / 16) (c % 16)) == 1
  let last := lget 0 r.act.lastFan c
  let (f, l) :=
    if !en || (st == .off && !safe) then (dutyField 0 false true, last)
    else if safe then (10000, last)
    else if st == .stopping then (if r.prot.supOver.on then 10000 else 0, last)
    else
      let d := match base with | some b => b | none => last
      let d := if r.prot.supOver.on then 10000 else d
      (d, if base.isSome then last else d)
  { r with act := { r.act with fanF := lset r.act.fanF c f, lastFan := lset r.act.lastFan c l },
           loops := { r.loops with overNow := tset false r.loops.overNow (destKey 2 c) (dutyOver (fanBase r c) f) } }
/-- A group destination is overridden when a channel of it is (R124). -/
def groupOver (r : RowSt) : RowSt :=
  { r with loops := { r.loops with overNow := (upto 3).foldl (fun t g =>
      tset false t (destKey 3 g) ((upto 16).any (fun i => tget false t (destKey 2 (16 * g + i))))) r.loops.overNow } }
/-- The destinations whose final duty differs from the loop output, as the duty fields stand (R124). -/
def overAll (r : RowSt) : RowSt :=
  let t := (upto 4).foldl (fun t n => tset false t (destKey 1 n) (dutyOver (destDuty r.regs r.loops 1 n) (lget 0 r.act.pumpF n))) r.loops.overNow
  let t := (upto 48).foldl (fun t c => tset false t (destKey 2 c) (dutyOver (fanBase r c) (lget 0 r.act.fanF c))) t
  groupOver { r with loops := { r.loops with overNow := t } }
/-- The pump and fan fields of a tick, from the channel and group states. -/
def dutyFields (pst fst : List BState) (psafe : Bool) (fsafe : List Bool) (r : RowSt) : RowSt :=
  let r := (upto 4).foldl (fun r n => pumpField (lget .off pst n) psafe n r) r
  groupOver ((upto 48).foldl (fun r c => fanField (lget .off fst (c / 16)) (lget false fsafe (c / 16)) c r) r)

def execPumpStartTimeout (pump : Fin 4) (s : State) : Host.Outcome State Fault Refusal := .next (pumpStartTimeout pump.val s)
def execPumpStopTimeout (pump : Fin 4) (s : State) : Host.Outcome State Fault Refusal := .next (pumpStopTimeout pump.val s)

end Sys2Proof.Machine
end

