-- ==== Sys2Proof/Machine/Protect.lean ====
section
/-! DEFINITION. The protection rules (R272–R293), evaluated in P5 of every tick by every lane that computes in step. -/
namespace Sys2Proof.Machine
open Sys2Proof

/-! ### Helpers -/

def rowProt (f : ProtSt → ProtSt) (r : RowSt) : RowSt := { r with prot := f r.prot }
/-- A verdict's runs in a tick. -/
def latchRun (on off : Bool) (l : Latch) : Latch := { l with onRun := runNext on l.onRun, offRun := runNext off l.offRun }
/-- The runs order the verdict entered, or ended. -/
def latchEnters (n : Nat) (l : Latch) : Bool := !l.on && decide (n ≤ l.onRun)
def latchEnds (l : Latch) : Bool := l.on && decide (8 ≤ l.offRun)
def latchSet (tick : Nat) (l : Latch) : Latch := { l with on := true, since := tick, shut := false }
def latchEnd (l : Latch) : Latch := { l with on := false, shut := false }
/-- A protection event (class 0). -/
def RowSt.pev (r : RowSt) (sub code arg : Nat) : RowSt := r.ev 0 0x18 sub code arg
/-- A Haboob decided in this tick (R273). -/
def addHab (racks cause : Nat) (off : Bool) (r : RowSt) : RowSt :=
  rowProt (fun p => { p with hab := p.hab ++ [(racks, cause, off)] }) r
def orBits (a b : Nat) : Nat := a ||| b
def clrBits (a b : Nat) : Nat := a - (a &&& b)

/-! ### Step 1: hold-up (R292) -/

/-- Every configured endpoint drops to min(C_e, HOLD_CAP_e). -/
def holdDrops (tick : Nat) (r : RowSt) : RowSt :=
  (capEndpoints r.caps).foldl (fun r e =>
    let v := min (epAt r.caps e).c (capHoldCap r.caps e)
    capLower tick e v { r with caps := { r.caps with drops := r.caps.drops ++ [(e, v)] } }) r
def protHoldup (tick : Nat) (r : RowSt) : RowSt :=
  if r.prot.hup then
    match r.prot.hTick with
    | none =>
      let r := slipAbort tick 4 r
      let r := rowProt (fun p => { p with hTick := some tick, hCount := satAdd 0xFFFF p.hCount 1 }) r
      ((holdDrops tick r).pev 0xFFFF Ev.holdup 0).irq 0x18 10
    | some _ => r
  else rowProt (fun p => { p with hTick := none }) r

/-! ### Step 2: leaks (R281–R283) -/

/-- The response to a rack's leak verdict. -/
def leakRack (rack : Nat) (r : RowSt) : RowSt :=
  let bit := 2 ^ rack
  let r := addHab bit 4 true r
  let r := rowProt (fun p => { p with leakHab := orBits p.leakHab bit, roff := orBits p.roff bit, iso := orBits p.iso bit,
                                      reopen := clrBits p.reopen bit, reopenSent := clrBits p.reopenSent bit,
                                      tclose := p.tclose ++ [rack] }) r
  let r := wantValve (isoReturn rack) 2 true (wantValve (isoSupply rack) 2 true r)
  (r.pev rack Ev.leak 0).irq 0x18 9
/-- Racks whose class I valve on a leaking side is stuck (R282). -/
def leakStuck (r : RowSt) : Bool :=
  (upto 24).any (fun k => bitOf (leakBits r.sens) k && (tget 0 r.act.stuck (isoSupply k) == 2 || tget 0 r.act.stuck (isoReturn k) == 2))
/-- Racks whose rope is in FAULT (R283). -/
def blindRacks (s : SensSt) : Nat :=
  nsum ((upto 24).map (fun k => if (chanAt s (32 * (4 + k / 16) + k % 16)).state = .fault then 2 ^ k else 0))
def protLeaks (r : RowSt) : RowSt :=
  let now := leakBits r.sens % 2 ^ 24
  let new := clrBits now r.prot.leaks
  let old := r.prot.tclose
  let r := rowProt (fun p => { p with leaks := now, tclose := [] }) r
  let r := ((upto 24).filter (fun k => bitOf new k)).foldl (fun r k => leakRack k r) r
  let r := old.foldl (fun r k => wantValve (isoReturn k + 4) 2 true (wantValve (isoSupply k + 4) 2 true r)) r
  let cdu := leakBits r.sens / 2 ^ 24
  let r := if clrBits cdu r.prot.cdu = 0 then r else r.pev 0xFFFF Ev.cduLeak (clrBits cdu r.prot.cdu)
  let bl := blindRacks r.sens
  let r := if clrBits bl r.prot.blind = 0 then r else r.pev 0xFFFF Ev.leakBlind (clrBits bl r.prot.blind)
  let st := leakStuck r
  let r := if st ∧ r.prot.stuck = false then r.pev 0xFFFF Ev.leakStuck 0 else r
  rowProt (fun p => { p with cdu := cdu, blind := bl, stuck := st }) r

/-! ### Commanded flow (R276) -/

def bitCount (x : Nat) : Nat := nsum ((upto 24).map (fun k => b2n (bitOf x k)))
/-- Q_cmd in L/min at binary point 16; with no configured rack its factor is 0/0 and the value free (log entry 86). -/
def qCmd (r : RowSt) : Int :=
  let j := r.f F.PROT_FLOW_NODE
  let n := convQ (bSbp r.loops.act j) 16 (loopNode r.regs r.loops j)
  let q := max n ((r.f F.PROT_FLOW_QMIN : Int) * 65536)
  let conf := confRacks r.caps
  if bitCount conf = 0 then Config.flowUnconf q else qdiv (q * (bitCount (clrBits conf r.prot.iso) : Int)) (bitCount conf : Int)
def protFlowCmd (r : RowSt) : RowSt := let q := qCmd r; rowProt (fun p => { p with qcmd := q }) r

/-! ### Steps 3 and 4: pressure and supply temperature (R284, R285) -/

/-- PRESS_HI as its runs stand. -/
def pressHiSet (tick : Nat) (r : RowSt) : RowSt :=
  if latchEnters 8 r.prot.pressHi then (rowProt (fun p => { p with pressHi := latchSet tick p.pressHi }) r).pev 0xFFFF Ev.pressHi 1 else r
def pressHiEnd (r : RowSt) : RowSt :=
  if latchEnds r.prot.pressHi then (rowProt (fun p => { p with pressHi := latchEnd p.pressHi }) r).pev 0xFFFF Ev.pressHi 0 else r
def pressMaxSet (tick : Nat) (r : RowSt) : RowSt :=
  if latchEnters 8 r.prot.pressMax then
    (addHab (confRacks r.caps) 2 false (rowProt (fun p => { p with pressMax := latchSet tick p.pressMax }) r)).pev 0xFFFF Ev.pressMax 1
  else r
def pressMaxEnd (r : RowSt) : RowSt :=
  if latchEnds r.prot.pressMax then (rowProt (fun p => { p with pressMax := latchEnd p.pressMax }) r).pev 0xFFFF Ev.pressMax 0 else r
def protPress (tick : Nat) (r : RowSt) : RowSt :=
  match pairRead r.sens 0 with
  | none => rowProt (fun p => { p with pressHi := latchRun false false p.pressHi, pressMax := latchRun false false p.pressMax }) r
  | some x =>
    let hi : Int := (r.f F.PROT_PRESS_HI : Int) * 65536
    let mx : Int := (r.f F.PROT_PRESS_MAX : Int) * 65536
    let hy : Int := (r.f F.PROT_PRESS2_HYST : Int) * 65536
    let r := rowProt (fun p => { p with pressHi := latchRun (decide (hi ≤ 10 * x)) (decide (10 * x < hi - hy)) p.pressHi,
                                        pressMax := latchRun (decide (mx ≤ 10 * x)) (decide (10 * x < mx - hy)) p.pressMax }) r
    pressMaxEnd (pressMaxSet tick (pressHiEnd (pressHiSet tick r)))
def supOverSet (tick : Nat) (r : RowSt) : RowSt :=
  if latchEnters 8 r.prot.supOver then
    (addHab (confRacks r.caps) 3 false (rowProt (fun p => { p with supOver := latchSet tick p.supOver }) r)).pev 0xFFFF Ev.supOver 1
  else r
def supOverEnd (r : RowSt) : RowSt :=
  if latchEnds r.prot.supOver then (rowProt (fun p => { p with supOver := latchEnd p.supOver }) r).pev 0xFFFF Ev.supOver 0 else r
def protSup (tick : Nat) (r : RowSt) : RowSt :=
  match pairRead r.sens 3 with
  | none => rowProt (fun p => { p with supOver := latchRun false false p.supOver }) r
  | some x =>
    let m : Int := (r.f F.PROT_TEMP_SUP_MAX : Int) * 65536
    supOverEnd (supOverSet tick (rowProt (fun p =>
      { p with supOver := latchRun (decide (m ≤ x)) (decide (x < m - 131072)) p.supOver }) r))

/-! ### Steps 5 to 7: flow and pumps (R277–R280, R288) -/

/-- FLOW_STOP as its run stands: Haboob 01h and the urgent standby start. -/
def flowStopSet (tick : Nat) (r : RowSt) : RowSt :=
  if latchEnters 41 r.prot.flowStop then
    startStandby true 10000 ((addHab (confRacks r.caps) 1 false
      (rowProt (fun p => { p with flowStop := latchSet tick p.flowStop }) r)).pev 0xFFFF Ev.flowStop 1)
  else r
def flowStopEnd (r : RowSt) : RowSt :=
  if latchEnds r.prot.flowStop then (rowProt (fun p => { p with flowStop := latchEnd p.flowStop }) r).pev 0xFFFF Ev.flowStop 0 else r
def protFlow (tick : Nat) (st : List BState) (r : RowSt) : RowSt :=
  match pairRead r.sens 5 with
  | none =>
    let r := if r.prot.lost5 then r else startStandby false (topDuty st r) r
    rowProt (fun p => { p with lost5 := true, win := [], flowStop := latchRun false false p.flowStop, eRun := 0, nRun := 0 }) r
  | some x =>
    let q := r.prot.qcmd
    flowStopEnd (flowStopSet tick (rowProt (fun p =>
      { p with lost5 := false, flowStop := latchRun (decide (5 * x < q)) (decide (q ≤ 2 * x)) p.flowStop }) r))

/-- Conditions (a) and (b) of R269 for a pump: the inlet reading (none: pair 1 LOST), and the power against the cube law. -/
def dryA (r : RowSt) : Bool :=
  match pairRead r.sens 1 with
  | some x => decide (10 * x < (r.f F.PUMP_DRY_INLET : Int) * 65536)
  | none => false
def dryB (r : RowSt) (n : Nat) : Bool :=
  match repPump r.act n with
  | some x => !x.mbLost && decide (lget 0 x.mb 1 * 100 * r.f F.PUMP_RATED_RPM ^ 3 < r.f F.PUMP_RATED_P * r.f F.PUMP_DRY_PCT * lget 0 x.mb 0 ^ 3)
  | none => false
def dryLost (r : RowSt) (n : Nat) : Bool :=
  match repPump r.act n with
  | some x => x.mbLost
  | none => true
/-- The dry-run verdict as a pump's runs stand, and the response of R280. -/
def dryVerdict (n : Nat) (r : RowSt) : RowSt :=
  let p := r.prot
  if !bitOf p.dry n && (decide (2048 ≤ lget 0 p.dryAB n) || decide (8192 ≤ lget 0 p.dryA n) || decide (8192 ≤ lget 0 p.dryB n)) then
    let r := (rowProt (fun p => { p with dry := setBitN p.dry n }) r).pev n Ev.dryRun 0
    let r := r.irq 0x48 8
    if n = r.f F.PUMP_CFG_STANDBY then r else startStandby false (pumpApplied r n) r
  else r
def protDryOne (st : List BState) (n : Nat) (r : RowSt) : RowSt :=
  let run := lget .off st n == .run && !bitOf r.prot.dry n
  let a := run && dryA r
  let b := run && dryB r n
  let lost1 := (pairRead r.sens 1).isNone
  let r := rowProt (fun p => { p with dryAB := lset p.dryAB n (runNext (a && b) (lget 0 p.dryAB n)),
                                      dryA := lset p.dryA n (runNext (a && dryLost r n) (lget 0 p.dryA n)),
                                      dryB := lset p.dryB n (runNext (b && lost1) (lget 0 p.dryB n)) }) r
  dryVerdict n r
def protDry (st : List BState) (r : RowSt) : RowSt := (upto 4).foldl (fun r n => protDryOne st n r) r
/-- PUMP_DRY_CLR. -/
def dryClear (bits : Nat) (r : RowSt) : RowSt :=
  rowProt (fun p => (upto 4).foldl (fun p n =>
    if bitOf bits n then { p with dry := clrBitN p.dry n, dryAB := lset p.dryAB n 0, dryA := lset p.dryA n 0, dryB := lset p.dryB n 0 } else p) p) r

/-- Condition E of R279: a least-squares slope over 1,024 readings, newest first, at or below −SLOPE, and the reading below 95 %. -/
def declE (slope : Nat) (q : Int) (w : List Int) : Bool :=
  if w.length = 1024 ∧ 0 < q then
    let xy := w.foldl (fun (a : Int × Int × Int) y => (a.1 - 1, a.2.1 + y, a.2.2 + a.1 * y)) ((0 : Int), (0 : Int), (0 : Int))
    let n : Int := 1024
    let sx : Int := -523776
    let sxx : Int := 357389824
    let num := n * xy.2.2 - sx * xy.2.1
    let den := n * sxx - sx * sx
    let y0 := w.head?.getD 0
    decide (100 * y0 < 95 * q) && decide (num * 819200 ≤ -(slope : Int) * q * den)
  else false
/-- Condition M of R279. -/
def declM (r : RowSt) : Bool :=
  match r.adv with
  | some a => decide (r.f F.PROT_DECL_NPKG ≤ (a.msg.recs.filter (fun (x : Nat × AdvRec) =>
      bitOf x.2.flags 0 && decide ((r.f F.PROT_DECL_RISE : Int) * 65536 ≤ x.2.rise))).length)
  | none => false
def flowDeclSet (st : List BState) (r : RowSt) : RowSt :=
  let p := r.prot
  if !p.flowDecl && !p.flowStop.on && ((decide (1024 ≤ p.eRun) && declM r) || (p.conserv && decide (4096 ≤ p.eRun))) then
    startStandby false (topDuty st r) ((rowProt (fun p => { p with flowDecl := true, nRun := 0 }) r).pev 0xFFFF Ev.flowDecl 1)
  else r
def flowDeclEnd (r : RowSt) : RowSt :=
  if r.prot.flowDecl && decide (8192 ≤ r.prot.nRun) then (rowProt (fun p => { p with flowDecl := false }) r).pev 0xFFFF Ev.flowDecl 0 else r
def protDecline (st : List BState) (r : RowSt) : RowSt :=
  match pairRead r.sens 5 with
  | none => r
  | some x =>
    let w := (x :: r.prot.win).take 1024
    if r.prot.flowStop.on then rowProt (fun p => { p with win := w, eRun := 0 }) r
    else
      let e := declE (r.f F.PROT_DECL_SLOPE) r.prot.qcmd w
      flowDeclEnd (flowDeclSet st (rowProt (fun p => { p with win := w, eRun := runNext e p.eRun, nRun := runNext (!e) p.nRun }) r))

/-! ### Step 8: dew point (R287, R288) -/

/-- The setpoint of the override, Q32 binary point 16. -/
def dewSp (r : RowSt) : Int := q32 (qdiv ((r.sens.dewFloor + 10 * (r.f F.PROT_DEW_STEP : Int)) * 65536) 100)
/-- The override ends once the verdict has been absent for 8,192 ticks. -/
def dewEnd (r : RowSt) : RowSt :=
  if r.prot.dewOn && decide (8192 < r.prot.dewAbs) then (rowProt (fun p => { p with dewOn := false, spOver := none }) r).pev 0xFFFF Ev.dewOver 0 else r
def dewBreachOp (r : RowSt) : RowSt :=
  if !r.prot.breach && decide (8 ≤ r.prot.breachRun) then (rowProt (fun p => { p with breach := true }) r).pev 0xFFFF Ev.dewBreach 0 else r
def protDew (r : RowSt) : RowSt :=
  let v := r.sens.dewVerdict || (pairRead r.sens 3).isNone
  let start := v && !r.prot.dewOn
  let r := rowProt (fun p => { p with dewAbs := if v then 0 else p.dewAbs + 1, dewOn := p.dewOn || v }) r
  let r := if start then r.pev 0xFFFF Ev.dewOver 1 else r
  let r := dewEnd r
  let x := dewSp r
  let r := rowProt (fun p => { p with spOver := if p.dewOn then some (r.f F.PROT_DEW_LOOP, x) else none, spSet := none }) r
  let low : Bool := match tsupLow r.sens with
    | some t => decide (t * 100 < r.sens.dewMax * 65536)
    | none => false
  let r := rowProt (fun p => { p with breachRun := runNext low p.breachRun, breach := p.breach && low }) r
  dewBreachOp r

/-! ### PROT_CMD (R273, R275, R278) and reopening -/

/-- A condition of R274 in force for every configured rack. -/
def condOn (r : RowSt) : Bool := r.prot.flowStop.on || r.prot.pressMax.on || r.prot.supOver.on
def protResult (n : Nat) (r : RowSt) : RowSt := rowProt (fun p => { p with res := n }) r
def cmdHaboob (r : RowSt) : RowSt :=
  let racks := r.f F.PROT_CMD_RACKS_RACKS
  protResult 1 (addHab racks 5 false (rowProt (fun p => { p with op := orBits p.op racks }) r))
def cmdHaboobEnd (r : RowSt) : RowSt := if r.prot.op = 0 then protResult 3 r else protResult 1 (rowProt (fun p => { p with op := 0 }) r)
def cmdRestore (rack : Nat) (r : RowSt) : RowSt :=
  if (condOn r && bitOf (confRacks r.caps) rack) || bitOf (leakBits r.sens) rack then protResult 2 r
  else
    let bit := 2 ^ rack
    let r := rowProt (fun p => { p with roff := clrBits p.roff bit, leakHab := clrBits p.leakHab bit, reopenSent := clrBits p.reopenSent bit,
                                        reopen := if bitOf p.iso rack then orBits p.reopen bit else p.reopen }) r
    let caps := (upto 96).foldl (fun c n => modEp c (96 * rack + n) (fun x => { x with off := false, tripRun := 0, coolRun := 0 })) r.caps
    protResult 1 ({ r with caps := caps }.pev rack Ev.restore 0)
def cmdStandbyRet (st : List BState) (r : RowSt) : RowSt :=
  if r.act.sbOn = false ∨ lget .off st (r.f F.PUMP_CFG_STANDBY) ≠ .run then protResult 3 r
  else if (dutyPumps r).all (fun n => lget .off st n == .run) then protResult 1 (rowAct (fun a => { a with sbOn := false, sbBypass := false }) r)
  else protResult 2 r
/-- The command applied in P0 of this tick. -/
def protCmd (st : List BState) (r : RowSt) : RowSt :=
  match r.prot.cmd with
  | none => r
  | some (c, rack) =>
    let r := rowProt (fun p => { p with cmd := none }) r
    if c = 1 then cmdHaboob r else if c = 2 then cmdHaboobEnd r else if c = 3 then cmdRestore rack r
    else if c = 4 then cmdStandbyRet st r else r
/-- R275: reopen restored racks, class I first; a rack leaves PROT_ISO when both class I valves report OPEN. -/
def reopenRack (k : Nat) (r : RowSt) : RowSt :=
  let bit := 2 ^ k
  if !bitOf r.prot.reopen k then r
  else if !bitOf r.prot.reopenSent k then
    wantValve (isoReturn k) 1 false (wantValve (isoSupply k) 1 false (rowProt (fun p => { p with reopenSent := orBits p.reopenSent bit }) r))
  else if tget 0 r.act.tracked (isoSupply k) = 1 ∧ tget 0 r.act.tracked (isoReturn k) = 1 then
    wantValve (isoReturn k + 4) 1 false (wantValve (isoSupply k + 4) 1 false
      (rowProt (fun p => { p with iso := clrBits p.iso bit, reopen := clrBits p.reopen bit, reopenSent := clrBits p.reopenSent bit }) r))
  else r
def protReopen (r : RowSt) : RowSt := if r.prot.hup then r else (upto 24).foldl (fun r k => reopenRack k r) r

/-! ### Shutdown timers and the Haboob frame (R273, R274) -/

def latchDue (tick : Nat) (l : Latch) : Bool := l.on && !l.shut && decide (l.since + 16384 ≤ tick)
/-- SHUTDOWN_TIMER: a condition still in force 16,384 ticks after its entry. -/
def shutdownTimer (tick : Nat) (r : RowSt) : RowSt :=
  let p := r.prot
  if latchDue tick p.flowStop || latchDue tick p.pressMax || latchDue tick p.supOver then
    let f := fun (l : Latch) => if latchDue tick l then { l with shut := true } else l
    ((rowProt (fun p => { p with flowStop := f p.flowStop, pressMax := f p.pressMax, supOver := f p.supOver,
                                 roff := orBits p.roff (confRacks r.caps) }) r).pev 0xFFFF Ev.shutdown 0).irq 0x18 9
  else r
/-- Racks with a Haboob in force. -/
def habInForce (r : RowSt) : Nat := orBits (orBits r.prot.leakHab r.prot.op) (if condOn r then confRacks r.caps else 0)
/-- A Haboob whose condition has ended is no longer in force. -/
def habConditionEnd (r : RowSt) : RowSt := { r with caps := { r.caps with habRacks := habInForce r } }
/-- The one Haboob frame of the tick: union of racks, lowest cause, OFF if any sets it. -/
def habAssemble (tick : Nat) (r : RowSt) : RowSt :=
  let hs := r.prot.hab
  let r := rowProt (fun p => { p with hab := [] }) r
  let r := match hs with
    | [] => r
    | h :: t =>
      let racks := t.foldl (fun a (x : Nat × Nat × Bool) => orBits a x.1) h.1
      let cause := t.foldl (fun a (x : Nat × Nat × Bool) => min a x.2.1) h.2.1
      let off := t.foldl (fun a (x : Nat × Nat × Bool) => a || x.2.2) h.2.2
      (capHaboob tick racks cause off r).pev 0xFFFF Ev.haboob (racks + 2 ^ 24 * cause)
  habConditionEnd r

/-! ### The page's words -/

def shutLeft (tick : Nat) (l : Latch) : List Nat := if l.on && !l.shut then [l.since + 16384 - tick] else []
/-- PROT_STAT bits 11 to 0. -/
def protStatBits (r : RowSt) : Nat :=
  let p := r.prot
  b2n p.flowStop.on + 2 * b2n p.flowDecl + 4 * b2n p.pressHi.on + 8 * b2n p.pressMax.on + 16 * b2n p.supOver.on + 32 * b2n p.dewOn +
    64 * b2n p.breach + 128 * b2n p.hup + 256 * b2n p.oneFeed + 512 * b2n p.stuck + 1024 * b2n (p.op != 0) + 2048 * b2n (p.cdu != 0)
/-- The protection page after P5 (R39): status words and BLOCK_IRQ bit 8. -/
def protPublish (tick : Nat) (r : RowSt) : RowSt :=
  let old := (rget r.regs 0x18140).toNat % 4096
  let now := protStatBits r
  let r := if clrBits now old = 0 then r else r.irq 0x18 8
  let p := r.prot
  let left := shutLeft tick p.flowStop ++ shutLeft tick p.pressMax ++ shutLeft tick p.supOver
  let l : Nat := match left with | [] => 0 | x :: xs => xs.foldl min x
  let rf := rset r.regs 0x18140 (BitVec.ofNat 32 (now + 65536 * min l 0xFFFF))
  let rf := fset (fset rf F.PROT_ISO_RACKS p.iso) F.PROT_BLIND_RACKS p.blind
  let rf := fset (fset rf F.PROT_FLOW_STAT_QCMD (min 0xFFFF (p.qcmd / 65536).toNat)) F.PROT_FLOW_STAT_RUN (min 63 p.flowStop.onRun)
  let rf := fset rf F.PROT_HOLDUP_COUNT p.hCount
  let rf := match p.hTick with | some h => fset rf F.PROT_HOLDUP_TICKS (min 0x1FF (tick - h)) | none => rf
  let rf := fset rf F.PROT_OFF_EP_COUNT ((r.caps.ep.filter (fun (x : Nat × EpCap) => x.2.off)).length)
  let rf := fset (fset rf F.PROT_CMD_RESULT p.res) F.PROT_CMD_CMD 0
  { r with regs := rf }

/-- P5 of R272 up to the assembly of the Haboob frame, with the pump channel states `st`. -/
def p5Rules (tick : Nat) (st : List BState) (r : RowSt) : RowSt :=
  let r := rowAct (fun a => { a with standbyNow := false, standbyUrgent := false }) r
  let r := protFlowCmd (protLeaks (protHoldup tick { r with caps := { r.caps with drops := [], follows := [], habSent := habEmitted tick r.caps } }))
  let r := protDew (protDecline st (protDry st (protFlow tick st (protSup tick (protPress tick r)))))
  let r := rowProt (fun p => { p with noRise := p.pressHi.on || p.supOver.on || (pairRead r.sens 3).isNone || (pairRead r.sens 5).isNone }) r
  let r := pkgOffTick tick (capDrops tick r)
  let r := shutdownTimer tick (protReopen (protCmd st r))
  habAssemble tick r

/-! ### The forecast (R22, R289) -/

/-- ADVISORY_EXPIRY: 24 ticks after it was latched. -/
def advExpire (tick : Nat) (r : RowSt) : RowSt :=
  match r.adv with
  | some a =>
    if a.tick + 24 ≤ tick then
      let r := { r with adv := none }
      if r.prot.conserv then r else (rowProt (fun p => { p with conserv := true }) r).pev 0xFFFF Ev.conserv 1
    else r
  | none => r
/-- CONSERV clears with the eighth consecutive agreed advisory latched in tick 2. -/
def conservClear (r : RowSt) : RowSt :=
  if r.prot.conserv && decide (8 ≤ r.prot.advRun) then (rowProt (fun p => { p with conserv := false }) r).pev 0xFFFF Ev.conserv 0 else r

/-! ### The commands -/

def execFlowStop (s : State) : Host.Outcome State Fault Refusal := .next (s.onRows (flowStopSet s.time.count))
def execFlowRestored (s : State) : Host.Outcome State Fault Refusal := .next (s.onRows flowStopEnd)
def execFlowDecl (s : State) : Host.Outcome State Fault Refusal := .next (s.onRows (flowDeclSet (pumpStates s)))
def execFlowDeclEnd (s : State) : Host.Outcome State Fault Refusal := .next (s.onRows flowDeclEnd)
def execPressHi (s : State) : Host.Outcome State Fault Refusal := .next (s.onRows (pressHiSet s.time.count))
def execPressHiEnd (s : State) : Host.Outcome State Fault Refusal := .next (s.onRows pressHiEnd)
def execPressMax (s : State) : Host.Outcome State Fault Refusal := .next (s.onRows (pressMaxSet s.time.count))
def execSupOver (s : State) : Host.Outcome State Fault Refusal := .next (s.onRows (supOverSet s.time.count))
/-- A Haboob whose condition has ended: pressure and temperature by their runs, and the racks still in force. -/
def execHaboobConditionEnd (s : State) : Host.Outcome State Fault Refusal :=
  .next (s.onRows (fun r => habConditionEnd (supOverEnd (pressMaxEnd (flowStopEnd r)))))
def execShutdownTimer (s : State) : Host.Outcome State Fault Refusal := .next (s.onRows (shutdownTimer s.time.count))
/-- PROT_CMD applied in P0 of the coming tick; the lanes act on it in that tick's P5. -/
def protCmdWrite (c rack : Nat) (l : Lane) : Lane := { l with row := (rowProt (fun p => { p with cmd := some (c, rack) }) l.row) }
def protRacks (racks : Nat) (l : Lane) : Lane := { l with row := l.row.setF F.PROT_CMD_RACKS_RACKS racks }
def execProtCmdHaboob (racks : BitVec 24) (s : State) : Host.Outcome State Fault Refusal :=
  .next (s.laneWrite 0x18 false (fun l => protCmdWrite 1 0 (protRacks racks.toNat l)))
def execProtCmdHaboobEnd (s : State) : Host.Outcome State Fault Refusal := .next (s.laneWrite 0x18 true (protCmdWrite 2 0))
def execProtCmdRestore (rack : Fin 24) (s : State) : Host.Outcome State Fault Refusal := .next (s.laneWrite 0x18 true (protCmdWrite 3 rack.val))
def execProtCmdStandbyRet (s : State) : Host.Outcome State Fault Refusal := .next (s.laneWrite 0x18 true (protCmdWrite 4 0))
def execPackageOff (endpoint : Fin 2304) (s : State) : Host.Outcome State Fault Refusal := .next (s.onRows (pkgOffSet endpoint.val))
def execPackageOffClear (endpoint : Fin 2304) (s : State) : Host.Outcome State Fault Refusal := .next (s.onRows (pkgOffClear endpoint.val))
def execDewOverrideEnd (s : State) : Host.Outcome State Fault Refusal := .next (s.onRows dewEnd)
def execDewBreach (s : State) : Host.Outcome State Fault Refusal := .next (s.onRows dewBreachOp)
def execDryRunVerdict (pump : Fin 4) (s : State) : Host.Outcome State Fault Refusal := .next (s.onRows (dryVerdict pump.val))
def execPumpDryClr (bits : BitVec 4) (s : State) : Host.Outcome State Fault Refusal :=
  .next (s.laneWrite 0x48 true (laneRow (dryClear bits.toNat)))
def execAdvisoryExpiry (s : State) : Host.Outcome State Fault Refusal := .next (s.onRows (advExpire s.time.count))
def execConservClear (s : State) : Host.Outcome State Fault Refusal := .next (s.onRows conservClear)

end Sys2Proof.Machine
end

