-- ==== Sys2Proof/Machine/CapsCmd.lean ====
section
/-! DEFINITION. The meanings of the cap table and Slipface commands, with the limits of R194 and R217 on a table word. -/
namespace Sys2Proof.Machine
open Sys2Proof

/-- The fields of a table word, with Min and Max (R217): least bit, width, Min, Max; reserved bits are 0. -/
def tblFields (sel : Nat) : List (Nat × Nat × Nat × Nat) :=
  if sel = 1 then [(0, 16, 0, 0xFFFF), (16, 16, 0, 0xFFFF)]
  else if sel = 2 then [(0, 8, 0x3C, 0x7D), (8, 16, 0x64, 0x2710), (24, 1, 0, 1), (25, 7, 0, 0)]
  else if sel = 3 then [(0, 10, 0, 0x3FF), (10, 6, 0, 0), (16, 16, 0, 0xFFFF)]
  else []
/-- One touched field of a table word: its Min and Max, then its relation (R40): FLOOR below MAX, HOLD at least FLOOR. -/
def tblFieldCode (c : CapSt) (sel e v : Nat) (f : Nat × Nat × Nat × Nat) : Option Reply :=
  let (lo, w, mn, mx) := f
  let x := bitsOf v lo w
  if x < mn then some .belowMin
  else if mx < x then some .aboveMax
  else if sel = 1 ∧ bitsOf v 16 16 ≤ bitsOf v 0 16 then some (if lo = 0 then .aboveMax else .belowMin)
  else if sel = 1 ∧ lo = 0 ∧ capLatest c 3 e / 65536 < x then some .aboveMax
  else if sel = 3 ∧ lo = 16 ∧ x < capLatest c 1 e % 65536 then some .belowMin
  else none
/-- R40, R43, R217: the refusal of a table word, if any: the fields that the mask touches, in ascending bit order, with the words of the other
tables as the writes so far leave them. -/
def tblLimit (c : CapSt) (sel e v mask : Nat) : Option Reply :=
  if 2304 ≤ e then some .aboveMax
  else (tblFields sel).findSome? (fun f => if bitsOf mask f.1 f.2.1 = 0 then none else tblFieldCode c sel e v f)
/-- R217: whether the word raises a safety limit. -/
def tblGuard (c : CapSt) (sel e v : Nat) : Bool :=
  let o := capLatest c sel e
  if sel = 1 then decide (o % 65536 < v % 65536 ∨ o / 65536 < v / 65536)
  else if sel = 2 then decide (o % 256 < v % 256 ∨ bitsOf o 8 16 ≠ bitsOf v 8 16)
  else if sel = 3 then decide (o / 65536 < v / 65536)
  else false
/-- The write of CAPC_TBL_WDATA_k at the pointer in force, when the lanes accept it. -/
def tblWrite (k data : Nat) (s : State) : State :=
  let r := (s.lane s.lead).row
  let e := r.f F.CAPC_TBL_PTR_IDX + k
  let sel := r.f F.CAPC_TBL_PTR_SEL
  match tblLimit r.caps sel e data 0xFFFFFFFF with
  | none => s.laneWrite 0x60 (tblGuard r.caps sel e data) (laneRow (fun r => { r with caps := capTblWrite e sel data r.caps }))
  | some _ => s
def execCapcTblWdata (k : Fin 7) (data : Word) (s : State) : Host.Outcome State Fault Refusal := .next (tblWrite k.val data.toNat s)
def execGatherTimeout (s : State) : Host.Outcome State Fault Refusal := .next (s.onRows (gatherTimeout s.time.count))
def execIdleDwell (endpoint : Fin 2304) (s : State) : Host.Outcome State Fault Refusal := .next (s.onRows (idleDwell endpoint.val))

def rowSlip (f : SlipSt → SlipSt) (r : RowSt) : RowSt := { r with slip := f r.slip }
/-- ACK (R222–R224): it comes to the ports its copies were sent to, and both lanes receive it with the tick of its last byte; P1 of the next
tick latches it. A copy sent to a port without link is lost. -/
def execAck (endpoint : Fin 2304) (epoch : Word) (cap : BitVec 16) (s : State) : Host.Outcome State Fault Refusal :=
  let mine := fun (a : AckMsg) => a.epoch == epoch.toNat && a.cap == cap.toNat
  let ports := match (tget {} s.recv endpoint.val).ackOut.filter mine with | a :: _ => a.ports | [] => 3
  let s := ethBack 1 (ethBack 0 { s with recv := tmod {} s.recv endpoint.val (fun r => { r with ackOut := r.ackOut.eraseP mine }) })
  let hears := fun (p : Nat) => bitOf ports p && (s.eth p).link
  let seen := fun (s : State) (p : Nat) => if hears p then ethSeen p (ethCount (F.ETH_RX_ACKS_COUNT p) 1 s) else s
  .next (if hears 0 || hears 1 then
    seen (seen (s.onRows (rowSlip (fun t => { t with acks := t.acks ++ [(endpoint.val, epoch.toNat, cap.toNat, s.time.count)] }))) 0) 1
  else s)
def execAckDeadline (s : State) : Host.Outcome State Fault Refusal := .next (s.onRows (rowSlip (slipDeadline s.time.count)))
def execSlipSubmit (swap : Bool) (s : State) : Host.Outcome State Fault Refusal := .next (s.laneWrite 0x61 false (laneRow (slipSubmit swap)))
def execSlipWithdraw (s : State) : Host.Outcome State Fault Refusal := .next (s.laneWrite 0x61 false (laneRow slipWithdraw))
def execSlipAbort (s : State) : Host.Outcome State Fault Refusal := .next (s.laneWrite 0x61 false (laneRow (slipOperator s.time.count)))

end Sys2Proof.Machine
end

