-- ==== Sys2Proof/Machine/Recorder.lean ====
section
/-! DEFINITION. The event recorders (R342–R350): coalescing, the main recorder's intake, the lane recorders and delivery. -/
namespace Sys2Proof.Machine
open Sys2Proof

/-! ### Entries -/

/-- An entry opened by an occurrence at a time (R343, R344). -/
def newEntry (seq lseq : Nat) (o : Occ) (t : TimeSt) (locked : Bool) (vin : Nat) : Entry :=
  let (sec, ns) := tickInst t 0
  let aon := Config.occAon t.count % 128
  { seq := seq, lseq := lseq, cls := o.cls % 8, origin := o.origin, opened := true, ptpLocked := locked, argLast := false, unit := o.unit % 256,
    sub := o.sub % 65536, op := o.op, code := o.code, count := 1, firstSec := sec, firstNs := ns, firstTick := t.count, firstAon := aon,
    temp := Config.dieTemp o.origin t.count % 256, vin := vin, vrail := Config.dieRail o.origin t.count % 65536, lastSec := sec, lastNs := ns,
    lastTick := t.count, lastAon := aon, arg := o.arg }
/-- R345: the occurrence has the key of an open entry. -/
def entryKey (o : Occ) (e : Entry) : Bool :=
  e.opened && e.unit == o.unit % 256 && e.code == o.code && e.origin == o.origin && (o.cls % 8 == 4 || e.sub == o.sub % 65536)
/-- An occurrence added to an open entry. -/
def bumpEntry (t : TimeSt) (e : Entry) : Entry :=
  let (sec, ns) := tickInst t 0
  { e with count := e.count + 1, lastSec := sec, lastNs := ns, lastTick := t.count, lastAon := Config.occAon t.count % 128 }
def closeEntry (e : Entry) : Entry := { e with opened := false }
/-- Close the open entry with the oldest LAST_TICK among those a test names. -/
def closeOldest (p : Entry → Bool) (l : List Entry) : List Entry :=
  let ticks := (l.filter (fun e => e.opened && p e)).map (fun e => e.lastTick)
  match ticks with
  | [] => l
  | a :: r =>
    let m := r.foldl min a
    match l.findIdx? (fun e => e.opened && p e && e.lastTick == m) with
    | some i => lset l i (closeEntry (lget (newEntry 0 0 ⟨0, 0, 0, 0, 0, 0, 0⟩ ⟨0, 0, 0, 0, 0⟩ false 0) l i))
    | none => l
/-- The bytes of an entry (R343). -/
def entryBytes (e : Entry) : List Nat :=
  leBytes 4 e.seq ++ leBytes 4 e.lseq ++ [e.cls, e.origin, b2n e.opened + 2 * b2n e.ptpLocked + 4 * b2n e.argLast, e.unit] ++ leBytes 2 e.sub ++
  leBytes 2 e.op ++ leBytes 2 (Config.eventCode e.code % 65536) ++ leBytes 2 e.count ++ leBytes 4 e.firstSec ++ leBytes 4 e.firstNs ++
  leBytes 4 e.firstTick ++ [e.firstAon, e.temp] ++ leBytes 2 e.vin ++ leBytes 2 e.vrail ++ [0, 0] ++ leBytes 4 e.lastSec ++ leBytes 4 e.lastNs ++
  leBytes 4 e.lastTick ++ [e.lastAon, 0, 0, 0] ++ leBytes 8 e.arg

/-! ### The main recorder -/

/-- After FFFF_FFFFh the series continues at 1. -/
def nextSeq (n : Nat) : Nat := if n = 0xFFFFFFFF then 1 else n + 1
def add64 (x n : Nat) : Nat := (x + n) % 2 ^ 64
/-- Put a new entry into the store; the oldest is overwritten when 32,768 are held. -/
def mainPush (e : Entry) (m : MainRec) : MainRec :=
  let full := decide (32768 ≤ m.entries.length)
  let gone := match m.entries with | [] => 0 | a :: _ => a.seq
  { m with entries := (if full then m.entries.drop 1 else m.entries) ++ [e], head := nextSeq m.head,
           unread := if full && decide (m.lastCursor ≤ gone) then satAdd 0xFFFF m.unread 1 else m.unread }
/-- Open entries of the recorder's own table. -/
def ownOpen (e : Entry) : Bool := e.lseq == 0
/-- R345, R347: one occurrence processed; whether it opened an entry. -/
def mainInsert (o : Occ) (t : TimeSt) (locked : Bool) (vin : Nat) (m : MainRec) : MainRec × Bool :=
  let hit := fun (e : Entry) => e.lseq == 0 && entryKey o e
  match m.entries.find? hit with
  | some e =>
    if e.count < 0xFFFF then ({ m with entries := m.entries.map (fun x => if hit x then bumpEntry t x else x) }, false)
    else (mainPush (newEntry m.head 0 o t locked vin) { m with entries := m.entries.map (fun x => if hit x then closeEntry x else x) }, true)
  | none =>
    let full := decide (256 ≤ (m.entries.filter (fun e => e.opened && ownOpen e)).length)
    (mainPush (newEntry m.head 0 o t locked vin) (if full then { m with entries := closeOldest ownOpen m.entries } else m), true)
/-- The ORed input voltage. -/
def State.vin (s : State) : Nat := max s.pwr.vinA s.pwr.vinB
/-- The register views of the recorder page. -/
def recShow (s : State) : State :=
  let m := s.mrec
  let oldest := match m.entries.find? (fun e => e.opened) with | some e => e.seq | none => m.head
  let tail := match m.entries with | [] => m.head | e :: _ => e.seq
  let s := ((s.setFld F.REC_HEAD_SEQ m.head).setFld F.REC_TAIL_SEQ tail).setFld F.REC_OLDEST_OPEN_SEQ oldest
  let s := (s.setFld F.REC_FIFO_DEPTH m.queue.length).setFld F.REC_FIFO_PEAK m.peak
  let s := (s.setFld F.REC_EVICT_UNREAD m.unread).setFld F.REC_EVICT_OPEN ((m.entries.filter (fun e => e.opened && ownOpen e)).length)
  (upto 8).foldl (fun s c =>
    let e := lget 0 m.events c
    let l := lget 0 m.lost c
    (((s.setFld (F.REC_CLASS_EVENTS_LO c) (e % 2 ^ 32)).setFld (F.REC_CLASS_EVENTS_HI c) (e / 2 ^ 32)).setFld (F.REC_CLASS_LOST_LO c)
      (l % 2 ^ 32)).setFld (F.REC_CLASS_LOST_HI c) (l / 2 ^ 32)) s
/-- Process one occurrence that a running recorder has taken: PG_LAST_SEQ of its page and, for an opened class 0 entry, BLOCK_IRQ bit 8. -/
def mainProcess (o : Occ) (t : TimeSt) (s : State) : State :=
  let unread := s.mrec.unread
  let (m, fresh) := mainInsert o t (s.fld F.PTP_STAT_LOCKED == 1) s.vin s.mrec
  let s := { s with mrec := m }
  let s := match m.entries.find? (fun e => e.lseq == 0 && entryKey o e) with
    | some e => { s with regs := rset s.regs (hdrLastSeq (o.unit % 256)) (BitVec.ofNat 32 e.seq) }
    | none => s
  let s := if fresh && o.cls % 8 == 0 then s.irq 0xB0 8 else s
  if m.unread ≠ unread then s.irq 0xB0 10 else s
/-- R347: an occurrence is counted in EVENTS at intake; with the queue full it is counted in LOST and its detail dropped. -/
def mainTake (o : Occ) (s : State) : State :=
  let c := o.cls % 8
  let m : MainRec := { s.mrec with events := lset s.mrec.events c (add64 (lget 0 s.mrec.events c) 1) }
  if 512 ≤ m.queue.length then ({ s with mrec := { m with lost := lset m.lost c (add64 (lget 0 m.lost c) 1) } }).irq 0xB0 9
  else
    let q := m.queue ++ [(o, s.time)]
    { s with mrec := { m with queue := q, peak := max m.peak q.length } }
/-- A running recorder works its queue off (R347: one occurrence every 32 ns). -/
def mainDrain (s : State) : State :=
  if s.mrec.running then s.mrec.queue.foldl (fun s x => mainProcess x.1 x.2 s) { s with mrec := { s.mrec with queue := [] } } else s
/-- An occurrence reported directly to the main recorder. -/
def State.occ (s : State) (o : Occ) : State := recShow (mainDrain (mainTake o s))
/-- One reported by origin 0 Hervi, 1 Xoide or 7 the power sequencer. -/
def State.note (s : State) (origin cls unit sub code arg : Nat) : State := s.occ ⟨cls, origin, unit, sub, 0, code, arg⟩

/-! ### Lane recorders (R347, R348) -/

def lseqOf (shared : Bool) (lane num : Nat) : Nat := if shared then 2 ^ 31 + num else lane * 2 ^ 30 + num
/-- An entry's change waits for delivery: at once when it opens or closes, else at most once per 64 ticks. -/
def lrecChange (now lseq : Nat) (atOnce : Bool) (r : LaneRec) : LaneRec :=
  let due := if atOnce then now else match r.sent.find? (fun (x : Nat × (Nat × Nat)) => x.1 == lseq) with | some x => max now (x.2.1 + 64) | none => now
  if r.undeliv.any (fun x => x.1 == lseq) then
    { r with undeliv := if atOnce then r.undeliv.map (fun (x : Nat × Nat) => if x.1 = lseq then (lseq, min x.2 now) else x) else r.undeliv }
  else { r with undeliv := r.undeliv ++ [(lseq, due)] }
/-- Put a new entry into the lane's store of 4,096; the oldest goes, and what was undelivered of it is lost. -/
def lrecPush (e : Entry) (r : LaneRec) : LaneRec :=
  let r := match r.entries with
    | a :: rest =>
      if 4096 ≤ r.entries.length then
        let sent := match r.sent.find? (fun (x : Nat × (Nat × Nat)) => x.1 == a.lseq) with | some x => x.2.2 | none => 0
        let due := r.undeliv.any (fun x => x.1 == a.lseq)
        { r with entries := rest, undeliv := r.undeliv.filter (fun x => x.1 != a.lseq), sent := r.sent.filter (fun x => x.1 != a.lseq),
                 lost := if due then lset r.lost a.cls ((lget 0 r.lost a.cls + (a.count - sent)) % 2 ^ 32) else r.lost }
      else r
    | [] => r
  { r with entries := r.entries ++ [e], openedNow := r.openedNow + 1 }
/-- One occurrence of a lane, counted in its series (R345–R348). -/
def lrecTake (shared : Bool) (lane : Nat) (o : Occ) (t : TimeSt) (locked : Bool) (vin : Nat) (r : LaneRec) (sh : SharedRec) : LaneRec × SharedRec :=
  let c := o.cls % 8
  let up := fun l => lset l c ((lget 0 l c + 1) % 2 ^ 32)
  let sh := if shared then { sh with counts := up sh.counts } else sh
  let r := if shared then r else { r with ownCounts := up r.ownCounts }
  let hit := fun (e : Entry) => bitOf e.lseq 31 == shared && entryKey o e
  let opening := fun (r : LaneRec) =>
    if 64 ≤ r.openedNow then ({ r with lost := up r.lost }, sh)
    else
      let full := decide (64 ≤ (r.entries.filter (fun e => e.opened)).length)
      let before := r.entries
      let r := if full then { r with entries := closeOldest (fun _ => true) r.entries } else r
      let r := (before.filter (fun e => e.opened && !(r.entries.any (fun x => x.lseq == e.lseq && x.opened)))).foldl (fun r e => lrecChange t.count e.lseq true r) r
      let num := ((if shared then sh.num else r.ownNum) + 1) % 2 ^ 30
      let k := lseqOf shared lane num
      let r := lrecChange t.count k true (lrecPush (newEntry 0 k o t locked vin) r)
      if shared then (r, { sh with num := num }) else ({ r with ownNum := num }, sh)
  match r.entries.find? hit with
  | some e =>
    if e.count < 0xFFFF then (lrecChange t.count e.lseq false { r with entries := r.entries.map (fun x => if hit x then bumpEntry t x else x) }, sh)
    else opening (lrecChange t.count e.lseq true { r with entries := r.entries.map (fun x => if hit x then closeEntry x else x) })
  | none => opening r
/-- Open entries without an occurrence for 8,192 ticks close (R345), but for those that occurrences of the tick keep open. -/
def lrecClose (now : Nat) (keeps : Entry → Bool) (r : LaneRec) : LaneRec :=
  let old := fun (e : Entry) => e.opened && decide (e.lastTick + 8192 ≤ now) && !keeps e
  (r.entries.filter old).foldl (fun r e => lrecChange now e.lseq true r) { r with entries := r.entries.map (fun e => if old e then closeEntry e else e) }
/-- The lane's events of the tick enter its recorder: the shared series first, then its own. -/
def laneRecord (id : LaneId) (t : TimeSt) (locked : Bool) (vin : Nat) (l : Lane) : Lane :=
  let keeps := fun (e : Entry) => (l.row.events.any (fun o => entryKey o e) && bitOf e.lseq 31) || (l.ownEvents.any (fun o => entryKey o e) && !bitOf e.lseq 31)
  let l := { l with recd := lrecClose t.count keeps { l.recd with openedNow := 0 } }
  let take := fun (shared : Bool) (x : LaneRec × SharedRec) (o : Occ) => lrecTake shared (laneNum id) o t locked vin x.1 x.2
  let x := l.row.events.foldl (take true) (l.recd, l.row.recSh)
  let y := l.ownEvents.foldl (take false) x
  { l with recd := y.1, ownEvents := [], row := { l.row with recSh := y.2, events := [] } }
/-- The page whose PG_LAST_SEQ shows a lane entry (R344); none where the other lane's entries show. -/
def lastSeqPage (id lead : LaneId) (u : Nat) : Option Nat :=
  if 0x10 ≤ u ∧ u < 0x30 then some (u % 16 + 0x10 + 0x10 * laneNum id) else if id = lead then some u else none
/-- The main recorder takes one record of a lane (R348). -/
def mainRecord (id : LaneId) (e : Entry) (s : State) : State :=
  let m := s.mrec
  if m.entries.any (fun x => x.lseq == e.lseq) then
    if bitOf e.lseq 31 && s.lead != id then s
    else { s with mrec := { m with entries := m.entries.map (fun x => if x.lseq = e.lseq then { e with seq := x.seq } else x) } }
  else
    let s := { s with mrec := mainPush { e with seq := m.head } m }
    let s := if s.mrec.unread ≠ m.unread then s.irq 0xB0 10 else s
    if e.cls = 0 then s.irq 0xB0 8 else s
/-- Counters of a series as they have risen since the recorder last added them. -/
def addSeen (events seen now : List Nat) : List Nat :=
  (upto 8).map (fun c => add64 (lget 0 events c) ((lget 0 now c + 2 ^ 32 - lget 0 seen c % 2 ^ 32) % 2 ^ 32))
/-- P7: a lane sends up to 8 records, and its counters, to a running main recorder. -/
def laneDeliver (id : LaneId) (s : State) : State :=
  if !s.mrec.running then s
  else
    let l := s.lane id
    let now := s.time.count
    let due := (l.recd.undeliv.filter (fun x => decide (x.2 ≤ now))).take 8
    let entryOf := fun (k : Nat) => l.recd.entries.find? (fun e => e.lseq == k)
    let s := due.foldl (fun s x =>
      match entryOf x.1 with
      | some e =>
        let s := mainRecord id e s
        match lastSeqPage id s.lead e.unit with
        | some p => { s with regs := rset s.regs (hdrLastSeq p) (BitVec.ofNat 32 e.lseq) }
        | none => s
      | none => s) s
    let keys := due.map (fun x => x.1)
    let sent := keys.foldl (fun t k => match entryOf k with | some e => if e.opened then tput t k (now, e.count) else tdel t k | none => t) l.recd.sent
    let s := s.setLane id { l with recd := { l.recd with undeliv := l.recd.undeliv.filter (fun x => !keys.contains x.1), sent := sent } }
    let m := s.mrec
    let own := l.recd.ownCounts
    let m := match id with
      | .a => { m with events := addSeen m.events m.seenA own, seenA := own }
      | .b => { m with events := addSeen m.events m.seenB own, seenB := own }
    let m := if s.lead = id then { m with events := addSeen m.events m.seenSh l.row.recSh.counts, seenSh := l.row.recSh.counts } else m
    { s with mrec := m }
/-- The main recorder's open entries of its own close after 8,192 ticks; `wait` ticks more where occurrences of the tick can still come (R345). -/
def mainClose (wait : Nat) (s : State) : State :=
  let old := fun (e : Entry) => e.opened && e.lseq == 0 && decide (e.lastTick + 8192 + wait ≤ s.time.count)
  { s with mrec := { s.mrec with entries := s.mrec.entries.map (fun e => if old e then closeEntry e else e) } }
/-- The recorders' work of a tick (R347, R348). -/
def recordTick (s : State) : State :=
  let locked := s.fld F.PTP_STAT_LOCKED == 1
  let s := { s with laneA := laneRecord .a s.time locked s.vin s.laneA, laneB := laneRecord .b s.time locked s.vin s.laneB }
  recShow (mainDrain (mainClose 1 (laneDeliver .b (laneDeliver .a s))))

/-! ### Commands -/

def execEventOccurrence (o : EvIn) (s : State) : Host.Outcome State Fault Refusal :=
  .next (s.occ ⟨o.cls % 8, o.origin % 8, o.unit % 256, o.sub % 65536, o.op % 65536, 0x10000 + o.code, o.arg % 2 ^ 64⟩)
/-- ENTRY_CLOSE: the timers of all recorders (R345). -/
def entryClose (s : State) : State :=
  let f := fun (l : Lane) => { l with recd := lrecClose s.time.count (fun _ => false) l.recd }
  recShow (mainClose 0 { s with laneA := f s.laneA, laneB := f s.laneB })
def execEntryClose (s : State) : Host.Outcome State Fault Refusal := .next (entryClose s)
/-- RECORDER_START_REDELIVERY: the recorder runs; each lane delivers every entry it holds, oldest first (R349). -/
def recorderStart (s : State) : State :=
  let f := fun (l : Lane) => { l with recd := { l.recd with undeliv := l.recd.entries.map (fun e => (e.lseq, s.time.count)), sent := [] } }
  recShow (mainDrain { s with mrec := { s.mrec with running := true }, laneA := f s.laneA, laneB := f s.laneB })
def execRecorderStartRedelivery (s : State) : Host.Outcome State Fault Refusal :=
  .next (if s.pwr.pkgRail then recorderStart s else s)
/-- R350: copy the entry the cursor names into the window. -/
def recCopy (n : Nat) (s : State) : State :=
  let m := s.mrec
  let s := s.setFld F.REC_CURSOR_SEQ n
  let s := { s with mrec := { s.mrec with lastCursor := n } }
  match m.entries.find? (fun e => e.seq == n) with
  | some e =>
    let b := entryBytes e
    let s := (s.setFld F.REC_WIN_STAT_RESULT 0).setFld F.REC_WIN_STAT_OPEN (b2n e.opened)
    (upto 16).foldl (fun s k => s.setFld (F.REC_WIN k) (leAt b (4 * k) 4)) s
  | none =>
    let tail := match m.entries with | [] => m.head | e :: _ => e.seq
    (s.setFld F.REC_WIN_STAT_RESULT (if n < tail then 1 else 2)).setFld F.REC_WIN_STAT_OPEN 0
def execRecCursor (seq : Word) (s : State) : Host.Outcome State Fault Refusal :=
  .next (if s.locked 0xB0 then s.refuse 0xB0 4 else recCopy seq.toNat s)
/-- A read of REC_WIN_15: with AUTO the cursor advances by 1 and the next copy starts. -/
def recWin15 (s : State) : State :=
  let s := { s with rdData := s.fld (F.REC_WIN 15) }
  if s.fld F.REC_CTRL_AUTO = 1 then recCopy ((s.fld F.REC_CURSOR_SEQ + 1) % 2 ^ 32) s else s
def execRecWinAutoRead (s : State) : Host.Outcome State Fault Refusal := .next (recWin15 s)
def recPeakClear (s : State) : State := recShow { s with mrec := { s.mrec with peak := s.mrec.queue.length } }
def execRecFifoPeakClr (s : State) : Host.Outcome State Fault Refusal :=
  .next (if s.locked 0xB0 then s.refuse 0xB0 4 else recPeakClear s)
/-- LANE_FLASH_LOG: the 1,024 latest closed entries and the series go to the lane's flash (R342). -/
def flashLogWrite (l : Lane) : Lane :=
  let closed := l.recd.entries.filter (fun e => !e.opened)
  { l with recd := { l.recd with flashLog := closed.drop (closed.length - 1024), flashNum := l.recd.ownNum, flashOwn := l.recd.ownCounts,
                                 flashLost := l.recd.lost, flashSh := l.row.recSh } }
def execLaneFlashLog (lane : LaneId) (s : State) : Host.Outcome State Fault Refusal := .next (s.modLane lane flashLogWrite)

end Sys2Proof.Machine
end

