-- ==== Sys2Proof/Machine/Caravan.lean ====
section
/-! DEFINITION. The Caravan ring (R294–R308): ports and relays, links, discovery and addressing, routing, hall reports, DATA and ECHO. -/
namespace Sys2Proof.Machine
open Sys2Proof

/-- An event of the Caravan core (class PLATFORM). -/
def State.crvnEv (s : State) (sub code arg : Nat) : State := s.note 7 6 0x70 sub code arg
def State.onCrvn (s : State) (f : CrvnSt → CrvnSt) : State := { s with crvn := f s.crvn }
/-- The module's UID (fused). -/
def ownUid (s : State) : Nat := fget s.fuses F.CRVN_UID_LO_UID + 2 ^ 32 * fget s.fuses F.CRVN_UID_HI_UID
def portState (s : State) (p : Nat) : BState := (blkGet s (0x110 + p)).state
def ownAddr (s : State) : Option Nat := if s.fld F.CRVN_STAT_ADDR_VALID = 1 then some (s.fld F.CRVN_STAT_ADDR) else none

/-! ### The line (R298) -/

/-- BUSY while a DATA frame of CRVN_TX_BUF waits or is on a line. -/
def txShow (s : State) : State :=
  let has := fun (x : CPort) => (match x.line with | some f => f.own | none => false) || x.queue.any (fun f => f.own)
  s.setFld F.CRVN_TX_STAT_BUSY (b2n (has s.crvn.p0 || has s.crvn.p1))
/-- The class a port sends next from: the highest-priority queue that is not empty. -/
def nextClass (q : List CFrame) : Option Nat := ([0, 1, 2, 3] : List Nat).find? (fun c => q.any (fun f => f.body.cls == c))
/-- The head of a class's queue, and the queue without it. -/
def popClass (c : Nat) : List CFrame → Option CFrame × List CFrame
  | [] => (none, [])
  | f :: r => if f.body.cls = c then (some f, r) else let (x, l) := popClass c r; (x, f :: l)
/-- The frame on a port's line has finished; the head of the highest-priority queue that is not empty follows. -/
def lineNext (x : CPort) : CPort :=
  match nextClass x.queue with
  | some c => let (f, q) := popClass c x.queue; { x with line := f, queue := q }
  | none => { x with line := none }
/-- One frame time on port p. -/
def lineStep (p : Nat) (s : State) : State :=
  let x := s.cport p
  let own := match x.line with | some f => f.own | none => false
  let s := s.setCport p (lineNext x)
  if own then s.setFld F.CRVN_TX_STAT_RESULT 1 else s
/-- One frame time on both ports. -/
def ringIdle (s : State) : State := txShow (lineStep 1 (lineStep 0 s))
/-- A tick outlasts every frame the queues of a port can hold. -/
def ringDrain : Nat → State → State
  | 0, s => s
  | n + 1, s => ringDrain n (ringIdle s)

/-! ### Relays (R294, R295) -/

/-- Energise both relays. -/
def relayOn (s : State) : State := s.onCrvn (fun c => { c with relay := true, relayAt := s.time.count })
/-- Both ports have woken (a port already inserted has). -/
def portWoke (s : State) (p : Nat) : Bool := match portState s p with | .starting => (s.cport p).woken | .run => true | _ => false
/-- A port's FAULT with its cause. -/
def portFault (p cause : Nat) (s : State) : State := (blockFault (0x110 + p) s).setFld (F.CRVN_PORT_STAT_CAUSE p) cause
def crvnSafe (s : State) : Bool := (blkGet s 0x70).safe || (blkGet s 0x110).safe || (blkGet s 0x111).safe
/-- PORT_LOOPBACK_CHECK: with both ports woken and at least one starting, a failed check is a FAULT; otherwise both relays are energised. -/
def loopback (e w : Bool) (s : State) : State :=
  if portWoke s 0 ∧ portWoke s 1 ∧ (portState s 0 = .starting ∨ portState s 1 = .starting) then
    if e && w then (if crvnSafe s then s else relayOn s)
    else
      let s := if e then s else portFault 0 1 s
      if w then s else portFault 1 1 s
  else s
def execPortLoopbackCheck (eastOk westOk : Bool) (s : State) : Host.Outcome State Fault Refusal := .next (loopback eastOk westOk s)
/-- RELAY_CONFIRM: both contacts report energised; starting ports are RUN and the module is inserted; the settle count of R301 begins. -/
def relayConfirm (s : State) : State :=
  if s.crvn.relay ∧ portWoke s 0 ∧ portWoke s 1 then
    let s := s.onCrvn (fun c => { c with p0 := { c.p0 with contact := true }, p1 := { c.p1 with contact := true }, settle := some 0, heard := false })
    let s := s.setFld F.CRVN_STAT_INSERTED 1
    let go := fun (s : State) (p : Nat) => if portState s p = .starting then blkMove s (0x110 + p) .run else s
    crvnPage (go (go s 0) 1)
  else s
def execRelayConfirm (s : State) : Host.Outcome State Fault Refusal := .next (relayConfirm s)
/-- RELAY_CONFIRM_TIMEOUT: a contact has not followed its command for 4,096 AON cycles, 32 ticks. -/
def relayTimeout (p : Nat) (s : State) : State :=
  let st := portState s p
  if s.time.count < s.crvn.relayAt + 32 then s
  else if (st = .starting ∧ s.crvn.relay ∧ !(s.cport p).contact) then portFault p 2 s
  else if st = .stopping then (portFault p 2 s).modCport p (fun x => { x with contact := true })
  else s
def execRelayConfirmTimeout (port : Fin 2) (s : State) : Host.Outcome State Fault Refusal := .next (relayTimeout port.val s)
/-- RELAY_DISAGREE: a contact disagrees with its command in RUN. -/
def relayDisagree (p : Nat) (s : State) : State := if portState s p = .run then portFault p 3 s else s
def execRelayDisagree (port : Fin 2) (s : State) : Host.Outcome State Fault Refusal := .next (relayDisagree port.val s)
/-- WAIT_PEER_TIMEOUT: a port has waited 16 ticks. -/
def waitPeer (p : Nat) (s : State) : State :=
  let x := s.cport p
  if x.waiting ∧ x.waitTicks = 16 then ((s.setCport p { x with waitTicks := 17 }).crvnEv p Ev.waitPeer 0).irq 0x70 13 else s
def execWaitPeerTimeout (port : Fin 2) (s : State) : Host.Outcome State Fault Refusal := .next (waitPeer port.val s)

/-! ### The adopted order and routes (R303, R304) -/

/-- The position of a node in the adopted order. -/
def posUid (l : List (Nat × Option Nat)) (u : Nat) : Option Nat := l.findIdx? (fun x => x.1 == u)
def posAddr (l : List (Nat × Option Nat)) (a : Nat) : Option Nat := l.findIdx? (fun x => x.2 == some a)
/-- The route to a position: whether it goes west, and its hops (R304). -/
def routePos (closed : Bool) (n is d : Nat) : Option (Bool × Nat) :=
  if closed then
    let e := (d + n - is) % n
    if 2 * e ≤ n then some (false, e) else some (true, n - e)
  else if is < d then some (false, d - is) else if d < is then some (true, is - d) else none
/-- The route from this node to an address of the adopted order. -/
def route (s : State) (a : Nat) : Option (Bool × Nat) :=
  match posUid s.crvn.order (ownUid s), posAddr s.crvn.order a with
  | some i, some d => routePos s.crvn.closed s.crvn.order.length i d
  | _, _ => none
def west2port (w : Bool) : Nat := if w then 1 else 0
/-- Originate a frame of classes 1–3; none when the address or the route is missing: answers 1 sent, 2 NO_NODE, 3 NO_ADDR, 4 queue full. -/
def originate (dst : Nat) (bcast own : Bool) (body : CBody) (s : State) : State × Nat :=
  if (ownAddr s).isNone then (s, 3)
  else
    let ports : Option (List Nat) :=
      if bcast then (if s.crvn.order.isEmpty then none else some (if s.crvn.closed then [0] else [0, 1]))
      else (route s dst).map (fun r => [west2port r.1])
    match ports with
    | none => (s, 2)
    | some ps =>
      let go := fun (x : State × Bool) (p : Nat) =>
        if portState x.1 p = .run then
          let f := { crvnFrame dst bcast (p == 1) body x.1 with own := own }
          let (y, ok) := portTake f (x.1.cport p)
          if ok then (x.1.setCport p y, x.2) else (x.1.satFld (F.CRVN_PORT_ERR_DROP p) 1, false)
        else x
      let (s, ok) := ps.foldl go (s, true)
      (crvnNext s, if ok then 1 else 4)

/-! ### Receiving (R297–R299) -/

def knownType (t : Nat) : Bool := decide (0x50 ≤ t ∧ t ≤ 0x57)
/-- Serial age modulo 2¹⁶: a is older than b. -/
def older16 (a b : Nat) : Bool := decide (a ≠ b ∧ (b + 65536 - a) % 65536 < 32768)
def countDrop (p : Nat) (s : State) : State := s.satFld (F.CRVN_PORT_ERR_DROP p) 1
/-- The checks every frame passes at port p (R297); `f` handles an intact one. -/
def portReceive (p : Nat) (ok : Bool) (h : CHdr) (f : State → State) (s : State) : State :=
  if portState s p ≠ .run then s
  else if !ok then s.satFld (F.CRVN_PORT_ERR_FCS p) 1
  else if h.version ≠ 1 ∨ !knownType h.typ.toNat then countDrop p s
  else txShow (f s)
/-- Forward a frame out of the other port with TTL − 1; a port without LINK_UP ends the line (R299, R304). -/
def forward (p : Nat) (h : CHdr) (body : CBody) (s : State) : State :=
  if h.ttl.toNat ≤ 1 then countDrop p s
  else if (s.cport (1 - p)).linkUp then
    portSend (1 - p) { dst := h.dst.toNat, bcast := h.bcast, src := h.src.toNat, ttl := h.ttl.toNat - 1, west := p == 0, rseq := h.rseq.toNat, rgen := h.rgen.toNat,
                       body := body, own := false } s
  else s
/-- R299 for the classes 1–3: `take` is delivery. -/
def ringReceive (p : Nat) (h : CHdr) (body : CBody) (take : State → State) (s : State) : State :=
  let mine := fun (a : BitVec 6) => ownAddr s == some a.toNat
  if older16 h.rgen.toNat (s.fld F.CRVN_RGEN_RGEN) then countDrop p s
  else if mine h.dst && !h.bcast then take s
  else if mine h.src then s
  else if h.bcast then forward p h body (take s)
  else forward p h body s

/-! ### Links (R300) -/

/-- LINK: an intact frame of the neighbour; `held` says that block lock has been held since the tick's boundary. -/
def linkIn (p : Nat) (h : CHdr) (leaving held : Bool) (s : State) : State :=
  let s := s.modCport p (fun x => { x with linkNow := true, leaving := x.leaving || leaving, lockAll := if x.lock then x.lockAll else held, lock := true })
  (s.setFld (F.CRVN_PORT_STAT_NEIGH p) h.src.toNat).setFld (F.CRVN_PORT_STAT_NEIGH_VALID p) 1
def execLink (port : Fin 2) (ok : Bool) (hdr : CHdr) (leaving held : Bool) (s : State) : Host.Outcome State Fault Refusal :=
  .next (portReceive port.val ok hdr (linkIn port.val hdr leaving held) s)
/-- BLOCK_LOCK_LOSS. -/
def lockLoss (x : CPort) : CPort := { x with lock := false, lockAll := false }
def execBlockLockLoss (port : Fin 2) (s : State) : Host.Outcome State Fault Refusal := .next (s.modCport port.val lockLoss)
/-- A change of LINK_UP starts the settle count of R301 over. -/
def settleStart (s : State) : State := s.onCrvn (fun c => { c with settle := some 0, heard := false })
/-- CARAVAN_LINK_UP, as the run stands. -/
def linkUpSet (p : Nat) (s : State) : State :=
  let x := s.cport p
  if !x.linkUp ∧ portState s p = .run ∧ 4 ≤ x.goodRun then settleStart (s.setCport p { x with linkUp := true }) else s
/-- CARAVAN_LINK_DOWN: lock lost, LEAVING, or four ticks without a LINK frame. -/
def linkDownSet (p : Nat) (s : State) : State :=
  let x := s.cport p
  if x.linkUp ∧ (portState s p ≠ .run ∨ !x.lockAll ∨ x.leaving ∨ 4 ≤ x.missRun) then
    let s := (s.setCport p { x with linkUp := false, goodRun := 0 }).satFld (F.CRVN_PORT_DOWN_COUNT p) 1
    settleStart ((s.setFld (F.CRVN_PORT_STAT_NEIGH_VALID p) 0).irq 0x70 9)
  else s
def execCaravanLinkUp (port : Fin 2) (s : State) : Host.Outcome State Fault Refusal := .next (linkUpSet port.val s)
def execCaravanLinkDown (port : Fin 2) (s : State) : Host.Outcome State Fault Refusal := .next (linkDownSet port.val s)
/-- A port at a tick boundary: the ended tick's runs. -/
def portRuns (x : CPort) : CPort :=
  let good := x.linkNow && x.lockAll && !x.leaving
  { x with goodRun := runNext good x.goodRun, missRun := runNext (!x.linkNow) x.missRun }
/-- The new tick of a port begins. -/
def portNewTick (x : CPort) : CPort :=
  { x with linkNow := false, leaving := false, lockAll := x.lock, waitTicks := if x.waiting then min 17 (x.waitTicks + (if x.waitTicks < 16 then 1 else 0)) else 0 }

/-! ### Discovery (R301–R305) -/

/-- This node's entry of a DISC that arrived at port p. -/
def ownEntry (s : State) (onEast : Bool) : DiscEnt :=
  { uid := ownUid s, last := s.crvn.stored.getD 0, lastValid := s.crvn.stored.isSome, pref := s.fld F.CRVN_CFG_ADDR_PREF,
    prefEn := s.fld F.CRVN_CFG_PREF_EN == 1, pairEn := s.fld F.CRVN_CFG_PAIR_EN == 1, onEast := onEast, cdu := s.fld F.CRVN_CFG_CDU_ID }
/-- What a list says of its nodes is kept for R306 and CRVN_NODE_INFO. -/
def learn (l : List DiscEnt) (s : State) : State :=
  s.onCrvn (fun c => { c with known := l.foldl (fun t e => tset (0, false) t e.uid (e.cdu, e.pairEn)) c.known })
/-- INITs met within the last 4 ticks. -/
def seenNow (s : State) : List (Nat × Nat) := s.crvn.seen.filter (fun x => decide (s.time.count ≤ x.2 + 4))
def noteSeen (init : Nat) (s : State) : State := s.onCrvn (fun c => { c with seen := (init, s.time.count) :: c.seen.filter (fun x => decide (s.time.count ≤ x.2 + 4)) })
/-- Send a discovery frame out of a port with LINK_UP. -/
def discSend (p : Nat) (body : CBody) (s : State) : State := crvnNext (portSend p (crvnFrame 0 true (p == 1) body s) s)
/-- A node initiates: DISC on every port with LINK_UP. -/
def discStart (s : State) : State :=
  let e := (s.cport 0).linkUp
  let w := (s.cport 1).linkUp
  let u := ownUid s
  let body := CBody.disc u ((s.fld F.CRVN_RGEN_RGEN + 1) % 65536) [ownEntry s false]
  let s := if e then discSend 0 body s else s
  let s := if w then discSend 1 body s else s
  (noteSeen u (s.onCrvn (fun c => { c with disc := some ⟨s.time.count, e, w, none, none⟩, settle := none, retry := none }))).setFld F.CRVN_STAT_DISC 1
/-- Whether R301 starts a discovery at this boundary; a node without an address originates none (R303). -/
def discDue (s : State) : Bool :=
  ((s.cport 0).linkUp || (s.cport 1).linkUp) && s.crvn.disc.isNone && s.fld F.CRVN_STAT_OVERFULL == 0 &&
  ((match s.crvn.settle with | some n => decide (8 ≤ n) && !s.crvn.heard | none => false) || (match s.crvn.retry with | some t => decide (t ≤ s.time.count) | none => false))
def discBegin (s : State) : State := if discDue s then discStart s else s
def execDiscoveryStart (s : State) : Host.Outcome State Fault Refusal := .next (discBegin s)

/-- R303: addresses by the final list. The entries of a list that may keep or take an address, lowest UID first. -/
def insUid (e : DiscEnt) : List DiscEnt → List DiscEnt
  | [] => [e]
  | x :: r => if e.uid ≤ x.uid then e :: x :: r else x :: insUid e r
def byUid (l : List DiscEnt) : List DiscEnt := l.foldr insUid []
/-- One pass over the nodes without an address, lowest UID first: each takes the address `want` names if it is free. -/
def assignPass (want : DiscEnt → List Nat → Option Nat) : List DiscEnt → List (Nat × Nat) → List (Nat × Nat)
  | [], t => t
  | e :: r, t =>
    if t.any (fun x => x.1 == e.uid) then assignPass want r t
    else
      match want e (t.map (fun x => x.2)) with
      | some a => assignPass want r (if t.any (fun x => x.2 == a) then t else t ++ [(e.uid, a)])
      | none => assignPass want r t
/-- Rules 1 to 4 in order over the first 64 nodes by UID; those beyond receive none (rule 5). -/
def assignAddrs (l : List DiscEnt) : List (Nat × Nat) :=
  let l := (byUid l).take 64
  let t := assignPass (fun e _ => if e.lastValid then some (e.last % 64) else none) l []
  let t := assignPass (fun e _ => if e.prefEn then some (e.pref % 64) else none) l t
  assignPass (fun _ used => (upto 64).find? (fun a => !used.contains a)) l t
/-- Adopt an order (R303, R305): address, RGEN, store, ADDR_VALID, counts, event. -/
def adopt (init rgen : Nat) (closed : Bool) (order : List (Nat × Option Nat)) (s : State) : State :=
  let own := match order.find? (fun x => x.1 == ownUid s) with | some x => x.2 | none => none
  let s := s.onCrvn (fun c => { c with order := order, closed := closed, lastAsg := some (init, rgen), stored := match own with | some a => some a | none => c.stored,
                                       fails := 0, retry := none, settle := none })
  let was := s.fld F.CRVN_RGEN_RGEN
  let s := ((s.setFld F.CRVN_RGEN_RGEN rgen).satFld F.CRVN_RGEN_DISC_COUNT 1).setFld F.CRVN_STAT_RING (if closed then 2 else 1)
  let s := (s.setFld F.CRVN_STAT_NODES (min 64 order.length)).setFld F.CRVN_STAT_DISC_FAIL 0
  let s := if was = rgen then s else s.irq 0x70 8
  let s := match own with
    | some a => ((s.setFld F.CRVN_STAT_ADDR a).setFld F.CRVN_STAT_ADDR_VALID 1).setFld F.CRVN_STAT_OVERFULL 0
    | none =>
      let old := s.fld F.CRVN_STAT_OVERFULL
      let s := (s.setFld F.CRVN_STAT_ADDR_VALID 0).setFld F.CRVN_STAT_OVERFULL 1
      if old = 0 then (s.irq 0x70 12).crvnEv 0xFFFF Ev.overfull 0 else s
  s.crvnEv 0xFFFF Ev.discovery (rgen + 65536 * min 255 order.length + 2 ^ 24 * b2n closed + 2 ^ 32 * own.getD 0x40)
/-- The initiator's discovery completes with the node order, eastward: it assigns, sends ASSIGN the ways its DISCs went, and adopts. -/
def discComplete (closed : Bool) (list : List DiscEnt) (s : State) : State :=
  match s.crvn.disc with
  | none => s
  | some d =>
    let t := assignAddrs list
    let order := list.map (fun e => (e.uid, (t.find? (fun x => x.1 == e.uid)).map (fun x => x.2)))
    let ents := order.map (fun x => ({ uid := x.1, addr := x.2.getD 0, assigned := x.2.isSome } : AsgEnt))
    let rgen := (s.fld F.CRVN_RGEN_RGEN + 1) % 65536
    let body := CBody.assign (ownUid s) rgen (!closed) ents
    let s := if d.east then discSend 0 body s else s
    let s := if d.west then discSend 1 body s else s
    let s := (s.onCrvn (fun c => { c with disc := none })).setFld F.CRVN_STAT_DISC 0
    adopt (ownUid s) rgen closed order (learn list s)
/-- The final list of a line: the west list reversed before this node, the east list after it. -/
def joinLists (own : DiscEnt) (e w : List DiscEnt) : List DiscEnt := (w.drop 1).reverse ++ own :: e.drop 1
/-- DISC (R302 steps 2 and 3) at port p. -/
def discIn (p : Nat) (h : CHdr) (init rgen : Nat) (list : List DiscEnt) (s : State) : State :=
  let s := (learn list s).onCrvn (fun c => { c with heard := true })
  if init = ownUid s then
    match s.crvn.disc with
    | some d => if (if p = 0 then d.west else d.east) then discComplete true (if p = 1 then list else list.take 1 ++ (list.drop 1).reverse) s else s
    | none => s
  else if (seenNow s).any (fun x => decide (x.1 < init)) then s
  else
    let s := (noteSeen init (s.onCrvn (fun c => { c with disc := none }))).setFld F.CRVN_STAT_DISC 0
    let list := list ++ [ownEntry s (p == 0)]
    let o := 1 - p
    if (s.cport o).linkUp then
      portSend o { dst := h.dst.toNat, bcast := h.bcast, src := h.src.toNat, ttl := h.ttl.toNat - 1, west := p == 0, rseq := h.rseq.toNat, rgen := h.rgen.toNat,
                   body := .disc init rgen list, own := false } s
    else discSend p (.discEnd init rgen list) s
def execDisc (port : Fin 2) (ok : Bool) (hdr : CHdr) (init : BitVec 64) (rgen : BitVec 16) (list : List DiscEnt) (s : State) :
    Host.Outcome State Fault Refusal :=
  .next (portReceive port.val ok hdr (discIn port.val hdr init.toNat rgen.toNat list) s)
/-- DISC_END (R302): the initiator joins the lists; other nodes forward it without change. -/
def discEndIn (p : Nat) (h : CHdr) (init rgen : Nat) (list : List DiscEnt) (s : State) : State :=
  let s := learn list s
  if init = ownUid s then
    match s.crvn.disc with
    | none => s
    | some d =>
      let d := if p = 0 then { d with endE := some list } else { d with endW := some list }
      let s := s.onCrvn (fun c => { c with disc := some d })
      if (!d.east || d.endE.isSome) && (!d.west || d.endW.isSome) then
        discComplete false (joinLists (ownEntry s false) (d.endE.getD []) (d.endW.getD [])) s
      else s
  else if (s.cport (1 - p)).linkUp then
    portSend (1 - p) { dst := h.dst.toNat, bcast := h.bcast, src := h.src.toNat, ttl := h.ttl.toNat - 1, west := p == 0, rseq := h.rseq.toNat, rgen := h.rgen.toNat,
                       body := .discEnd init rgen list, own := false } s
  else s
def execDiscEnd (port : Fin 2) (ok : Bool) (hdr : CHdr) (init : BitVec 64) (rgen : BitVec 16) (list : List DiscEnt) (s : State) :
    Host.Outcome State Fault Refusal :=
  .next (portReceive port.val ok hdr (discEndIn port.val hdr init.toNat rgen.toNat list) s)
/-- ASSIGN (R303): forwarded and adopted in the same cycle; the initiator's own ends there, and a second copy is only forwarded. -/
def assignIn (p : Nat) (h : CHdr) (init rgen : Nat) (line : Bool) (list : List AsgEnt) (s : State) : State :=
  if init = ownUid s then s
  else
    let s := s.onCrvn (fun c => { c with heard := true })
    let s :=
      if (s.cport (1 - p)).linkUp then
        portSend (1 - p) { dst := h.dst.toNat, bcast := h.bcast, src := h.src.toNat, ttl := h.ttl.toNat - 1, west := p == 0, rseq := h.rseq.toNat, rgen := h.rgen.toNat,
                           body := .assign init rgen line list, own := false } s
      else s
    if s.crvn.lastAsg = some (init, rgen) then s
    else adopt init rgen (!line) (list.map (fun e => (e.uid, if e.assigned then some (e.addr % 64) else none))) s
def execAssign (port : Fin 2) (ok : Bool) (hdr : CHdr) (init : BitVec 64) (rgen : BitVec 16) (line : Bool) (list : List AsgEnt) (s : State) :
    Host.Outcome State Fault Refusal :=
  .next (portReceive port.val ok hdr (assignIn port.val hdr init.toNat rgen.toNat line list) s)
/-- DISCOVERY_FAIL: 4 ticks after the DISCs; the node tries again after 8 ticks, or after 1,024 from the eighth consecutive failure. -/
def discFail (s : State) : State :=
  match s.crvn.disc with
  | none => s
  | some d =>
    if s.time.count < d.tick + 4 then s
    else
      let n := s.crvn.fails + 1
      let s := (s.onCrvn (fun c => { c with disc := none, fails := n, retry := some (d.tick + 4 + (if 8 ≤ n then 1024 else 8)) })).setFld F.CRVN_STAT_DISC 0
      if n = 8 then ((s.setFld F.CRVN_STAT_DISC_FAIL 1).irq 0x70 11).crvnEv 0xFFFF Ev.discFail 0 else s
def execDiscoveryFail (s : State) : Host.Outcome State Fault Refusal := .next (discFail s)

/-! ### Hall reports (R307) -/

/-- The reading of a pair as Q32 bytes; a LOST quantity has no reading, and what its bytes then hold the spec does not say. -/
def hallRead (s : State) (r : RowSt) (k : Nat) : Nat := match pairRead r.sens k with | some x => ux 32 x | none => Config.freeWord (s.freeCtr + k) % 2 ^ 32
/-- The 32 bytes of the row's report. -/
def hallBytes (s : State) (addr : Nat) : HallBytes :=
  let l := s.lane s.lead
  let r := l.row
  let p := r.prot
  [addr, b2n p.conserv + 2 * b2n l.core.merge + 4 * b2n (r.caps.habRacks != 0) + 8 * b2n p.hup + 16 * b2n p.flowStop.on] ++ beBytes 2 l.core.claim ++
  beBytes 4 (s.time.count % 2 ^ 32) ++ beBytes 4 (nsum ((capEndpoints r.caps).map (fun e => (epAt r.caps e).c)) % 2 ^ 32) ++ beBytes 4 (hallRead s r 3) ++
  beBytes 4 (hallRead s r 4) ++ beBytes 4 (hallRead s r 5) ++ beBytes 2 (min 0xFFFF (p.qcmd / 65536).toNat) ++ beBytes 2 (protStatBits r) ++ [0, 0, 0, 0]
/-- HALL_BROADCAST: at the boundary of a frame whose number mod 64 is this node's address, once. -/
def hallCast (s : State) : State :=
  match ownAddr s with
  | none => s
  | some a =>
    let fr := s.time.count / 8
    if s.fld F.CRVN_CFG_HALL_EN = 1 ∧ s.time.tick = 0 ∧ s.time.frame % 64 = a ∧ s.crvn.hallSent ≠ some fr then
      let s' := (originate 0 true false (.hall (hallBytes s a)) s).1
      { s' with crvn := { s'.crvn with hallSent := some fr }, freeCtr := s'.freeCtr + 6 }
    else s
def execHallBroadcast (s : State) : Host.Outcome State Fault Refusal := .next (hallCast s)
def hallTake (h : CHdr) (b : HallBytes) (s : State) : State := s.onCrvn (fun c => { c with hall := tset none c.hall h.src.toNat (some (b, s.time.count / 8)) })
def execHall (port : Fin 2) (ok : Bool) (hdr : CHdr) (bytes : List (BitVec 8)) (s : State) : Host.Outcome State Fault Refusal :=
  .next (let b := bytes.map BitVec.toNat
         portReceive port.val ok hdr (ringReceive port.val hdr (.hall b) (hallTake hdr b)) s)

/-! ### DATA and ECHO (R298) -/

/-- CRVN_RX_STAT shows the frame at the head. -/
def rxShow (s : State) : State :=
  let x := match s.crvn.rx with | [] => (0, 0) | y :: _ => (y.1, y.2.length)
  ((s.setFld F.CRVN_RX_STAT_COUNT s.crvn.rx.length).setFld F.CRVN_RX_STAT_SRC x.1).setFld F.CRVN_RX_STAT_LEN x.2
/-- A delivered DATA frame waits for Hervi; a 17th is discarded. -/
def dataTake (p : Nat) (h : CHdr) (b : List Nat) (s : State) : State :=
  if 16 ≤ s.crvn.rx.length then countDrop p s
  else rxShow ((s.onCrvn (fun c => { c with rx := c.rx ++ [(h.src.toNat, b)] })).irq 0x70 10)
def execData (port : Fin 2) (ok : Bool) (hdr : CHdr) (bytes : List (BitVec 8)) (s : State) : Host.Outcome State Fault Refusal :=
  .next (let b := bytes.map BitVec.toNat
         portReceive port.val ok hdr (ringReceive port.val hdr (.data b) (dataTake port.val hdr b)) s)
def rxPop (s : State) : State := rxShow (s.onCrvn (fun c => { c with rx := c.rx.drop 1 }))
def execCrvnRxPop (s : State) : Host.Outcome State Fault Refusal := .next (if s.locked 0x70 then s.refuse 0x70 4 else rxPop s)
/-- CRVN_TX_CMD.GO. -/
def txGo (dst : Nat) (bcast : Bool) (len : Nat) (s : State) : State :=
  if len = 0 ∨ 512 < len then s.refuse 0x70 0x80
  else
    let bytes := ((upto ((len + 3) / 4)).map (fun k => leBytes 4 (s.fld (F.CRVN_TX_BUF k)))).flatten.take len
    let (s, r) := originate dst bcast true (.data bytes) s
    txShow (s.setFld F.CRVN_TX_STAT_RESULT (if r = 1 then 0 else r))
def execCrvnTxGo (dst : BitVec 6) (bcast : Bool) (len : BitVec 10) (s : State) : Host.Outcome State Fault Refusal :=
  .next (if s.locked 0x70 then s.refuse 0x70 4 else txGo dst.toNat bcast len.toNat s)
/-- CRVN_ECHO.GO: `now` is the PTP timebase count at sending. -/
def echoGo (dst now : Nat) (s : State) : State :=
  let s := (s.setFld F.CRVN_ECHO_DST dst).setFld F.CRVN_ECHO_RESULT 0
  let (s, r) := originate dst false false (.echo now) s
  if r = 2 ∨ r = 3 then s.setFld F.CRVN_ECHO_RESULT 3 else s.onCrvn (fun c => { c with echo := some (dst, now, s.time.count) })
def execCrvnEchoGo (dst : BitVec 6) (now : BitVec 64) (s : State) : Host.Outcome State Fault Refusal :=
  .next (if s.locked 0x70 then s.refuse 0x70 4 else echoGo dst.toNat now.toNat s)
/-- A delivered ECHO: the reply to this node's own ends the measurement; any other goes back with DST and SRC exchanged. -/
def echoTake (h : CHdr) (ts now : Nat) (s : State) : State :=
  match s.crvn.echo with
  | some e =>
    if e.1 = h.src.toNat ∧ e.2.1 = ts then
      ((s.onCrvn (fun c => { c with echo := none })).setFld F.CRVN_ECHO_RESULT 1).setFld F.CRVN_ECHO_RTT (min 0xFFFF (now - ts))
    else (originate h.src.toNat false false (.echo ts) s).1
  | none => (originate h.src.toNat false false (.echo ts) s).1
def execEcho (port : Fin 2) (ok : Bool) (hdr : CHdr) (ts now : BitVec 64) (s : State) : Host.Outcome State Fault Refusal :=
  .next (portReceive port.val ok hdr (ringReceive port.val hdr (.echo ts.toNat) (echoTake hdr ts.toNat now.toNat)) s)
/-- ECHO_TIMEOUT: no reply within 4 ticks. -/
def echoTimeout (s : State) : State :=
  match s.crvn.echo with
  | some e => if e.2.2 + 4 ≤ s.time.count then (s.onCrvn (fun c => { c with echo := none })).setFld F.CRVN_ECHO_RESULT 2 else s
  | none => s
def execEchoTimeout (s : State) : Host.Outcome State Fault Refusal := .next (echoTimeout s)

/-! ### The tick (R300–R302) -/

/-- Neither port of a node in RUN has LINK_UP: it holds no ring and goes back to its stored address (R301). -/
def ringNone (s : State) : State :=
  if portState s 0 = .run ∧ portState s 1 = .run ∧ !(s.cport 0).linkUp ∧ !(s.cport 1).linkUp then
    ((s.onCrvn (fun c => { c with order := [], closed := false })).setFld F.CRVN_STAT_RING 0).setFld F.CRVN_STAT_NODES 0 |>.setFld F.CRVN_STAT_ADDR
      (s.crvn.stored.getD (s.fld F.CRVN_STAT_ADDR))
  else s
/-- Both ports in RUN are inserted again once FORCE_SAFE has ended. -/
def relayResume (s : State) : State :=
  if portState s 0 = .run ∧ portState s 1 = .run ∧ !s.crvn.relay ∧ !crvnSafe s then relayOn s else s
/-- The timers of R302 and R298 that ran out in the ended tick: what arrived in the tick of expiry has been taken (R16). -/
def ringTimers (s : State) : State :=
  let s := match s.crvn.echo with
    | some e => if e.2.2 + 4 < s.time.count then echoTimeout s else s
    | none => s
  match s.crvn.disc with
  | some d => if d.tick + 4 < s.time.count then discFail s else s
  | none => s
/-- The Caravan core at a tick boundary, the ports' frames of the ended tick having left. -/
def crvnTick (s : State) : State :=
  if !(blkGet s 0x70).en then linkDownSet 1 (linkDownSet 0 s)
  else
    let s := ringDrain 65 s
    let s := (s.modCport 0 portRuns).modCport 1 portRuns
    let s := s.onCrvn (fun c => { c with settle := c.settle.map (fun n => n + 1) })
    let s := linkUpSet 1 (linkUpSet 0 (linkDownSet 1 (linkDownSet 0 s)))
    let s := (s.modCport 0 portNewTick).modCport 1 portNewTick
    let s := discBegin (ringTimers (relayResume (ringNone s)))
    let s := hallCast (waitPeer 1 (waitPeer 0 s))
    let link := fun (s : State) (p : Nat) => if portState s p = .run then sendLink p false s else s
    txShow (link (link s 0) 1)

/-- CRVN_NODE_INFO and CRVN_NODE_UID of the selected address. -/
def nodeInfo (s : State) : Nat × Nat :=
  let a := s.fld F.CRVN_NODE_SEL_ADDR
  let age := match tget none s.crvn.hall a with | some x => min 0xFFFF (s.time.count / 8 - x.2) | none => 0xFFFF
  match posAddr s.crvn.order a with
  | none => (65536 * age, 0)
  | some i =>
    let u := match s.crvn.order[i]? with | some x => x.1 | none => 0
    let (w, h) := match route s a with | some r => r | none => (false, 0)
    let k := tget (0, false) s.crvn.known u
    let twin := u != ownUid s && k.2 && s.fld F.CRVN_CFG_PAIR_EN == 1 && k.1 == s.fld F.CRVN_CFG_CDU_ID
    (1 + 2 * b2n w + 4 * (h % 64) + 256 * b2n twin + 65536 * age, u)

end Sys2Proof.Machine
end

