-- ==== Sys2Proof/Machine/Images.lean ====
section
/-! DEFINITION. Fused keys and the verification of images (R325, R326, R329, R331), and a lane's flash banks as bytes. -/
namespace Sys2Proof.Machine
open Sys2Proof

def State.fuse (s : State) (f : Fld) : Nat := fget s.fuses f
def State.setFuse (s : State) (f : Fld) (v : Nat) : State := { s with fuses := fset s.fuses f v }
/-- The active owner key (R329). -/
def activeOwner (s : State) : Option Nat :=
  (upto 4).find? (fun k => bitOf (s.fuse F.FUSE_OWNER_STAT_ENROLLED) k && !bitOf (s.fuse F.FUSE_OWNER_STAT_REVOKED) k)
def ownerShow (s : State) : State := s.setFld F.SEC_STAT_OWNER ((activeOwner s).getD 7)
/-- The fused floor of a kind (R331). -/
def svnFloor (s : State) (kind : Nat) : Nat :=
  if kind = 0 then s.fuse F.FUSE_SVN_HERVI else if kind = 1 then s.fuse F.FUSE_SVN_XOIDE else if kind = 2 then s.fuse F.FUSE_SVN_SEIF
  else if kind = 0x10 then s.fuse F.FUSE_SVN_POLICY else s.fuse F.FUSE_SVN2_MODEL
/-- The hash of an owner slot's key. -/
def ownerHash (s : State) (k : Nat) : Nat := leNum ((upto 8).flatMap (fun j => leBytes 4 (s.fuse (F.FUSE_OWNER_HASH_HASH k j))))
/-- The hash that stands for the owner: the active slot's, or while there is none Auvewick's (R329). -/
def ownerKey (s : State) : Nat := match activeOwner s with | some k => ownerHash s k | none => s.sec.auvKey
/-- Whether the signature blocks R326 asks for verify. -/
def imgSigned (s : State) (i : List Nat) : Bool :=
  let k := imgKind i
  if k = 0 then imgBlock s.sec.auvKey 0 i && (s.fuse F.FUSE_OWNER_STAT_COSIGN == 0 || imgBlock (ownerKey s) 1 i)
  else if k = 1 ∨ k = 2 then imgBlock s.sec.auvKey 0 i
  else if k = 0x10 ∨ k = 0x20 then imgBlock (ownerKey s) 0 i
  else false
/-- R326: whether an image is taken for a kind. -/
def imgOk (s : State) (kind : Nat) (i : List Nat) : Bool :=
  imgForm kind i && imgSigned s i && imgDigestOk i && decide (svnFloor s kind ≤ imgSvn i ∧ imgSvn i ≤ 64)
def imgTaken (s : State) (kind : Nat) (i : Option (List Nat)) : Bool := match i with | some i => imgOk s kind i | none => false
/-- `n` words of a flash bank from word `a` on. -/
def bankWords : Nat → Nat → Tbl Nat → List Nat
  | 0, _, _ => []
  | n + 1, _, [] => List.replicate (n + 1) 0
  | n + 1, a, x :: r => if x.1 = a then x.2 :: bankWords n (a + 1) r else 0 :: bankWords n (a + 1) (x :: r)
/-- The header in a lane's flash bank. -/
def bankHead (b : FwBank) : List Nat := (bankWords 16 0 b.words).flatMap (leBytes 4)
/-- The image in a bank of 3 MiB: as many bytes as its header says. -/
def bankImage (b : FwBank) : List Nat := (bankWords (min 786432 ((imgSize (bankHead b) + 3) / 4)) 0 b.words).flatMap (leBytes 4)

end Sys2Proof.Machine
end

