-- ==== Sys2Proof/Machine/Receivers.lean ====
section
/-! DEFINITION. Package power agents as receivers of lane frames (R79, R207–R214, R222, R227, R108). -/
namespace Sys2Proof.Machine
open Sys2Proof

/-- SEQ a is newer than b, serially modulo 2³² (R79). -/
def seqNewer (a b : Nat) : Bool := let d := (a + 2 ^ 32 - b % 2 ^ 32) % 2 ^ 32; decide (1 ≤ d ∧ d < 2 ^ 31)
/-- A frame's SEQ is newer than the last acted on for its TYPE and SEG. -/
def seqFresh (r : Recv) (k seq : Nat) : Bool :=
  match (tget none r.lastSeq k : Option Nat) with
  | some q => seqNewer seq q
  | none => true
/-- S of R209: the receiver's own slew limit or the SLEW of the frame acted on, whichever is lower. -/
def recvS (e : Nat) (r : Recv) : Nat := min (Config.recvSlew e) r.slew
/-- An emergency value: C falls to it, and no pending apply can raise C above it (R208, R210). -/
def recvDrop (v : Nat) (r : Recv) : Recv :=
  { r with c := min r.c v, capNow := min r.capNow v, since := some (match r.since with | some y => min y v | none => v) }
/-- Instant a is at or after instant b (seconds, nanoseconds). -/
def instGe (s1 n1 s2 n2 : Nat) : Bool := decide (s2 < s1 ∨ (s2 = s1 ∧ n2 ≤ n1))

/-- The apply of the pending transaction (R208, R209), with the FOLLOW values due; `base` is C at the previous frame boundary. -/
def recvApply (e base : Nat) (fol : List Nat) (r : Recv) : Recv :=
  match r.pend with
  | some (epoch, next, _, _, _) =>
    if r.aborted.contains epoch then fol.foldl (fun r v => recvDrop v r) { r with pend := none, since := none }
    else
      let v := fol.foldl min (match r.since with | some y => min next y | none => next)
      { r with c := min v (base + recvS e r), capNow := v, pend := none, since := none }
  | none => fol.foldl (fun r v => recvDrop v r) r
/-- A receiver that applies by SEQ: its clock is not locked, or the frame shows TIME_FREE (R208). -/
def bySeq (timeFree : Bool) (r : Recv) : Bool := !r.locked || timeFree
/-- What a frame of SEQ `seq` brings about at a receiver that applies by SEQ, before anything else in it: the FOLLOW entries and the pending
transaction whose APPLY_SEQ it has reached (R208). Their apply belongs to the boundary that began the frame's tick, so the raise is limited from
the C of the boundary before (R209; DESIGN CHOICE, log 82). -/
def recvSeqDue (e seq : Nat) (timeFree : Bool) (r : Recv) : Recv :=
  if bySeq timeFree r = false then r
  else
    let fol := (r.follow.filter (fun x => !seqNewer x.1 seq)).map (fun x => x.2.2.2)
    let r := { r with follow := r.follow.filter (fun x => seqNewer x.1 seq) }
    let due : Bool := match r.pend with | some (_, _, _, _, aseq) => !seqNewer aseq seq | none => false
    if due then let r := recvApply e r.cPrev fol r; { r with cBound := r.c } else fol.foldl (fun r v => recvDrop v r) r

/-- ACK of a member's record (R222, R223): at once for a new epoch, and again on the first frame acted on in each of the next 2 ticks; it goes to
the source addresses of the ports that have brought CAP frames. -/
def recvAck (e tick : Nat) (rec : CapRec) (epoch seq : Nat) (r : Recv) : Recv :=
  let send := fun (again : Bool) (r : Recv) =>
    { r with ackSeq := seq, ackLast := tick, ackOut := r.ackOut ++ [⟨e, epoch, rec.capNext, r.locked, again, seq, r.ports⟩] }
  if !rec.member || r.aborted.contains epoch then r
  else if r.ackEpoch ≠ epoch then send false { r with ackEpoch := epoch, ackCount := 1, ackFirst := tick }
  else if r.ackLast < tick ∧ tick ≤ r.ackFirst + 2 then send true { r with ackCount := r.ackCount + 1 }
  else r

/-- Act on a CAP frame's record (R207, R209, R212, R222, R227). -/
def recvCap (e tick seq : Nat) (rec : CapRec) (rackOff timeFree : Bool) (pend : Option (Nat × Nat × Nat × Nat)) (slew : Nat) (r : Recv) : Recv :=
  let r := { r with timeFree := timeFree }
  let r := if r.acted then { r with c := min r.c rec.capNow, capNow := rec.capNow }
    else let c := min (Config.recvLimit e) rec.capNow; { r with acted := true, c := c, cBound := c, cPrev := c, capNow := rec.capNow }
  let r := { r with dropCap := some rec.dropCap, holdCap := rec.holdCap, warm := rec.warm, slew := slew, newRec := true, lastCap := some tick, silent := false }
  let r := match pend with
    | some (epoch, sec, ns, aseq) =>
      let cur : Bool := match r.pend with | some (x, _, _, _, _) => decide (x = epoch) | none => false
      if r.aborted.contains epoch then { r with pend := none }
      else
        let r := if cur then r else { r with pend := some (epoch, rec.capNext, sec, ns, aseq), since := none }
        recvAck e tick rec epoch seq r
    | none => { r with pend := none }
  if rec.off || rackOff then { r with c := rec.dropCap, shutdown := true } else r

/-- The TIME_FREE a frame is judged by: its own, or that of the last CAP frame acted on. -/
def frameFree (b : RxBody) (r : Recv) : Bool :=
  match b with
  | .cap _ _ _ free _ _ => free
  | .drop _ (some _) free => free
  | _ => r.timeFree
/-- What a frame does at a receiver, once what its SEQ brings about is done (R207, R210, R227). -/
def recvBody (e tick : Nat) (nowS nowN : Nat) (f : RxFrame) (r : Recv) : Recv :=
  match f.body with
  | .cap rec _ rackOff timeFree pend slew => recvCap e tick f.seq rec rackOff timeFree pend slew r
  | .drop none _ _ => r
  | .drop (some v) none _ => recvDrop v r
  | .drop (some v) (some (aseq, sec, ns)) free =>
    if (if bySeq free r then !seqNewer aseq f.seq else instGe nowS nowN sec ns) then recvDrop v r
    else { r with follow := r.follow ++ [(aseq, sec, ns, v)] }
  | .haboob named off hseq =>
    if r.hseqs.any (fun x => x.1 == hseq && decide (tick < x.2 + 8192)) then r
    else
      let r := { r with hseqs := ((hseq, tick) :: r.hseqs).take 16 }
      if named then
        let v := match r.dropCap with | some d => d | none => Config.recvLowest e
        let r := recvDrop v r
        if off then { r with c := v, shutdown := true } else r
      else r
  | .abort epoch =>
    let mine : Bool := match r.pend with | some (x, _, _, _, _) => decide (x = epoch) | none => false
    { r with pend := if mine then none else r.pend, aborted := (epoch :: r.aborted.filter (fun x => x != epoch)).take 4 }
  | .beacon => r
/-- The power a receiver keeps at least: WARM while it is nonzero and not above C (R213). -/
def recvKeep (r : Recv) : Recv := { r with keep := if r.warm ≤ r.c then r.warm else 0 }
/-- Act on a frame (R79, R207–R213, R227). -/
def recvAct (e tick : Nat) (nowS nowN : Nat) (f : RxFrame) (r : Recv) : Recv :=
  let r := { r with lastAct := some tick, lastSeq := tset none r.lastSeq (256 * f.typ + f.seg) (some f.seq) }
  recvKeep (recvBody e tick nowS nowN f (recvSeqDue e f.seq (frameFree f.body r) r))

/-- The ports that have brought CAP frames, whether acted on or not (R222). -/
def recvPorts (f : RxFrame) (r : Recv) : Recv :=
  match f.body with
  | .cap _ _ _ _ _ _ => { r with ports := r.ports ||| 2 ^ f.port }
  | _ => r
/-- Receipt of a frame (R79). -/
def recvFrame (e tick : Nat) (nowS nowN : Nat) (f : RxFrame) (r : Recv) : Recv :=
  let r := recvPorts f r
  let fresh : Bool := seqFresh r (256 * f.typ + f.seg) f.seq
  if bitsOf f.claim 1 7 = 0 ∨ fresh = false then r
  else if f.emergency then recvAct e tick nowS nowN f r
  else
    let below : Bool := match r.auth with | some a => higherClaim a f.claim | none => false
    if below = true then { r with holds := r.holds ++ [f] }
    else { (recvAct e tick nowS nowN f r) with auth := some f.claim }
/-- The hold of the oldest held frame ends (R79). -/
def recvHoldEnd (e tick : Nat) (nowS nowN : Nat) (r : Recv) : Recv :=
  match r.holds with
  | [] => r
  | f :: fs =>
    let r := { r with holds := fs }
    let fresh : Bool := seqFresh r (256 * f.typ + f.seg) f.seq
    if fresh = true then recvAct e tick nowS nowN f r else r

/-- A frame boundary at a receiver (R208, R209, R214): FOLLOW entries and a pending transaction whose apply instant has come are applied;
otherwise C rises within S towards the CAP_NOW of a record acted on since the last boundary. In silence C is held. -/
def recvBoundary (e sec ns : Nat) (r : Recv) : Recv :=
  let base := r.cBound
  let byTime := !bySeq r.timeFree r
  let due := if byTime then (r.follow.filter (fun x => instGe sec ns x.2.1 x.2.2.1)).map (fun x => x.2.2.2) else []
  let r := { r with follow := if byTime then r.follow.filter (fun x => !instGe sec ns x.2.1 x.2.2.1) else r.follow }
  let apply : Bool := match r.pend with | some (_, _, s, n, _) => byTime && instGe sec ns s n | none => false
  let r := if apply then recvApply e base due r
    else
      let r := due.foldl (fun r v => recvDrop v r) r
      if r.acted && r.newRec then { r with c := max r.c (min r.capNow (base + recvS e r)) } else r
  recvKeep { r with cPrev := base, cBound := r.c, newRec := false }

/-- 64 ms of silence: C falls to HOLD_CAP (R214). -/
def recvSilenceHold (r : Recv) : Recv := if r.acted then recvKeep { r with c := min r.c r.holdCap, newRec := false, silent := true } else r
/-- 1 s of silence (R214): AUTH is forgotten and the package's own protection and default limit return. -/
def recvRevert (e : Nat) (r : Recv) : Recv :=
  { r with acted := false, auth := none, c := Config.recvLimit e, cBound := Config.recvLimit e, cPrev := Config.recvLimit e, newRec := false,
           pend := none, since := none, follow := [], keep := 0,
           holds := [], warm := 0, silent := false }

/-! ### Frames as the lanes sent them -/

def ethCap (o : EthOut) (e port : Nat) : RxFrame :=
  ⟨1, e / 96, o.claim, o.seq, false, port,
    .cap (tget {} o.recs e) (bitOf o.habRacks (e / 96)) (bitOf o.offRacks (e / 96)) o.timeFree o.pend o.slew⟩
def ethDrop (o : EthOut) (e port seg : Nat) : Option RxFrame :=
  match o.drops[seg]? with
  | some d => some ⟨2, seg, o.claim, o.seq, true, port, .drop ((d.entries.filter (fun x => x.1 == e)).head?.map (fun x => x.2)) d.follow o.timeFree⟩
  | none => none
def ethHaboob (o : EthOut) (e port : Nat) : List RxFrame :=
  o.haboob.map (fun h => ⟨3, 0, o.claim, o.seq, true, port, .haboob (bitOf h.racks (e / 96)) h.off h.hseq⟩)
def ethAbort (o : EthOut) (port seg : Nat) : Option RxFrame :=
  (o.aborts[seg]?).map (fun a => ⟨0x12, seg, o.claim, o.seq, false, port, .abort a.epoch⟩)
def ethBeacon (o : EthOut) (port : Nat) : RxFrame := ⟨0x20, 0, o.claim, o.seq, false, port, .beacon⟩
/-- Deliver a frame to a receiver. -/
def recvDeliver (s : State) (e : Nat) (f : Option RxFrame) : State :=
  match f with
  | some f => let (ns, nn) := tickInst s.time 0; { s with recv := tmod {} s.recv e (recvFrame e s.time.count ns nn f) }
  | none => s

/-! ### Commands -/

/-- CAP_FRAME: the frame of the receiver's rack that a lane sent in its last P7 reaches the receiver on a port; `locked` is the state of the
receiver's PTP clock. -/
def execCapFrame (endpoint : Fin 2304) (lane : LaneId) (port : Fin 2) (locked : Bool) (s : State) : Host.Outcome State Fault Refusal :=
  let s := { s with recv := tmod {} s.recv endpoint.val (fun r => { r with locked := locked }) }
  let f := match (s.lane lane).ethOut with
    | some o => if endpoint.val % 96 < lget 0 o.nrec (endpoint.val / 96) then some (ethCap o endpoint.val port.val) else none
    | none => none
  .next (recvDeliver s endpoint.val f)
def execDropFrame (endpoint : Fin 2304) (lane : LaneId) (port : Fin 2) (seg : BitVec 8) (s : State) : Host.Outcome State Fault Refusal :=
  .next (recvDeliver s endpoint.val ((s.lane lane).ethOut.bind (fun o => ethDrop o endpoint.val port.val seg.toNat)))
def execHaboobFrame (endpoint : Fin 2304) (lane : LaneId) (port : Fin 2) (s : State) : Host.Outcome State Fault Refusal :=
  .next ((match (s.lane lane).ethOut with | some o => ethHaboob o endpoint.val port.val | none => []).foldl (fun s f => recvDeliver s endpoint.val (some f)) s)
def execAbortFrame (endpoint : Fin 2304) (lane : LaneId) (port : Fin 2) (seg : BitVec 8) (s : State) : Host.Outcome State Fault Refusal :=
  .next (recvDeliver s endpoint.val ((s.lane lane).ethOut.bind (fun o => ethAbort o port.val seg.toNat)))
/-- CAP_APPLY: a frame boundary at the receiver, at an instant of its clock. -/
def execCapApply (endpoint : Fin 2304) (sec : Word) (ns : Word) (s : State) : Host.Outcome State Fault Refusal :=
  .next { s with recv := tmod {} s.recv endpoint.val (recvBoundary endpoint.val sec.toNat ns.toNat) }
def execReceiverHoldExpiry (endpoint : Fin 2304) (s : State) : Host.Outcome State Fault Refusal :=
  let (ns, nn) := tickInst s.time 0
  .next { s with recv := tmod {} s.recv endpoint.val (recvHoldEnd endpoint.val s.time.count ns nn) }
/-- AUTH is forgotten 1 s, 8,192 ticks, after the last frame acted on (R79). -/
def recvForget (tick : Nat) (r : Recv) : Recv :=
  match r.lastAct with
  | some t => if t + 8192 ≤ tick then { r with auth := none } else r
  | none => { r with auth := none }
def execReceiverAuthForget (endpoint : Fin 2304) (s : State) : Host.Outcome State Fault Refusal :=
  .next { s with recv := tmod {} s.recv endpoint.val (recvForget s.time.count) }
def execReceiverSilenceHold (endpoint : Fin 2304) (s : State) : Host.Outcome State Fault Refusal :=
  .next { s with recv := tmod {} s.recv endpoint.val recvSilenceHold }
def execReceiverSilenceRevert (endpoint : Fin 2304) (s : State) : Host.Outcome State Fault Refusal :=
  .next { s with recv := tmod {} s.recv endpoint.val (recvRevert endpoint.val) }
/-- R108: a beacon from a port reaches a package agent. -/
def agentBeacon (tick port e : Nat) (a : Agent) : Agent :=
  if port = e / 96 % 2 then
    let gap : Bool := match a.last with | some t => decide (t + 1 < tick) | none => true
    let a := { a with last := some tick, runFrom := if gap then some tick else a.runFrom }
    match a.runFrom with
    | some t => if t + 8191 ≤ tick then { a with away := false } else a
    | none => a
  else a
/-- CLAIM_BEACON: the beacon of a lane's last P7 tells the agent its port is alive, and is a frame of TYPE 20h to the receiver (R77, R79). -/
def claimBeacon (e port : Nat) (o : Option EthOut) (s : State) : State :=
  match o with
  | some o =>
    recvDeliver { s with agents := tmod {} s.agents e (agentBeacon s.time.count port e) } e (some (ethBeacon o port))
  | none => s
def execClaimBeacon (endpoint : Fin 2304) (lane : LaneId) (port : Fin 2) (s : State) : Host.Outcome State Fault Refusal :=
  .next (claimBeacon endpoint.val port.val (s.lane lane).ethOut s)

end Sys2Proof.Machine
end

