-- ==== Sys2Proof/Machine/Frames.lean ====
section
/-! DEFINITION. What a lane assembles in P6 and sends in P7 (R77, R78, R202–R206, R226, R228, R249, R395): frames as data and as bytes, the
hash of a tick, the decision record with its hash, the merge of two records (R85). -/
namespace Sys2Proof.Machine
open Sys2Proof

/-! ### The frames of a row -/

/-- SHUTDOWN bit of R204: the OFF bit of an endpoint's record. -/
def capOff (r : RowSt) (e : Nat) : Bool := (epAt r.caps e).off
/-- The record of an endpoint (R204); `m` is the merged record in MERGE. -/
def capRecOf (m : Option DecRec) (r : RowSt) (e : Nat) : CapRec :=
  let x := epAt r.caps e
  let t : Option Nat := match slipPending r.slip with | some t => tget none t.members e | none => none
  let warm := match m with
    | some d => if tget false d.warm e then min (r.f F.CAPC_WARM2_FLOOR) x.c else 0
    | none => capWarm r e
  { capNow := x.c, capNext := t.getD x.c, dropCap := capFloor r.caps e, holdCap := capHoldCap r.caps e, warm := warm, member := t.isSome,
    off := (match m with | some d => tget false d.off e | none => capOff r e), dropped := x.dropped, bind := x.bind }
/-- Cut a list into pieces of at most 64 entries. -/
def chunks64 : Nat → List (Nat × Nat) → List (List (Nat × Nat))
  | 0, _ => []
  | _ + 1, [] => []
  | k + 1, l => l.take 64 :: chunks64 k (l.drop 64)
/-- The DROP frames of a tick: drops first, FOLLOW frames after them (R202, R205). -/
def dropFrames (t : TimeSt) (seq : Nat) (r : RowSt) : List DropFrame :=
  let inst := tickInst t 1
  (chunks64 (r.caps.drops.length + 1) r.caps.drops).map (fun l => (⟨l, none⟩ : DropFrame)) ++
  (chunks64 (r.caps.follows.length + 1) r.caps.follows).map (fun l => (⟨l, some ((seq + 1) % 2 ^ 32, inst.1 % 2 ^ 32, inst.2)⟩ : DropFrame))
/-- CONSERV of the frames: the merged record's in MERGE, whose lanes emit one content (R85). -/
def frameConserv (m : Option DecRec) (r : RowSt) : Bool := match m with | some d => d.conserv | none => r.prot.conserv
/-- What the lane sends on both Ethernet ports in the tick: claim and SEQ, TIME_FREE, node address, CONSERV, the merged record. -/
def buildEth (t : TimeSt) (free : Bool) (node claim seq : Nat) (m : Option DecRec) (r : RowSt) : EthOut :=
  { claim := claim, seq := seq, merged := m.isSome, conserv := frameConserv m r, node := node, tstamp := (tickInst t 0).2, haboob := habEmitted t.count r.caps,
    drops := dropFrames t seq r, nrec := r.caps.nslot.take r.caps.nrack,
    habRacks := (match m with | some d => d.haboob | none => r.caps.habRacks),
    offRacks := (match m with | some d => d.rackOff | none => r.prot.roff), timeFree := free, epochNow := r.slip.epochNow,
    pend := (slipPending r.slip).map (fun x => let i := tickInst t (x.a - t.count); (x.epoch, i.1 % 2 ^ 32, i.2, x.aseq)),
    slew := r.f F.CAPC_SLEW_UP,
    recs := (capEndpoints r.caps).foldl (fun l e => tset {} l e (capRecOf m r e)) [], aborts := slipAborts t.count r.slip }
/-- The actuator frame of the tick (R249). `en` and `safe` are the banks' PG_CTRL.EN and FORCE_SAFE. -/
def buildAct (tick claim seq en safe : Nat) (m : Option DecRec) (r : RowSt) : ActFrame :=
  let (op, a16, ep, items) := slipSection tick r
  let lost := fun (x : Option ChipRep) => match x with | some c => c.chip.posLost | none => true
  { merged := m.isSome, conserv := frameConserv m r, posLoad := lost r.act.rep0 || lost r.act.rep1, claim := claim, seq := seq, bankEn := en,
    bankSafe := safe, chEn := (upto 96).foldl (fun t k => tset true t k (r.f (F.VBANK_CH_CFG_EN (k / 8) (k % 8)) == 1)) [],
    pos := r.act.tracked, pump := r.act.pumpF, fan := r.act.fanF, items := r.act.items, op := op, applySeq16 := a16, epoch := ep, slip := items }

/-! ### Bytes -/

/-- Pad a payload with 00h bytes to 46 bytes (R77). -/
def pad46 (l : List Nat) : List Nat := l ++ List.replicate (46 - l.length) 0
/-- The lane header of R77, with its CLAIM. -/
def ethHeader (o : EthOut) (claim typ seg last : Nat) (emerg : Bool) : List Nat :=
  [1, typ] ++ beBytes 2 claim ++ beBytes 4 o.seq ++ [seg, last, b2n o.merged + 2 * b2n o.conserv + 4 * b2n emerg, o.node % 64] ++ beBytes 4 o.tstamp
/-- A record of R204. -/
def recBytes (x : CapRec) : List Nat :=
  beBytes 2 x.capNow ++ beBytes 2 x.capNext ++ beBytes 2 x.dropCap ++ beBytes 2 x.holdCap ++ beBytes 2 x.warm ++
    [b2n x.member + 2 * b2n x.off + 4 * b2n x.dropped + 8 * (x.bind % 8), 0]
/-- A CAP frame (R203). -/
def capBytes (o : EthOut) (claim rack : Nat) : List Nat :=
  let n := lget 0 o.nrec rack
  let flags := b2n (bitOf o.habRacks rack) + 2 * b2n (bitOf o.offRacks rack) + 4 * b2n o.pend.isSome + 8 * b2n o.timeFree
  let (e, s, ns, q) := o.pend.getD (0, 0, 0, 0)
  pad46 (ethHeader o claim 1 rack (o.nrec.length - 1) false ++ [rack, n] ++ beBytes 2 flags ++ beBytes 4 o.epochNow ++ beBytes 4 e ++ beBytes 4 s ++
    beBytes 4 ns ++ beBytes 4 q ++ beBytes 2 o.slew ++ [0, 0] ++ ((upto n).map (fun i => recBytes (tget {} o.recs (96 * rack + i)))).flatten)
/-- A DROP frame (R205). -/
def dropBytes (o : EthOut) (claim seg : Nat) (d : DropFrame) : List Nat :=
  let (q, s, ns) := d.follow.getD (0, 0, 0)
  pad46 (ethHeader o claim 2 seg (o.drops.length - 1) true ++ beBytes 2 d.entries.length ++ beBytes 2 (b2n d.follow.isSome + 2 * b2n o.timeFree) ++
    beBytes 4 q ++ beBytes 4 s ++ beBytes 4 ns ++ (d.entries.map (fun x => beBytes 2 x.1 ++ beBytes 2 x.2)).flatten)
/-- A HABOOB frame (R206). -/
def haboobBytes (o : EthOut) (claim : Nat) (h : HabFrame) : List Nat :=
  pad46 (ethHeader o claim 3 0 0 true ++ beBytes 4 h.racks ++ [h.cause, b2n h.off, 0, 0] ++ beBytes 4 h.hseq)
/-- An ABORT frame (R226). -/
def abortBytes (o : EthOut) (claim seg : Nat) (a : AbortFrame) : List Nat :=
  pad46 (ethHeader o claim 0x12 seg (o.aborts.length - 1) false ++ beBytes 4 a.epoch ++ beBytes 4 a.applySeq ++ [a.cause, 0] ++ beBytes 2 a.nmiss ++
    beBytes 2 a.firstMiss ++ [0, 0])
/-- The locally administered group addresses of R202: a rack's, and the row's (FFh). -/
def capMac (rr : Nat) : List Nat := [0x03, 0x4F, 0x58, 0x43, 0x00, rr]
/-- Every Ethernet frame of the tick but the claim beacon, in the order of R202 and R226: destination address and payload. -/
def ethFrames (o : EthOut) (claim : Nat) : List (List Nat × List Nat) :=
  o.haboob.map (fun h => (capMac 0xFF, haboobBytes o claim h)) ++
  (upto o.drops.length).map (fun k => (capMac 0xFF, dropBytes o claim k (lget ⟨[], none⟩ o.drops k))) ++
  (upto o.nrec.length).map (fun k => (capMac k, capBytes o claim k)) ++
  (upto o.aborts.length).map (fun k => (capMac 0xFF, abortBytes o claim k (lget ⟨0, 0, 0, 0, 0⟩ o.aborts k)))
/-- Their payloads. -/
def ethPayloads (o : EthOut) (claim : Nat) : List (List Nat) := (ethFrames o claim).map (fun x => x.2)
/-- A frame on the wire without its FCS: destination, source, EtherType 88B5h, payload (R77, R202). -/
def ethWire (dst src payload : List Nat) : List Nat := dst ++ src ++ [0x88, 0xB5] ++ payload
/-- An ACK (R223); it carries no lane header. -/
def ackBytes (a : AckMsg) : List Nat :=
  pad46 ([1, 0x11] ++ beBytes 2 (a.endpoint % 4096) ++ beBytes 4 a.epoch ++ beBytes 2 a.cap ++ [b2n a.ptpLocked + 2 * b2n a.again, 0] ++ beBytes 4 a.seq)
/-- The claim beacon (R77). -/
def beaconBytes (o : EthOut) (claim state : Nat) (linkDown : Bool) : List Nat := pad46 (ethHeader o claim 0x20 0 0 false ++ [state, b2n linkDown, 0, 0])
/-- The Slipface section (R228). -/
def slipBytes (f : ActFrame) : List Nat :=
  [f.op, f.slip.length % 256] ++ beBytes 2 f.applySeq16 ++ beBytes 4 f.epoch ++
    (f.slip.map (fun i => [i.kind, if i.kind = 4 then i.page else 0] ++ beBytes 2 i.chan ++ beBytes 4 i.value)).flatten
/-- The actuator frame before its CRC-32 (R249), with its CLAIM. -/
def actBytes (f : ActFrame) (claim : Nat) : List Nat :=
  [0x0B, b2n f.merged + 2 * b2n f.conserv + 4 * b2n f.posLoad] ++ beBytes 2 claim ++ beBytes 4 f.seq ++ beBytes 2 f.bankEn ++ beBytes 2 f.bankSafe ++
  (upto 12).map (fun b => nsum ((upto 8).map (fun n => if tget true f.chEn (8 * b + n) then 2 ^ n else 0))) ++
  (upto 24).map (fun j => nsum ((upto 4).map (fun i => tget 0 f.pos (4 * j + i) % 4 * 4 ^ i))) ++
  (f.pump.map (beBytes 2)).flatten ++ (f.fan.map (beBytes 2)).flatten ++ beBytes 2 f.items.length ++ [0, 0] ++
  (f.items.map (fun x => [1, 0] ++ beBytes 2 x.1 ++ beBytes 4 x.2)).flatten ++ slipBytes f
/-- Byte 0 of a channel in the report, which VBANK_CH_STAT shows too. -/
def chStat (x : VCh) : Nat := x.pos % 4 + 4 * (x.phase % 4) + 16 * b2n x.wait + 32 * b2n x.fault + 64 * b2n x.cand.isSome
/-- A bank of the report: rail, channel in BOOST or PEAK with the count waiting, STATE and SAFE, hold sum, IGNORED, REFUSED. -/
def repBankBytes (r : ChipRep) (chip j : Nat) : List Nat :=
  let b := tget {} r.chip.banks j
  let ch := fun (n : Nat) => tget {} r.chip.ch (48 * chip + 8 * j + n)
  let act := ((upto 8).filter (fun n => (ch n).phase == 1 || (ch n).phase == 2)).head?
  beBytes 2 b.rail ++ [act.getD 0 + 8 * b2n act.isSome + 16 * (b.queue.length % 16), bstateNum (lget .off r.bankState j) + 16 * b2n (lget false r.bankSafe j)] ++
    beBytes 2 (nsum ((upto 8).map (fun n => if (ch n).phase = 3 then (ch n).holdI else 0))) ++ [b.ignored % 256, b.refused % 256]
/-- A pump of the report (R271). -/
def repPumpBytes (r : ChipRep) (i : Nat) : List Nat :=
  let x := tget {} r.chip.pumps i
  beBytes 2 x.applied ++ beBytes 2 (x.rpm.getD 0xFFFF) ++
    [bstateNum (lget .off r.pumpState i) % 8 + 8 * b2n (lget false r.pumpGranted i) + 16 * b2n x.tachLost + 32 * b2n x.mbLost + 64 * b2n x.lossBad, 0] ++
    beBytes 2 (lget 0 x.mb 0) ++ beBytes 2 (lget 0 x.mb 1) ++ beBytes 2 (lget 0 x.mb 4) ++ beBytes 2 (lget 0 x.mb 5) ++ [x.age, 0]
/-- A fan of the report (R271). -/
def repFanBytes (x : FanCh) : List Nat :=
  beBytes 2 x.applied ++ beBytes 2 (x.rpm.getD 0xFFFF) ++ [x.cur, x.state % 8 + 8 * (x.kick % 4) + 32 * b2n x.slow + 64 * b2n x.raised]
/-- The status report before its CRC-32 (R251, R271). -/
def repBytes (chip : Nat) (r : ChipRep) : List Nat :=
  let (claim, seq) := r.chip.chosen.getD (0, 0)
  [0x0C, chip] ++ beBytes 2 claim ++ beBytes 4 seq ++ [b2n r.chip.sawA + 2 * b2n r.chip.sawB + 4 * b2n r.chip.badCrc + 8 * b2n r.chip.posLost, 0] ++
    beBytes 4 r.chip.epoch ++ [0, 0] ++ ((upto 6).map (fun j => repBankBytes r chip j)).flatten ++
    ((upto 48).map (fun c => let x := tget {} r.chip.ch (48 * chip + c); [chStat x, x.cmdId, x.result % 16 + 16 * (x.diag % 16), x.ttp])).flatten ++
    ((upto 2).map (fun i => repPumpBytes r i)).flatten ++ ((upto 24).map (fun i => repFanBytes (tget {} r.chip.fans (24 * chip + i)))).flatten ++ [b2n r.chip.wdog]
/-- HASH of a tick (R78): CLAIM fields as zeros, claim beacons left out. -/
def tickHash (f : ActFrame) (o : EthOut) : Nat := crc64 (actBytes f 0 ++ (ethPayloads o 0).flatten)

/-! ### The decision record (R395) -/

/-- What the loops read (R118): sensing, speeds, advisory slots, the setpoint overrides and the idle trim. -/
def loopEnv (r : RowSt) : LoopEnv :=
  let pumps := (upto 4).foldl (fun t n =>
    match repPump r.act n with | some x => if x.tachLost then t else tset none t n x.rpm | none => t) ([] : Tbl (Option Nat))
  let fb := (upto 48).foldl (fun t n =>
    match repFan r.act n with | some x => if x.state = 3 then t else tset none t (64 + n) x.rpm | none => t) pumps
  { rf := r.regs, sens := r.sens, feedback := fb, slots := (match r.adv with | some a => a.msg.slots | none => []), advValid := r.adv.isSome,
    spOver := r.prot.spOver, spSet := r.prot.spSet, floor := (r.f F.PROT_DEW_LOOP, dewFloorQ r.sens),
    trimAdd := fun j => if (upto 24).any (fun k => bitOf r.caps.trimRacks k && Config.trimLoop k == j) then
      q32 (qdiv ((r.f F.CAPC_WARM2_TRIM_DT : Int) * 65536) 10) else 0 }
/-- The valve byte of a value word. -/
def valveByte (w : Nat) : Nat := w % 16
/-- The decision record of a tick: what P5 decided, before any merge. `epoch` is the transaction this P5 stages, 0 none. -/
def buildRec (seq epoch : Nat) (r : RowSt) : DecRec :=
  let eps := capEndpoints r.caps
  let p := r.prot
  { seq := seq, epoch := epoch, overPress := overPress r, dewVerdict := r.sens.dewVerdict, conserv := p.conserv, flowStop := p.flowStop.on,
    dry := p.dry, standbyStart := r.act.standbyNow, standbyUrgent := r.act.standbyUrgent, leak := leakBits r.sens % 2 ^ 24, rackOff := p.roff,
    haboob := r.caps.habRacks,
    supSp := (let j := r.f F.PROT_DEW_LOOP
              convQ (bSbp r.loops.act j) 16 ((spRead (loopEnv r) r.loops j).getD (loopSp r.regs j))),
    pump := r.act.pumpF, fan := r.act.fanF, valve := r.act.items.foldl (fun t x => tset 0 t x.1 (valveByte x.2)) [],
    drop := r.caps.drops.foldl (fun t x => tset false t x.1 true) [],
    off := eps.foldl (fun t e => tset false t e (capOff r e)) [], warm := eps.foldl (fun t e => tset false t e (capWarm r e != 0)) [],
    cap := eps.foldl (fun t e => tset 0 t e (match (r.caps.staged.filter (fun (x : Nat × Nat × Nat) => x.1 == e)).head? with
      | some x => x.2.1
      | none => (epAt r.caps e).c)) [] }
/-- A bit map over the endpoints, 288 bytes. -/
def mapBytes (t : Tbl Bool) : List Nat :=
  (upto 288).map (fun j => nsum ((upto 8).map (fun i => if tget false t (8 * j + i) then 2 ^ i else 0)))
/-- Bytes 0 to 5,703 of the record (R395). -/
def decBytes (d : DecRec) : List Nat :=
  leBytes 4 d.seq ++ leBytes 4 d.epoch ++
  [b2n d.overPress + 2 * b2n d.dewVerdict + 4 * b2n d.conserv + 8 * b2n d.flowStop + 16 * (d.dry % 16), b2n d.standbyStart + 2 * b2n d.standbyUrgent, 0, 0] ++
  leBytes 4 d.leak ++ leBytes 4 d.rackOff ++ leBytes 4 d.haboob ++ leBytes 4 (ux 32 d.supSp) ++ (d.pump.map (leBytes 2)).flatten ++
  (d.fan.map (leBytes 2)).flatten ++ (upto 96).map (fun k => tget 0 d.valve k) ++ mapBytes d.drop ++ mapBytes d.off ++ mapBytes d.warm ++
  ((upto 2304).map (fun e => leBytes 2 (tget 0 d.cap e))).flatten ++ [0, 0, 0, 0]
/-- RHASH (R78). -/
def recHash (d : DecRec) : Nat := crc64 (decBytes d)

/-! ### The merge (R85) -/

/-- A duty field's order: OFF below any duty. -/
def fieldRank (f : Nat) : Nat := if fieldOff f then 0 else 1 + fieldDuty f
def fieldMax (a b : Nat) : Nat := if fieldRank a < fieldRank b then b else if fieldRank b < fieldRank a then a else max a b
def fieldMin (a b : Nat) : Nat := if fieldRank b < fieldRank a then b else if fieldRank a < fieldRank b then a else min a b
/-- One pump's field: stopped under a dry-run verdict, the lower under an over-pressure verdict, else the higher. -/
def mergePump (overNow dry : Bool) (a b : Nat) : Nat :=
  if dry then (if fieldOff a || fieldOff b then 0x8000 else 0) else if overNow then fieldMin a b else fieldMax a b
/-- One valve channel's byte: close under a leak verdict of its rack, else open before no move and no move before close. -/
def mergeValve (leak : Bool) (a b : Nat) : Nat :=
  let pick := fun (t : Nat) => if a % 4 = t ∧ b % 4 = t then max a b else if a % 4 = t then a else if b % 4 = t then b else 0
  if leak then (if a % 4 = 2 ∨ b % 4 = 2 then pick 2 else 10)
  else if a % 4 = 1 ∨ b % 4 = 1 then pick 1
  else if a % 4 = 0 ∨ b % 4 = 0 then 0
  else pick 2
def tblOr (a b : Tbl Bool) : Tbl Bool := b.foldl (fun t (x : Nat × Bool) => if x.2 then tset false t x.1 true else t) a
/-- The field-by-field merge of two records; `hi` is the record of the lane with the higher claim. -/
def mergeRec (hi lo : DecRec) : DecRec :=
  let overNow := hi.overPress || lo.overPress
  let dew := hi.dewVerdict || lo.dewVerdict
  let leak := hi.leak ||| lo.leak
  { hi with
    pump := (upto 4).map (fun n => mergePump overNow (bitOf hi.dry n || bitOf lo.dry n) (lget 0 hi.pump n) (lget 0 lo.pump n)),
    fan := (upto 48).map (fun n => fieldMax (lget 0 hi.fan n) (lget 0 lo.fan n)),
    valve := (upto 96).foldl (fun t k => tset 0 t k (mergeValve (bitOf leak (chRack k)) (tget 0 hi.valve k) (tget 0 lo.valve k))) [],
    drop := tblOr hi.drop lo.drop, off := tblOr hi.off lo.off,
    warm := hi.warm.filter (fun (x : Nat × Bool) => x.2 && tget false lo.warm x.1),
    rackOff := hi.rackOff ||| lo.rackOff, standbyStart := hi.standbyStart || lo.standbyStart,
    standbyUrgent := hi.standbyUrgent || lo.standbyUrgent,
    supSp := if dew then max hi.supSp lo.supSp else min hi.supSp lo.supSp,
    cap := hi.cap.map (fun (x : Nat × Nat) => (x.1, min x.2 (tget 0 lo.cap x.1))) }

/-- Insert an entry in a list that rises by its key, so that both lanes send one order (R85). -/
def insItem (x : Nat × Nat) : List (Nat × Nat) → List (Nat × Nat)
  | [] => [x]
  | y :: ys => if y.1 < x.1 then y :: insItem x ys else x :: (if y.1 = x.1 then ys else y :: ys)
/-- A merged valve command: the lane's own number where it decided the same target, else a new number. A close that is being carried out already,
or whose channel reports CLOSED, is not repeated. -/
def mergeItem (tick : Nat) (d : DecRec) (k : Nat) (r : RowSt) : RowSt :=
  let b := tget 0 d.valve k
  let has : Bool := r.act.items.any (fun (x : Nat × Nat) => x.1 == k && x.2 % 4 == b % 4)
  let done : Bool := b % 4 == 2 && (tget 0 r.act.tracked k == 2 || (match (tget none r.act.want k : Option Want) with | some w => w.tgt == 2 | none => false))
  if b % 4 = 0 ∨ has = true ∨ done = true then r
  else
    let id := nextCid (tget 0 r.act.cid k)
    rowAct (fun a => setWant k (some ⟨b % 4, bitOf b 2, bitOf b 3, 1, id, if valveClass (k % 8) = 0 then 1 else 0, tick, 0⟩)
      { a with cid := tset 0 a.cid k id, items := insItem (k, valWord (b % 4) (bitOf b 2) (bitOf b 3) id) a.items }) r
/-- A cap of the merged decision (R85, R86): a drop either record decides is sent; in the first tick of MERGE a cap lowered below the value
in force is sent as a drop too. -/
def mergeCap (tick : Nat) (first : Bool) (d : DecRec) (e : Nat) (r : RowSt) : RowSt :=
  let m := tget 0 d.cap e
  let c := (epAt r.caps e).c
  if (tget false d.drop e || first) && decide (m < c) then
    capLower tick e m { r with caps := { r.caps with drops := insItem (e, m) r.caps.drops } }
  else r
/-- The lane's row takes the merged decision: duties, valve commands, drops, the standby start, the supply setpoint and the targets to be
staged in a decision tick or in the first tick of MERGE. -/
def mergeApply (tick : Nat) (first : Bool) (own d : DecRec) (r : RowSt) : RowSt :=
  let sort := fun (l : List (Nat × Nat)) => l.foldl (fun l x => insItem x l) []
  let r := { r with caps := { r.caps with drops := sort r.caps.drops } }
  let r := overAll (rowAct (fun a => { a with pumpF := d.pump, fanF := d.fan,
                                              items := sort (a.items.filter (fun (x : Nat × Nat) => tget 0 d.valve x.1 % 4 == x.2 % 4)) }) r)
  let r := (upto 96).foldl (fun r k => mergeItem tick d k r) r
  let r := if d.standbyStart && !own.standbyStart then startStandby d.standbyUrgent (fieldDuty (lget 0 d.pump (r.f F.PUMP_CFG_STANDBY))) r else r
  let r := if d.supSp = own.supSp then r else { r with prot := { r.prot with spSet := some (r.f F.PROT_DEW_LOOP, d.supSp) } }
  let r := (capEndpoints r.caps).foldl (fun r e => mergeCap tick first d e r) r
  let st := if first || tick % 8 == 2 then
      (capEndpoints r.caps).filterMap (fun e =>
        let m := tget 0 d.cap e
        if m = (epAt r.caps e).c then none
        else some (e, m, match (r.caps.staged.filter (fun (x : Nat × Nat × Nat) => x.1 == e)).head? with
          | some x => x.2.2
          | none => (epAt r.caps e).bind))
    else []
  { r with caps := { r.caps with staged := st } }

end Sys2Proof.Machine
end

