-- ==== Sys2Proof/Machine/Lane.lean ====
section
/-! DEFINITION. What a Seif lane decides about itself (R69–R90, R354, R355): latching STATUS, LINK_DOWN, boot and return, hash comparison,
comparison self-test, MERGE, takeover, rotating self-test, the flash record. -/
namespace Sys2Proof.Machine
open Sys2Proof

/-! ### Claims (R74–R76) -/

def modeRank : LaneMode → Nat
  | .authority => 0x40
  | .standby => 0x20
  | .probation => 0x10
  | _ => 0
/-- The claim a lane sends in a state: 0000h without a rank. -/
def claimOf (id : LaneId) (gen : Nat) (m : LaneMode) : Nat := if modeRank m = 0 then 0 else gen % 256 * 256 + 2 * modeRank m + laneNum id
def modeNum : LaneMode → Nat
  | .boot => 0 | .resync => 1 | .probation => 2 | .standby => 3 | .authority => 4 | .out => 5
/-- The claim in force from P7 of the tick. -/
def laneClaim (id : LaneId) (l : Lane) : Lane := { l with core := { l.core with claim := claimOf id l.core.gen l.core.mode } }
/-- PROBATION and STANDBY: the states from which a lower claim resynchronises. -/
def LaneMode.follows : LaneMode → Bool
  | .probation | .standby => true
  | _ => false
def laneUnit (id : LaneId) : Nat := 0x10 + 0x10 * laneNum id
/-- A class 1 event of the lane itself. -/
def Lane.lev (l : Lane) (id : LaneId) (code arg : Nat) : Lane := l.ev id 1 (laneUnit id) 0xFFFF code arg

/-! ### The flash record (R355) -/

/-- Channels whose profile runs without a verdict, as reported (R355). -/
def runningChans (a : ActSt) : List Nat :=
  (upto 96).filter (fun k => match repCh a k with | some x => x.phase != 0 && x.verdict.isNone | none => false)
/-- The record of the state as it stands. -/
def flashOf (gen : Nat) (old : FlashRec) (r : RowSt) : FlashRec :=
  { gen := gen, regs := r.regs, bank0 := r.loops.bank0, bank1 := r.loops.bank1, active := r.loops.active, budget := r.caps.budget,
    limits := r.caps.limits, therm := r.caps.therm, group := r.caps.group, nrack := r.caps.nrack, nslot := r.caps.nslot, hseq := r.caps.hseq,
    leak := r.sens.leak.foldl (fun t (x : Nat × LeakCh) => tset false t x.1 x.2.verdict) [], dry := r.prot.dry, stuck := r.act.stuck,
    iso := r.prot.iso, blind := r.prot.blind, roff := r.prot.roff, cdu := r.prot.cdu, tracked := r.act.tracked,
    running := runningChans r.act, epoch := old.epoch, hCount := r.prot.hCount, cid := r.act.cid, macs := r.macs }
/-- CONFIG_RECORD_WRITE: at the end of a tick the record holds the lane's configuration, verdicts and positions. -/
def flashTick (l : Lane) : Lane := { l with flash := flashOf l.core.gen l.flash l.row }
/-- A safety-relevant loop on a bank's descriptor (R132). -/
def loopSafety (b : LoopBank) (j : Nat) : Bool := bDestType b j != 0 || bPvSrc b j / 4096 == 2
/-- The row a lane boots with (R131, R206, R355): C_e and CEIL_e at HOLD_CAP_e, CONSERV 1, safety-relevant loops in AUTO, first runs of loops
that drive a pump or a fan bumpless. -/
def rowFromFlash (f : FlashRec) : RowSt :=
  let i := RowSt.init
  let act := if f.active = 0 then f.bank0 else f.bank1
  let modes := (upto 64).foldl (fun rf j =>
    let m := loopMode rf j
    if loopSafety act j && (m == 2 || m == 3) then fset rf (F.LOOP_MODE_MODE (j / 16) (j % 16)) 1 else rf) f.regs
  let evs := (upto 64).filterMap (fun j =>
    let m := loopMode f.regs j
    if loopSafety act j && (m == 2 || m == 3) then some (⟨1, 4, 0x14 + j / 16, j % 16, 0, Ev.loopAuto, m⟩ : Occ) else none)
  { i with
    regs := modes, events := evs, macs := f.macs,
    loops := { i.loops with bank0 := f.bank0, bank1 := f.bank1, active := f.active,
                            run := (upto 64).foldl (fun t j => if bDestType act j = 0 then t else tset {} t j { boot := true }) [] },
    caps := capBoot { i.caps with budget := f.budget, limits := f.limits, therm := f.therm, group := f.group, nrack := f.nrack, nslot := f.nslot,
                                  hseq := f.hseq },
    sens := { i.sens with leak := f.leak.foldl (fun t (x : Nat × Bool) => tset {} t x.1 { verdict := x.2 }) [] },
    act := { i.act with stuck := f.stuck, cid := f.cid,
                        tracked := f.running.foldl (fun t k => tset 0 t k 0) f.tracked },
    slip := { i.slip with lastEpoch := f.epoch, epochNow := f.epoch },
    prot := { i.prot with dry := f.dry, iso := f.iso, blind := f.blind, roff := f.roff, cdu := f.cdu, hCount := f.hCount, conserv := true,
                          leaks := nsum ((upto 24).map (fun k => if tget false f.leak k then 2 ^ k else 0)) } }
/-- The output of a loop whose first run is bumpless is the applied duty Playa reports: 100.00 % where it reports a released output or
nothing (R355). -/
def bootOutputs (r : RowSt) : RowSt :=
  let b := r.loops.act
  let duty := fun (t d : Nat) =>
    if t = 1 then (match repPump r.act d with | some x => x.applied | none => 10000)
    else (match repFan r.act (if t = 2 then d else 16 * d) with | some x => x.applied | none => 10000)
  { r with loops := { r.loops with run := r.loops.run.map (fun (x : Nat × LoopRun) =>
      if x.2.boot then (x.1, { x.2 with u := (duty (bDestType b x.1) (bDest b x.1) : Int) * ((2 ^ bSbp b x.1 : Nat) : Int) / 100 }) else x) } }

/-! ### Changes of state (R81) -/

/-- A lane goes to OUT. -/
def goOut (id : LaneId) (arg : Nat) (l : Lane) : Lane :=
  Lane.lev { l with core := { l.core with mode := .out, merge := false, bothFail := false, stDue := false, await := .nothing } } id Ev.laneOut arg
/-- A lane asks for a copy of the AUTHORITY lane's state, in its STATUS of the tick (R88). -/
def goResync (id : LaneId) (l : Lane) : Lane :=
  Lane.lev { l with core := { l.core with mode := .resync, merge := false, bothFail := false, stDue := false, await := .nothing,
                                          serving := none, chunks := 0, logs := 0 } } id Ev.laneResync 0
/-- A failed copy (R81, LHLTH_STAT.RESYNC_FAILS): the third within 3,600 s sends the lane to OUT, another starts the copy again. -/
def copyFailed (id : LaneId) (tick : Nat) (l : Lane) : Lane :=
  let fs := tick :: l.core.copyFails.filter (fun t => decide (tick < t + 29491200))
  let l := { l with core := { l.core with copyFails := fs } }
  if 3 ≤ fs.length then goOut id 3 l else goResync id l
/-- A lane recorder after a restart: what the flash log holds (R342, R349). -/
def recBoot (r : LaneRec) : LaneRec :=
  { r with entries := r.flashLog, ownNum := r.flashNum, ownCounts := r.flashOwn, lost := r.flashLost, undeliv := [], sent := [], openedNow := 0 }
/-- A lane restarts (R81, R358): its state in RAM goes, what its flash holds is restored. -/
def goBoot (id : LaneId) (l : Lane) : Lane :=
  let c := l.core
  Lane.lev { l with core := { LaneCore.init with gen := l.flash.gen, takeovers := c.takeovers, seq := c.seq, copyFails := c.copyFails },
                    trace := .init, row := { rowFromFlash l.flash with recSh := l.recd.flashSh }, recd := recBoot l.recd, actOut := none, ethOut := none,
                    cal := { l.cal with stage := [], phase := .idle, leaveCh := none, switchDue := false } } id Ev.laneBoot 0
/-- A lane takes authority with GEN + 1 (R76, R82); cause 0 is the first takeover of a boot. -/
def takeAuth (id : LaneId) (cause : Nat) (l : Lane) : Lane :=
  let g := (l.core.gen + 1) % 256
  Lane.lev { l with core := { l.core with mode := .authority, gen := g, cause := cause, takeovers := satAdd 0xFFFF l.core.takeovers 1 },
                    flash := { l.flash with gen := g } } id Ev.takeover cause
/-- A lane enters MERGE in a tick (R84, R86): a transaction staged in the tick before or later and not committed is aborted. -/
def enterMerge (id : LaneId) (tick : Nat) (both : Bool) (l : Lane) : Lane :=
  let l := { l with core := { l.core with bothFail := both } }
  if l.core.merge then l
  else
    let row := match slipPending l.row.slip with
      | some t => if tick ≤ t.p + 1 then slipAbort tick 3 l.row else l.row
      | none => l.row
    Lane.lev { l with core := { l.core with merge := true, mergeStart := tick, equalRun := 0 }, row := row } id Ev.mergeStart (b2n both)
/-- MERGE ends (R87). -/
def leaveMerge (id : LaneId) (l : Lane) : Lane := Lane.lev { l with core := { l.core with merge := false, bothFail := false } } id Ev.mergeEnd 0

/-! ### P1: the other lane's STATUS (R72, R73, R76) -/

/-- Latch a STATUS that arrived. An AUTHORITY lane that latches the request of a lane in RESYNC starts its copy: the tick is S (R88); ST_FAIL
that the other lane newly shows is acted on in P5 (R90). The lanes' claims are compared as `outranks` says (log 70). -/
def takeStatus (id : LaneId) (tick : Nat) (o : StatusMsg) (l : Lane) : Lane :=
  let had : Bool := match l.core.statusLast with | some p => p.stFail | none => false
  let serve : Option Nat := match l.core.serving with
    | some t => if o.mode == .resync && l.core.mode == .authority && decide (tick < t + 16) then some t else none
    | none => if o.mode == .resync && l.core.mode == .authority then some tick else none
  let c := { l.core with statusLast := some o, otherClaim := o.claim, missRun := 0, goodRun := l.core.goodRun + 1, serving := serve,
                         mergeEndDue := l.core.mergeEndDue || (l.core.merge && o.claim == 0), mergeDue := l.core.mergeDue || (o.stFail && !had) }
  let l := { l with core := c }
  let l := if c.mode = .authority ∧ outranks o.claim c.claim = true then
      Lane.lev { l with core := { l.core with mode := .standby } } id Ev.authorityLost o.claim else l
  let d := (o.claim / 256 + 256 - l.core.gen % 256) % 256
  if o.claim ≠ 0 ∧ 1 ≤ d ∧ d ≤ 127 then
    { l with core := { l.core with gen := o.claim / 256 }, flash := { l.flash with gen := o.claim / 256 } }
  else l
/-- LINK_DOWN: STATUS missing in P1 of two consecutive ticks. -/
def linkDownOp (id : LaneId) (l : Lane) : Lane :=
  if !l.core.linkDown && decide (2 ≤ l.core.missRun) then
    Lane.lev { l with core := { l.core with linkDown := true, inmPend := false } } id Ev.linkDown 0 else l
/-- The lane with the lower claim resynchronises. -/
def lowerResync (id : LaneId) (l : Lane) : Lane :=
  if l.core.mode.follows && outranks l.core.otherClaim l.core.claim then goResync id l else l
/-- LINK_DOWN_CLEAR: STATUS intact in 8 consecutive ticks. -/
def linkUpOp (id : LaneId) (l : Lane) : Lane :=
  if l.core.linkDown && decide (8 ≤ l.core.goodRun) then
    lowerResync id (Lane.lev { l with core := { l.core with linkDown := false } } id Ev.linkUp 0) else l
/-- P1 for the STATUS of the ending tick. -/
def latchStatus (id : LaneId) (tick : Nat) (l : Lane) : Lane :=
  match l.core.statusIn with
  | none =>
    let serve := l.core.serving.filter (fun t => decide (tick < t + 16))
    linkDownOp id { l with core := { l.core with missRun := l.core.missRun + 1, goodRun := 0, serving := serve,
                                                 linkMissing := satAdd 0xFFFF l.core.linkMissing 1 } }
  | some o =>
    let l := takeStatus id tick o { l with core := { l.core with statusIn := none } }
    let was := l.core.linkDown
    let l := linkUpOp id l
    let l := if !was && (o.inputMiss || l.core.inmPend) then lowerResync id l else l
    { l with core := { l.core with inmPend := false } }
/-- The other lane's STATUS of the tick before was latched in this tick. -/
def statusNow (l : Lane) : Option StatusMsg := if l.core.missRun = 0 then l.core.statusLast else none
/-- The other lane shows STANDBY or AUTHORITY without ST_FAIL (R84, R90). -/
def otherFit (l : Lane) : Bool :=
  match l.core.statusLast with
  | some o => (o.mode == .standby || o.mode == .authority) && !o.stFail
  | none => false

/-! ### Boot and return (R81, R88, R89, R354) -/

/-- A lane that takes authority at boot starts its loops from what Playa reports. -/
def bootTake (id : LaneId) (l : Lane) : Lane := takeAuth id 0 { l with row := bootOutputs l.row }
/-- R354 for a lane whose boot is complete. -/
def bootResolve (id : LaneId) (l : Lane) : Lane :=
  if l.core.mode = .boot ∧ l.core.bootDone ∧ l.core.admitted then
    let o := if l.core.missRun < 2 then l.core.statusLast else none
    match o with
    | none => if l.core.missRun < 2 then l else bootTake id l
    | some o =>
      if o.mode = .boot then (if id = .a ∨ 64 ≤ l.core.bootWait then bootTake id l else l)
      else if o.claim = 0 then bootTake id l
      else goResync id l
  else l
/-- LANE_B_BOOT_WAIT. -/
def laneBWait (l : Lane) : Lane :=
  let shows : Bool := match l.core.statusLast with | some o => o.mode == .boot | none => true
  if l.core.mode = .boot ∧ l.core.bootDone ∧ l.core.admitted ∧ 64 ≤ l.core.bootWait ∧ shows then bootTake .b l else l
/-- The returning lane holds the AUTHORITY lane's state and computes in step from now on; its trace starts in IDLE (R134). -/
def resyncTake (auth : Lane) (id : LaneId) (l : Lane) : Lane :=
  Lane.lev { l with core := { l.core with mode := .probation, probRun := 0, equalRun := 0, gen := auth.core.gen, seq := auth.core.seq, statusOwn := none },
                    flash := { l.flash with gen := auth.core.gen },
                    row := { auth.row with events := [], irqs := [], errs := [] }, trace := .init, cal := auth.cal } id Ev.laneProbation 0
/-- RESYNC_COMPLETE: from tick S + 16, with all 16 chunks and logs applied (R88; log 72). -/
def resyncDone (auth : Lane) (id : LaneId) (tick : Nat) (l : Lane) : Lane :=
  match auth.core.serving with
  | some t => if l.core.mode = .resync ∧ l.core.chunks = 16 ∧ l.core.logs = 16 ∧ t + 16 ≤ tick then resyncTake auth id l else l
  | none => l
/-- A lane in RESYNC at a boundary: at S + 16 it computes in step, or its copy has failed; without an AUTHORITY lane it boots (R81). -/
def resyncTick (auth : Lane) (id : LaneId) (tick : Nat) (l : Lane) : Lane :=
  if l.core.mode = .resync then
    if auth.core.mode ≠ .authority ∨ 2 ≤ l.core.missRun then Lane.lev { l with core := { l.core with mode := .boot, bootDone := true } } id Ev.laneBoot 1
    else
      match auth.core.serving with
      | some t =>
        if t + 16 ≤ tick then
          let d := resyncDone auth id tick l
          if d.core.mode = .resync then copyFailed id tick d else d
        else l
      | none => l
  else l

/-! ### P3: comparison (R83, R89) -/

/-- The HASH and RHASH of tick N in the other lane's STATUS beside the lane's own. DESIGN CHOICE (log 71): a tick without a comparison leaves the
runs as they are. -/
def compareHash (id : LaneId) (tick : Nat) (l : Lane) : Lane :=
  match statusNow l, l.core.statusOwn with
  | some o, some w =>
    if l.core.linkDown || !o.mode.votes || o.inputMiss || w.inputMiss || o.seq != w.seq || !l.votes then l
    else
      let l := { l with core := { l.core with equalRun := if o.rhash = w.rhash then min 0x2000 (l.core.equalRun + 1) else 0 } }
      if o.hash = w.hash then { l with core := { l.core with probRun := l.core.probRun + 1 } }
      else
        let l := Lane.lev { l with core := { l.core with mismatch := satAdd 0xFFFF l.core.mismatch 1, probRun := 0 } } id Ev.hashMismatch 0
        if l.core.mode = .probation then copyFailed id tick l
        else if o.mode = .probation then l
        else { l with core := { l.core with stDue := true } }
  | _, _ => l
/-- PROBATION_PASS: 8,192 consecutive equal hashes. -/
def probationPass (id : LaneId) (l : Lane) : Lane :=
  if l.core.mode = .probation ∧ 8192 ≤ l.core.probRun then Lane.lev { l with core := { l.core with mode := .standby } } id Ev.laneStandby 0 else l

/-! ### P4: comparison self-test and rotation slice (R83, R87, R90) -/

/-- Whether the comparison self-test runs in a tick: after a mismatch, or every 64 ticks of MERGE. -/
def selfTestDue (tick : Nat) (l : Lane) : Bool :=
  l.core.stDue || (l.core.merge && decide (l.core.mergeStart < tick) && (tick - l.core.mergeStart) % 64 == 0)
/-- The comparison self-test with its first failing item (0 none): the verdict goes out in SELFTEST. -/
def selfTestRun (id : LaneId) (tick item : Nat) (l : Lane) : Lane :=
  let ok := item == 0
  let c := l.core
  Lane.lev { l with core := { c with stDue := false, stTick := some tick, stCount := satAdd 0xFFFF c.stCount 1, stFails := if ok then c.stFails else satAdd 0xFF c.stFails 1,
                                     stLast := if ok then c.stLast else item, stOwn := some ok, selftestOut := some ok, selftestIn := none } }
    id Ev.selfTest item
/-- Slices of a rotation (R90). -/
def rotSlices : Nat := 2457600
/-- One slice; `fault` is the item a slice finds faulty. -/
def rotSlice (id : LaneId) (tick : Nat) (fault : Option Nat) (l : Lane) : Lane :=
  let r := l.core.rot
  let r := match fault with | some i => { r with items := setBitN r.items i, failedNow := true, faultTick := some tick } | none => r
  let r := if r.slice + 1 < rotSlices then { r with slice := r.slice + 1 }
    else { r with slice := 0, ticks := 0, done := satAdd 0xFFFF r.done 1, sinceDone := 0, clear := !r.failedNow, failedNow := false, overdue := false }
  let l := { l with core := { l.core with rot := r, stFail := l.core.stFail || fault.isSome } }
  match fault with
  | some i => l.ev id 1 (laneUnit id + 1) 0xFFFF Ev.rotationFault i
  | none => l
/-- ROTATION_OVERDUE: 4,915,200 ticks since the rotation began. -/
def rotOverdue (id : LaneId) (l : Lane) : Lane :=
  if !l.core.rot.overdue && decide (4915200 ≤ l.core.rot.ticks) then
    Lane.ev { l with core := { l.core with rot := { l.core.rot with overdue := true } } } id 1 (laneUnit id + 1) 0xFFFF Ev.rotationOverdue 0
  else l
/-- The rotation in a tick: a slice, unless the comparison self-test runs, and the times since. -/
def rotTick (id : LaneId) (tick : Nat) (tested : Bool) (fault : Option Nat) (l : Lane) : Lane :=
  let r := l.core.rot
  let l := { l with core := { l.core with rot := { r with ticks := r.ticks + 1, sinceDone := r.sinceDone + 1 } } }
  rotOverdue id (if tested then l else rotSlice id tick fault l)

/-! ### P5: the verdicts, takeover, the end of MERGE (R82, R84, R87, R90) -/

/-- How the lane reads the other lane's verdict (R84). -/
def otherVerdict (l : Lane) (own : Bool) : Bool :=
  match l.core.selftestIn with
  | some v => v
  | none => own || otherFit l
/-- R84. -/
def actVerdicts (id : LaneId) (tick : Nat) (l : Lane) : Lane :=
  match l.core.stOwn with
  | none => l
  | some own =>
    let other := otherVerdict l own
    let l := { l with core := { l.core with stOwn := none, selftestIn := none, stFail := !own || l.core.rot.faultTick.isSome } }
    if own then
      if other then enterMerge id tick false l
      else if l.core.mode = .standby then takeAuth id 2 l else l
    else if other then goOut id 1 l
    else enterMerge id tick true l
/-- R90, in the tick after the slice: a lane whose rotation found a fault goes to OUT once the other lane's latest STATUS qualifies; until then
both lanes merge, the other one when it latches the ST_FAIL and could not take over. -/
def actRotation (id : LaneId) (tick : Nat) (l : Lane) : Lane :=
  let theirs : Bool := match l.core.statusLast with | some o => o.stFail | none => false
  match l.core.rot.faultTick with
  | none =>
    let fit := (l.core.mode == .standby || l.core.mode == .authority) && !l.core.stFail
    if l.core.mergeDue && theirs && !fit then enterMerge id tick l.core.stFail l else l
  | some t =>
    if tick ≤ t then l
    else if otherFit l then goOut id 2 l
    else if tick = t + 1 || l.core.mergeDue then enterMerge id tick theirs l
    else l
/-- R82: why a STANDBY lane takes authority in this tick: 3 command, 2 claim 0000h or ST_FAIL, 1 silence. A lane that shows ST_FAIL itself
keeps its claim beside an AUTHORITY lane with ST_FAIL (R84, R90). -/
def takeoverCause (id : LaneId) (l : Lane) : Nat :=
  let shows : Bool := match l.core.statusLast with | some o => o.claim == 0 || (o.mode == .authority && o.stFail && !l.core.stFail) | none => false
  let seen := if id = .a then l.core.playaSawB else l.core.playaSawA
  if l.core.takeoverCmd then 3 else if shows then 2 else if decide (2 ≤ l.core.missRun) && !seen then 1 else 0
/-- TAKEOVER. -/
def takeoverOp (id : LaneId) (l : Lane) : Lane :=
  if l.core.mode = .standby ∧ takeoverCause id l ≠ 0 then
    takeAuth id (takeoverCause id l) { l with core := { l.core with takeoverCmd := false } } else l
/-- A STANDBY lane that would take authority for silence alone: a STATUS may still arrive in the tick (R16, R82). -/
def takeoverLate (id : LaneId) (l : Lane) : Bool := l.core.mode == .standby && l.core.stOwn.isNone && takeoverCause id l == 1
/-- MERGE_END: 8,192 equal RHASH comparisons in succession, or a STATUS with claim 0000h. -/
def mergeEndOp (id : LaneId) (l : Lane) : Lane :=
  if l.core.merge && (decide (8192 ≤ l.core.equalRun) || l.core.mergeEndDue) then leaveMerge id l else l
/-- Role decisions of P5 in order. -/
def roleStep (id : LaneId) (tick : Nat) (l : Lane) : Lane :=
  let l := actVerdicts id tick l
  let l := if l.votes then actRotation id tick l else l
  let l := if l.votes then mergeEndOp id (takeoverOp id l) else l
  { l with core := { l.core with mergeEndDue := false, mergeDue := false, takeoverCmd := false } }

/-! ### The advisory (R22, R69, R289) -/

/-- The advisory both lanes agree on (R69): own and received digest equal; while LINK_DOWN the lane's own. Latched in the later tick. -/
def agreeAdv (l : Lane) : Option AdvHeld :=
  match l.core.advOwn with
  | none => none
  | some own =>
    if l.core.linkDown then some own
    else match l.core.inputIn with
      | none => none
      | some i => if i.advHeld ∧ i.advFrame = own.msg.frame ∧ i.advCrc = own.msg.crc then some { own with tick := max own.tick i.advTick } else none
/-- P3: a newer agreed advisory replaces the one in force; the consecutive run of R289 counts in tick 2. -/
def advTick (tick : Nat) (l : Lane) : Lane :=
  let r := l.row
  let fresh : Bool := match agreeAdv l, r.adv with
    | some a, some b => seqNewer a.msg.frame b.msg.frame
    | some _, none => match r.advPrev with | some b => (match agreeAdv l with | some a => a.msg.frame != b.msg.frame | none => false) | none => true
    | none, _ => false
  let r := if fresh then { r with adv := agreeAdv l, advPrev := agreeAdv l } else r
  let now : Bool := fresh && (match agreeAdv l with | some a => a.tick == tick | none => false)
  let r := if tick % 8 = 2 then { r with prot := { r.prot with advRun := if now then r.prot.advRun + 1 else 0 } } else r
  { l with row := advExpire tick r }

end Sys2Proof.Machine
end

