-- ==== Sys2Proof/Machine/LaneCmd.lean ====
section
/-! DEFINITION. The cross-lane messages and the commands that name a lane (R14, R70–R73, R81–R93, R354). TICK_BOUNDARY runs what the rules
bind to a tick; the rows below that restate a part of it act only where it has not run yet. -/
namespace Sys2Proof.Machine
open Sys2Proof

def coreMod (f : LaneCore → LaneCore) (l : Lane) : Lane := { l with core := f l.core }
/-- A message whose CRC fails is discarded and counted (R70). -/
def linkCrc (l : Lane) : Lane := coreMod (fun c => { c with linkErrCrc := satAdd 0xFFFF c.linkErrCrc 1 }) l
/-- Deliver a cross-lane message, or discard a copy whose CRC fails. -/
def deliver (id : LaneId) (ok : Bool) (f : Lane → Lane) (s : State) : State := s.modLane id (if ok then f else linkCrc)
/-- The claim and the frames of the tick carry the state the lane has moved to. -/
def reclaim (id : LaneId) (l : Lane) : Lane :=
  let l := laneClaim id l
  let k := l.core.claim
  { l with actOut := l.actOut.map (fun a => { a with claim := k }), ethOut := l.ethOut.map (fun a => { a with claim := k }),
           core := { l.core with statusOwn := l.core.statusOwn.map (fun m => { m with claim := k, mode := l.core.mode }) } }

/-! ### Messages -/

/-- The generation and the CRC-32 of the image CAL_GEN and CAL_CRC name: the staged set while CAL_PHASE is not 0, else the set in force. -/
def inputCal (c : CalSt) : Nat × Nat :=
  if c.phase = .idle then (calGen c, calCrc c) else (stgWord c 3, crc32 (calBody (stgWord c)))
/-- The channels a lane owns, in the order of the INPUT message (R94, R106): analog, RTD, leak, pulse, dew point. -/
def inputChans (id : LaneId) : List (Nat × Nat) :=
  let b := laneNum id
  (upto 32).map (fun n => (b, n)) ++ (upto 16).map (fun n => (2 + b, n)) ++ (upto 16).map (fun n => (4 + b, n)) ++
    (upto 8).map (fun n => (6, 8 * b + n)) ++ (upto 4).map (fun n => (7, 4 * b + n))
/-- The value of an owned channel as the sender converts it (R98); 0 without a sample. -/
def inputVal (tick : Nat) (o : Lane) (g n : Nat) : Int :=
  if g = 6 then pulseFlow o.cal n (tget ⟨[], none⟩ o.fe.pulse n) tick
  else match tget none o.fe.elec (32 * g + n) with
    | some e => chanValue o.row.regs o.cal g n (chanMode o.row.regs g n) false e
    | none => 0
def inputStat (o : Lane) (g n : Nat) : Nat :=
  let c := chanAt o.row.sens (32 * g + n)
  chStateNum c.state + 8 * b2n c.pathDiff + 16 * (c.cause % 16)
/-- INPUT: the advisory the sender holds at the next boundary, its calibration phase, the values of its own channels, and what its front end
sampled, on which R99 works (R69, R71, R106; log 74). -/
def inputOf (next : Nat) (id : LaneId) (o : Lane) : InputMsg :=
  let adv := match o.core.advPend with
    | some p => if p.tick ≤ next then some p else o.core.advOwn
    | none => o.core.advOwn
  let ks := inputChans id
  { tick := next, fe := o.fe, advFrame := match adv with | some a => a.msg.frame | none => 0, advCrc := match adv with | some a => a.msg.crc | none => 0,
    advHeld := adv.isSome, advNew := match adv with | some a => a.tick == next | none => false,
    advTick := match adv with | some a => a.tick | none => 0, calPhase := o.cal.phase, calGen := (inputCal o.cal).1, calCrc := (inputCal o.cal).2,
    vals := ks.map (fun k => inputVal next o k.1 k.2), stat := ks.map (fun k => inputStat o k.1 k.2) }
/-- The INPUT message, 408 bytes, little-endian (R106). -/
def inputBytes (m : InputMsg) : List Nat :=
  let body := leBytes 4 m.tick ++ leBytes 4 m.advFrame ++ leBytes 4 m.advCrc ++ [b2n m.advHeld + 2 * b2n m.advNew, calPhaseNum m.calPhase, 0, 0] ++
    leBytes 4 m.calGen ++ leBytes 4 m.calCrc ++ (m.vals.map (fun v => leBytes 4 (ux 32 v))).flatten ++ m.stat
  body ++ leBytes 4 (crc32 body)
/-- The STATUS message, 64 bytes, little-endian (R72). -/
def statusBytes (m : StatusMsg) : List Nat :=
  let flags := b2n m.merge + 2 * b2n m.linkDown + 4 * b2n m.aonLost + 8 * b2n m.stFail + 16 * b2n m.conserv + 32 * b2n m.inputMiss
  let body := leBytes 2 m.claim ++ [modeNum m.mode, flags] ++ leBytes 4 m.seq ++ leBytes 8 m.hash ++ leBytes 8 m.rhash ++ leBytes 4 m.rot ++ List.replicate 32 0
  body ++ leBytes 4 (crc32 body)
def takeInput (m : InputMsg) (l : Lane) : Lane := coreMod (fun c => { c with inputIn := some m }) l
def execInput (rcv : LaneId) (ok : Bool) (s : State) : Host.Outcome State Fault Refusal :=
  .next (deliver rcv ok (takeInput (inputOf (s.time.count + 1) (otherLane rcv) (s.lane (otherLane rcv)))) s)
/-- STATUS: what the sender emitted in the ending tick (R72); a lane that has emitted none sends none. -/
def takeStatusIn (m : Option StatusMsg) (l : Lane) : Lane := coreMod (fun c => { c with statusIn := m }) l
/-- SNAPSHOT and LOG of an AUTHORITY lane for a lane in RESYNC (R88): chunk k and log k count in tick S + k, in order, the log after its chunk
(log 72). -/
def takeChunk (start : Option Nat) (tick : Nat) (l : Lane) : Lane :=
  match start with
  | some t =>
    if l.core.mode = .resync ∧ l.core.chunks < 16 ∧ tick = t + l.core.chunks ∧ l.core.logs = l.core.chunks then
      coreMod (fun c => { c with chunks := c.chunks + 1 }) l else l
  | none => l
def takeLog (start : Option Nat) (tick : Nat) (l : Lane) : Lane :=
  match start with
  | some t =>
    if l.core.mode = .resync ∧ tick = t + l.core.logs ∧ l.core.chunks = l.core.logs + 1 then
      coreMod (fun c => { c with logs := c.logs + 1 }) l else l
  | none => l
/-- What an AUTHORITY lane sends; any other lane sends neither. -/
def fromAuthority (rcv : LaneId) (f : Option Nat → Nat → Lane → Lane) (s : State) : Lane → Lane :=
  let o := s.lane (otherLane rcv)
  if o.core.mode = .authority then f o.core.serving s.time.count else id
def execSnapshot (rcv : LaneId) (ok : Bool) (s : State) : Host.Outcome State Fault Refusal :=
  .next (deliver rcv ok (fromAuthority rcv takeChunk s) s)
def execLog (rcv : LaneId) (ok : Bool) (s : State) : Host.Outcome State Fault Refusal :=
  .next (deliver rcv ok (fromAuthority rcv takeLog s) s)
/-- CMD: the waiting command reaches the lane it names, which executes it in P0 of the next tick (R93). -/
def takeCmd (m : Option LaneCmdMsg) (l : Lane) : Lane :=
  match m with
  | some _ => if l.votes then l else coreMod (fun c => { c with cmdIn := m }) l
  | none => l
def execCmd (rcv : LaneId) (ok : Bool) (s : State) : Host.Outcome State Fault Refusal :=
  .next (deliver rcv ok (takeCmd (s.lane (otherLane rcv)).core.cmdWait) s)
/-- Every lane that runs finds AONCLK lost. DEDUCED (log 69): that is the module's loss; a lane alone may have lost its own crystal. -/
def aonGone (s : State) : Bool :=
  let ok := fun (l : Lane) => !l.running || l.core.aonLost
  (s.laneA.core.aonLost || s.laneB.core.aonLost) && ok s.laneA && ok s.laneB
/-- AONCLK_LOSS: the lane runs from its own crystal (R14); Xoide, whose frame is taken from AONCLK, has lost it with the last lane that finds so. -/
def aonLoss (id : LaneId) (s : State) : State :=
  if (s.lane id).core.aonLost then s
  else
    let s := s.modLane id (fun l => Lane.lev (coreMod (fun c => { c with aonLost := true }) l) id Ev.aonLost 0)
    { s with pwr := { s.pwr with aonLost := s.pwr.aonLost || aonGone s } }
def execAonclkLoss (lane : LaneId) (s : State) : Host.Outcome State Fault Refusal := .next (aonLoss lane s)
/-- TICK_MARK: the other lane aligns its boundary to the marker of the lane with the higher claim while AONCLK is lost (R14, R71). -/
def tickMark (count : Nat) (other : Nat) (l : Lane) : Lane :=
  if l.core.aonLost && outranks other l.core.claim then coreMod (fun c => { c with markTick := some count }) l else l
def execTickMark (rcv : LaneId) (ok : Bool) (s : State) : Host.Outcome State Fault Refusal :=
  .next (deliver rcv ok (tickMark s.time.count (s.lane (otherLane rcv)).core.claim) s)
/-- ADVISORY: a copy received whole and intact is held from the boundary at which its receipt is latched (R22, R188): tick 2 of the frame for
one that arrives in ticks 0 and 1, the next tick for a later one. A copy that fails its CRC-32 is discarded and counts as missing (R69). -/
def advArrive (count tick : Nat) (m : Advisory) (l : Lane) : Lane :=
  coreMod (fun c => { c with advPend := some ⟨m, if tick % 8 < 2 then count + (2 - tick % 8) else count + 1⟩ }) l
def execAdvisory (rcv : LaneId) (ok : Bool) (s : State) : Host.Outcome State Fault Refusal :=
  .next (match s.x.adv with
    | some m => if s.x.posted && ok then s.modLane rcv (advArrive s.time.count s.time.tick m) else s
    | none => s)

/-! ### Roles -/

def execLinkDown (lane : LaneId) (s : State) : Host.Outcome State Fault Refusal := .next (s.modLane lane (linkDownOp lane))
def execLinkDownClear (lane : LaneId) (s : State) : Host.Outcome State Fault Refusal :=
  .next (s.modLane lane (linkUpOp lane))
def execMergeEnd (lane : LaneId) (s : State) : Host.Outcome State Fault Refusal := .next (s.modLane lane (mergeEndOp lane))
/-- R87: the test repeats every 64 ticks of MERGE; `item` is its first failing item, 0 none (LANE_SELFTEST.LAST_ITEM). -/
def mergeSelfTest (id : LaneId) (count item : Nat) (l : Lane) : Lane :=
  if l.core.merge && selfTestDue count l && l.core.stTick != some count then
    coreMod (fun c => { c with await := .selftest }) (selfTestRun id count item l) else l
def execMergeSelftestRepeat (lane : LaneId) (item : Fin 6) (s : State) : Host.Outcome State Fault Refusal :=
  .next (s.modLane lane (mergeSelfTest lane s.time.count item.val))
def execLaneBBootWait (s : State) : Host.Outcome State Fault Refusal := .next (s.modLane .b laneBWait)
def execResyncComplete (lane : LaneId) (s : State) : Host.Outcome State Fault Refusal :=
  .next (s.modLane lane (resyncDone (s.lane (otherLane lane)) lane s.time.count))
def execProbationPass (lane : LaneId) (s : State) : Host.Outcome State Fault Refusal := .next (s.modLane lane (probationPass lane))
def execRotationOverdue (lane : LaneId) (s : State) : Host.Outcome State Fault Refusal := .next (s.modLane lane (rotOverdue lane))

/-! ### LANE_CMD (R81, R82, R93) -/

def cmdResult (r : Nat) (l : Lane) : Lane := coreMod (fun c => { c with cmdResult := r }) l
/-- A lane boots again and asks for admission (R53, R81). -/
def laneRestart (id : LaneId) (s : State) : State :=
  let s := s.modLane id (goBoot id)
  { s with gov := govRaise (govWithdraw s.gov ⟨.lane, laneNum id⟩) ⟨.lane, laneNum id⟩ false }
/-- The other lane is STANDBY or AUTHORITY with a clear health report. -/
def laneFit (l : Lane) : Bool := (l.core.mode == .standby || l.core.mode == .authority) && !l.core.stFail
/-- LANE_CMD executed by the lane it names, with its RESULT. -/
def laneCmdRun (id : LaneId) (code : Nat) (s : State) : State :=
  let m := (s.lane id).core.mode
  match code with
  | 1 => if m = .out then (laneRestart id s).modLane id (cmdResult 1) else s.modLane id (cmdResult 3)
  | 2 =>
    if m = .out then s.modLane id (cmdResult 3)
    else if laneFit (s.lane (otherLane id)) then s.modLane id (fun l => cmdResult 1 (goOut id 3 l))
    else s.modLane id (cmdResult 2)
  | 3 => if m = .standby then s.modLane id (fun l => cmdResult 1 (coreMod (fun c => { c with takeoverCmd := true }) l)) else s.modLane id (cmdResult 3)
  | _ => s
/-- A command decided by the voting lanes: the named lane executes it, or the voting lane with the higher claim sends it on. -/
def laneCmd (id : LaneId) (code : Nat) (s : State) : State :=
  if (s.lane id).votes then laneCmdRun id code s
  else s.modLane (otherLane id) (fun l => if l.votes then coreMod (fun c => { c with cmdWait := some ⟨false, code, laneNum id, s.time.count + 1⟩ }) l else l)
/-- The lanes take a LANE_CMD entry: the page not LOCKED, a voting lane, and the presence window for DEMOTE. -/
def laneCmdEntry (id : LaneId) (code : Nat) (s : State) : State :=
  let p := 0x10 + 0x10 * laneNum id
  if s.laneOk p (code == 2) && (s.laneA.votes || s.laneB.votes) then laneCmd id code s else s
def execLaneCmdRestart (lane : LaneId) (s : State) : Host.Outcome State Fault Refusal := .next (laneCmdEntry lane 1 s)
def execLaneCmdDemote (lane : LaneId) (s : State) : Host.Outcome State Fault Refusal := .next (laneCmdEntry lane 2 s)
def execLaneCmdTakeover (lane : LaneId) (s : State) : Host.Outcome State Fault Refusal := .next (laneCmdEntry lane 3 s)
/-- The command that reached a lane which does not vote, executed in P0; the sender has its report. -/
def laneCmdIn (id : LaneId) (s : State) : State :=
  match (s.lane id).core.cmdIn with
  | some m =>
    if m.isSec then s
    else (laneCmdRun id m.code (s.modLane id (coreMod (fun c => { c with cmdIn := none })))).modLane (otherLane id) (coreMod (fun c => { c with cmdWait := none }))
  | none => s
/-- COMMAND_REPORT_TIMEOUT: unreported by P1 of the second tick after the apply tick, RESTART resets the named lane and any other command
ends REFUSED_STATE. -/
def cmdTimeout (id : LaneId) (s : State) : State :=
  match (s.lane (otherLane id)).core.cmdWait with
  | some m =>
    if s.time.count < m.apply + 2 then s
    else
      let s := s.modLane (otherLane id) (coreMod (fun c => { c with cmdWait := none }))
      if m.isSec then s.modLane id (coreMod (fun c => { c with secResult := 3 }))
      else if m.code = 1 then (laneRestart id s).modLane id (cmdResult 1)
      else s.modLane id (cmdResult 3)
  | none => s
def execCommandReportTimeout (lane : LaneId) (s : State) : Host.Outcome State Fault Refusal := .next (cmdTimeout lane s)

end Sys2Proof.Machine
end

