-- ==== Sys2Proof/Machine/Presence.lean ====
section
/-! DEFINITION. The service panel: presence window, maintenance jumper, cover seal (R335–R339). -/
namespace Sys2Proof.Machine
open Sys2Proof

/-! ### One holder -/

/-- A press of 24,576 ticks opens the window; each press counts once. -/
def pressOpen (p : PanelSt) : PanelSt := if 24576 ≤ p.press ∧ !p.opened then { p with opened := true, left := 983041 } else p
/-- A press of 262,144 ticks closes the window and is stuck. -/
def pressStuck (p : PanelSt) : PanelSt := if 262144 ≤ p.press then { p with stuck := true, relRun := 0, press := 0, opened := false, closing := true } else p
/-- A press of 8 to 8,191 ticks that ends closes the window at the next boundary. -/
def pressEnd (p : PanelSt) : PanelSt := if !p.button then { p with closing := p.closing || decide (8 ≤ p.press ∧ p.press ≤ 8191), press := 0, opened := false } else p
def panelButton (b : Bool) (p : PanelSt) : PanelSt :=
  let p := { p with button := b }
  if p.stuck then
    if b then { p with relRun := 0 } else if 8191 ≤ p.relRun then { p with stuck := false, relRun := 0 } else { p with relRun := p.relRun + 1 }
  else if b then pressStuck (pressOpen { p with press := p.press + 1 })
  else pressEnd p
/-- Whether a fitted jumper is accepted (R337). -/
def jumperOk (inSlot : Bool) (p : PanelSt) : Bool := p.fitted && !p.tamper && !(p.closed && p.now == p.stored && inSlot)
/-- Eight samples fitted, eight not fitted. -/
def jumperIn (inSlot : Bool) (p : PanelSt) : PanelSt :=
  let p := if 8 ≤ p.jIn then { p with fitted := true } else p
  { p with accepted := jumperOk inSlot p, refused := p.fitted && !jumperOk inSlot p }
def jumperOut (p : PanelSt) : PanelSt := if 8 ≤ p.jOut then { p with fitted := false, accepted := false, refused := false } else p
/-- The tamper event latches (R338). -/
def tamperSet (cause tick : Nat) (p : PanelSt) : PanelSt :=
  if p.tamper then p else { p with tamper := true, cause := cause, ttick := tick % 2 ^ 24 }
def sealOpen (tick : Nat) (p : PanelSt) : PanelSt := if 8 ≤ p.openRun then tamperSet 1 tick p else p
def panelTake (inSlot : Bool) (tick : Nat) (x : PanelIn) (p : PanelSt) : PanelSt :=
  let p := panelButton x.button p
  let p := { p with jIn := runNext x.jumper (min 8 p.jIn), jOut := runNext (!x.jumper) (min 8 p.jOut), closed := x.closed, openRun := runNext (!x.closed) (min 8 p.openRun) }
  jumperOut (jumperIn inSlot (sealOpen tick p))
/-- A read of the seal element: its serial, or no answer. -/
def sealTake (tick : Nat) (x : Option Word) (p : PanelSt) : PanelSt :=
  match x with
  | some v => let p := { p with now := v.toNat, mute := 0 }; if p.now = p.stored then p else tamperSet 2 tick p
  | none => let p := { p with mute := min 3 (p.mute + 1) }; if 3 ≤ p.mute then tamperSet 3 tick p else p
/-- A press's window whose ticks have ended. -/
def winExpire (p : PanelSt) : PanelSt := if p.byPress ∧ p.left = 0 then { p with byPress := false, w := p.accepted } else p
/-- W of the tick that begins (R335). -/
def winBoundary (p : PanelSt) : PanelSt :=
  let left := if p.closing then 0 else p.left - 1
  winExpire { p with closing := false, left := left, byPress := p.byPress || decide (0 < left), w := decide (0 < left) || p.accepted }

/-! ### The module -/

def inSlot (s : State) : Bool := s.fld F.PRES_STAT_IN_SLOT == 1
def State.secEv (s : State) (sub code arg : Nat) : State := s.note 7 7 0xA1 sub code arg
/-- The presence page's views. -/
def panShow (s : State) : State :=
  let p := s.panS
  let s := ((s.setFld F.PRES_STAT_OPEN (b2n p.w)).setFld F.PRES_STAT_BY_JUMPER (b2n p.accepted)).setFld F.PRES_STAT_BUTTON (b2n p.button)
  let s := ((s.setFld F.PRES_STAT_JUMPER (b2n p.fitted)).setFld F.PRES_STAT_JUMPER_REFUSED (b2n p.refused)).setFld F.PRES_STAT_SEAL_CLOSED (b2n p.closed)
  let s := (s.setFld F.PRES_STAT_STUCK (b2n p.stuck)).setFld F.PRES_STAT_REMAIN p.left
  let s := s.setFld F.PRES_TAMPER_HELD (b2n p.tamper + 2 * b2n s.panA.tamper + 4 * b2n s.panB.tamper + 8 * b2n s.sec.tamper)
  let s := (s.setFld F.PRES_TAMPER_CAUSE p.cause).setFld F.PRES_TAMPER_TICK p.ttick
  { s with regs := rset (rset s.regs F.PRES_SEAL_STORED.off (BitVec.ofNat 32 p.stored)) F.PRES_SEAL_NOW.off (BitVec.ofNat 32 p.now) }
/-- Events and interrupts of a change at the sequencer; Hervi security takes over a tamper latch. -/
def panEvents (old : PanelSt) (s : State) : State :=
  let p := s.panS
  let s := if p.tamper && !old.tamper then ((s.irq 0xA1 9).secEv 0 Ev.tamper p.cause) else s
  let s := if p.tamper && s.herv.up then { s with sec := { s.sec with tamper := true } } else s
  let s := if p.stuck && !old.stuck then s.secEv 0 Ev.buttonStuck 0 else s
  let s := if p.refused && !old.refused then s.secEv 0 Ev.jumperRefused 0 else s
  let s := if p.w != old.w then s.irq 0xA1 8 else s
  let s := if p.w && !old.w then s.satFld F.PRES_OPENS 1 else s
  panShow s
/-- Apply a function to all three holders. -/
def onPanels (f : PanelSt → PanelSt) (s : State) : State :=
  panEvents s.panS { s with panS := f s.panS, panA := f s.panA, panB := f s.panB }

/-- PANEL_SAMPLE: at AON cycle 64 the sequencer and each lane sample button, jumper and loop. -/
def panelSample (x a b : PanelIn) (s : State) : State :=
  let t := s.time.count
  let i := inSlot s
  panEvents s.panS { s with panS := panelTake i t x s.panS, panA := panelTake i t a s.panA, panB := panelTake i t b s.panB }
def execPanelSample (seq a b : PanelIn) (s : State) : Host.Outcome State Fault Refusal := .next (panelSample seq a b s)
def execPresenceOpen (s : State) : Host.Outcome State Fault Refusal := .next (onPanels pressOpen s)
def execPresenceWindowExpiry (s : State) : Host.Outcome State Fault Refusal := .next (onPanels winExpire s)
def execButtonRelease (s : State) : Host.Outcome State Fault Refusal := .next (onPanels pressEnd s)
def execButtonStuck (s : State) : Host.Outcome State Fault Refusal := .next (onPanels pressStuck s)
def execJumperFitted (s : State) : Host.Outcome State Fault Refusal := .next (onPanels (jumperIn (inSlot s)) s)
def execJumperRemoved (s : State) : Host.Outcome State Fault Refusal := .next (onPanels jumperOut s)
/-- PRES_CTRL.CLOSE: every holder's window closes at the next boundary; a jumper that stays accepted holds it open. -/
def panClose (p : PanelSt) : PanelSt := { p with closing := true }
def execPresCtrlClose (s : State) : Host.Outcome State Fault Refusal := .next (if s.locked 0xA1 then s.refuse 0xA1 4 else onPanels panClose s)
def execSealOpen (s : State) : Host.Outcome State Fault Refusal := .next (onPanels (sealOpen s.time.count) s)
/-- SEAL_READ: at power-up and every 3,600 s; each holder reads for itself. -/
def sealRead (x a b : Option Word) (s : State) : State :=
  let t := s.time.count
  panEvents s.panS { s with panS := sealTake t x s.panS, panA := sealTake t a s.panA, panB := sealTake t b s.panB }
def execSealRead (seq a b : Option Word) (s : State) : Host.Outcome State Fault Refusal := .next (sealRead seq a b s)

/-- A lane's window against the sequencer's: more than one tick of difference sets DISAGREE (R336). -/
def winDisagree (id : LaneId) (s : State) : State :=
  let own := match id with | .a => s.panA.w | .b => s.panB.w
  let x := match id with | .a => s.lsecA | .b => s.lsecB
  let run := runNext (own != s.panS.w) (min 2 x.disRun)
  let y := { x with disRun := run, disagree := x.disagree || decide (2 ≤ run) }
  let s := match id with | .a => { s with lsecA := y } | .b => { s with lsecB := y }
  if y.disagree && !x.disagree then s.modLane id (fun l => Lane.ev l id 7 (0x19 + 0x10 * laneNum id) 0 Ev.windowDisagree 0) else s
/-- The boundary of a tick: W, the lanes' comparison, and debug that closes with the window (R340). -/
def panelTick (s : State) : State :=
  let s := onPanels winBoundary s
  let s := winDisagree .b (winDisagree .a s)
  let keep := (if s.panS.w then s.sec.dbg % 4 else 0) + (if s.laneWin .a then 4 * bitsOf s.sec.dbg 2 1 + 16 * bitsOf s.sec.dbg 4 1 else 0) +
    (if s.laneWin .b then 8 * bitsOf s.sec.dbg 3 1 + 32 * bitsOf s.sec.dbg 5 1 else 0)
  State.setFld { s with sec := { s.sec with dbg := keep } } F.SEC_STAT_DBG_OPEN keep
/-- SLOT_REMOVAL (R390): SLOT_PRES_N goes high. -/
def slotRemoval (s : State) : State := if inSlot s then (s.setFld F.PRES_STAT_IN_SLOT 0).note 7 6 0xA1 0 Ev.slotRemoved 0 else s
def execSlotRemoval (s : State) : Host.Outcome State Fault Refusal := .next (slotRemoval s)

end Sys2Proof.Machine
end

