-- ==== Sys2Proof/Machine/Security.lean ====
section
/-! DEFINITION. Security (R325–R334, R339–R341): images, owner keys, command tokens, SVN floors, attestation, debug and its fuses. -/
namespace Sys2Proof.Machine
open Sys2Proof

/-! ### SEC_CMD -/

/-- A command completes with its RESULT; BLOCK_IRQ bit 8. -/
def secDone (r : Nat) (s : State) : State := (s.setFld F.SEC_CMD_RESULT r).irq 0xA0 8
/-- After every token attempt the counter rises and a new nonce is drawn (R330). -/
def nextChal (s : State) : State :=
  let s := s.setFld F.SEC_CHAL_CNT_COUNT ((s.fld F.SEC_CHAL_CNT_COUNT + 1) % 2 ^ 32)
  (upto 8).foldl (fun s k => let (w, s) := s.free 32; s.setFld (F.SEC_NONCE k) w) s
/-- The 84 bytes of a command token (R330). -/
def tokenBytes (cmd : Nat) (arg : List Nat) (s : State) : List Nat :=
  [0x4F, 0x58, 0x54, 0x4B, cmd, 0, 0, 0] ++ leBytes 8 (s.fuse F.CRVN_UID_LO_UID + 2 ^ 32 * s.fuse F.CRVN_UID_HI_UID) ++ leBytes 4 (s.fld F.SEC_CHAL_CNT_COUNT) ++
  ((upto 8).flatMap (fun k => leBytes 4 (s.fld (F.SEC_NONCE k)))) ++ arg
/-- The signature in SEC_SIGBUF, its first word most significant (log 50). -/
def sigBuf (s : State) : Nat := bigNum ((upto 96).flatMap (fun k => bigBytes 4 (s.fld (F.SEC_SIGBUF k)))) 0
/-- Whether the token of a command verifies with the owner's key, Auvewick's while none is enrolled. `key` is the modulus firmware holds: only
its hash is fused, and the spec names no register for it (log 18). -/
def tokenOk (cmd : Nat) (arg : List Nat) (key : Nat) (s : State) : Bool := sigBy (ownerKey s) key (sigBuf s) (tokenBytes cmd arg s)
/-- The 32 bytes of SEC_ARG. -/
def secArg (s : State) : List Nat := (upto 8).flatMap (fun k => leBytes 4 (s.fld (F.SEC_ARG k)))
/-- Every SEC_CMD: the page's lock, then the command. -/
def secCmd (f : State → State) (s : State) : State := if s.locked 0xA0 then s.refuse 0xA0 4 else f s

/-- ENROLL (R329): past the first enrolment with a token of the active owner key. -/
def secEnroll (key : Nat) (s : State) : State :=
  let first := s.fuse F.FUSE_OWNER_STAT_ENROLLED == 0
  let slot := (upto 4).find? (fun k => !bitOf (s.fuse F.FUSE_OWNER_STAT_ENROLLED) k)
  let r := if !s.presence then 2 else if s.sec.tamper || s.panS.tamper then 5 else if slot.isNone then 4
    else if !first && !((activeOwner s).isSome && tokenOk 1 (secArg s) key s) then 3 else 1
  let s' :=
    match slot with
    | some k =>
      if r = 1 then
        let s := s.setFuse F.FUSE_OWNER_STAT_ENROLLED (setBitN (s.fuse F.FUSE_OWNER_STAT_ENROLLED) k)
        ((upto 8).foldl (fun s j => s.setFuse (F.FUSE_OWNER_HASH_HASH k j) (s.fld (F.SEC_ARG j))) s).secEv 0 Ev.ownerEnrolled k
      else s
    | none => s
  secDone r (ownerShow (if first then s' else nextChal s'))
def execSecEnroll (key : BitVec 3072) (s : State) : Host.Outcome State Fault Refusal := .next (secCmd (secEnroll key.toNat) s)
/-- REVOKE (R329): the slot is in byte 52 of the token, byte 0 of SEC_ARG. -/
def secRevoke (key : Nat) (s : State) : State :=
  let k := s.fld (F.SEC_ARG 0) % 256
  let r := if !s.presence then 2 else if s.sec.tamper || s.panS.tamper then 5 else if !((activeOwner s).isSome && tokenOk 2 (k :: List.replicate 31 0) key s) then 3
    else if k < 4 ∧ bitOf (s.fuse F.FUSE_OWNER_STAT_ENROLLED) k then 1 else 7
  let s := if r = 1 then (s.setFuse F.FUSE_OWNER_STAT_REVOKED (setBitN (s.fuse F.FUSE_OWNER_STAT_REVOKED) k)).secEv 0 Ev.ownerRevoked k else s
  secDone r (ownerShow (nextChal s))
def execSecRevoke (key : BitVec 3072) (s : State) : Host.Outcome State Fault Refusal := .next (secCmd (secRevoke key.toNat) s)
/-- Queue lane writes behind every request that came before (R318). -/
def laneReq (src : Nat) (batches : List (List MboxEntry)) (s : State) : State :=
  { s with herv := { s.herv with reqs := s.herv.reqs ++ [⟨src, batches, false⟩] } }
/-- The mailbox entry LSEC_CMD. -/
def lsecEntry (code : Nat) : MboxEntry := ⟨0x19104, BitVec.ofNat 32 code, 0xF⟩
/-- TAMPER_CLR (R339 steps 2 and 3): with a token that verifies (by the owner's key, or Auvewick's while none is enrolled), the lanes are asked. -/
def secTamperClr (key : Nat) (s : State) : State :=
  let s' := nextChal s
  if !s.presence then secDone 2 s'
  else if !tokenOk 3 (List.replicate 32 0) key s then secDone 3 s'
  else laneReq 1 [[lsecEntry 1]] s'
def execSecTamperClr (key : BitVec 3072) (s : State) : Host.Outcome State Fault Refusal := .next (secCmd (secTamperClr key.toNat) s)
/-- A holder stores the new seal's serial and clears its latch. -/
def tamperClear (p : PanelSt) : PanelSt := if p.closed then { p with tamper := false, cause := 0, stored := p.now, mute := 0 } else p
/-- Step 4 of R339 for the sequencer and Hervi, once the lanes have answered. -/
def tamperAnswer (ok : Bool) (s : State) : State :=
  if ok && !s.panA.tamper && !s.panB.tamper && s.panS.closed then
    secDone 1 (panShow ({ s with panS := tamperClear s.panS, sec := { s.sec with tamper := false } }.secEv 0 Ev.tamperCleared 0))
  else secDone 9 s

/-- SVN of the image in the bank a lane runs from. -/
def laneSvn (f : LaneFw) : Nat := imgSvn (bankHead (if f.run = 0 then f.b0 else f.b1))
/-- RAISE_SVN (R331): the floor of a kind rises to the SVN of what runs. -/
def svnRunning (s : State) (kind : Nat) : Option Nat :=
  if kind = 0 then (if s.herv.bank = 0 then s.herv.img0 else s.herv.img1).map imgSvn
  else if kind = 1 then (if s.x.up then s.herv.xOld.map imgSvn else none)
  else if kind = 2 then some (min (laneSvn s.fwA) (laneSvn s.fwB))
  else if kind = 0x10 then s.herv.policy.map imgSvn
  else if kind = 0x20 then s.x.active.map (fun m => imgSvn m.img)
  else none
def secRaise (s : State) : State :=
  let kind := s.fld (F.SEC_ARG 0) % 256
  if !s.presence then secDone 2 s
  else
    match svnRunning s kind with
    | none => secDone 7 s
    | some v =>
      let v := max v (svnFloor s kind) % 128
      if kind = 2 ∧ !(s.laneA.votes || s.laneB.votes) then secDone 9 s
      else
        let f := if kind = 0 then F.FUSE_SVN_HERVI else if kind = 1 then F.FUSE_SVN_XOIDE else if kind = 2 then F.FUSE_SVN_SEIF
          else if kind = 0x10 then F.FUSE_SVN_POLICY else F.FUSE_SVN2_MODEL
        secDone 1 ((s.setFuse f v).secEv 0 Ev.svnRaised (kind * 256 + v))
def execSecRaiseSvn (s : State) : Host.Outcome State Fault Refusal := .next (secCmd secRaise s)

/-! ### Attestation (R333, R334) -/

/-- The eight nonce entries of the first batch. -/
def nonceEntries (nonce : List Nat) : List MboxEntry := (upto 8).map (fun k => ⟨0x19120 + 4 * k, BitVec.ofNat 32 (lget 0 nonce k), 0xFFFFFFFF⟩)
def secAttest (s : State) : State :=
  if s.sec.att.isSome then secDone 6 s
  else
    let n := (upto 8).map (fun k => s.fld (F.SEC_ARG k))
    let s := { s with sec := { s.sec with att := some ⟨n, s.fld F.SEC_ATT_ADDR_ADDR⟩ }, lsecA := { s.lsecA with sig := none, psig := none },
                      lsecB := { s.lsecB with sig := none, psig := none } }
    laneReq 2 [nonceEntries n, [lsecEntry 4]] ((s.setFld F.SEC_CMD_RESULT 0).setFld F.SEC_STAT_ATT_BUSY 1)
def execSecAttest (s : State) : Host.Outcome State Fault Refusal := .next (secCmd secAttest s)
def State.lsec (s : State) : LaneId → LaneSec
  | .a => s.lsecA
  | .b => s.lsecB
def State.setLsec (s : State) (id : LaneId) (x : LaneSec) : State :=
  match id with
  | .a => { s with lsecA := x }
  | .b => { s with lsecB := x }
/-- A lane that can sign: not in BOOT or OUT. -/
def laneSigns (l : Lane) : Bool := l.core.mode != .boot && l.core.mode != .out
/-- A lane and its Playa begin to sign: 3,000 ticks without a comparison self-test, and 500 ms (4,096 ticks). -/
def signStart (id : LaneId) (s : State) : State :=
  let x := s.lsec id
  if laneSigns (s.lane id) then
    s.setLsec id { x with signLeft := 3000, sig := none, psig := none, playaLeft := if (s.chip (laneNum id)).powered then 4096 else 0 }
  else s
/-- A tick of signing; `tested` says that a comparison self-test took the lane's P4. A Playa in reset leaves its field zero. -/
def signTick (id : LaneId) (tested : Bool) (s : State) : State :=
  let x := s.lsec id
  let s :=
    if x.signLeft = 0 ∨ tested ∨ !laneSigns (s.lane id) then s
    else if x.signLeft = 1 then let (w, s) := s.free 3072; s.setLsec id { s.lsec id with signLeft := 0, sig := some w }
    else s.setLsec id { x with signLeft := x.signLeft - 1 }
  let x := s.lsec id
  if x.playaLeft = 0 then s
  else if !(s.chip (laneNum id)).powered then s.setLsec id { x with playaLeft := 0 }
  else if x.playaLeft = 1 then let (w, s) := s.free 3072; s.setLsec id { s.lsec id with playaLeft := 0, psig := some w }
  else s.setLsec id { x with playaLeft := x.playaLeft - 1 }
/-- A die's block of the report. -/
def dieBlock (s : State) (d : Nat) : List Nat :=
  let bank := if d = 0 then s.herv.bank else if d = 2 then s.fwA.run else if d = 3 then s.fwB.run else 0
  let svn := if d = 0 then (svnRunning s 0).getD 0 else if d = 1 then (s.herv.xOld.map imgSvn).getD 0 else if d = 2 then laneSvn s.fwA
    else if d = 3 then laneSvn s.fwB else 0
  let floor := if d = 0 then svnFloor s 0 else if d = 1 then svnFloor s 1 else if d < 4 then svnFloor s 2 else 0
  [d, bank] ++ leBytes 2 svn ++ leBytes 2 floor ++ [0, 0] ++ leBytes 32 (lget 0 s.sec.meas d) ++
  leBytes 32 (lget 0 s.sec.certs d) ++ leBytes 4 (lget 0 s.sec.boots d) ++ [0, 0, 0, 0]
/-- Signatures of lanes A and B, Playa 0 and 1, as numbers; none for an absent one. -/
def laneSigs (s : State) : List (Option Nat) := [s.lsecA.sig, s.lsecB.sig, s.lsecA.psig, s.lsecB.psig]
/-- Bytes 0 to 591 of the report. -/
def reportHead (s : State) (a : AttRun) : List Nat :=
  let (sec, ns) := tickInst s.time 0
  let absent := (laneSigs s).map (fun x => b2n x.isNone)
  let flags := b2n (s.panS.tamper || s.sec.tamper) + 2 * b2n s.panS.accepted + 4 * b2n s.panS.w + 8 * b2n (activeOwner s).isSome +
    16 * (s.fuse F.FUSE_DBG_KILL_BLOWN) + 1024 * s.sec.dbg + 65536 * (2 * b2n (!s.x.up) + 4 * lget 0 absent 0 + 8 * lget 0 absent 1 + 16 * lget 0 absent 2 + 32 * lget 0 absent 3)
  let cal := (s.lane s.lead).cal
  let set := match s.x.active with | some m => m.setId | none => 0
  [0x41, 0x54, 0x54, 0x31] ++ leBytes 4 2896 ++ leBytes 4 (s.fuse F.CRVN_UID_LO_UID) ++ leBytes 4 (s.fuse F.CRVN_UID_HI_UID) ++
  (a.nonce.map (leBytes 4)).flatten ++ leBytes 4 (sec % 2 ^ 32) ++ leBytes 4 ns ++ leBytes 4 (s.time.count % 2 ^ 32) ++ leBytes 4 flags ++
  leBytes 4 ((activeOwner s).getD 7) ++ ((upto 6).map (dieBlock s)).flatten ++ leBytes 4 (set % 2 ^ 32) ++ leBytes 32 (match s.x.active with | some m => imgDigest m.img | none => 0) ++
  leBytes 4 (calWord cal 3) ++ leBytes 4 (crc32 (calBody (calWord cal)))
/-- Store bytes in Hervi's SRAM. -/
def sramPut (a : Nat) (l : List Nat) (s : State) : State :=
  { s with herv := { s.herv with sram := (l.foldl (fun (x : Tbl Nat × Nat) b => (tset 0 x.1 (x.2 % 0x4000000) (b % 256), x.2 + 1)) (s.herv.sram, a)).1 } }
/-- ATTESTATION_COMPLETE: every die that can has signed; Hervi signs the whole and the report stands in SRAM. -/
def attComplete (s : State) : State :=
  match s.sec.att with
  | none => s
  | some a =>
    let waits := (s.lsecA.signLeft ≠ 0 ∧ laneSigns s.laneA) ∨ (s.lsecB.signLeft ≠ 0 ∧ laneSigns s.laneB) ∨ s.lsecA.playaLeft ≠ 0 ∨ s.lsecB.playaLeft ≠ 0
    if waits ∨ s.herv.reqs.any (fun r => r.src == 2) then s
    else
      let head := reportHead s a
      let sigs := ((laneSigs s).map (fun x => beBytes 384 (x.getD 0))).flatten
      let (xs, s) := if s.x.up then s.free 3072 else (0, s)
      let (hs, s) := s.free 3072
      let s := sramPut a.addr (head ++ sigs ++ beBytes 384 xs ++ beBytes 384 hs) s
      secDone 1 (State.setFld { s with sec := { s.sec with att := none } } F.SEC_STAT_ATT_BUSY 0)
def execAttestationComplete (s : State) : Host.Outcome State Fault Refusal := .next (attComplete s)

/-! ### Debug (R340, R341) -/

def dbgSet (d : Nat) (s : State) : State :=
  let s := { s with sec := { s.sec with dbg := setBitN s.sec.dbg d } }
  (s.setFld F.SEC_STAT_DBG_OPEN s.sec.dbg).secEv 0 Ev.debugOpen d
def killed (s : State) (d : Nat) : Bool := bitOf (s.fuse F.FUSE_DBG_KILL_BLOWN) d
/-- SEC_CMD DBG_OPEN for Hervi or Xoide. -/
def secDbgOpen (d : Nat) (s : State) : State :=
  if !s.presence then secDone 2 s else if killed s d then secDone 7 s else secDone 1 (dbgSet d s)
def execSecDbgOpen (die : Fin 2) (s : State) : Host.Outcome State Fault Refusal := .next (secCmd (secDbgOpen die.val) s)
/-- A blow starts; it is not complete for 8,192 AON cycles. -/
def blowStart (d : Nat) (s : State) : State := { s with sec := { s.sec with blows := s.sec.blows ++ [(d, s.time.count)] } }
/-- SEC_CMD DBG_KILL for Hervi or Xoide. -/
def secDbgKill (d : Nat) (s : State) : State :=
  if !s.presence then secDone 2 s else if s.pwr.supplyLow then secDone 8 s else blowStart d (s.setFld F.SEC_CMD_RESULT 0)
def execSecDbgKill (die : Fin 2) (s : State) : Host.Outcome State Fault Refusal := .next (secCmd (secDbgKill die.val) s)
/-- FUSE_BLOW_COMPLETE, 8,192 AON cycles after the blow began: the fuse is permanent, and the die's debug logic is in reset. A blow that lost power waits for the die's next boot. -/
def blowComplete (d : Nat) (s : State) : State :=
  if s.sec.blows.any (fun x => x.1 == d && x.2 + 64 ≤ s.time.count) ∧ (if d < 2 then s.pwr.pkgRail else s.pwr.laneRail) = true then
    let s := { s with sec := { s.sec with blows := s.sec.blows.filter (fun x => x.1 != d), dbg := clrBitN s.sec.dbg d } }
    let s := ((s.setFuse F.FUSE_DBG_KILL_BLOWN (setBitN (s.fuse F.FUSE_DBG_KILL_BLOWN) d)).setFld F.SEC_STAT_DBG_OPEN s.sec.dbg).secEv 0 Ev.debugKilled d
    if d < 2 then secDone 1 s else s.modLane (if d = 2 ∨ d = 4 then .a else .b) (coreMod (fun c => { c with secResult := 1 }))
  else s
def execFuseBlowComplete (die : Fin 6) (s : State) : Host.Outcome State Fault Refusal := .next (blowComplete die.val s)

/-! ### LSEC_CMD (R93, R339–R341) -/

def lsecResult (id : LaneId) (r : Nat) (s : State) : State := s.modLane id (coreMod (fun c => { c with secResult := r }))
/-- Whether every valve bank, fan group and pump channel a chip serves is OFF. -/
def chipIdle (s : State) (c : Nat) : Bool :=
  ((upto 6).all (fun i => (blkGet s (0x30 + 6 * c + i)).state == .off)) && (([0, 1] : List Nat).all (fun g => (blkGet s (0x40 + g + c)).state == .off)) &&
  (([0, 1] : List Nat).all (fun i => (blkGet s (0x100 + 2 * c + i)).state == .off))
/-- TAMPER_CLR at one lane: within its own window, with its own samples showing the loop closed. -/
def lsecTamper (id : LaneId) (s : State) : State :=
  let own := match id with | .a => s.panA | .b => s.panB
  if !s.laneWin id then lsecResult id 2 s
  else if !own.closed then lsecResult id 7 s
  else lsecResult id 1 (match id with | .a => { s with panA := tamperClear s.panA } | .b => { s with panB := tamperClear s.panB })
/-- DBG_OPEN and DBG_KILL run by the lane that owns the target (0 lane A, 1 lane B, 2 Playa 0, 3 Playa 1). -/
def lsecRun (id : LaneId) (code target : Nat) (s : State) : State :=
  let d := if target = 0 then 2 else if target = 1 then 3 else if target = 2 then 4 else 5
  if code = 2 then
    if killed s d ∨ (target < 2 ∧ (s.lane id).core.mode ≠ .out) ∨ (2 ≤ target ∧ !chipIdle s (target - 2)) then lsecResult id 7 s
    else lsecResult id 1 (dbgSet d s)
  else if s.pwr.supplyLow then lsecResult id 8 s
  else lsecResult id 0 (blowStart d s)
/-- The command decided by the voting lanes: the owner executes it, or it is sent on (R93). -/
def lsecTarget (code target : Nat) (s : State) : State :=
  let id := if target % 2 = 0 then LaneId.a else .b
  if (s.lane id).votes then lsecRun id code target s
  else s.modLane (otherLane id) (fun l => if l.votes then coreMod (fun c => { c with cmdWait := some ⟨true, code, target, s.time.count + 1⟩ }) l else l)
/-- LSEC_CMD codes that each lane executes for itself: TAMPER_CLR and SIGN, in the lanes `who` names. -/
def lsecShared (who : LaneId → Bool) (code : Nat) (s : State) : State :=
  let each := fun (f : LaneId → State → State) (s : State) => let s := if who .a then f .a s else s; if who .b then f .b s else s
  match code with
  | 1 => panShow (each (fun id s => if (s.lane id).votes then lsecTamper id s else s) s)
  | 4 => each (fun id s => if laneSigns (s.lane id) then signStart id (lsecResult id 1 s) else s) s
  | _ => s
/-- LSEC_CMD applied, by code. -/
def lsecApply (code target : Nat) (s : State) : State :=
  if code = 2 ∨ code = 3 then lsecTarget code target s else lsecShared (fun _ => true) code s
/-- A write of LSEC_CMD through the mailbox; codes 1h to 3h need the presence window. -/
def lsecCmd (code target : Nat) (s : State) : State :=
  if s.laneOk 0x19 (code != 4) && (s.laneA.votes || s.laneB.votes) then lsecApply code target s else s
def execLsecTamperClr (s : State) : Host.Outcome State Fault Refusal := .next (lsecCmd 1 0 s)
def execLsecDbgOpen (target : Fin 4) (s : State) : Host.Outcome State Fault Refusal := .next (lsecCmd 2 target.val s)
def execLsecDbgKill (target : Fin 4) (s : State) : Host.Outcome State Fault Refusal := .next (lsecCmd 3 target.val s)
def execLsecAttest (s : State) : Host.Outcome State Fault Refusal := .next (lsecCmd 4 0 s)
/-- A security command that reached the lane it names, executed in P0. -/
def secCmdIn (id : LaneId) (s : State) : State :=
  match (s.lane id).core.cmdIn with
  | some m =>
    if m.isSec then (lsecRun id m.code m.target (s.modLane id (coreMod (fun c => { c with cmdIn := none })))).modLane (otherLane id) (coreMod (fun c => { c with cmdWait := none }))
    else s
  | none => s

end Sys2Proof.Machine
end

