-- ==== Sys2Proof/Machine/Inventory.lean ====
section
/-! DEFINITION. The inventory (R351, R352): records, counts, serials. -/
namespace Sys2Proof.Machine
open Sys2Proof

/-- Items of each kind. -/
def invCount (kind : Nat) : Nat := ([1, 6, 20, 4, 48, 96, 1])[kind]?.getD 0
def invKeys : List (Nat × Nat) := ((upto 7).map (fun k => (upto (invCount k)).map (fun i => (k, i)))).flatten
def invAt (s : State) (kind i : Nat) : InvRec := tget {} s.inv.live (256 * kind + i)
def invSetRec (kind i : Nat) (r : InvRec) (s : State) : State := { s with inv := { s.inv with live := tset {} s.inv.live (256 * kind + i) r } }
/-- Whether an item's condition of R351 holds. -/
def invRuns (s : State) (kind i : Nat) : Bool :=
  match kind with
  | 0 => s.pwr.laneRail
  | 1 => if i < 2 then s.pwr.pkgRail else s.pwr.laneRail
  | 2 => s.pwr.pkgRail
  | 3 => (blkGet s (0x100 + i)).state == .run
  | 4 => (fanAt s i).applied != 0 && (fanAt s i).state != 5
  | 6 => inSlot s
  | _ => false
/-- The boundary of frame 0 of a second. -/
def invSecond (s : State) : State :=
  invKeys.foldl (fun s k => if invRuns s k.1 k.2 then let r := invAt s k.1 k.2; invSetRec k.1 k.2 { r with seconds := (r.seconds + 1) % 2 ^ 32 } s else s) s
/-- CYCLES as shown: for a valve, strokes minus the base. -/
def invCycles (s : State) (kind i : Nat) : Nat :=
  let r := invAt s kind i
  if kind = 5 then ((s.vch i).strokes + 2 ^ 32 - r.base % 2 ^ 32) % 2 ^ 32 else r.cycles
/-- The 32 bytes of a record; an index beyond the kind's count reads 0. -/
def invBytes (s : State) (kind i : Nat) : List Nat :=
  if invCount kind ≤ i then List.replicate 32 0
  else
    let r := invAt s kind i
    let serial := if kind = 0 then ((upto 4).map (fun k => leBytes 4 (calWord (s.lane s.lead).cal (4 + k)))).flatten else bytesAt r.serial 0 16
    serial ++ leBytes 4 r.installed ++ leBytes 4 r.seconds ++ leBytes 4 (invCycles s kind i) ++ leBytes 2 r.aux ++ [kind, i]
/-- Write the counts of the kinds a test names to their store. -/
def invFlushOf (p : Nat → Bool) (s : State) : State :=
  { s with inv := { s.inv with stored := invKeys.foldl (fun t k => if p k.1 then tset {} t (256 * k.1 + k.2) (invAt s k.1 k.2) else t) s.inv.stored } }
/-- INVENTORY_FLUSH: every 60 s, all counts. -/
def execInventoryFlush (s : State) : Host.Outcome State Fault Refusal := .next (invFlushOf (fun _ => true) s)
/-- What the sequencer holds goes to its store at HOLDUP. -/
def invHoldup (s : State) : State := invFlushOf (fun k => k < 3 || k == 6) s
/-- After a power loss the counts the lanes hold (kinds 3–5) are what their flash holds; the sequencer keeps its own. -/
def invRestore (s : State) : State :=
  let lanes (k : Nat) : Bool := 768 ≤ k && k < 1536
  { s with inv := {
    s.inv with
    live := s.inv.live.filter (fun x => x.1 < 768) ++ s.inv.stored.filter (fun x => lanes x.1) ++ s.inv.live.filter (fun x => 1536 ≤ x.1) } }
/-- INV_CMD.SET (R352), an RWP write: kinds 3 to 6. -/
def invSet (s : State) : State :=
  let kind := s.fld F.INV_SEL_KIND
  let i := s.fld F.INV_SEL_INDEX
  if kind < 3 ∨ invCount kind ≤ i then s.err 0xB1 0x80
  else
    let r := invAt s kind i
    let serial := ((upto 4).map (fun k => leBytes 4 (s.fld (F.INV_SET k)))).flatten
    let s' := invSetRec kind i { r with serial := serial, installed := (tickInst s.time 0).1 % 2 ^ 32, seconds := 0, cycles := 0,
                                        base := if kind = 5 then (s.vch i).strokes else 0 } s
    s'.note 0 6 0xB1 (256 * kind + i) Ev.invSet (r.seconds + 2 ^ 32 * invCycles s kind i)
def execInvSet (s : State) : Host.Outcome State Fault Refusal :=
  .next (if s.locked 0xB1 then s.refuse 0xB1 4 else if s.presence then invSet s else s.refuse 0xB1 2)

end Sys2Proof.Machine
end

