-- ==== Sys2Proof/Machine/XMem.lean ====
section
/-! DEFINITION. The Xoide address space, its codewords and its errors (R166–R175). Memories are addressed by 64-bit word: word w is XA 8w. -/
namespace Sys2Proof.Machine
open Sys2Proof

/-- All five quadrants are in RUN (R192). -/
def quadsRun (s : State) : Bool := (upto 5).all (fun q => (blkGet s (0x8A + q)).state == .run)

/-! ### Jobs and energy (R67, R177) -/

def State.xjob (s : State) (j : Nat) : JobRun := tget {} s.x.jobs j
def State.modJob (s : State) (j : Nat) (f : JobRun → JobRun) : State := s.onX (fun x => { x with jobs := tmod {} x.jobs j f })
/-- Dynamic energy of an activity, 10⁻⁴ pJ at OPP0, scaled by the square of the point's voltage (R67): to the interval, the frame and the job
that caused it, if any. -/
def xSpend (job : Option Nat) (units : Nat) (s : State) : State :=
  let v := s.fld (F.XPWR_STATIC_V_MV s.xopp.cur)
  let v0 := s.fld (F.XPWR_STATIC_V_MV 0)
  let e := units * v * v / (v0 * v0)
  let s := s.onX (fun x => { x with eInt := x.eInt + e, eFrame := x.eFrame + e })
  match job with
  | some j => s.modJob j (fun r => { r with energy := r.energy + e })
  | none => s

/-! ### The codeword (R169) -/

/-- The remainder of the n low bits of m times x¹⁴ modulo g(x) = 4377h, most significant first, from register c. -/
def bchRem (m : Nat) : Nat → Nat → Nat
  | 0, c => c
  | n + 1, c => bchRem m n (((2 * c) % 2 ^ 14) ^^^ (if (bitOf c 13) != (bitOf m n) then 0x377 else 0))
/-- The XOR of the n low bits. -/
def parityN (x : Nat) : Nat → Bool
  | 0 => false
  | n + 1 => bitOf x n != parityN x n
/-- The stored check half-word of a data word: BCH, P and AF. -/
def checkHalf (d : Nat) (fold : Bool) : Nat :=
  let m := d % 2 ^ 64 + b2n fold * 2 ^ 64
  let r := bchRem m 65 0
  r + 2 ^ 14 * b2n (parityN (m + r * 2 ^ 65) 79) + 2 ^ 15 * b2n fold

/-! ### The map (R166–R168) -/

def xaLpEnd : Nat := 0x3FFFFFC000 / 8
def xaShared : Nat := 0x4000000000 / 8
def xaSharedEnd : Nat := 0x4002000000 / 8
def xaTileEnd : Nat := xaTile + 576 * 32768
inductive XMem | lpddr | shared | tile | none
  deriving DecidableEq, Repr
def xaMem (w : Nat) : XMem :=
  if w < xaLpEnd then .lpddr
  else if xaShared ≤ w ∧ w < xaSharedEnd then .shared
  else if xaTile ≤ w ∧ w < xaTileEnd then .tile else .none
/-- The address bits folded into AF (R169). -/
def xaFold (w : Nat) : Bool :=
  match xaMem w with
  | .tile => parityN ((w - xaTile) / 32768) 10 != parityN (w % 32768) 15
  | _ => parityN w 37
/-- Words of an ingest buffer, of a history slot and of a decimated history slot. -/
def ingWords : Nat := 4718592 / 8
def decWords : Nat := 294912 / 8
def histEnd : Nat := 20480 * ingWords
def decBase : Nat := 0x1680000000 / 8
def decEnd : Nat := decBase + 86400 * decWords
/-- What a word of a decimated record of an endpoint without a valid map reads as. -/
def decDef (i : Nat) : Nat := if i % 16 < 14 then 2 ^ 64 - 1 else 0
/-- Four points as a word, and a word written as four points. -/
def ptsGet (t : Tbl Nat) (i : Nat) : Nat := nsum ((upto 4).map (fun k => tget 0xFFFF t (4 * i + k) % 65536 * 2 ^ (16 * k)))
def ptsPut (t : Tbl Nat) (i v : Nat) : Tbl Nat := (upto 4).foldl (fun t k => tset 0xFFFF t (4 * i + k) (v / 2 ^ (16 * k) % 65536)) t
/-- The data of a word; an unassigned word reads 0. A history slot holds what the history write put there; before the first one it is memory
like the rest. -/
def xaGet (s : State) (w : Nat) : Nat :=
  match xaMem w with
  | .lpddr =>
    if w < histEnd then match tget none s.x.hist (w / ingWords) with | some t => ptsGet t (w % ingWords) | none => tget 0 s.x.lp w
    else if decBase ≤ w ∧ w < decEnd then
      let i := (w - decBase) % decWords
      match tget none s.x.dhist ((w - decBase) / decWords) with | some t => tget (decDef i) t i | none => tget 0 s.x.lp w
    else tget 0 s.x.lp w
  | .shared =>
    let i := w - xaShared
    if i < ingWords then ptsGet s.ingest.buf0 i
    else if i < 2 * ingWords then ptsGet s.ingest.buf1 (i - ingWords)
    else tget 0 s.x.shared i
  | .tile => tget 0 (s.tile ((w - xaTile) / 32768)).sram (w % 32768)
  | .none => 0
def lpPut (w v : Nat) (s : State) : State := s.onX (fun x => { x with lp := tset 0 x.lp w v })
/-- Store the data of a word; an unassigned word discards it. -/
def xaPut (s : State) (w v : Nat) : State :=
  match xaMem w with
  | .lpddr =>
    if w < histEnd then
      match tget none s.x.hist (w / ingWords) with
      | some t => s.onX (fun x => { x with hist := tput x.hist (w / ingWords) (some (ptsPut t (w % ingWords) v)) })
      | none => lpPut w v s
    else if decBase ≤ w ∧ w < decEnd then
      let i := (w - decBase) % decWords
      let k := (w - decBase) / decWords
      match tget none s.x.dhist k with
      | some t => s.onX (fun x => { x with dhist := tput x.dhist k (some (tset (decDef i) t i v)) })
      | none => lpPut w v s
    else lpPut w v s
  | .shared =>
    let i := w - xaShared
    if i < ingWords then { s with ingest := { s.ingest with buf0 := ptsPut s.ingest.buf0 i v } }
    else if i < 2 * ingWords then { s with ingest := { s.ingest with buf1 := ptsPut s.ingest.buf1 (i - ingWords) v } }
    else s.onX (fun x => { x with shared := tset 0 x.shared i v })
  | .tile => let t := (w - xaTile) / 32768; s.setTile t { s.tile t with sram := tset 0 (s.tile t).sram (w % 32768) v }
  | .none => s

/-! ### Errors (R170) -/

/-- The quadrant that holds an LPDDR6 word (R173). -/
def xaQuad (w : Nat) : Nat := w / 32 % 80 % 5
/-- An uncorrectable or unassigned access is recorded. -/
def ueNote (job : Option Nat) (w kind : Nat) (s : State) : State :=
  let s := (s.setFld F.XECC_UE_ADDR_LO_XA (8 * w % 2 ^ 32)).setFld F.XECC_UE_ADDR_HI_XA_HI (8 * w / 2 ^ 32)
  let s := (s.setFld F.XECC_UE_ADDR_HI_KIND kind).setFld F.XECC_UE_ADDR_HI_JOB (job.getD 0)
  let s := s.setFld F.XECC_UE_ADDR_HI_BY_JOB (b2n job.isSome)
  if kind = 4 then s
  else
    let s := (s.irq 0x8F 8).note 1 5 0x8F (job.getD 0xFFFF) Ev.xeccUe (8 * w)
    match xaMem w with
    | .tile => s.satFld F.XECC_TSRAM_UE 1
    | .shared => s.satFld F.XECC_SHARED_UE 1
    | .lpddr => ((s.satFld F.XECC_LPDDR6_UE 1).satFld (F.XMEM_ERR_UE (xaQuad w)) 1).irq (0x8A + xaQuad w) 8
    | .none => s
def ceNote (w : Nat) (s : State) : State :=
  match xaMem w with
  | .tile => s.satFld F.XECC_TSRAM_CE 1
  | .shared => s.satFld F.XECC_SHARED_CE 1
  | .lpddr => (s.satFld F.XECC_LPDDR6_CE 1).satFld (F.XMEM_ERR_CE (xaQuad w)) 1
  | .none => s
/-- The decoder on a read of a word: one or two errors are corrected, counted and written back (R170, R171); three are kind 1h; a wrong AF
is kind 3h; an unassigned word is kind 4h. The answer says whether the word is delivered. -/
def eccTouch (job : Option Nat) (w : Nat) (s : State) : State × Bool :=
  match xaMem w with
  | .none => (ueNote job w 4 s, true)
  | _ =>
    let e := tget 0 s.x.errs w
    if e = 0 then (s, true)
    else if e % 4 = 3 then (ueNote job w 1 s, false)
    else
      let s := if e % 4 = 0 then s else s.onX (fun x => { x with errs := tset 0 x.errs w (e / 4 * 4) })
      let s := if e % 4 = 0 then s else ceNote w s
      if e / 4 = 0 then (s, true) else (ueNote job w 3 s, false)
/-- The decoder on words a to a + n − 1, the assigned ones: only those whose codeword holds an error change anything. -/
def eccRange (job : Option Nat) (a n : Nat) (s : State) : State × Bool :=
  (s.x.errs.filter (fun e => decide (a ≤ e.1 ∧ e.1 < a + n))).foldl (fun r e => let b := eccTouch job e.1 r.1; (b.1, r.2 && b.2)) (s, true)
/-- The decoder on a list of words. -/
def eccTouches (job : Option Nat) (ws : List Nat) (s : State) : State × Bool :=
  (ws.filter (fun w => tget 0 s.x.errs w != 0 || xaMem w == .none)).foldl (fun a w => let b := eccTouch job w a.1; (b.1, a.2 && b.2)) (s, true)
/-- The memory of XECC_INJECT.MEM that a word belongs to. -/
def injectHere (mem w : Nat) : Bool :=
  match xaMem w with
  | .tile => mem == 0
  | .shared => mem == 1
  | .lpddr => mem == 2
  | .none => false
/-- The words a test names have been written (R169): each stores a fresh codeword, without an error, and an injection armed for one of them
leaves its error there (XECC_INJECT). -/
def xaFresh (p : Nat → Bool) (s : State) : State :=
  let s := s.onX (fun x => { x with errs := x.errs.filter (fun e => !p e.1) })
  match s.x.inject with
  | some (w, mem, bits, af) =>
    if p w ∧ injectHere mem w = true then s.onX (fun x => { x with inject := none, errs := tset 0 x.errs w (bits % 4 + 4 * b2n af) }) else s
  | none => s
/-- Words a to a + n − 1 have been written. -/
def xaFreshAt (a n : Nat) (s : State) : State := xaFresh (fun w => decide (a ≤ w ∧ w < a + n)) s
/-- A write of a word; an unassigned word discards it and is recorded. -/
def xaWrite (w v : Nat) (s : State) : State :=
  match xaMem w with
  | .none => ueNote none w 4 s
  | _ => xaFresh (fun x => x == w) (xaPut s w (v % 2 ^ 64))
/-- Raw bytes an LPDDR6 transfer of words w to w + n − 1 moves (R173), by quadrant, and their energy (R67): in each block its 64-byte lines and
the check line; a write of less than a block reads the check line and writes it back. -/
def lpCount (job : Option Nat) (write : Bool) (w n : Nat) (s : State) : State :=
  let blocks := (upto ((w + n - 1) / 32 + 1 - w / 32)).map (fun k => w / 32 + k)
  blocks.foldl (fun s b =>
    let lo := max w (32 * b)
    let hi := min (w + n) (32 * b + 32)
    let lines := if lo < hi then (hi - 1) / 8 + 1 - lo / 8 else 0
    let raw := 64 * (lines + (if write && decide (hi - lo < 32) then 2 else 1))
    let q := b % 80 % 5
    let v := s.fld (F.XMEM_BYTES_LO_COUNT q) + 2 ^ 32 * s.fld (F.XMEM_BYTES_HI_COUNT q) + raw
    xSpend job (300000 * raw) ((s.setFld (F.XMEM_BYTES_LO_COUNT q) (v % 2 ^ 32)).setFld (F.XMEM_BYTES_HI_COUNT q) (v / 2 ^ 32 % 2 ^ 32))) s
def lpMoved (job : Option Nat) (write : Bool) (w n : Nat) (s : State) : State :=
  if xaMem w = .lpddr ∧ n ≠ 0 then lpCount job write w n s else s
/-- A job's write of a word: an unassigned address is recorded with the job. -/
def xaWriteBy (job : Option Nat) (w v : Nat) (s : State) : State := if xaMem w = .none then ueNote job w 4 s else xaWrite w v s
/-- Copy n words; the answer says whether every word read was delivered. -/
def xaCopy (job : Option Nat) (src dst n : Nat) (s : State) : State × Bool :=
  let r := eccTouches job ((upto n).map (fun k => src + k)) s
  if r.2 then (lpMoved job true dst n (lpMoved job false src n ((upto n).foldl (fun s k => xaWriteBy job (dst + k) (xaGet s (src + k)) s) r.1)), true) else r
/-- Bytes a to a + n − 1 of the address space, from XA a. -/
def xaBytes (s : State) (a n : Nat) : Nat := nsum ((upto n).map (fun k => xaGet s ((a + k) / 8) / 2 ^ (8 * ((a + k) % 8)) % 256 * 2 ^ (8 * k)))

/-! ### Scrubbing (R171) -/

/-- The words a frame's scrub reads at position n. -/
def scrubHits (s : State) (n w : Nat) : Bool :=
  match xaMem w with
  | .tile => s.fld (F.ERG_STAT_AWAKE ((w - xaTile) / 32768 / 72)) == 1 && w % 32768 / 32 == n % 1024
  | .shared => (w - xaShared) / 4096 == n % 1024
  | .lpddr => (blkGet s (0x8A + xaQuad w)).state == .run && s.fld (F.XMEM_STAT_SR (xaQuad w)) == 0 && w / 512 == n
  | .none => false
/-- 1,073,741,760 blocks of LPDDR6 at 16 blocks a frame. -/
def scrubPass : Nat := 67108860
/-- The blocks of LPDDR6 a frame's scrub reads: 16, those of a quadrant that is awake. -/
def scrubReads (n : Nat) (s : State) : State :=
  (upto 16).foldl (fun s k => let w := 32 * (16 * n + k); if scrubHits s n w then lpMoved none false w 32 s else s) s
/-- A frame's scrub (R171): the words it reads, each corrected word written back, and the LPDDR6 lines both move (R173). -/
def scrubFrame (s : State) : State :=
  if s.fld F.XECC_SCRUB_EN = 0 then s
  else
    let n := s.x.scrub
    let s := ((s.x.errs.filter (fun e => scrubHits s n e.1)).foldl (fun s e =>
      let r := eccTouch none e.1 s
      if tget 0 r.1.x.errs e.1 = tget 0 s.x.errs e.1 then r.1 else lpMoved none true e.1 1 r.1) (scrubReads n s))
    let s := s.onX (fun x => { x with scrub := (n + 1) % scrubPass })
    if n + 1 = scrubPass then s.satFld F.XECC_SCRUB_PASSES 1 else s
def execScrub (s : State) : Host.Outcome State Fault Refusal := .next (if s.x.up then scrubFrame s else s)
/-- XECC_INJECT_ARM: a write of XECC_INJECT_XA_HI arms the injection XECC_INJECT describes (RWP: it needs the presence window). -/
def injectArm (hi : Nat) (s : State) : State :=
  let s := s.setFld F.XECC_INJECT_XA_HI_XA hi
  let xa := s.fld F.XECC_INJECT_XA_LO_XA + 2 ^ 32 * (hi % 256)
  s.onX (fun x => { x with inject := some (xa / 8, s.fld F.XECC_INJECT_MEM, s.fld F.XECC_INJECT_BITS, s.fld F.XECC_INJECT_AF == 1) })
def execXeccInjectArm (hi : BitVec 8) (s : State) : Host.Outcome State Fault Refusal :=
  .next (if s.locked 0x8F then s.refuse 0x8F 4 else if s.presence then injectArm hi.toNat s else s.refuse 0x8F 2)

end Sys2Proof.Machine
end

