-- ==== Sys2Proof/Machine/UcieMem.lean ====
section
/-! DEFINITION. Hervi's memory accesses to Xoide (R312, R313): sleeping quadrants and ergs are woken, accesses are performed once their target
is awake, and their completions wait for MEM_CPL flits. -/
namespace Sys2Proof.Machine
open Sys2Proof

/-- An Xoide address no access reaches: one lost in a reset of Xoide stays outstanding with it. -/
def xaLost : Nat := 2 ^ 40
/-- The words an access touches. -/
def accWords (m : MemAcc) : List Nat :=
  let n := if m.write then m.data.length else m.len
  if n = 0 then [] else (upto ((m.xa + n - 1) / 8 + 1 - m.xa / 8)).map (fun k => m.xa / 8 + k)
/-- Whether a word can be accessed now: its quadrant is in RUN and out of self-refresh, its erg in RUN and awake. -/
def wordAwake (s : State) (w : Nat) : Bool :=
  match xaMem w with
  | .lpddr => (blkGet s (0x8A + xaQuad w)).state == .run && s.fld (F.XMEM_STAT_SR (xaQuad w)) == 0
  | .tile => let n := (w - xaTile) / 32768 / 72; (blkGet s (0x80 + n)).state == .run && s.fld (F.ERG_STAT_AWAKE n) == 1
  | _ => true
/-- An access is performed once its target is awake; a read of a tile leaves it only while no verdict of the tile is outstanding (R161). -/
def accReady (s : State) (m : MemAcc) : Bool :=
  m.xa != xaLost && (accWords m).all (fun w => wordAwake s w && (m.write || xaMem w != .tile || (s.tile ((w - xaTile) / 32768)).outst.isEmpty))
/-- A request of the power microcontroller for a sleeping block: the item asks for admission. -/
def wakeAsk (k : Nat) (i : GovItem) (s : State) : State :=
  let g := s.gov
  let mine := fun (r : GovReq) => r.item != i
  { blkSet s k { blkGet s k with granted := false } with
      gov := { g with raised := g.raised.filter mine ++ [⟨i, 0, false⟩], queue := g.queue.filter mine } }
def quadWake (q : Nat) (s : State) : State :=
  if (blkGet s (0x8A + q)).state = .run ∧ s.fld (F.XMEM_STAT_SR q) = 1 then wakeAsk (0x8A + q) ⟨.lpddr, q⟩ s else s
def ergWake (n : Nat) (s : State) : State :=
  if (blkGet s (0x80 + n)).state = .run ∧ s.fld (F.ERG_STAT_AWAKE n) = 0 ∧ ¬ (blkGet s (0x80 + n)).safe then wakeAsk (0x80 + n) ⟨.erg, n⟩ s else s
/-- QUADRANT_WAKE_ON_ACCESS: the quadrants and ergs an access needs are asked for; a quadrant stays awake for it. -/
def accWake (m : MemAcc) (s : State) : State :=
  (accWords m).foldl (fun s w =>
    match xaMem w with
    | .lpddr =>
      let s := { s with ucie := { s.ucie with awake := setBitN s.ucie.awake (xaQuad w) } }
      if wordAwake s w ∨ s.gov.raised.any (fun r => r.item == ⟨.lpddr, xaQuad w⟩) ∨ s.gov.queue.any (fun r => r.item == ⟨.lpddr, xaQuad w⟩) then s
      else quadWake (xaQuad w) s
    | .tile =>
      let n := (w - xaTile) / 32768 / 72
      if wordAwake s w ∨ s.gov.raised.any (fun r => r.item == ⟨.erg, n⟩) ∨ s.gov.queue.any (fun r => r.item == ⟨.erg, n⟩) then s else ergWake n s
    | _ => s) s
/-- The STATUS of an access: 02h where a word is unassigned. -/
def accStatus (m : MemAcc) : Nat := if (accWords m).any (fun w => xaMem w == .none) then 2 else 0
/-- Store the bytes of a write, word by word. -/
def accStore (m : MemAcc) (s : State) : State :=
  (accWords m).foldl (fun s w =>
    let old := xaGet s w
    let v := leNum ((upto 8).map (fun i =>
      let a := 8 * w + i
      if m.xa ≤ a ∧ a < m.xa + m.data.length then lget 0 m.data (a - m.xa) else old / 2 ^ (8 * i) % 256))
    xaWrite w v s) s
/-- Perform an access: a write stores its bytes; a read of an uncorrectable word gives zeros with STATUS 01h (R313). -/
def accDo (m : MemAcc) (s : State) : State :=
  let n := if m.write then m.data.length else m.len
  let s := lpMoved none m.write (m.xa / 8) (accWords m).length s
  if m.write then
    let s := accStore m s
    { s with ucie := { s.ucie with memCpl := s.ucie.memCpl ++ [⟨m.tag, accStatus m, [], false, m.xa⟩] } }
  else
    let r := eccTouches none (accWords m) s
    let bytes := if r.2 then leBytes n (xaBytes r.1 m.xa n) else List.replicate n 0
    { r.1 with ucie := { r.1.ucie with memCpl := r.1.ucie.memCpl ++ [⟨m.tag, if r.2 then accStatus m else 1, bytes, false, m.xa⟩] } }
/-- Perform the outstanding accesses whose targets are awake, oldest first. -/
def memServe (s : State) : State :=
  s.ucie.out.foldl (fun s m => if accReady s m then accDo m { s with ucie := { s.ucie with out := s.ucie.out.filter (fun x => x != m) } } else s) s
/-- A new access; at most 256 are outstanding. -/
def memAccess (m : MemAcc) (s : State) : State :=
  if 256 ≤ s.ucie.out.length + s.ucie.memCpl.length then s
  else memServe (accWake m { s with ucie := { s.ucie with out := s.ucie.out ++ [m] } })

end Sys2Proof.Machine
end

