-- ==== Sys2Proof/Machine/XNum.lean ====
section
/-! DEFINITION. Xoide's number formats, exact values, roundings and elementary functions (R145–R158). -/
namespace Sys2Proof.Machine
open Sys2Proof

/-! ### Exact values -/

/-- The rounding modes of R148. -/
inductive Rnd | near | down | up
  deriving DecidableEq, Repr

/-- ERG_FLAGS bits. -/
def flInvalid : Nat := 1
def flOverflow : Nat := 2
def flSat : Nat := 4
def flOrder : Nat := 8

def XV.zero : XV := .fin false 0 0
def XV.isNan : XV → Bool | .nan => true | _ => false
def XV.isInf : XV → Bool | .inf _ => true | _ => false
def XV.neg : XV → Bool | .nan => false | .inf n => n | .fin n _ _ => n
def XV.isZero : XV → Bool | .fin _ m _ => m == 0 | _ => false
def XV.negate : XV → XV | .nan => .nan | .inf n => .inf (!n) | .fin n m e => .fin (!n) m e
/-- The signed mantissa of a finite value at exponent `q`, which is at or below its own. -/
def XV.scaled (q : Int) : XV → Int
  | .fin n m e => let k := (m : Int) * ((2 ^ (e - q).toNat : Nat) : Int); if n then -k else k
  | _ => 0
def XV.exp : XV → Int | .fin _ _ e => e | _ => 0
/-- The finite value z × 2^q. -/
def XV.ofInt (z q : Int) : XV := .fin (decide (z < 0)) z.natAbs q
/-- Multiply by 2^k. -/
def XV.shift (k : Int) : XV → XV | .fin n m e => .fin n m (e + k) | v => v
/-- The exact product; 0 × ∞ is NaN (R149). -/
def XV.mul : XV → XV → XV
  | .nan, _ => .nan
  | _, .nan => .nan
  | .inf a, .inf b => .inf (a != b)
  | .inf a, .fin b m _ => if m = 0 then .nan else .inf (a != b)
  | .fin a m _, .inf b => if m = 0 then .nan else .inf (a != b)
  | .fin a m e, .fin b n f => .fin (a != b) (m * n) (e + f)
/-- The exact sum; ∞ − ∞ is NaN. A zero sum is +0; rounding toward −∞ makes it −0 (R148). -/
def XV.add : XV → XV → XV
  | .nan, _ => .nan
  | _, .nan => .nan
  | .inf a, .inf b => if a = b then .inf a else .nan
  | .inf a, _ => .inf a
  | _, .inf b => .inf b
  | .fin a m e, .fin b n f => let q := min e f; XV.ofInt ((XV.fin a m e).scaled q + (XV.fin b n f).scaled q) q
def XV.sum (l : List XV) : XV := l.foldl XV.add XV.zero
/-- Whether a is below b; false where either is NaN. -/
def XV.lt : XV → XV → Bool
  | .nan, _ => false
  | _, .nan => false
  | .inf a, .inf b => a && !b
  | .inf a, _ => a
  | _, .inf b => !b
  | .fin a m e, .fin b n f => let q := min e f; decide ((XV.fin a m e).scaled q < (XV.fin b n f).scaled q)
def XV.max (a b : XV) : XV := if a.isNan || b.isNan then .nan else if a.lt b then b else a
def XV.min (a b : XV) : XV := if a.isNan || b.isNan then .nan else if b.lt a then b else a

/-! ### Rounding to a grid -/

/-- m / 2^s rounded to a whole number; `away` says whether a directed rounding goes away from zero. -/
def roundShift (rnd : Rnd) (neg : Bool) (m s : Nat) : Nat :=
  let q := m / 2 ^ s
  let r := m % 2 ^ s
  match rnd with
  | .near => if 2 * r > 2 ^ s ∨ (2 * r = 2 ^ s ∧ q % 2 = 1) then q + 1 else q
  | .down => if neg ∧ r ≠ 0 then q + 1 else q
  | .up => if ¬ neg ∧ r ≠ 0 then q + 1 else q
/-- A binary format: precision with the hidden bit, the exponent of its least subnormal, its largest finite magnitude as grid steps
(mantissa field above exponent field), and whether it has infinities and NaN. -/
structure FFmt where
  p : Nat
  qmin : Int
  top : Nat
  infs : Bool
  nans : Bool
/-- R145. FP6-E3M2, FP6-E2M3 and FP4-E2M1 have neither infinity nor NaN; E4M3 has no infinity. -/
def fmtFP32 : FFmt := ⟨24, -149, 0x7F7FFFFF, true, true⟩
def fmtFP16 : FFmt := ⟨11, -24, 0x7BFF, true, true⟩
def fmtBF16 : FFmt := ⟨8, -133, 0x7F7F, true, true⟩
def fmtE4M3 : FFmt := ⟨4, -9, 0x7E, false, true⟩
def fmtE5M2 : FFmt := ⟨3, -16, 0x7B, true, true⟩
def fmtE3M2 : FFmt := ⟨3, -4, 0x1F, false, false⟩
def fmtE2M3 : FFmt := ⟨4, -3, 0x1F, false, false⟩
def fmtE2M1 : FFmt := ⟨2, -1, 0x7, false, false⟩
/-- The magnitude of a finite value on the format's grid, as its code without the sign; it may pass `top`. -/
def gridMag (f : FFmt) (rnd : Rnd) (neg : Bool) (m : Nat) (e : Int) : Nat :=
  if m = 0 then 0
  else
    let q := max f.qmin (e + (Nat.log2 m : Int) - ((f.p - 1 : Nat) : Int))
    let k := if q ≤ e then m * 2 ^ (e - q).toNat else roundShift rnd neg m (q - e).toNat
    (q - f.qmin).toNat * 2 ^ (f.p - 1) + k
/-- The value of a code without its sign, at or below `top`. -/
def gridVal (f : FFmt) (neg : Bool) (c : Nat) : XV :=
  let h := 2 ^ (f.p - 1)
  if c < h then .fin neg c f.qmin else .fin neg (h + c % h) (f.qmin + ((c / h - 1 : Nat) : Int))
/-- Bits of a format without its sign bit. -/
def fmtBits : Nat → Nat
  | 0 => 32 | 1 => 16 | 2 => 16 | 3 => 8 | 4 => 8 | 5 => 6 | 6 => 6 | 7 => 4 | 8 => 8 | 9 => 6 | 10 => 4 | 11 => 8 | 12 => 8 | 13 => 4 | _ => 32
/-- The float format of a code and its ALT bit; none for the integer formats, Q32 and Fh. -/
def fmtOf (code : Nat) (alt : Bool) : Option FFmt :=
  match code with
  | 0 => some fmtFP32 | 1 => some fmtFP16 | 2 => some fmtBF16 | 3 => some fmtE4M3 | 4 => some fmtE5M2 | 5 => some fmtE3M2 | 6 => some fmtE2M3
  | 7 => some fmtE2M1 | 8 => some (if alt then fmtE5M2 else fmtE4M3) | 9 => some (if alt then fmtE2M3 else fmtE3M2) | 10 => some fmtE2M1
  | _ => none
def isMx (code : Nat) : Bool := decide (8 ≤ code ∧ code ≤ 11)
def isInt (code : Nat) : Bool := code == 12 || code == 13
def isFloat (code : Nat) : Bool := decide (code ≤ 7) || isMx code
/-- The value of a float code of n bits (R145). -/
def decodeF (f : FFmt) (bits x : Nat) : XV :=
  let neg := bitOf x (bits - 1)
  let c := x % 2 ^ (bits - 1)
  if c ≤ f.top then gridVal f neg c
  else if f.infs && c == f.top + 1 then .inf neg
  else if f.nans then .nan else gridVal f neg c
/-- The value of an element (R145); an integer stands for itself and MXINT8 for its value × 2⁻⁶. Q32 is read by its binary point. -/
def elemVal (code : Nat) (alt : Bool) (bp x : Nat) : XV :=
  match code with
  | 11 => XV.ofInt (sx 8 x) (-6)
  | 12 => XV.ofInt (sx 8 x) 0
  | 13 => XV.ofInt (sx 4 x) 0
  | 14 => XV.ofInt (sx 32 x) (-(bp : Int))
  | _ => match fmtOf code alt with
    | some f => decodeF f (fmtBits code) x
    | none => .nan
def fp32Nan : Nat := 0x7FC00000
def fp32Val (x : Nat) : XV := decodeF fmtFP32 32 (x % 2 ^ 32)
/-- R148, R149: round an exact value to FP32; the bits and the flags. -/
def roundFP32 (rnd : Rnd) (v : XV) : Nat × Nat :=
  match v with
  | .nan => (fp32Nan, flInvalid)
  | .inf n => (b2n n * 2 ^ 31 + 0x7F800000, 0)
  | .fin n m e =>
    if m = 0 then (b2n n * 2 ^ 31, 0)
    else
      let c := gridMag fmtFP32 rnd n m e
      if c ≤ fmtFP32.top then (b2n n * 2 ^ 31 + c, 0)
      else
        let toInf : Bool := match rnd with | .near => true | .down => n | .up => !n
        (b2n n * 2 ^ 31 + (if toInf then 0x7F800000 else fmtFP32.top), flOverflow)
/-- An exact sum rounded: a zero is +0, −0 under rounding toward −∞ (R148). -/
def roundSum (rnd : Rnd) (v : XV) : Nat × Nat :=
  match v with
  | .fin _ 0 _ => (if rnd = .down then 2 ^ 31 else 0, 0)
  | v => roundFP32 rnd v

/-! ### Integers and Q32 -/

/-- rsh of R118 for any shift; a negative shift goes left. -/
def rshI (a : Int) (s : Int) : Int :=
  if s ≤ 0 then a * ((2 ^ (-s).toNat : Nat) : Int) else (a + ((2 ^ (s.toNat - 1) : Nat) : Int)) / ((2 ^ s.toNat : Nat) : Int)
/-- A shift right that rounds down, or up. -/
def shrDir (up : Bool) (a : Int) (s : Int) : Int :=
  if s ≤ 0 then a * ((2 ^ (-s).toNat : Nat) : Int)
  else let d : Int := ((2 ^ s.toNat : Nat) : Int); if up then -((-a) / d) else a / d
/-- Saturate to w bits: the value and SAT. -/
def satI (w : Nat) (x : Int) : Int × Nat :=
  let hi : Int := ((2 ^ (w - 1) : Nat) : Int) - 1
  if hi < x then (hi, flSat) else if x < -hi - 1 then (-hi - 1, flSat) else (x, 0)
/-- R151: reduce a fixed-point value by s bits in a rounding mode and saturate to 32 bits. -/
def reduceQ (rnd : Rnd) (a s : Int) : Int × Nat :=
  satI 32 (match rnd with | .near => rshI a s | .down => shrDir false a s | .up => shrDir true a s)
/-- A finite value as a whole number of units 2^q, rounded. -/
def toFixed (rnd : Rnd) (q : Int) (n : Bool) (m : Nat) (e : Int) : Int :=
  let k := if q ≤ e then m * 2 ^ (e - q).toNat else roundShift rnd n m (q - e).toNat
  if n then -(k : Int) else (k : Int)
/-- A float to an integer of w bits at binary point bp, saturating; NaN gives 0 and INVALID (R150). -/
def floatToInt (rnd : Rnd) (w bp : Nat) (v : XV) : Int × Nat :=
  match v with
  | .nan => (0, flInvalid)
  | .inf n => satI w (if n then -((2 ^ w : Nat) : Int) else ((2 ^ w : Nat) : Int))
  | .fin n m e => satI w (toFixed rnd (-(bp : Int)) n m e)
/-- R150: a float to a narrower float, with its NaN and its saturation; in bound mode the rounding is directed. -/
def floatToFloat (rnd : Rnd) (code : Nat) (alt : Bool) (v : XV) : Nat × Nat :=
  match fmtOf code alt with
  | none => (0, 0)
  | some f =>
    let sg := 2 ^ (fmtBits code - 1)
    match v with
    | .nan => if f.nans then ((match code with | 0 => fp32Nan | 1 => 0x7E00 | 2 => 0x7FC0 | 3 => 0x7F | 4 => 0x7E | _ => if alt then 0x7E else 0x7F), flInvalid) else (0, flInvalid)
    | .inf n => (b2n n * sg + (if f.infs then f.top + 1 else f.top), 0)
    | .fin n m e =>
      let c := gridMag f rnd n m e
      if c ≤ f.top then (b2n n * sg + c, 0)
      else
        let toInf : Bool := f.infs && (match rnd with | .near => code == 0 | .down => n | .up => !n)
        (b2n n * sg + (if toInf then f.top + 1 else f.top), flOverflow)

/-! ### Pairwise sums (R148) -/

/-- One stage of the tree: neighbours are added, an odd last element passes. -/
def pairStage (f : Nat → Nat → Nat × Nat) : List Nat → List Nat × Nat
  | a :: b :: r => let s := f a b; let t := pairStage f r; (s.1 :: t.1, s.2 ||| t.2)
  | l => (l, 0)
/-- The fixed pairwise tree sum, by stages. -/
def pairTree (f : Nat → Nat → Nat × Nat) : Nat → List Nat → Nat × Nat
  | 0, l => (lget 0 l 0, 0)
  | k + 1, l => if l.length ≤ 1 then (lget 0 l 0, 0) else let s := pairStage f l; let t := pairTree f k s.1; (t.1, s.2 ||| t.2)
def addFP32 (rnd : Rnd) (a b : Nat) : Nat × Nat := roundSum rnd ((fp32Val a).add (fp32Val b))

/-! ### Elementary functions (R152, R157) -/

/-- The fixed point of the exact evaluation: 2^fxS units. -/
def fxS : Nat := 420
def fxOne : Int := ((2 ^ fxS : Nat) : Int)
/-- Σ x^k / k! from term k on, with t = x^(k−1)/(k−1)!. -/
def expTerms (x : Int) : Nat → Nat → Int → Int
  | 0, _, _ => 0
  | n + 1, k, t => let t := t * x / (fxOne * (k : Int)); t + expTerms x n (k + 1) t
/-- atanh z − z … : Σ z^(2k+1)/(2k+1) from the given power on. -/
def atanhTerms (z2 : Int) : Nat → Nat → Int → Int
  | 0, _, _ => 0
  | n + 1, k, p => p / (k : Int) + atanhTerms z2 n (k + 2) (p * z2 / fxOne)
/-- ln y for y = a/b between 1 and 2. -/
def lnRatio (a b : Int) : Int := let z := (a - b) * fxOne / (a + b); 2 * atanhTerms (z * z / fxOne) 140 1 z
def fxLn2 : Int := lnRatio 2 1
/-- e^x of a fixed-point x as a mantissa of 2^fxS units and a power of 2. -/
def fxExp (x : Int) : Int × Int := let n := x / fxLn2; (fxOne + expTerms (x - n * fxLn2) 96 1 fxOne, n)
/-- A finite value as a fixed-point number. -/
def fxOf (n : Bool) (m : Nat) (e : Int) : Int := XV.scaled (-(fxS : Int)) (if e < -(fxS : Int) then .fin n 0 (-(fxS : Int)) else .fin n m e)
/-- The functions of R152 by opcode. -/
inductive TFun | exp | log2 | rcp | rsqrt | sig | tanh
  deriving DecidableEq, Repr
/-- The exact value, to 2^−300 of itself and more, of a function at a finite argument. -/
def tExact (f : TFun) (n : Bool) (m : Nat) (e : Int) : XV :=
  let hi := e + (Nat.log2 m : Int)
  let dy := fun (p : Int × Int) => XV.ofInt p.1 (p.2 - (fxS : Int))
  match f with
  | .exp => if 8 ≤ hi then (if n then .fin false 1 (-400) else .fin false 1 400) else dy (fxExp (fxOf n m e))
  | .log2 =>
    let k := (Nat.log2 m : Int)
    XV.ofInt ((e + k) * fxOne + lnRatio (m : Int) ((2 ^ Nat.log2 m : Nat) : Int) * fxOne / fxLn2) (-(fxS : Int))
  | .rcp => XV.ofInt ((if n then -1 else 1) * (((2 ^ fxS / m : Nat) : Int))) (-(fxS : Int) - e)
  | .rsqrt =>
    let odd := e % 2 = 1
    let m' := if odd then 2 * m else m
    let e' := if odd then e - 1 else e
    XV.ofInt ((2 ^ fxS / Nat.sqrt (m' * 2 ^ fxS) * 2 ^ (fxS / 2) : Nat) : Int) (-(fxS : Int) - e' / 2)
  | .sig =>
    let t := if 8 ≤ hi then (1, 0) else fxExp (-(fxOf false m e))
    let u := t.1
    let te := (-t.2).toNat
    let den := fxOne + u / ((2 ^ te : Nat) : Int)
    if n then (if 8 ≤ hi then .fin false 1 (-400) else XV.ofInt (u * fxOne / den) (-(fxS : Int) - (te : Int)))
    else XV.ofInt (fxOne * fxOne / den) (-(fxS : Int))
  | .tanh =>
    let t := if 8 ≤ hi then (1, 0) else fxExp (-2 * fxOf false m e)
    let u := t.1 / ((2 ^ (-t.2).toNat : Nat) : Int)
    let v := (fxOne - u) * fxOne / (fxOne + u)
    XV.ofInt (if n then -v else v) (-(fxS : Int))
/-- The value of a function at a special argument (R149), or its exact value. -/
def tValue (f : TFun) (v : XV) : XV :=
  match v with
  | .nan => .nan
  | .inf n =>
    match f with
    | .exp => if n then .zero else .inf false
    | .log2 => if n then .nan else .inf false
    | .rcp => .fin n 0 0
    | .rsqrt => if n then .nan else .zero
    | .sig => if n then .zero else .fin false 1 0
    | .tanh => .fin n 1 0
  | .fin n m e =>
    if m = 0 then
      match f with
      | .exp => .fin false 1 0
      | .log2 => .inf true
      | .rcp => .inf n
      | .rsqrt => .inf n
      | .sig => .fin false 1 (-1)
      | .tanh => .fin n 0 0
    else if n && (f == .log2 || f == .rsqrt) then .nan
    else tExact f n m e
/-- Move an FP32 code by k units in the last place, staying within the finite codes and the infinities. -/
def fp32Move (c : Nat) (k : Int) : Nat :=
  let s : Int := if bitOf c 31 then -((c % 2 ^ 31 : Nat) : Int) else ((c % 2 ^ 31 : Nat) : Int)
  let t := clampI (-0x7F800000) 0x7F800000 (s + k)
  if t < 0 then 2 ^ 31 + t.natAbs else t.natAbs
/-- Values a function gives exactly: NaN, infinities, and where its argument is special. -/
def tIsExact (v : XV) : Bool := v.isNan || v.isInf || (match v with | .fin _ m _ => m == 0 | _ => false)
/-- R152: a result within 2 units in the last place of the exact value; where in that range is free (`pick`, 0–3: one unit below the grid
point at or below the exact value, up to two above it). -/
def tPoint (f : TFun) (pick : Nat) (v : XV) : Nat × Nat :=
  let x := tValue f v
  if tIsExact x || v.isInf || v.isZero then roundFP32 .near x
  else
    let lo := roundFP32 .down x
    let n := roundFP32 .near x
    if n.2 ≠ 0 then n else (fp32Move lo.1 ((pick % 4 : Nat) - 1 : Int), 0)
/-- R157: one end of a bound-mode result. -/
def tEnd (f : TFun) (up : Bool) (v : XV) : Nat × Nat :=
  let x := tValue f v
  let r := roundFP32 (if up then .up else .down) x
  if x.isNan || x.isInf then r else (fp32Move r.1 (if up then 2 else -2), r.2)

end Sys2Proof.Machine
end

