-- ==== Sys2Proof/Machine/XTile.lean ====
section
/-! DEFINITION. A tile's instructions: fields, legality, operands, matrix pass, vector unit, conversion, cycle counts (R138–R164). -/
namespace Sys2Proof.Machine
open Sys2Proof

/-! ### Fields and legality (R147, R162, R163) -/

structure XIns where
  opc : Nat
  fa : Nat
  fb : Nat
  bnd : Bool
  alt : Bool
  cnt : Nat
  aa : Nat
  ab : Nat
  acc : Nat
  aux : Nat
  deriving DecidableEq, Repr
/-- R162. -/
def xIns (w : Nat) : XIns :=
  { opc := bitsOf w 58 6, fa := bitsOf w 54 4, fb := bitsOf w 50 4, bnd := bitOf w 49, alt := bitOf w 48, cnt := bitsOf w 41 7, aa := bitsOf w 26 15,
    ab := bitsOf w 11 15, acc := bitsOf w 4 7, aux := bitsOf w 0 4 }
/-- The rate class of a format code (R142): 0 4-bit, 1 8-bit, 2 16-bit, 3 32-bit. -/
def rateClass (code : Nat) : Nat := if code = 7 ∨ code = 10 ∨ code = 13 then 0 else if code = 1 ∨ code = 2 then 2 else if code = 0 ∨ code = 14 then 3 else 1
def classK : Nat → Nat | 0 => 32 | 1 => 16 | 2 => 16 | _ => 8
def classN (bnd : Bool) : Nat → Nat | 0 => 16 | 1 => 16 | 2 => if bnd then 4 else 8 | _ => if bnd then 2 else 4
/-- R147: the pairings of an MM. -/
def pairOk (a b : Nat) : Bool :=
  rateClass a == rateClass b && a != 15 && b != 15 &&
  ((decide (a ≤ 7) && decide (b ≤ 7)) || (a == 12 && b == 12) || (a == 13 && b == 13) || (isMx a && isMx b) || (a == 14 && b == 14))
def bndOk (bnd : Bool) (code : Nat) : Bool := !bnd || code == 0 || code == 1 || code == 2 || code == 14
/-- An instruction R147, R157 or R163 does not make illegal. The transcendentals operate on FP32 only (R152). DEDUCED (log 67): R163 lists eight
names for opcodes 20h–29h; 28h and 29h have none and are illegal. -/
def xLegal (i : XIns) : Bool :=
  if i.opc ≤ 6 then true
  else if i.opc = 0x10 then i.fb != 15 && bndOk i.bnd i.fb
  else if i.opc = 0x11 then pairOk i.fa i.fb && bndOk i.bnd i.fa && bndOk i.bnd i.fb
  else if i.opc = 0x12 then true
  else if 0x20 ≤ i.opc ∧ i.opc ≤ 0x27 then i.fa != 15 && bndOk i.bnd i.fa
  else if i.opc = 0x2A then i.fa != 15 && !i.bnd
  else if 0x30 ≤ i.opc ∧ i.opc ≤ 0x35 then isFloat i.fa && bndOk i.bnd i.fa
  else if i.opc = 0x38 ∨ i.opc = 0x39 then i.fa != 15 && bndOk i.bnd i.fa
  else if i.opc = 0x3C then i.fa != 15 && i.fb != 15 && bndOk i.bnd i.fa && bndOk i.bnd i.fb
  else decide (i.opc = 0x3E ∨ i.opc = 0x3F)
/-- The 4-bit to 32-bit formats in the order of the T_W and D columns (R164). -/
def passD (bnd : Bool) (code : Nat) : Nat :=
  if isInt code then 6 else if isMx code then 9
  else if code = 1 ∨ code = 14 then (if bnd then 12 else 10)
  else if code = 2 then (if bnd then 14 else 12)
  else if code = 0 then (if bnd then 16 else 14) else 8
/-- Bytes of a weight block, and the cycles of an LDW (R164); an opening pass of an MX format loads the scales too. DESIGN CHOICE (log 67): the
spec does not say how an LDW tells which pass its block is for; it is read from AUX[1], as MM gives it. -/
def blockBytes (bnd : Bool) (code : Nat) : Nat := classK (rateClass code) * classN bnd (rateClass code) * fmtBits code / 8
def loadTW (bnd : Bool) (code : Nat) (closing : Bool) : Nat := blockBytes bnd code / 16 + (if isMx code && (code == 10 || !closing) then 1 else 0)

/-! ### Tile SRAM -/

def Tile.word (t : Tile) (a : Nat) : Nat := tget 0 t.sram (a % 32768)
def Tile.reg (t : Tile) (k : Nat) : Nat := lget 0 t.regs k
/-- n bits at a bit address of the SRAM, elements packed little-endian (R146). -/
def Tile.bits (t : Tile) (b n : Nat) : Nat := (t.word (b / 64) + 2 ^ 64 * t.word (b / 64 + 1)) / 2 ^ (b % 64) % 2 ^ n
/-- Element i of a vector that starts at a word address. -/
def Tile.elem (t : Tile) (base code i : Nat) : Nat := t.bits (64 * base + fmtBits code * i) (fmtBits code)
def Tile.byte (t : Tile) (a : Nat) : Nat := t.bits (8 * a) 8
def Tile.putBits (b n v : Nat) (t : Tile) : Tile :=
  let a := b / 64
  let x := t.word a + 2 ^ 64 * t.word (a + 1)
  let y := x - x / 2 ^ (b % 64) % 2 ^ n * 2 ^ (b % 64) + v % 2 ^ n * 2 ^ (b % 64)
  let s := tset 0 t.sram (a % 32768) (y % 2 ^ 64)
  { t with sram := if b % 64 + n ≤ 64 then s else tset 0 s ((a + 1) % 32768) (y / 2 ^ 64 % 2 ^ 64) }
/-- Store a list of elements from a word address. -/
def Tile.putElems (base bits : Nat) (l : List Nat) (t : Tile) : Tile :=
  (upto l.length).foldl (fun t i => t.putBits (64 * base + bits * i) bits (lget 0 l i)) t
/-- The words a run of bits covers. -/
def spanWords (base nbits : Nat) : List Nat := (upto (ceilDiv nbits 64)).map (fun k => (base + k) % 32768)
def addrA (t : Tile) (i : XIns) (g : Nat) : Nat := (i.aa + t.reg 0 + g * t.reg 2) % 32768
def addrB (t : Tile) (i : XIns) (g : Nat) : Nat := (i.ab + t.reg 1 + g * t.reg 3) % 32768

/-! ### The matrix pass (R142–R148, R154) -/

/-- How a pass accumulates. -/
inductive AccKind | exact | tree | mx | int | q
  deriving DecidableEq, Repr
def accKind (a b : Nat) : AccKind :=
  if isMx a then .mx else if isInt a then .int else if a = 14 then .q
  else if a = 0 then .tree
  else if a = 2 ∧ b = 2 then .tree
  else if a = 1 ∧ b = 1 then .exact
  else if rateClass a = 2 then (if Config.mixed16Exact then .exact else .tree) else .exact
def XV.roundVal (rnd : Rnd) (v : XV) : Nat × Nat := roundFP32 rnd v
/-- An accumulator entry as an 80-bit pattern: FP32 bits, INT32 or Q32-80. -/
def accGet (t : Tile) (row col : Nat) : Nat := tget 0 t.acc (16 * (row % 128) + col)
def accPut (row col v : Nat) (t : Tile) : Tile := { t with acc := tset 0 t.acc (16 * (row % 128) + col) v }
/-- One output of a float pass: exact sum and one rounding, or rounded products in the pairwise tree. -/
def accFloat (k : AccKind) (rnd : Rnd) (ps : List XV) (a : Nat) : Nat × Nat :=
  match k with
  | .tree =>
    let r := ps.map (XV.roundVal rnd)
    let t := pairTree (addFP32 rnd) 8 (r.map (fun x => x.1))
    let z := addFP32 rnd t.1 a
    (z.1, r.foldl (fun f x => f ||| x.2) (t.2 ||| z.2))
  | _ => roundSum rnd ((XV.sum ps).add (fp32Val a))
/-- One output of an integer pass of w bits; an infinite endpoint of a bound Q32 pass stays (R156). -/
def accInt (w : Nat) (rnd : Rnd) (ps : List XV) (a : Nat) : Nat × Nat :=
  let lo : Int := -((2 ^ (w - 1) : Nat) : Int)
  let x := sx w a
  if (rnd = .down ∧ (x = lo ∨ ps.any (fun p => p == .inf true))) then (ux w lo, flSat)
  else if (rnd = .up ∧ (x = -lo - 1 ∨ ps.any (fun p => p == .inf false))) then (ux w (-lo - 1), flSat)
  else
    let z := satI w (x + ps.foldl (fun z p => z + p.scaled 0) 0)
    (ux w z.1, z.2)
/-- A product of the pass; in Q32 a zero weight times an unbounded endpoint is 0. -/
def mulK (k : AccKind) (a b : XV) : XV := if k = .q ∧ (a.isZero ∨ b.isZero) then XV.zero else a.mul b
/-- A Q32 element as an integer, its infinite endpoint by side. -/
def qElem (bnd upper : Bool) (x : Nat) : XV :=
  if bnd && !upper && x == 0x80000000 then .inf true else if bnd && upper && x == 0x7FFFFFFF then .inf false else XV.ofInt (sx 32 x) 0
/-- An operand element of a pass. -/
def passElem (code : Nat) (alt bnd upper : Bool) (x : Nat) : XV := if code = 14 then qElem bnd upper x else elemVal code alt 0 x
/-- The activation k of row m as lower and upper endpoint; points for a normal pass and for ALT = 1. -/
def actElem (t : Tile) (i : XIns) (m k : Nat) : XV × XV :=
  let b := addrA t i m
  if i.bnd && !i.alt then
    (passElem i.fa false true false (t.elem b i.fa (2 * k)), passElem i.fa false true true (t.elem b i.fa (2 * k + 1)))
  else let v := passElem i.fa (i.alt && !i.bnd) false false (t.elem b i.fa k); (v, v)
def wBuf (t : Tile) (n : Nat) : WBuf := if n = 0 then t.wb0 else t.wb1
def setWBuf (n : Nat) (w : WBuf) (t : Tile) : Tile := if n = 0 then { t with wb0 := w } else { t with wb1 := w }
def bytesNat (l : List Nat) : Nat := leNum l
/-- Weight [k][n] of a buffer read in a format; the MX variant is the one its LDW named (R145). -/
def wElem (w : WBuf) (i : XIns) (k n : Nat) : XV :=
  let c := rateClass i.fb
  let e := bytesNat w.bytes / 2 ^ (fmtBits i.fb * (k * classN i.bnd c + n)) % 2 ^ fmtBits i.fb
  passElem i.fb w.alt false false e
def e8m0 (x : Nat) : Int := (x : Int) - 127
/-- A row of a normal pass. -/
def mmRow (i : XIns) (w : WBuf) (m : Nat) (x : Tile × Nat) : Tile × Nat :=
  let c := rateClass i.fa
  let k := accKind i.fa i.fb
  let row := i.acc + m
  (upto (classN false c)).foldl (fun (x : Tile × Nat) n =>
    let t := x.1
    let ps := (upto (classK c)).map (fun j => mulK k (actElem t i m j).1 (wElem w i j n))
    let a := if bitOf i.aux 2 then 0 else accGet t row n
    match k with
    | .int => let z := accInt 32 .near ps (a % 2 ^ 32); (accPut row n z.1 t, x.2 ||| z.2)
    | .q => let z := accInt 80 .near ps a; (accPut row n z.1 t, x.2 ||| z.2)
    | .mx =>
      let sa := t.byte (Config.mxActScale (addrA t i m))
      let sw := lget 0 w.scales n
      let key := 16 * (row % 128) + n
      let own : MxReg := { sum := XV.sum ps, scale := e8m0 sa + e8m0 sw, nan := sa == 255 || sw == 255 }
      let opening := c == 1 && !bitOf i.aux 1
      if opening then ({ t with mx := tset {} t.mx key own }, x.2)
      else
        let whole := if c = 1 then let o := tget {} t.mx key; { o with sum := o.sum.add own.sum } else own
        let z := roundSum .near (if whole.nan then .nan else (whole.sum.shift whole.scale).add (fp32Val a))
        (accPut row n z.1 t, x.2 ||| z.2)
    | _ => let z := accFloat k .near ps a; (accPut row n z.1 t, x.2 ||| z.2)) x
/-- An interval of FP32 bits as it is written: a NaN endpoint voids it (R155); the order check (R158). -/
def boundFix (lo hi : Nat) : Nat × Nat × Nat :=
  if (fp32Val lo).isNan || (fp32Val hi).isNan then (fp32Nan, fp32Nan, flInvalid)
  else (lo, hi, if (fp32Val hi).lt (fp32Val lo) then flOrder else 0)
/-- A row of a bound pass: output n of the lower half to column n, of the upper half to column n + 8. -/
def mmRowBound (i : XIns) (w : WBuf) (m : Nat) (x : Tile × Nat) : Tile × Nat :=
  let c := rateClass i.fa
  let k := accKind i.fa i.fb
  let row := i.acc + m
  (upto (classN true c)).foldl (fun (x : Tile × Nat) n =>
    let t := x.1
    let ends := (upto (classK c)).map (fun j => let a := actElem t i m j; let v := wElem w i j n
      let flip := v.neg && !v.isZero
      (mulK k (if flip then a.2 else a.1) v, mulK k (if flip then a.1 else a.2) v))
    let al := if bitOf i.aux 2 then 0 else accGet t row n
    let ah := if bitOf i.aux 2 then 0 else accGet t row (n + 8)
    if k = .q then
      let zl := accInt 80 .down (ends.map (fun p => p.1)) al
      let zh := accInt 80 .up (ends.map (fun p => p.2)) ah
      (accPut row (n + 8) zh.1 (accPut row n zl.1 t), x.2 ||| zl.2 ||| zh.2 ||| (if sx 80 zh.1 < sx 80 zl.1 then flOrder else 0))
    else
      let zl := accFloat k .down (ends.map (fun p => p.1)) al
      let zh := accFloat k .up (ends.map (fun p => p.2)) ah
      let b := boundFix zl.1 zh.1
      (accPut row (n + 8) b.2.1 (accPut row n b.1 t), x.2 ||| zl.2 ||| zh.2 ||| b.2.2)) x
/-- The whole pass: the tile and the flags. -/
def mmPass (i : XIns) (t : Tile) : Tile × Nat :=
  let w := wBuf t (i.aux % 2)
  (upto (i.cnt + 1)).foldl (fun x m => if i.bnd then mmRowBound i w m x else mmRow i w m x) (t, 0)

/-! ### The vector unit (R150–R152, R157) -/

/-- The element types of the vector unit. -/
inductive WTy | float | int | q
  deriving DecidableEq, Repr
def workTy (code : Nat) : WTy := if code = 14 then .q else if isInt code then .int else .float
/-- A source element widened exactly; a Q32 or INT32 element as an integer. -/
def srcElem (t : Tile) (code : Nat) (alt bnd : Bool) (base e : Nat) : XV :=
  let x := t.elem base code e
  if code = 14 then qElem bnd (e % 2 == 1) x
  else
    let v := elemVal code alt 0 x
    if isMx code then (let s := t.byte (Config.mxActScale base); if s = 255 then .nan else v.shift (e8m0 s)) else v
/-- A 32-bit element of a working type. -/
def wordElem (w : WTy) (bnd upper : Bool) (x : Nat) : XV :=
  match w with
  | .float => fp32Val x
  | .int => XV.ofInt (sx 32 x) 0
  | .q => qElem bnd upper x
/-- The 32-bit result of an exact value: rounded, or saturated; a product of Q32 is reduced to BPO. -/
def finish (t : Tile) (w : WTy) (rnd : Rnd) (mul : Bool) (v : XV) : Nat × Nat :=
  match w with
  | .float => if mul then roundFP32 rnd v else roundSum rnd v
  | _ =>
    match v with
    | .nan => (if rnd = .up then 0x7FFFFFFF else 0x80000000, flSat)
    | .inf n => (if n then 0x80000000 else 0x7FFFFFFF, flSat)
    | v =>
      let z := if w = .q ∧ mul then reduceQ rnd (v.scaled 0) (((t.reg 5 + t.reg 6 : Nat) : Int) - ((t.reg 7 : Nat) : Int)) else satI 32 (v.scaled 0)
      (ux 32 z.1, z.2)
/-- Selections deliver one of their operands. -/
def finishSel (w : WTy) (rnd : Rnd) (v : XV) : Nat × Nat :=
  match w with
  | .float => roundFP32 rnd v
  | _ => match v with
    | .inf n => (if n then 0x80000000 else 0x7FFFFFFF, 0)
    | v => let z := satI 32 (v.scaled 0); (ux 32 z.1, z.2)
/-- The vector operations of opcodes 20h–2Ah and 38h–39h. -/
inductive VOp | add | sub | mul | mulc | max | min | relu | clamp | fma
  deriving DecidableEq, Repr
/-- A constant operand of an instruction, as an element of the working type. -/
def vConst (t : Tile) (w : WTy) (ins k : Nat) : XV := wordElem w false false (t.word (Config.vecConst ins k) % 2 ^ 32)
/-- One element of a normal operation: a the source, b the operand at the destination. -/
def vElem (t : Tile) (w : WTy) (op : VOp) (c c2 : XV) (a b : XV) : Nat × Nat :=
  match op with
  | .add => finish t w .near false (a.add b)
  | .sub => finish t w .near false (a.add b.negate)
  | .mul => finish t w .near true (a.mul b)
  | .mulc => finish t w .near true (a.mul c)
  | .max => finishSel w .near (a.max b)
  | .min => finishSel w .near (a.min b)
  | .relu => finishSel w .near (a.max XV.zero)
  | .clamp => finishSel w .near ((a.max c).min c2)
  | .fma => match w with
    | .q => let z := satI 32 (Config.vfmaQ32 (a.scaled 0) (c.scaled 0) (b.scaled 0)); (ux 32 z.1, z.2)
    | _ => finish t w .near false ((a.mul c).add b)
/-- The least, or greatest, of four values; NaN if one is. -/
def minOf (l : List XV) : XV := l.foldl XV.min (l.head?.getD .nan)
def maxOf (l : List XV) : XV := l.foldl XV.max (l.head?.getD .nan)
/-- One interval of a bound operation (R157): both endpoints. -/
def vIval (t : Tile) (w : WTy) (op : VOp) (c c2 : XV) (a b : XV × XV) : (Nat × Nat) × (Nat × Nat) :=
  let prods := [a.1.mul b.1, a.1.mul b.2, a.2.mul b.1, a.2.mul b.2]
  let both := fun (mul : Bool) (lo hi : XV) => (finish t w .down mul lo, finish t w .up mul hi)
  let each := fun (f : XV → XV) (g : XV → XV) => (finishSel w .down (f a.1), finishSel w .up (g a.2))
  match op with
  | .add => both false (a.1.add b.1) (a.2.add b.2)
  | .sub => both false (a.1.add b.2.negate) (a.2.add b.1.negate)
  | .mul => both true (minOf prods) (maxOf prods)
  | .mulc => if c.neg && !c.isZero then both true (a.2.mul c) (a.1.mul c) else both true (a.1.mul c) (a.2.mul c)
  | .max => each (fun x => x.max b.1) (fun x => x.max b.2)
  | .min => each (fun x => x.min b.1) (fun x => x.min b.2)
  | .relu => each (fun x => x.max XV.zero) (fun x => x.max XV.zero)
  | .clamp => each (fun x => (x.max c).min c2) (fun x => (x.max c).min c2)
  | .fma => both false a.1 a.2
/-- An interval as it is written. -/
def ivalFix (w : WTy) (r : (Nat × Nat) × (Nat × Nat)) : List Nat × Nat :=
  match w with
  | .float => let b := boundFix r.1.1 r.2.1; ([b.1, b.2.1], r.1.2 ||| r.2.2 ||| b.2.2)
  | _ => ([r.1.1, r.2.1], r.1.2 ||| r.2.2 ||| (if sx 32 r.2.1 < sx 32 r.1.1 then flOrder else 0))
/-- One group: the 16 results and the flags. -/
def vGroup (t : Tile) (i : XIns) (ins : Nat) (op : VOp) (g : Nat) : List Nat × Nat :=
  let w := workTy i.fa
  let c := vConst t w ins 0
  let c2 := vConst t w ins 1
  let a := fun e => srcElem t i.fa i.alt i.bnd (addrA t i g) e
  let b := fun e => wordElem w i.bnd (e % 2 == 1) (t.elem (addrB t i g) 0 e)
  if i.bnd then
    (upto 8).foldl (fun (x : List Nat × Nat) e =>
      let r := ivalFix w (vIval t w op c c2 (a (2 * e), a (2 * e + 1)) (b (2 * e), b (2 * e + 1))); (x.1 ++ r.1, x.2 ||| r.2)) ([], 0)
  else (upto 16).foldl (fun (x : List Nat × Nat) e => let r := vElem t w op c c2 (a e) (b e); (x.1 ++ [r.1], x.2 ||| r.2)) ([], 0)
/-- A vector operation over its groups, in order. -/
def vRun (i : XIns) (ins : Nat) (op : VOp) (t : Tile) : Tile × Nat :=
  (upto (i.cnt + 1)).foldl (fun (x : Tile × Nat) g => let r := vGroup x.1 i ins op g; (x.1.putElems (addrB x.1 i g) 32 r.1, x.2 ||| r.2)) (t, 0)
/-- A number for each function, for the free choice. -/
def tNum : TFun → Nat | .exp => 0 | .log2 => 1 | .rcp => 2 | .rsqrt => 3 | .sig => 4 | .tanh => 5
/-- An interval of a transcendental (R157): outside the function's domain the whole line. -/
def tIval (f : TFun) (lo hi : XV) : (Nat × Nat) × (Nat × Nat) :=
  let outside : Bool := match f with
    | .rcp => !(lo.isNan || hi.isNan) && !(XV.zero.lt lo) && !(hi.lt XV.zero)
    | .log2 | .rsqrt => !(lo.isNan || hi.isNan) && !(XV.zero.lt lo)
    | _ => false
  if outside then ((0xFF800000, 0), (0x7F800000, 0))
  else match f with
    | .rcp | .rsqrt => (tEnd f false hi, tEnd f true lo)
    | _ => (tEnd f false lo, tEnd f true hi)
def tGroup (t : Tile) (i : XIns) (f : TFun) (g : Nat) : List Nat × Nat :=
  let a := fun e => srcElem t i.fa i.alt i.bnd (addrA t i g) e
  if i.bnd then
    (upto 8).foldl (fun (x : List Nat × Nat) e => let r := ivalFix .float (tIval f (a (2 * e)) (a (2 * e + 1))); (x.1 ++ r.1, x.2 ||| r.2)) ([], 0)
  else
    (upto 16).foldl (fun (x : List Nat × Nat) e =>
      let v := a e
      let r := tPoint f (Config.transPick (tNum f) (roundFP32 .near v).1) v; (x.1 ++ [r.1], x.2 ||| r.2)) ([], 0)
def tRun (i : XIns) (f : TFun) (t : Tile) : Tile × Nat :=
  (upto (i.cnt + 1)).foldl (fun (x : Tile × Nat) g => let r := tGroup x.1 i f g; (x.1.putElems (addrB x.1 i g) 32 r.1, x.2 ||| r.2)) (t, 0)
/-- All source elements of a reduction, by side in bound mode. -/
def redElems (t : Tile) (i : XIns) (side : Nat) : List XV :=
  ((upto (i.cnt + 1)).map (fun g =>
    (upto (if i.bnd then 8 else 16)).map (fun e => srcElem t i.fa i.alt i.bnd (addrA t i g) (if i.bnd then 2 * e + side else e)))).flatten
/-- The tree sum of one side. -/
def redSum (t : Tile) (w : WTy) (rnd : Rnd) (l : List XV) : Nat × Nat :=
  match w with
  | .float => let r := l.map (roundFP32 rnd); let z := pairTree (addFP32 rnd) 12 (r.map (fun x => x.1)); (z.1, r.foldl (fun f x => f ||| x.2) z.2)
  | _ => finish t w rnd false (XV.sum l)
def redRun (sum : Bool) (i : XIns) (t : Tile) : Tile × Nat :=
  let w := workTy i.fa
  let f := fun rnd l => if sum then redSum t w rnd l else finishSel w rnd (maxOf l)
  if i.bnd then let r := ivalFix w (f .down (redElems t i 0), f .up (redElems t i 1)); (t.putElems (addrB t i 0) 32 r.1, r.2)
  else let r := f .near (redElems t i 0); (t.putElems (addrB t i 0) 32 [r.1], r.2)

/-! ### CVT (R150, R151) -/

/-- A source element of a conversion from the accumulator: 16 columns, or 8 intervals of columns n and n + 8. -/
def accElem (t : Tile) (i : XIns) (g e : Nat) : XV :=
  let col := if i.bnd then e / 2 + 8 * (e % 2) else e
  let a := accGet t (i.acc + g) col
  match workTy i.fa with
  | .float => fp32Val a
  | .int => XV.ofInt (sx 32 a) 0
  | .q =>
    let lo : Int := -((2 ^ 79 : Nat) : Int)
    let x := sx 80 a
    if i.bnd && e % 2 == 0 && x == lo then .inf true else if i.bnd && e % 2 == 1 && x == -lo - 1 then .inf false else XV.ofInt x 0
/-- The binary point of the source. -/
def cvtBp (t : Tile) (i : XIns) : Nat := if bitOf i.aux 1 then t.reg 5 + t.reg 6 else t.reg 5
/-- One element to a format that is not MX: its bits and flags. -/
def cvtElem (t : Tile) (i : XIns) (rnd : Rnd) (v : XV) : Nat × Nat :=
  let w := workTy i.fa
  let v := if bitOf i.aux 0 then v.max XV.zero else v
  let bp := cvtBp t i
  if i.fb = 14 then
    match w, v with
    | .float, .nan => if rnd = .near then (0, flInvalid) else (if rnd = .up then 0x7FFFFFFF else 0x80000000, flInvalid)
    | .float, v => let z := floatToInt rnd 32 (t.reg 7) v; (ux 32 z.1, z.2)
    | _, .inf n => (if n then 0x80000000 else 0x7FFFFFFF, flSat)
    | .int, v => let z := satI 32 (v.scaled 0 * ((2 ^ t.reg 7 : Nat) : Int)); (ux 32 z.1, z.2)
    | .q, v => let z := reduceQ rnd (v.scaled 0) ((bp : Int) - ((t.reg 7 : Nat) : Int)); (ux 32 z.1, z.2)
  else if isInt i.fb then
    let n := fmtBits i.fb
    match w with
    | .float => let z := floatToInt .near n 0 v; (ux n z.1, z.2)
    | .int => let z := satI n (rshI (v.scaled 0) (t.reg 4 : Int)); (ux n z.1, z.2)
    | .q => let z := satI n (rshI (v.scaled 0) (bp : Int)); (ux n z.1, z.2)
  else floatToFloat rnd i.fb i.alt (if w = .q then v.shift (-(bp : Int)) else v)
/-- The largest exponent of an MX element format. -/
def mxEmax (code : Nat) (alt : Bool) : Int := if code = 8 then (if alt then 15 else 8) else if code = 9 then (if alt then 2 else 4) else if code = 10 then 2 else 0
/-- floor(log₂) of the largest magnitude of a block: none for a block of zeros. -/
def topExp : List XV → Option Int
  | [] => none
  | .fin _ m e :: r =>
    if m = 0 then topExp r else let x := e + (Nat.log2 m : Int); match topExp r with | some y => some (max x y) | none => some x
  | .inf _ :: _ => some 1000
  | .nan :: r => topExp r
/-- A block of up to 32 values to MX: the scale and the elements with their flags. -/
def mxBlock (code : Nat) (alt : Bool) (l : List XV) : Nat × List Nat × Nat :=
  let s : Nat := if l.any XV.isNan then 255 else match topExp l with
    | none => 0
    | some x => (clampI 0 254 (x - mxEmax code alt + 127)).toNat
  let r := l.map (fun v =>
    let y := v.shift (127 - (s : Int))
    if code = 11 then (let z := floatToInt .near 8 6 y; (ux 8 z.1, if z.2 = flSat then flOverflow else z.2)) else floatToFloat .near code alt y)
  (s, r.map (fun x => x.1), r.foldl (fun f x => f ||| x.2) 0)
def cvtSrc (t : Tile) (i : XIns) (g e : Nat) : XV :=
  if bitOf i.aux 1 then accElem t i g e else srcElem t i.fa i.alt i.bnd (addrA t i g) e
/-- The conversion of one group. In bound mode a NaN endpoint voids the interval (R155); a Q32 interval has no NaN and becomes the whole line. -/
def cvtGroup (t : Tile) (i : XIns) (g : Nat) : List Nat × Nat :=
  if i.bnd then
    (upto 8).foldl (fun (x : List Nat × Nat) e =>
      let vl := cvtSrc t i g (2 * e)
      let vh := cvtSrc t i g (2 * e + 1)
      let lo := cvtElem t i .down vl
      let hi := cvtElem t i .up vh
      let nan := fun (b : Nat) => i.fb != 14 && (elemVal i.fb false 0 b).isNan
      let order : Nat := if i.fb = 14 then (if sx 32 hi.1 < sx 32 lo.1 then flOrder else 0)
        else if (elemVal i.fb false 0 hi.1).lt (elemVal i.fb false 0 lo.1) then flOrder else 0
      if i.fb = 14 ∧ (vl.isNan ∨ vh.isNan) then (x.1 ++ [0x80000000, 0x7FFFFFFF], x.2 ||| flInvalid)
      else
        let r := if nan lo.1 then (lo.1, lo.1) else if nan hi.1 then (hi.1, hi.1) else (lo.1, hi.1)
        (x.1 ++ [r.1, r.2], x.2 ||| lo.2 ||| hi.2 ||| order)) ([], 0)
  else (upto 16).foldl (fun (x : List Nat × Nat) e => let r := cvtElem t i .near (cvtSrc t i g e); (x.1 ++ [r.1], x.2 ||| r.2)) ([], 0)
/-- MX conversion: blocks of two groups. -/
def cvtMx (i : XIns) (t : Tile) : Tile × Nat :=
  let ty := workTy i.fa
  let val := fun g e =>
    let v := cvtSrc t i g e
    let v := if bitOf i.aux 0 then v.max XV.zero else v
    if ty = .q then v.shift (-(cvtBp t i : Int)) else v
  (upto ((i.cnt + 2) / 2)).foldl (fun (x : Tile × Nat) b =>
    let gs := (upto 2).filterMap (fun k => if 2 * b + k ≤ i.cnt then some (2 * b + k) else none)
    let m := mxBlock i.fb i.alt ((gs.map (fun g => (upto 16).map (fun e => val g e))).flatten)
    let tt := (upto gs.length).foldl (fun tt k => tt.putElems (addrB x.1 i (2 * b + k)) (fmtBits i.fb) ((m.2.1.drop (16 * k)).take 16)) x.1
    (tt.putBits (8 * Config.mxDestScale (addrB x.1 i (2 * b)) b) 8 m.1, x.2 ||| m.2.2)) (t, 0)
def cvtRun (i : XIns) (t : Tile) : Tile × Nat :=
  if isMx i.fb then cvtMx i t
  else (upto (i.cnt + 1)).foldl (fun (x : Tile × Nat) g => let r := cvtGroup x.1 i g; (x.1.putElems (addrB x.1 i g) (fmtBits i.fb) r.1, x.2 ||| r.2)) (t, 0)

/-! ### Issue (R140, R163, R164) -/

def maxOfN (l : List Nat) : Nat := l.foldl max 0
def accRows (i : XIns) (n : Nat) : List Nat := (upto n).map (fun m => (i.acc + m) % 128)
/-- An accumulator row written again is readable once its last writer has written it, and no sooner than an earlier writer (R140). -/
def rowReady (t : Tbl Nat) (r c : Nat) : Tbl Nat := tset 0 t r (max (tget 0 t r) c)
/-- The cycle an MM issues in, and its bookkeeping; each row's verdict comes D + 3 cycles after the row enters, in each half (R159). -/
def issueMM (pc : Nat) (i : XIns) (t : Tile) : Tile :=
  let w := wBuf t (i.aux % 2)
  let rows := i.cnt + 1
  let dep := if bitOf i.aux 2 then [] else (upto rows).map (fun m => tget 0 t.accRdy ((i.acc + m) % 128) - m)
  let s := maxOfN (t.cyc :: t.arrFree :: w.ready :: dep)
  let d := max (passD i.bnd i.fa) (passD i.bnd i.fb)
  let t := setWBuf (i.aux % 2) { w with busy := s + rows } t
  { t with cyc := s + 1, arrFree := s + rows, accRdy := (upto rows).foldl (fun a m => rowReady a ((i.acc + m) % 128) (s + m + d)) t.accRdy,
           outst := t.outst ++ (upto rows).flatMap (fun m => (if i.bnd then [1, 2] else [0]).map (fun h => ⟨pc, h, s + m + d + 3, m + d + 3⟩)) }
/-- Issue on the vector unit: cycles per group, the latency of a group, whether there is one result at the end instead of one a group, and
accumulator rows to wait for; a verdict comes 2 cycles after its result is readable (R159). -/
def issueVec (pc : Nat) (occ lat : Nat) (one : Bool) (rows : List Nat) (i : XIns) (t : Tile) : Tile :=
  let s := maxOfN (t.cyc :: t.vecFree :: rows.map (fun r => tget 0 t.accRdy r))
  let gs := if one then [i.cnt] else upto (i.cnt + 1)
  { t with cyc := s + 1, vecFree := s + occ * (i.cnt + 1), outst := t.outst ++ gs.map (fun g => ⟨pc, 3, s + occ * g + lat + 2, occ * g + lat + 2⟩) }
def issueLdw (i : XIns) (w : WBuf) (t : Tile) : Tile :=
  let s := maxOfN [t.cyc, t.wFree, (wBuf t (i.aux % 2)).busy]
  let tw := loadTW i.bnd i.fb (bitOf i.aux 1)
  setWBuf (i.aux % 2) { w with ready := s + tw, busy := (wBuf t (i.aux % 2)).busy } { t with cyc := s + 1, wFree := s + tw }

end Sys2Proof.Machine
end

