-- ==== Sys2Proof/Machine/XExec.lean ====
section
/-! DEFINITION. The meanings of the tile instructions (R138–R164, R177, R179, R182). Each command is the next instruction of a tile that runs
its job's program: it acts when the word at the tile's program counter has that opcode. A tile that waits at BAR, is stopped by a mismatch, has
ended, or whose job's run has ended, issues nothing. -/
namespace Sys2Proof.Machine
open Sys2Proof

/-! ### Jobs and flags -/

/-- What ends the run of a job (R183): 1 residue, 2 uncorrectable, 3 illegal, 4 transfer; 18 an uncorrectable word of tile SRAM. -/
def runEnd (j cause : Nat) (s : State) : State := s.modJob j (fun r => if r.endCause.isSome then r else { r with endCause := some cause })
/-- ERG_STAT.BUSY. -/
def ergBusy (n : Nat) (s : State) : State :=
  s.setFld (F.ERG_STAT_BUSY n) (((upto 72).filter (fun l => (s.tile (72 * n + l)).running)).length)
/-- Set ERG_FLAGS bits of a tile's erg; BLOCK_IRQ bit 8. -/
def ergFlags (t fl : Nat) (s : State) : State :=
  if fl = 0 then s
  else
    let off := (F.ERG_FLAGS_INVALID (t / 72)).off
    ({ s with regs := rset s.regs off (rget s.regs off ||| BitVec.ofNat 32 (fl % 64)) }).irq (0x80 + t / 72) 8
/-- An illegal instruction (R147): the program stops there. -/
def tileIllegal (t : Nat) (s : State) : State :=
  let x := s.tile t
  let s := s.setTile t { x with stopped := true }
  let s := ((ergFlags t 16 s).setFld (F.ERG_ILLEGAL_PC (t / 72)) x.pc).setFld (F.ERG_ILLEGAL_TILE (t / 72)) (t % 72)
  runEnd x.job 3 ((s.irq (0x80 + t / 72) 10).note 1 5 (0x80 + t / 72) (t % 72) Ev.ergIllegal x.pc)
/-- A residue mismatch of the instruction at a program address (R160), or an interval out of order (R158): the tile stops issuing; the second of
a run ends it (R183). -/
def residueHit (t half pc : Nat) (s : State) : State :=
  let x := s.tile t
  let n := t / 72
  let s := s.setTile t { x with stopped := true, replay := if x.replay.isEmpty then x.outst else x.replay }
  let s := ((ergFlags t 32 s).satFld (F.ERG_RESIDUE_COUNT n) 1).setFld (F.ERG_RESIDUE_TILE n) (t % 72)
  let s := ((s.setFld (F.ERG_RESIDUE_HALF n) half).setFld (F.ERG_RESIDUE_JOB_JOB n) x.job).irq (0x80 + n) 9
  let s := (s.note 1 5 (0x80 + n) (t % 72) Ev.ergResidue pc).modJob x.job (fun r => { r with mism := r.mism + 1 })
  if 2 ≤ (s.xjob x.job).mism then runEnd x.job 1 s else s
/-- An order check of a half failed: ERG_FLAGS.BOUND_ORDER, and the rest as a residue mismatch (R158). -/
def orderHit (t half pc : Nat) (s : State) : State :=
  residueHit t half pc (ergFlags t 8 (s.setTile t { s.tile t with orderBad := some (half, pc) }))
/-- Tile SRAM words accessed by an instruction. -/
def sramAct (t words : Nat) (s : State) : State :=
  xSpend (some (s.tile t).job) (30000 * words) (ergAct F.ERG_ACT_TSRAM_LO F.ERG_ACT_TSRAM_HI (t / 72) words s)
/-- The MACs of a pass, counted by rate class and mode (R67, R153). -/
def macAct (t : Nat) (i : XIns) (s : State) : State :=
  let c := rateClass i.fa
  let n := (i.cnt + 1) * classK c * classN i.bnd c
  let j := some (s.tile t).job
  let g := t / 72
  if i.bnd then
    if c = 2 then xSpend j (42000 * n) (ergAct F.ERG_ACT_MACB16_LO F.ERG_ACT_MACB16_HI g n s)
    else xSpend j (150000 * n) (ergAct F.ERG_ACT_MACB32_LO F.ERG_ACT_MACB32_HI g n s)
  else
    match c with
    | 0 => xSpend j (4000 * n) (ergAct F.ERG_ACT_MAC4_LO F.ERG_ACT_MAC4_HI g n s)
    | 1 => xSpend j (7000 * n) (ergAct F.ERG_ACT_MAC8_LO F.ERG_ACT_MAC8_HI g n s)
    | 2 => xSpend j (21000 * n) (ergAct F.ERG_ACT_MAC16_LO F.ERG_ACT_MAC16_HI g n s)
    | _ => xSpend j (75000 * n) (ergAct F.ERG_ACT_MAC32_LO F.ERG_ACT_MAC32_HI g n s)

/-! ### Issue -/

/-- XA words of tile words. -/
def tileWords (t : Nat) (l : List Nat) : List Nat := l.map (fun a => xaTile + 32768 * t + a % 32768)
/-- An uncorrectable read of a tile's own SRAM ends the run. -/
def tileRead (t : Nat) (l : List Nat) (s : State) : State × Bool :=
  let j := (s.tile t).job
  let r := eccTouches (some j) (tileWords t l) s
  if r.2 then r else (runEnd j 18 r.1, false)
/-- Whether a tile may issue: its erg is clocked (R138), and no quadrant is out of RUN, or no job runs (R192). -/
def tileReady (t : Nat) (s : State) : Bool :=
  let x := s.tile t
  quadsRun s && s.fld (F.ERG_STAT_AWAKE (t / 72)) == 1 && x.running && !x.bar && !x.stopped && (s.xjob x.job).endCause.isNone
/-- The next instruction of a tile, if it may issue one. -/
def tileExec (opc t : Nat) (f : XIns → Nat → State → State) (s : State) : State :=
  if !tileReady t s then s
  else
    let r := tileRead t [(s.tile t).pc] s
    let w := (r.1.tile t).word (r.1.tile t).pc
    let i := xIns w
    if !r.2 then r.1
    else if !xLegal i then tileIllegal t r.1
    else if i.opc = opc then f i w r.1 else r.1
/-- Program counter after an instruction in sequence. -/
def tileNext (x : Tile) : Tile := { x with pc := (x.pc + 1) % 2048 }
/-- A control instruction on the tile alone. -/
def tileCtl (t : Nat) (f : XIns → Tile → Tile) (i : XIns) (_ : Nat) (s : State) : State := s.setTile t (f i (s.tile t))
def tileJump (i : XIns) (x : Tile) : Tile := { x with pc := i.aa % 2048, cyc := x.cyc + 3 }
def tileStep (k : Nat) (x : Tile) : Tile := tileNext { x with cyc := x.cyc + k }
/-- SETR: AA above AB is the value; AUX names OA, OB, SA, SB, SR, BPA, BPB, BPO, LC0–LC7. -/
def tileSetr (i : XIns) (x : Tile) : Tile := tileStep 1 { x with regs := lset x.regs i.aux (i.aa * 32768 + i.ab) }
/-- LOOP: the counter named by AUX[2:0] decrements; taken while the result is nonzero. -/
def tileLoop (i : XIns) (x : Tile) : Tile :=
  let k := 8 + i.aux % 8
  let v := (x.reg k + 2 ^ 30 - 1) % 2 ^ 30
  let x := { x with regs := lset x.regs k v }
  if v ≠ 0 then tileJump i x else tileStep 1 x
def tileBrz (i : XIns) (x : Tile) : Tile := if x.reg 8 = 0 then tileJump i x else tileStep 1 x
/-- A unit's instruction: the words it reads, the words it writes, its effect with the flags it sets, its issue; an interval out of order stops
the tile. Every word written stores a fresh codeword (R169). -/
def tileUnit (t : Nat) (reads writes : List Nat) (half : Nat) (f : Tile → Tile × Nat) (issue : Tile → Tile) (s : State) : State :=
  let r := tileRead t reads s
  if !r.2 then r.1
  else
    let x := r.1.tile t
    let y := f x
    let s := sramAct t (reads.length + writes.length) (ergFlags t (y.2 % 8) (xaFresh (fun w => (tileWords t writes).contains w) (r.1.setTile t (tileNext (issue y.1)))))
    if bitOf y.2 3 then orderHit t half x.pc s else s
/-- Words of the groups of a vector source, of the operand at the destination, and of a result of `bits` bits an element. -/
def groupWords (x : Tile) (i : XIns) (addr : Tile → XIns → Nat → Nat) (bits : Nat) : List Nat :=
  ((upto (i.cnt + 1)).map (fun g => spanWords (addr x i g) (16 * bits))).flatten
/-- An operation of the vector unit on CNT + 1 groups, or with one result of all of them. -/
def vecUnit (t occ lat : Nat) (two one : Bool) (f : XIns → Nat → Tile → Tile × Nat) (i : XIns) (w : Nat) (s : State) : State :=
  let x := s.tile t
  let reads := groupWords x i addrA (fmtBits i.fa) ++ (if two then groupWords x i addrB 32 else [])
  let writes := if one then spanWords (addrB x i 0) (if i.bnd then 64 else 32) else groupWords x i addrB 32
  tileUnit t reads writes 3 (f i w) (issueVec x.pc occ (if i.bnd then lat + 2 else lat) one [] i) s
def vecOp (op : VOp) (t occ lat : Nat) (two : Bool) : XIns → Nat → State → State := vecUnit t occ lat two false (fun i w x => vRun i w op x)

def execNop (t : Fin 576) (s : State) : Host.Outcome State Fault Refusal :=
  .next (tileExec 0 t.val (tileCtl t.val (fun i x => tileStep (i.cnt + 1) x)) s)
def execJmp (t : Fin 576) (s : State) : Host.Outcome State Fault Refusal := .next (tileExec 1 t.val (tileCtl t.val tileJump) s)
def execBrz (t : Fin 576) (s : State) : Host.Outcome State Fault Refusal := .next (tileExec 2 t.val (tileCtl t.val tileBrz) s)
def execLoop (t : Fin 576) (s : State) : Host.Outcome State Fault Refusal := .next (tileExec 3 t.val (tileCtl t.val tileLoop) s)
def execSetr (t : Fin 576) (s : State) : Host.Outcome State Fault Refusal := .next (tileExec 4 t.val (tileCtl t.val tileSetr) s)
/-- The tiles of a job on an erg. -/
def barTiles (s : State) (t : Nat) : List Nat :=
  ((upto 72).map (fun l => 72 * (t / 72) + l)).filter (fun u => (s.tile u).running && (s.tile u).job == (s.tile t).job || ((s.tile u).ended && (s.tile u).job == (s.tile t).job))
/-- BAR: the tile reaches it once its transfers are complete (R179) and waits; when the last tile of the job in the erg reaches it, all go on 12 cycles later. -/
def tileBar (t : Nat) (_ : XIns) (_ : Nat) (s : State) : State :=
  let s := s.setTile t (tileNext { s.tile t with bar := true, cyc := max (s.tile t).cyc (s.tile t).xferFree })
  let l := barTiles s t
  if l.all (fun u => (s.tile u).bar) then
    let c := maxOfN (l.map (fun u => (s.tile u).cyc)) + 12
    l.foldl (fun s u => s.setTile u { s.tile u with bar := false, cyc := c }) s
  else s
def execBar (t : Fin 576) (s : State) : Host.Outcome State Fault Refusal := .next (tileExec 5 t.val (tileBar t.val) s)
/-- END: the tile's program for the job has ended. -/
def tileEnd (t : Nat) (_ : XIns) (_ : Nat) (s : State) : State :=
  ergBusy (t / 72) (s.setTile t { tileStep 1 (s.tile t) with running := false, ended := true })
def execXEnd (t : Fin 576) (s : State) : Host.Outcome State Fault Refusal := .next (tileExec 6 t.val (tileEnd t.val) s)

/-- LDW: the block's bytes, and for an MX format the scale of each column (R143, R144). -/
def ldwOp (t : Nat) (i : XIns) (_ : Nat) (s : State) : State :=
  let x := s.tile t
  let a := addrA x i 0
  let n := blockBytes i.bnd i.fb
  let w : WBuf := { bytes := (upto n).map (fun k => x.byte (8 * a + k)), alt := i.alt,
                    scales := if isMx i.fb then (upto 16).map (fun c => x.byte (Config.mxWeightScale a c)) else (wBuf x (i.aux % 2)).scales }
  tileUnit t (spanWords a (8 * n)) [] 0 (fun y => (y, 0)) (issueLdw i w) s
def execLdw (t : Fin 576) (s : State) : Host.Outcome State Fault Refusal := .next (tileExec 0x10 t.val (ldwOp t.val) s)
/-- MM (R142); it does not issue while its weight buffer is not loaded (R140). Which half of the array met an order failure is free. -/
def mmOp (t : Nat) (i : XIns) (_ : Nat) (s : State) : State :=
  let x := s.tile t
  if (wBuf x (i.aux % 2)).bytes.isEmpty then s
  else
    let bits := fmtBits i.fa * classK (rateClass i.fa) * (if i.bnd && !i.alt then 2 else 1)
    let reads := ((upto (i.cnt + 1)).map (fun m => spanWords (addrA x i m) bits)).flatten
    let half := 1 + (Config.freeWord s.freeCtr) % 2
    let y := tileUnit t reads [] half (mmPass i) (issueMM x.pc i) s
    macAct t i (if (y.tile t).orderBad.isSome && x.orderBad.isNone then { y with freeCtr := y.freeCtr + 1 } else y)
def execMm (t : Fin 576) (s : State) : Host.Outcome State Fault Refusal := .next (tileExec 0x11 t.val (mmOp t.val) s)
/-- ACLR: G accumulator rows are zero from the next cycle. -/
def aclrRows (i : XIns) (x : Tile) : Tile :=
  let rows := accRows i (i.cnt + 1)
  tileStep 1 { x with acc := rows.foldl (fun a r => tclear a (16 * r) (16 * r + 16)) x.acc, accRdy := rows.foldl (fun a r => rowReady a r (x.cyc + 1)) x.accRdy }
def execAclr (t : Fin 576) (s : State) : Host.Outcome State Fault Refusal := .next (tileExec 0x12 t.val (tileCtl t.val aclrRows) s)

def execVadd (t : Fin 576) (s : State) : Host.Outcome State Fault Refusal := .next (tileExec 0x20 t.val (vecOp .add t.val 1 4 true) s)
def execVsub (t : Fin 576) (s : State) : Host.Outcome State Fault Refusal := .next (tileExec 0x21 t.val (vecOp .sub t.val 1 4 true) s)
/-- VMUL takes two cycles a group in bound mode. -/
def vmulOp (t : Nat) (i : XIns) (w : Nat) (s : State) : State := vecOp .mul t (if i.bnd then 2 else 1) 4 true i w s
def execVmul (t : Fin 576) (s : State) : Host.Outcome State Fault Refusal := .next (tileExec 0x22 t.val (vmulOp t.val) s)
def execVmulc (t : Fin 576) (s : State) : Host.Outcome State Fault Refusal := .next (tileExec 0x23 t.val (vecOp .mulc t.val 1 4 false) s)
def execVmax (t : Fin 576) (s : State) : Host.Outcome State Fault Refusal := .next (tileExec 0x24 t.val (vecOp .max t.val 1 4 true) s)
def execVmin (t : Fin 576) (s : State) : Host.Outcome State Fault Refusal := .next (tileExec 0x25 t.val (vecOp .min t.val 1 4 true) s)
def execVrelu (t : Fin 576) (s : State) : Host.Outcome State Fault Refusal := .next (tileExec 0x26 t.val (vecOp .relu t.val 1 4 false) s)
def execVclamp (t : Fin 576) (s : State) : Host.Outcome State Fault Refusal := .next (tileExec 0x27 t.val (vecOp .clamp t.val 1 4 false) s)
def execVfma (t : Fin 576) (s : State) : Host.Outcome State Fault Refusal := .next (tileExec 0x2A t.val (vecOp .fma t.val 1 5 true) s)
def transOp (f : TFun) (t : Nat) : XIns → Nat → State → State := vecUnit t 4 12 false false (fun i _ x => tRun i f x)
def execVexp (t : Fin 576) (s : State) : Host.Outcome State Fault Refusal := .next (tileExec 0x30 t.val (transOp .exp t.val) s)
def execVlog2 (t : Fin 576) (s : State) : Host.Outcome State Fault Refusal := .next (tileExec 0x31 t.val (transOp .log2 t.val) s)
def execVrcp (t : Fin 576) (s : State) : Host.Outcome State Fault Refusal := .next (tileExec 0x32 t.val (transOp .rcp t.val) s)
def execVrsqrt (t : Fin 576) (s : State) : Host.Outcome State Fault Refusal := .next (tileExec 0x33 t.val (transOp .rsqrt t.val) s)
def execVsig (t : Fin 576) (s : State) : Host.Outcome State Fault Refusal := .next (tileExec 0x34 t.val (transOp .sig t.val) s)
def execVtanh (t : Fin 576) (s : State) : Host.Outcome State Fault Refusal := .next (tileExec 0x35 t.val (transOp .tanh t.val) s)
def redOp (sum : Bool) (t : Nat) : XIns → Nat → State → State := vecUnit t 1 8 false true (fun i _ x => redRun sum i x)
def execVrmax (t : Fin 576) (s : State) : Host.Outcome State Fault Refusal := .next (tileExec 0x38 t.val (redOp false t.val) s)
def execVrsum (t : Fin 576) (s : State) : Host.Outcome State Fault Refusal := .next (tileExec 0x39 t.val (redOp true t.val) s)
/-- The words of the scale bytes a conversion to MX writes. -/
def cvtScaleWords (x : Tile) (i : XIns) : List Nat :=
  (upto ((i.cnt + 2) / 2)).map (fun b => Config.mxDestScale (addrB x i (2 * b)) b / 8 % 32768)
/-- CVT from the accumulator or from SRAM. -/
def cvtOp (t : Nat) (i : XIns) (_ : Nat) (s : State) : State :=
  let x := s.tile t
  let fromAcc := bitOf i.aux 1
  let reads := if fromAcc then [] else groupWords x i addrA (fmtBits i.fa)
  tileUnit t reads (groupWords x i addrB (fmtBits i.fb) ++ (if isMx i.fb then cvtScaleWords x i else [])) 3 (cvtRun i)
    (issueVec x.pc 1 (if i.bnd then 8 else 6) false (if fromAcc then accRows i (i.cnt + 1) else []) i) s
def execCvt (t : Fin 576) (s : State) : Host.Outcome State Fault Refusal := .next (tileExec 0x3C t.val (cvtOp t.val) s)

/-! ### Transfers (R161, R179) -/

structure XDesc where
  xa : Nat
  len : Nat
  loc : Nat
/-- The descriptor at tile word AA + OA. -/
def xDesc (x : Tile) (a : Nat) : XDesc := ⟨x.word a % 2 ^ 40, x.word (a + 1) % 2 ^ 32, x.word (a + 1) / 2 ^ 32 % 2 ^ 15⟩
/-- Whether the far end can be reached: a tile of an erg that finishes its frame, in RUN or STOPPING, or anything that is no tile (R165). -/
def farOk (s : State) (w : Nat) : Bool :=
  match xaMem w with
  | .tile => let b := (blkGet s (0x80 + (w - xaTile) / 32768 / 72)).state; b == .run || b == .stopping
  | _ => true
/-- The tile whose SRAM a transfer carries data out of: its own on XST, the far end's on an XLD from a tile. -/
def xferSrc (out : Bool) (t w : Nat) : Option Nat := if out then some t else match xaMem w with | .tile => some ((w - xaTile) / 32768) | _ => none
/-- Whether a verdict is outstanding in the tile data would leave (R161). -/
def xferHeld (out : Bool) (t w : Nat) (s : State) : Bool := match xferSrc out t w with | some u => !(s.tile u).outst.isEmpty | none => false
/-- A transfer of a tile (R179); to or from LPDDR6 it is illegal; one that fails ends the run. The engine is held one cycle and moves 32 bytes a
cycle (R139, R163); the transfers are complete at `xferFree`. -/
def xferOp (out : Bool) (t : Nat) (i : XIns) (_ : Nat) (s : State) : State :=
  let x := s.tile t
  let a := addrA x i 0
  let r := tileRead t (spanWords a 256) s
  if !r.2 then r.1
  else
    let d := xDesc (r.1.tile t) a
    let n := d.len / 8
    let w := d.xa / 8
    if xaMem w = .lpddr then tileIllegal t r.1
    else if xferHeld out t w s then s
    else if !farOk r.1 w then runEnd x.job 4 r.1
    else
      let loc := xaTile + 32768 * t + d.loc
      let c := if out then xaCopy (some x.job) loc w n r.1 else xaCopy (some x.job) w loc n r.1
      if !c.2 then runEnd x.job (if (xferSrc out t w).isSome then 18 else 2) c.1
      else
        let y := c.1.tile t
        let st := max y.cyc (match xferSrc out t w with | some u => (if (c.1.tile u).job = y.job then (c.1.tile u).verd else 0) | none => 0)
        let s := c.1.setTile t (tileNext { y with cyc := st + 1, xferFree := max y.xferFree st + ceilDiv d.len 32 })
        let s := xSpend (some x.job) (2500 * d.len + (if xaMem w = .shared then 3000 * d.len else 0)) (ergAct F.ERG_ACT_NET_LO F.ERG_ACT_NET_HI (t / 72) d.len s)
        sramAct t (n + 4) s
def execXld (t : Fin 576) (s : State) : Host.Outcome State Fault Refusal := .next (tileExec 0x3E t.val (xferOp false t.val) s)
def execXst (t : Fin 576) (s : State) : Host.Outcome State Fault Refusal := .next (tileExec 0x3F t.val (xferOp true t.val) s)

/-! ### Verdicts and replay (R159, R160, R182) -/

/-- The verdict of the oldest outstanding result of a half: ERG_RESIDUE.HALF 0 array, 1 lower, 2 upper, 3 vector unit. Accesses of Hervi that
waited for the tile's verdicts are performed with the last one (R161). -/
def residueVerdict (t half : Nat) (ok : Bool) (s : State) : State :=
  let x := s.tile t
  match x.outst.find? (fun o => o.half == half) with
  | none => s
  | some o =>
    let s := if ok then s else residueHit t half o.pc s
    let y := s.tile t
    memServe (s.setTile t { y with outst := y.outst.erase o, verd := max y.verd o.due })
def execResidueVerdict (t : Fin 576) (half : Fin 4) (ok : Bool) (s : State) : Host.Outcome State Fault Refusal :=
  .next (residueVerdict t.val half.val ok s)
/-- With every verdict in, the tile re-issues in program order what was outstanding at the mismatch, 8 cycles later, and resumes. An order
failure comes again with the same operands. -/
def replayOp (t : Nat) (s : State) : State :=
  let x := s.tile t
  if x.stopped && x.outst.isEmpty && (!x.replay.isEmpty || x.orderBad.isSome) && (s.xjob x.job).endCause.isNone then
    let base := max x.cyc x.verd + 8
    let pcs := (x.replay.map (fun o => o.pc)).eraseDups
    let again := x.replay.map (fun (o : OutRes) => { o with due := base + (pcs.takeWhile (fun p => p != o.pc)).length + o.lat })
    let y := { x with stopped := false, replay := [], outst := again, cyc := base + pcs.length, orderBad := none }
    let s := (s.setTile t y).modJob x.job (fun r => { r with replays := min 255 (r.replays + 1) })
    match x.orderBad with
    | some (h, pc) => orderHit t h pc s
    | none => s
  else s
def execReplay (t : Fin 576) (s : State) : Host.Outcome State Fault Refusal := .next (replayOp t.val s)

end Sys2Proof.Machine
end

