-- ==== Sys2Proof/Machine/XPower.lean ====
section
/-! DEFINITION. Operating points, limits, droop and the energy account of Xoide and Hervi (R58–R67). -/
namespace Sys2Proof.Machine
open Sys2Proof

/-- R59: the full-activity power in W of OPP0–OPP7. -/
def oppWatt (n : Nat) : Nat := ([240, 198, 163, 132, 106, 86, 70, 60])[n]?.getD 60
/-- R60: the fastest point whose full-activity power does not exceed a cap in 0.25 W. -/
def capPoint (qw : Nat) : Nat := ((upto 8).find? (fun n => decide (4 * oppWatt n ≤ qw))).getD 7
/-- R61: the slowest of the request and the limits. -/
def xEff (s : State) : Nat := max (max (s.fld F.XPWR_OPP_REQ) s.xopp.capLim) (max s.xopp.thermLim s.xopp.supplyLim)
/-- Hervi's point as a CLK_HERVI_OPP code: the slowest of the request and the limits (R63). -/
def hEff (s : State) : Nat := min (herviReq s) (min s.hopp.thermLim s.hopp.supplyLim)
def State.onXopp (s : State) (f : DieOpp → DieOpp) : State := { s with xopp := f s.xopp }
def State.onHopp (s : State) (f : DieOpp → DieOpp) : State := { s with hopp := f s.hopp }
/-- The register views of the operating points and of droop. -/
def oppShow (s : State) : State :=
  let x := s.xopp
  let s := ((s.setFld F.XPWR_OPP_CAP_LIM x.capLim).setFld F.XPWR_OPP_THERM_LIM x.thermLim).setFld F.XPWR_OPP_SUPPLY_LIM x.supplyLim
  let s := ((s.setFld F.XPWR_OPP_CUR x.cur).setFld F.XPWR_THERM_T_MAX (x.tMax % 256)).setFld F.XPWR_DROOP_EVENTS x.droopEvents
  let s := (upto 8).foldl (fun s n => s.setFld (F.ERG_STAT_OPP n) x.cur) s
  (s.setFld F.CLK_HERVI_OPP_CUR s.hopp.cur).setFld F.CLK_HERVI_DROOP_EVENTS s.hopp.droopEvents
/-- Xoide's point moves one step slower towards the point its limits called for; a step requested while the droop flag is set waits (R61, R65). -/
def xStep (s : State) : State :=
  let x := s.xopp
  if x.stepping.isSome || x.waiting || decide (x.target ≤ x.cur) then s
  else if x.droop then s.onXopp (fun x => { x with waiting := true })
  else s.onXopp (fun x => { x with stepping := some (x.cur + 1) })
/-- A limit of Xoide has moved: within the active window the point changes only to a slower one, and only then (R61). -/
def xLimit (s : State) : State := xStep (s.onXopp (fun x => { x with target := max x.cur (xEff s) }))
/-- Hervi's cores move one code at a time in either direction. -/
def hStep (s : State) : State :=
  let h := s.hopp
  let e := hEff s
  if h.stepping.isSome || h.waiting || e == h.cur then s
  else if h.droop then s.onHopp (fun h => { h with waiting := true })
  else s.onHopp (fun h => { h with stepping := some (if e < h.cur then h.cur - 1 else h.cur + 1) })
/-- Hervi's cores follow their request and limits at any time (R63). -/
def oppMove (s : State) : State := oppShow (hStep s)
/-- Xoide's limits moved from what they were: its point follows. -/
def xMoved (was : DieOpp) (s : State) : State :=
  if was.capLim = s.xopp.capLim ∧ was.thermLim = s.xopp.thermLim ∧ was.supplyLim = s.xopp.supplyLim then s else xLimit s
/-- DVFS_STEP_COMPLETE: the point of the step is in force; a further step starts if one is still called for. While every erg sleeps Xoide takes
the point set for the next frame (R61). -/
def stepDone (die : DieId) (s : State) : State :=
  let f := fun (d : DieOpp) => match d.stepping with | some n => { d with cur := n, stepping := none } | none => d
  match die with
  | .hervi => oppMove (s.onHopp f)
  | .xoide =>
    let s := s.onXopp f
    let s := if ergsAsleep s && s.xopp.stepping.isNone && !s.xopp.waiting && decide (s.xopp.target < s.xopp.cur) then s.onXopp (fun x => { x with cur := x.target })
             else xStep s
    let under := match s.x.active with | some _ => decide (s.fld F.XJOB_FIT_USE_MIN_OPP < s.xopp.cur) | none => false
    oppShow (s.onX (fun x => { x with underfit := x.underfit || (x.frameOn && under) }))
def execDvfsStepComplete (die : DieId) (s : State) : Host.Outcome State Fault Refusal := .next (stepDone die s)
/-- SELF_REFRESH_EXIT_REQUEST: AON cycle 880; sleeping quadrants ask for admission, the cap limit takes the cap's point, and the effective point
of the next frame is set (R20, R60, R61): at once while every erg sleeps; where the droop flag is set, or a step waits or is under way, after
that (R65); an erg still awake allows only slower steps. -/
def oppFrameSet (s : State) : State :=
  let c := capPoint (s.fld F.XPWR_CAP_QW)
  let s := s.onXopp (fun x => { x with capLim := c, frameStart := c })
  let e := if s.x.thermStop then 7 else xEff s
  if !ergsAsleep s then oppShow (xLimit s)
  else
    oppShow (s.onXopp (fun x =>
      if x.stepping.isSome || x.waiting then { x with target := e }
      else if x.droop then { x with target := e, waiting := x.cur != e }
      else { x with target := e, cur := e }))
def quadExit (s : State) : State := (upto 5).foldl (fun s q => quadWake q s) s
def execSelfRefreshExitRequest (s : State) : Host.Outcome State Fault Refusal := .next (if s.x.up then quadExit (oppFrameSet s) else s)
/-- ERG_CLOCK_START_REQUEST: AON cycle 896 + 17k; a sleeping erg in RUN asks for its clock. -/
def ergStart (n : Nat) (s : State) : State := ergWake n s
def execErgClockStartRequest (erg : Fin 8) (s : State) : Host.Outcome State Fault Refusal := .next (if s.x.up then ergStart erg.val s else s)
/-- The block whose admission a domain's wake needs (R49, R51). -/
def domBlk (n : Nat) : Option Nat :=
  if n = 12 ∨ n = 13 then some (0x78 + (n - 12)) else if 21 ≤ n ∧ n ≤ 28 then some (0x80 + (n - 21)) else if 29 ≤ n ∧ n ≤ 33 then some (0x8A + (n - 29)) else none
/-- A port in STARTING has woken; it waits for the other port (R294). -/
def portWoken (p : Nat) (s : State) : State :=
  if (blkGet s (0x110 + p)).state = .starting then
    let peer := (s.cport (1 - p)).woken
    let s := s.modCport p (fun x => { x with woken := true, waiting := !peer })
    if peer then s.modCport (1 - p) (fun x => { x with waiting := false }) else s
  else s
/-- DOMAIN_WAKE_COMPLETE: the wake latency has run from the grant; the domain accepts work. A port's domains wake while a port is enabled; the
others of the table's "never" need no wake (R49). -/
def domWakeOnly (n : Nat) (s : State) : State :=
  let go := domRun n true
  let port := fun p => (blkGet s (0x110 + p)).state != .off
  if n = 9 ∨ n = 10 then (if port (n - 9) then go (portWoken (n - 9) s) else s)
  else if n = 11 then (if port 0 || port 1 then go s else s)
  else match domBlk n with
  | none => if n = 20 then (if ergsAsleep s then s else go s) else s
  | some k =>
    let b := blkGet s k
    if !b.granted then s
    else if 21 ≤ n ∧ n ≤ 28 then (if b.state = .run ∨ b.state = .starting then ergAwake (n - 21) s else s)
    else if 29 ≤ n then (if b.state = .run then (go s).setFld (F.XMEM_STAT_SR (n - 29)) 0 else if b.state = .starting then go s else s)
    else go s

/-! ### The evaluation interval (R60, R62, R67) -/

/-- Static energy of an awake erg over an interval of 4,096 microcontroller cycles, 10⁻⁴ pJ, at a die temperature: doubled for every
20 °C above 85 °C, halved for every 20 °C below. -/
def staticAt (base : Nat) (temp : Int) : Nat :=
  let d := temp - 85
  let k := d / 20
  let e := if 0 ≤ k then base * 2 ^ k.toNat else base / 2 ^ (-k).toNat
  if d % 20 = 0 then e else e * Config.staticBetween d / 65536
def ergStatic (s : State) (temp : Int) : Nat := staticAt (s.fld (F.XPWR_STATIC_MW s.xopp.cur) * 4096 * 10000000000 / 248832) temp
/-- Static energy of the ergs awake at the end of an interval is charged to the interval and the frame; a job's own static energy is counted
from its tile cycles when its run ends (`jobStatic`). -/
def chargeStatic (temp : Int) (s : State) : State :=
  let e := ergStatic s temp * ((upto 8).filter (fun n => s.fld (F.ERG_STAT_AWAKE n) == 1)).length
  s.onX (fun x => { x with eInt := x.eInt + e, eFrame := x.eFrame + e })
/-- The static energy of a run (R67): each erg of the job, over the tile cycles the job has run, at the point and the die temperature in
force. -/
def jobStatic (ergs cycles : Nat) (s : State) : Nat :=
  staticAt (ergs * s.fld (F.XPWR_STATIC_MW s.xopp.cur) * cycles * 10000000 / oppMhz s.xopp.cur) (s.xopp.tMax : Int)
/-- The estimate of the interval against the cap and 90 % of it. -/
def overCap (e qw : Nat) : Bool := decide (qw * 4096 * 10000000000000 < e * 995328)
def underCap (e qw : Nat) : Bool := decide (e * 9953280 ≤ qw * 9 * 4096 * 10000000000000)
/-- The thermal limit moves one point at the end of an interval; on Hervi the threshold is 100 °C and slower is a lower code. -/
def xTherm (t th : Nat) (d : DieOpp) : DieOpp :=
  { d with tMax := t, thermLim := if th ≤ t then min 7 (d.thermLim + 1) else if t + 5 ≤ th then d.thermLim - 1 else d.thermLim }
def hTherm (t : Nat) (d : DieOpp) : DieOpp :=
  { d with tMax := t, thermLim := if 100 ≤ t then d.thermLim - 1 else if t ≤ 95 then min 8 (d.thermLim + 1) else d.thermLim }
/-- POWER_EVAL_INTERVAL: the cap and thermal limits move by the interval's estimate and by the hottest sensors (R60, R62). -/
def powerEval (tx th : Nat) (s : State) : State :=
  let was := s.xopp
  let s := chargeStatic (tx : Int) s
  let qw := s.fld F.XPWR_CAP_QW
  let e := s.x.eInt
  let s := s.onXopp (fun d =>
    { d with capLim := if overCap e qw then min 7 (d.capLim + 1) else if underCap e qw && decide (d.frameStart < d.capLim) then d.capLim - 1 else d.capLim })
  let s := (s.onXopp (xTherm tx (s.fld F.XPWR_THERM_T_TH))).onHopp (hTherm th)
  oppMove (xMoved was (s.onX (fun x => { x with eInt := 0 })))
def execPowerEvalInterval (tXoide tHervi : Nat) (s : State) : Host.Outcome State Fault Refusal := .next (powerEval tXoide tHervi s)

/-! ### Droop (R64, R65) -/

/-- The supply below the point voltage by more than the threshold sets the flag, counts and stretches the clock. -/
def droopSet (d : DieOpp) : DieOpp := { d with droop := true, stretch := true, droopEvents := satAdd 0xFFFF d.droopEvents 1 }
/-- The supply below the point voltage by more than the threshold: on Xoide the point voltage is the fused one of the point in force (R59);
the voltage of a Hervi point is given with the sample, since the spec names none. -/
def droopDetect (die : DieId) (mv point : Nat) (s : State) : State :=
  match die with
  | .xoide =>
    if 100 * mv < s.fld (F.XPWR_STATIC_V_MV s.xopp.cur) * (100 - s.fld F.XPWR_DROOP_THR) then oppShow (s.onXopp droopSet) else s
  | .hervi => if 100 * mv < point * (100 - s.fld F.CLK_HERVI_DROOP_THR) then oppShow (s.onHopp droopSet) else s
def execDroopDetect (die : DieId) (mv pointMv : Nat) (s : State) : Host.Outcome State Fault Refusal := .next (droopDetect die mv pointMv s)
/-- The flag has cleared and the stretcher releases 32 cycles later. -/
def droopClear (d : DieOpp) : DieOpp := { d with droop := false, stretch := false }
def execDroopRelease (die : DieId) (s : State) : Host.Outcome State Fault Refusal :=
  .next (match die with | .xoide => s.onXopp droopClear | .hervi => s.onHopp droopClear)
/-- The flag has been clear for 256 cycles: the waiting step is taken, to the slowest point then required. -/
def droopWaitEnd (die : DieId) (s : State) : State :=
  match die with
  | .xoide =>
    if s.xopp.waiting && !s.xopp.droop then
      s.onXopp (fun x => { x with waiting := false, stepping := if x.cur < x.target ∨ (ergsAsleep s = true ∧ x.target ≠ x.cur) then some x.target else none })
    else s
  | .hervi =>
    if s.hopp.waiting && !s.hopp.droop then
      s.onHopp (fun h => { h with waiting := false, stepping := if hEff s ≠ h.cur then some (hEff s) else none })
    else s
def execDroopWaitEnd (die : DieId) (s : State) : Host.Outcome State Fault Refusal := .next (droopWaitEnd die s)

/-! ### Supply, rail loss, Hervi's frame -/

/-- A feed within 36–50 V, by its 20 mV code. -/
def feedOk (v : Nat) : Bool := decide (1800 ≤ v ∧ v ≤ 2500)
/-- PWR_VIN and SUPPLY_LOW with the supply limits: OPP4 on Xoide, 1.2 GHz on Hervi's cores (R63). -/
def vinSet (a b : Nat) (s : State) : State :=
  let s := { s with pwr := { s.pwr with vinA := a, vinB := b } }
  ((((s.setFld F.PWR_VIN_A a).setFld F.PWR_VIN_B b).setFld F.PWR_VIN_A_OK (b2n (feedOk a))).setFld F.PWR_VIN_B_OK (b2n (feedOk b)))
/-- The supply limits as SUPPLY_LOW stands: OPP4 on Xoide, 1.2 GHz on Hervi's cores (R63). -/
def supplyLims (s : State) : State :=
  let low := s.pwr.supplyLow
  (s.onXopp (fun x => { x with supplyLim := if low then 4 else 0 })).onHopp (fun h => { h with supplyLim := if low then 4 else 8 })
def supplyLow (s : State) : State :=
  let was := s.xopp
  let low := decide (max s.pwr.vinA s.pwr.vinB < s.fld F.PWR_SUPPLY_CFG_LOW_TH)
  oppMove (xMoved was (supplyLims (({ s with pwr := { s.pwr with supplyLow := low } }).setFld F.PWR_STAT_SUPPLY_LOW (b2n low))))
/-- FRAME_DONE: Hervi's work of the frame is complete. -/
def frameDone (s : State) : State := s.onHopp (fun h => { h with frameDone := true, overrun := false })
def execFrameDone (s : State) : Host.Outcome State Fault Refusal := .next (if s.locked 1 then s.refuse 1 4 else frameDone s)

end Sys2Proof.Machine
end

