-- ==== Sys2Proof/Machine/XJob.lean ====
section
/-! DEFINITION. The job table, fitting, the frame's work, adaptation, the advisory and set swap (R20, R21, R165, R176–R192). -/
namespace Sys2Proof.Machine
open Sys2Proof

/-! ### The job table in shared SRAM (R167, R176) -/

def tableWord (b : Bool) : Nat := (if b then 0x908000 else 0x900000) / 8
def jobWords (e : JobEnt) : List Nat :=
  [e.kind % 256 + 256 * b2n e.safety + 65536 * (e.after % 65536) + 2 ^ 32 * (e.tileFirst % 65536) + 2 ^ 48 * (e.tileCount % 65536),
   e.budget % 2 ^ 32 + 2 ^ 32 * (e.replay % 65536) + 2 ^ 48 * (e.pkgFirst % 65536),
   e.pkgCount % 65536 + 65536 * (e.slots % 65536) + 2 ^ 32 * (e.inList % 2 ^ 32),
   e.outList % 2 ^ 32 + 2 ^ 32 * (e.head % 65536)]
def jobOf (w0 w1 w2 w3 : Nat) : JobEnt :=
  { kind := bitsOf w0 0 8, safety := bitOf w0 8, after := bitsOf w0 16 16, tileFirst := bitsOf w0 32 16, tileCount := bitsOf w0 48 16,
    budget := bitsOf w1 0 32, replay := bitsOf w1 32 16, pkgFirst := bitsOf w1 48 16, pkgCount := bitsOf w2 0 16, slots := bitsOf w2 16 16,
    inList := bitsOf w2 32 32, outList := bitsOf w3 0 32, head := bitsOf w3 32 16 }
def jobEnt (s : State) (j : Nat) : JobEnt :=
  let w := fun k => tget 0 s.x.shared (tableWord s.x.tableB + 4 * j + k)
  jobOf (w 0) (w 1) (w 2) (w 3)
/-- Write a table of 1,024 entries. -/
def tableWrite (b : Bool) (jobs : List JobEnt) (s : State) : State :=
  let words := (jobs.take 1024).map jobWords
  let put := fun (t : Tbl Nat) (k : Nat) => tset 0 t (tableWord b + k) (lget 0 words.flatten k)
  xaFreshAt (xaShared + tableWord b) 4096
    (s.onX (fun x => { x with shared := (upto words.flatten.length).foldl put (tclear x.shared (tableWord b) (tableWord b + 4096)) }))
/-- The jobs of the active table. -/
def jobList (s : State) : List Nat := if s.x.active.isSome then (upto 1024).filter (fun j => (jobEnt s j).kind != 0) else []
def jobTiles (e : JobEnt) : List Nat := (upto e.tileCount).map (fun k => e.tileFirst + k)
def jobErgs (e : JobEnt) : List Nat := if e.tileCount = 0 then [] else (upto ((e.tileFirst + e.tileCount - 1) / 72 + 1 - e.tileFirst / 72)).map (fun k => e.tileFirst / 72 + k)
/-- PREP and FORECAST jobs. -/
def jobMain (e : JobEnt) : Bool := e.kind == 1 || e.kind == 2
def jobAdapt (e : JobEnt) : Bool := e.kind == 3 || e.kind == 4
/-- A stage list at a shared SRAM offset (R179): XA, shared offset, length; DESIGN CHOICE (log 58): it ends at an entry of length 0. -/
def stageEntry (s : State) (off : Nat) : Nat × Nat × Nat :=
  let w := fun k => xaGet s (xaShared + off / 8 + k)
  (w 0 % 2 ^ 40, w 1 % 2 ^ 32, w 1 / 2 ^ 32)
def stageList (s : State) (off : Nat) : Nat → List (Nat × Nat × Nat)
  | 0 => []
  | n + 1 => if (stageEntry s off).2.2 = 0 then [] else stageEntry s off :: stageList s (off + 16) n
def stageOf (s : State) (off : Nat) : List (Nat × Nat × Nat) := if off = 0 then [] else stageList s off 4096
/-- One entry of a stage list moved: LPDDR6 to shared SRAM, or back; shared SRAM bytes cost 0.30 pJ each. -/
def stageMove (out : Bool) (j : Nat) (e : Nat × Nat × Nat) (s : State) : State × Bool :=
  let sh := xaShared + e.2.1 / 8
  let n := e.2.2 / 8
  let r := if out then xaCopy (some j) sh (e.1 / 8) n s else xaCopy (some j) (e.1 / 8) sh n s
  (if r.2 then xSpend (some j) (3000 * e.2.2) r.1 else r.1, r.2)
/-- Run a stage list from an offset; the answer says whether every word read, the list's own among them, was delivered. -/
def stageGo (out : Bool) (j : Nat) : Nat → Nat → State → State × Bool
  | 0, _, s => (s, true)
  | n + 1, off, s =>
    let r := eccTouches (some j) [xaShared + off / 8, xaShared + off / 8 + 1] s
    if !r.2 then r
    else if (stageEntry r.1 off).2.2 = 0 then (r.1, true)
    else
      let m := stageMove out j (stageEntry r.1 off) r.1
      if m.2 then stageGo out j n (off + 16) m.1 else m
def stageTry (out : Bool) (j off : Nat) (s : State) : State × Bool := if off = 0 then (s, true) else stageGo out j 4096 off s
/-- Run a stage list of a job; an uncorrectable word ends the run. -/
def stageRun (out : Bool) (j off : Nat) (s : State) : State :=
  let r := stageTry out j off s
  if r.2 then r.1 else runEnd j 2 r.1

/-! ### Fitting (R180, R181) -/

/-- The effective rate of LPDDR6 in bytes per microsecond (R175). -/
def lpRate (s : State) : Nat := match s.fld (F.XMEM_CFG_RATE 0) with | 0 => 921600 | 1 => 1024000 | _ => 1228800
/-- Whole AON cycles, rounded up, that a number of bytes or of tile cycles takes. -/
def aonOfBytes (rate bytes : Nat) : Nat := ceilDiv (bytes * 1048576) (rate * 1000000)
def aonOfCycles (mhz c : Nat) : Nat := ceilDiv (c * 1048576) (mhz * 1000000)
def jobCycles (e : JobEnt) : Nat := e.budget + e.replay + 24
def jobIn (s : State) (e : JobEnt) : Nat := nsum ((stageOf s e.inList).map (fun x => x.2.2))
/-- A job's chain of predecessors, itself first. -/
def chainOf (jobs : List JobEnt) : Nat → Nat → List JobEnt
  | 0, _ => []
  | n + 1, j => match jobs[j]? with
    | some e => e :: (if e.after = 0xFFFF then [] else chainOf jobs n e.after)
    | none => []
/-- W of a chain at an operating point (R181). -/
def chainW (s : State) (mhz : Nat) (c : List JobEnt) : Nat :=
  aonOfCycles mhz (nsum (c.map jobCycles)) + aonOfBytes (lpRate s) (nsum (c.map (jobIn s))) + 5
def safetyChains (jobs : List JobEnt) : List (Nat × List JobEnt) :=
  (upto jobs.length).filterMap (fun j => match jobs[j]? with
    | some e => if e.safety && e.kind != 0 then some (j, chainOf jobs 1024 j) else none
    | none => none)
/-- The first job of a list that a test names. -/
def firstJob (jobs : List JobEnt) (p : Nat → JobEnt → Bool) : Option Nat :=
  (upto jobs.length).find? (fun j => match jobs[j]? with | some e => p j e | none => false)
/-- 02h: an entry that is not well formed. -/
def entBad (jobs : List JobEnt) (j : Nat) (e : JobEnt) : Bool :=
  e.kind != 0 &&
  (decide (4 < e.kind) || e.tileCount == 0 || decide (576 < e.tileFirst + e.tileCount) || decide (2304 < e.pkgFirst + e.pkgCount) ||
   decide (2 ^ 32 ≤ e.budget) || decide (65536 ≤ e.replay) || decide (65536 ≤ e.slots) ||
   (e.after != 0xFFFF && (decide (j ≤ e.after) || (match jobs[e.after]? with | some a => a.kind == 0 | none => true))))
/-- The words of an image that hold its tile's program: their XA word and tile word. -/
def imgProg (g : TileImg) : List (Nat × Nat) := (upto (min g.words (2048 - g.word))).map (fun k => (g.xa / 8 + k, g.word + k))
/-- The bytes of an image (R326). -/
def imgData (s : State) (g : TileImg) : List Nat := (upto g.words).flatMap (fun k => leBytes 8 (xaGet s (g.xa / 8 + k)))
/-- What the images put in word `a` of a tile, if any does. -/
def imgWord (s : State) (m : Manifest) (t a : Nat) : Option Nat :=
  (m.images.find? (fun g => g.tile == t && decide (g.word ≤ a ∧ a < g.word + g.words))).map (fun g => xaGet s (g.xa / 8 + (a - g.word)))
/-- Whether a program in order, with OA as its SETRs leave it, holds an illegal instruction: one of R147, or an XLD or XST whose descriptor in
the tile's images names LPDDR6 (R179). -/
def progIllegal (at' : Nat → Option Nat) : List Nat → Nat → Bool
  | [], _ => false
  | w :: r, oa =>
    let i := xIns w
    if !xLegal i then true
    else if (i.opc == 0x3E || i.opc == 0x3F) && (match at' ((i.aa + oa) % 32768) with | some d => xaMem (d % 2 ^ 40 / 8) == .lpddr | none => false) then true
    else progIllegal at' r (if i.opc = 4 ∧ i.aux = 0 then i.aa * 32768 + i.ab else oa)
/-- 03h: an image whose program holds an illegal instruction. -/
def imgIllegal (s : State) (m : Manifest) (g : TileImg) : Bool := progIllegal (imgWord s m g.tile) ((imgProg g).map (fun p => xaGet s p.1)) 0
/-- 04h: the shapes of R180. -/
def layerOk : LayerKind → Bool
  | .dense k n => decide (k ≤ 4096 ∧ n ≤ 4096)
  | .conv kernel stride cin cout => decide ((kernel = 1 ∨ kernel = 3 ∨ kernel = 5) ∧ (stride = 1 ∨ stride = 2) ∧ cin ≤ 256 ∧ cout ≤ 256)
  | .maxPool w => w == 2
  | .add | .vector => true
  | .other => false
def inputOk : ModelInput → Bool
  | .map r c => r == 32 && c == 32
  | .hotspots p => p == 8
  | .cap | .supplyTemp | .recurrent => true
  | .other => false
def pathOk (p : PathShape) : Bool :=
  decide (p.layers.length ≤ 64) && p.layers.all (fun l => layerOk l.1) && (!p.toBound || (p.layers.reverse.take 2).all (fun l => l.2))
def isDense : LayerKind → Bool | .dense _ _ => true | _ => false
/-- A residual head: its layers, hidden units and format. -/
def headOk (h : List LayerKind × Nat × Nat) : Bool :=
  decide (h.1.length ≤ 3 ∧ h.2.1 ≤ 256 ∧ (h.2.2 = 0 ∨ h.2.2 = 1 ∨ h.2.2 = 2 ∨ h.2.2 = 14)) && h.1.all (fun l => isDense l && layerOk l)
def shapeOk (p : PkgShape) : Bool :=
  p.inputs.all inputOk && p.paths.all pathOk && p.heads.all headOk && decide (p.stateBytes ≤ 65536 ∧ p.heads.length ≤ 1 ∧ p.points ≤ 1024 ∧ p.frames ≤ 8)
def shapesOk (m : Manifest) : Bool := m.shapes.all shapeOk && decide (m.slots ≤ 16)
/-- 05h: two PREP or FORECAST jobs on a tile, or a tile on an erg that is not in RUN. -/
def tilesClash (s : State) (jobs : List JobEnt) (j : Nat) (e : JobEnt) : Bool :=
  e.kind != 0 &&
  ((jobErgs e).any (fun n => (blkGet s (0x80 + n)).state != .run) ||
   (jobMain e && (upto j).any (fun k => match jobs[k]? with
     | some f => jobMain f && decide (f.tileFirst < e.tileFirst + e.tileCount ∧ e.tileFirst < f.tileFirst + f.tileCount)
     | none => false)))
/-- 09h: the number of FORECAST jobs with SAFETY that write an endpoint. -/
def covers (jobs : List JobEnt) (e : Nat) : Nat :=
  (jobs.filter (fun x => x.kind == 2 && x.safety && decide (x.pkgFirst ≤ e ∧ e < x.pkgFirst + x.pkgCount))).length
/-- The endpoints of the row configuration, as the lanes hold it. -/
def rowEndpoints (s : State) : List Nat := capEndpoints (s.lane s.lead).row.caps
/-- 0Bh: a package whose ADAPT and CHECK jobs do not fit in SHARE. -/
def adaptOver (s : State) (mhz share : Nat) (jobs : List JobEnt) (_ : Nat) (e : JobEnt) : Bool :=
  jobAdapt e &&
  decide (share < aonOfCycles mhz (nsum ((jobs.filter (fun x => jobAdapt x && x.head == e.head)).map jobCycles)) +
                  aonOfBytes (lpRate s) (nsum ((jobs.filter (fun x => jobAdapt x && x.head == e.head)).map (jobIn s))))
/-- The checks of R181 in table order: the first failing code with the job it names, 0 when all pass. The row configuration is the one passed
with the LOAD (R194). -/
def fitCheck (m : Manifest) (s : State) : Nat × Nat :=
  let js := m.jobs
  let mhz := oppMhz (capPoint (s.fld F.XPWR_CAP_QW))
  if !imgOk s 0x20 m.img || m.images.any (fun g => sha256Num (imgData s g) != g.digest) then (1, 0)
  else if 1024 < js.length then (2, 0)
  else match firstJob js (entBad js) with
  | some j => (2, j)
  | none =>
    match m.images.find? (imgIllegal s m) with
    | some g => (3, (firstJob js (fun _ e => (jobTiles e).contains g.tile)).getD 0)
    | none =>
      if !shapesOk m then (4, 0)
      else match firstJob js (tilesClash s js) with
      | some j => (5, j)
      | none =>
        if m.tileUse.any (fun u => decide (16384 < u.2.1 ∨ 245760 < u.2.2)) then (6, 0)
        else if 23920640 < m.jobSpace then (7, 0)
        else if 40000000000 < m.modelSpace then (8, 0)
        else if s.x.fitRow.any (fun e => covers js e != 1) then (9, 0)
        else match (safetyChains js).find? (fun c => decide (256 < chainW s mhz c.2)) with
        | some c => (10, c.1)
        | none =>
          match firstJob js (adaptOver s mhz s.x.share js) with
          | some j => (11, j)
          | none => if 1015 - 256 < aonOfBytes (lpRate s) (8 * nsum (m.images.map (fun g => g.words))) then (12, 0) else (0, 0)
/-- XJOB_FIT_USE: the slowest point at which every chain passes, and the largest W there. -/
def fitUse (m : Manifest) (s : State) : Nat × Nat :=
  let worst := fun n => ((safetyChains m.jobs).map (fun c => chainW s (oppMhz n) c.2)).foldl max 0
  let n := ((upto 8).reverse.find? (fun n => decide (worst n ≤ 256))).getD 0
  (n, worst n)
def xResult (r : Nat) (s : State) : State := (s.setFld F.XJOB_CMD_CMD 0).setFld F.XJOB_CMD_RESULT r
/-- A direct write to page 088. -/
def xjobWrite (f : State → State) (s : State) : State := if s.locked 0x88 then s.refuse 0x88 4 else f s
/-- XJOB_CMD LOAD (R191): fitting begins against the inactive table; Hervi passes the row configuration in force (R194). -/
def xjobLoad (m : Manifest) (s : State) : State :=
  if s.x.fitting.isSome || s.x.armed.isSome then xResult 2 s
  else
    let row := rowEndpoints s
    let s := tableWrite (!s.x.tableB) m.jobs (s.onX (fun x => { x with fitting := some m, fitted := none, fitRow := row, share := s.fld F.XJOB_ADAPT_SHARE }))
    xResult 1 (((s.setFld F.XJOB_FIT_STATUS 1).setFld F.XJOB_FIT_CODE 0).setFld F.XJOB_FIT_JOB 0)
def execXjobLoad (m : Manifest) (s : State) : Host.Outcome State Fault Refusal := .next (if s.x.up then xjobWrite (xjobLoad m) s else s)
/-- FITTING_COMPLETE: ACCEPTED, or REFUSED with the first failing code; BLOCK_IRQ bit 8. -/
def fitDone (s : State) : State :=
  match s.x.fitting with
  | none => s
  | some m =>
    let s := (eccTouches none (m.images.flatMap (fun g => (imgProg g).map (fun p => p.1))) s).1
    let c := fitCheck m s
    let u := fitUse m s
    let s := s.onX (fun x => { x with fitting := none, fitted := if c.1 = 0 then some m else none })
    let s := ((s.setFld F.XJOB_FIT_STATUS (if c.1 = 0 then 2 else 3)).setFld F.XJOB_FIT_CODE c.1).setFld F.XJOB_FIT_JOB c.2
    let s := if c.1 = 0 then (s.setFld F.XJOB_FIT_USE_MIN_OPP u.1).setFld F.XJOB_FIT_USE_WIN u.2 else s
    (s.irq 0x88 8).note 1 5 0x88 0xFFFF Ev.fitting c.1
def execFittingComplete (s : State) : Host.Outcome State Fault Refusal := .next (fitDone s)
def xFrame (s : State) : Nat := s.fld F.XJOB_FRAME_COUNT
/-- XJOB_CMD ARM: F at least 2 frames on. -/
def xjobArm (s : State) : State :=
  if s.x.fitting.isSome || s.x.armed.isSome then xResult 2 s
  else if s.x.fitted.isNone then xResult 4 s
  else
    let d := (s.fld F.XJOB_ARM_FRAME_FRAME + 2 ^ 32 - xFrame s) % 2 ^ 32
    if d < 2 ∨ 2 ^ 31 ≤ d then xResult 3 s
    else xResult 1 (s.onX (fun x => { x with armed := some (s.fld F.XJOB_ARM_FRAME_FRAME), copying := false, copied := false }))
def execXjobArm (s : State) : Host.Outcome State Fault Refusal := .next (if s.x.up then xjobWrite xjobArm s else s)
/-- XJOB_CMD CANCEL: before frame F − 1 it withdraws the ARM. -/
def xjobCancel (s : State) : State :=
  match s.x.armed with
  | none => xResult 1 s
  | some f => if (xFrame s + 1) % 2 ^ 32 = f then xResult 3 s else xResult 1 (s.onX (fun x => { x with armed := none }))
def execXjobCancel (s : State) : Host.Outcome State Fault Refusal := .next (if s.x.up then xjobWrite xjobCancel s else s)

/-! ### Jobs in a frame (R177, R178, R183) -/

/-- An erg whose images are not yet reloaded (R184). -/
def ergStale (s : State) (n : Nat) : Bool := bitOf s.x.reload n || bitOf s.x.reloadNew n
/-- An erg on which no job is placed at the boundary: not in RUN, under FORCE_SAFE, or its images not yet reloaded (R177, R184). -/
def ergClosed (s : State) (n : Nat) : Bool := (blkGet s (0x80 + n)).state != .run || (blkGet s (0x80 + n)).safe || ergStale s n
/-- An erg on which a job placed in this frame cannot start: one in STOPPING still finishes the frame's jobs (R165). -/
def ergBarred (s : State) (n : Nat) : Bool := (ergClosed s n && (blkGet s (0x80 + n)).state != .stopping) || (blkGet s (0x80 + n)).safe || ergStale s n
def setState (j st : Nat) (s : State) : State := s.modJob j (fun r => { r with state := st })
/-- A job that cannot be placed (fail code 6h), or whose predecessor did not reach DONE (5h), and every job that waits on it. -/
def notPlaced (code : Nat) : Nat → Nat → State → State
  | 0, _, s => s
  | n + 1, j, s =>
    let s := s.modJob j (fun r => { r with state := 5, failCode := code })
    ((jobList s).filter (fun k => (jobEnt s k).after == j && (s.xjob k).state == 1)).foldl (fun s k => notPlaced 5 n k s) s
/-- Put a job's program on its tiles: word 0, nothing outstanding, cycle 0; what the weight buffers hold stays. -/
def tilesStart (j : Nat) (e : JobEnt) (s : State) : State :=
  let s := (jobTiles e).foldl (fun s t =>
    let x := s.tile t
    s.setTile t { x with running := true, bar := false, ended := false, stopped := false, orderBad := none, job := j, pc := 0, outst := [],
                         replay := [], verd := 0, cyc := 0, arrFree := 0, wFree := 0, vecFree := 0, xferFree := 0, accRdy := [],
                         wb0 := { x.wb0 with ready := 0, busy := 0 }, wb1 := { x.wb1 with ready := 0, busy := 0 } }) s
  (jobErgs e).foldl (fun s n => ergBusy n s) s
def tilesStop (e : JobEnt) (ended : Bool) (s : State) : State :=
  let s := (jobTiles e).foldl (fun s t => s.setTile t { s.tile t with running := false, bar := false, ended := ended, stopped := false, outst := [], replay := [] }) s
  (jobErgs e).foldl (fun s n => ergBusy n s) s
/-- A run's static energy, over the tile cycles its slowest tile has counted (R67). -/
def jobCharge (j : Nat) (s : State) : State :=
  let e := jobEnt s j
  let c := maxOfN ((jobTiles e).map (fun t => if (s.tile t).job = j then (s.tile t).cyc else 0))
  let st := jobStatic (jobErgs e).length c s
  s.modJob j (fun r => { r with energy := r.energy + st })
/-- A job's run is over: its tiles stop. -/
def jobStop (j : Nat) (ended : Bool) (s : State) : State := tilesStop (jobEnt s j) ended (jobCharge j s)
/-- A run of a job: its entry of the table is read, its stage-in list runs unless it ran before the boundary (R20), then its program starts.
XPWR_JOB_ENERGY is that of the last run, so a restart counts from 0. -/
def runStart (j : Nat) (s : State) : State :=
  let w := xaShared + tableWord s.x.tableB + 4 * j
  let r := eccTouches (some j) ((upto 4).map (fun k => w + k))
    (s.modJob j (fun r => { r with state := 2, mism := 0, endCause := none, staged := false, energy := if r.staged then r.energy else 0 }))
  let e := jobEnt s j
  let s' := if r.2 then r.1 else runEnd j 2 r.1
  tilesStart j e (if (s.xjob j).staged then s' else stageRun false j e.inList s')
/-- Whether a job may start now: waiting, its predecessor DONE, and an ADAPT or CHECK job only in an adaptation frame (R185). -/
def mayStart (s : State) (j : Nat) : Bool :=
  let e := jobEnt s j
  s.x.frameOn && quadsRun s && (s.xjob j).state == 1 && (e.after == 0xFFFF || (s.xjob e.after).state == 3) && (jobMain e || (jobAdapt e && s.x.adapting))
def jobStart (j : Nat) (s : State) : State :=
  if !mayStart s j then s
  else if (jobErgs (jobEnt s j)).any (ergBarred s) then notPlaced 6 1024 j s
  else runStart j s
def execJobStart (job : Fin 1024) (s : State) : Host.Outcome State Fault Refusal := .next (jobStart job.val s)
/-- The verdict of a CHECK job on its package's candidate (R186): layer structure, envelope, mean squared error. -/
def candidateCheck (pkg : Nat) (ok : Bool) (s : State) : State :=
  if ok then
    (s.satFld F.XJOB_ADAPT_STAT_ACCEPT 1).onX (fun x => { x with heads := tmod {} x.heads pkg (fun h => { h with steps := 0, rejects := 0, accepted := true }) })
  else
    let f := xFrame s
    (s.satFld F.XJOB_ADAPT_STAT_REJECT 1).onX (fun x => { x with heads := tmod {} x.heads pkg (fun h =>
      if 15 ≤ h.rejects then { h with steps := 0, rejects := 0, held := some (f + 3686400) } else { h with steps := 0, rejects := h.rejects + 1 }) })
/-- JOB_DONE: every tile has reached END; the stage-out list runs, the written copy of the recurrent state is committed, jobs after it start.
`check` is what a CHECK job found: layer structure, envelope, mean squared error. -/
def jobDone (j : Nat) (check : Bool × Bool × Bool) (s : State) : State :=
  let e := jobEnt s j
  let r := s.xjob j
  if !quadsRun s ∨ r.state ≠ 2 ∨ r.endCause.isSome ∨ !((jobTiles e).all (fun t => (s.tile t).ended && (s.tile t).job == j)) then s
  else
    let s := stageRun true j e.outList s
    if (s.xjob j).endCause.isSome then s
    else
      let s := jobStop j true (s.modJob j (fun r => { r with state := 3, copy := !r.copy }))
      let s := if e.kind = 3 then s.onX (fun x => { x with heads := tmod {} x.heads e.head (fun h => { h with steps := h.steps + 1 }) }) else s
      let s := if e.kind = 4 then candidateCheck e.head (check.1 && check.2.1 && check.2.2) s else s
      ((jobList s).filter (fun k => (jobEnt s k).after == j)).foldl (fun s k => jobStart k s) s
def execJobDone (job : Fin 1024) (layerOk envOk mseOk : Bool) (s : State) : Host.Outcome State Fault Refusal :=
  .next (jobDone job.val (layerOk, envOk, mseOk) s)
/-- Copy the images of the tiles a test names from the model region into tile SRAM. -/
def loadImages (m : Manifest) (p : Nat → Bool) (s : State) : State × Bool :=
  (m.images.filter (fun g => p g.tile)).foldl (fun a g =>
    let r := xaCopy none (g.xa / 8) (xaTile + 32768 * g.tile + g.word) g.words a.1; (r.1, a.2 && r.2)) (s, true)
/-- JOB_RUN_END: after a first run the job restarts; after a restarted run, or an illegal instruction, it is FAILED (R183). -/
def jobRunEnd (j : Nat) (s : State) : State :=
  let e := jobEnt s j
  let r := s.xjob j
  match r.endCause with
  | none => s
  | some c =>
    if r.state ≠ 2 then s
    else if c ≠ 3 ∧ ¬ r.restarted then
      if !quadsRun s then s else
      let s := if c = 18 then (match s.x.active with | some m => (loadImages m (fun t => (jobTiles e).contains t) s).1 | none => s) else s
      runStart j (s.modJob j (fun r => { r with restarted := true }))
    else
      let s := jobStop j false (s.modJob j (fun r => { r with state := 4, failCode := c % 16 }))
      let s := (s.irq 0x88 9).note 1 5 0x88 j Ev.jobFailed (c % 16)
      ((jobList s).filter (fun k => (jobEnt s k).after == j && (s.xjob k).state == 1)).foldl (fun s k => notPlaced 5 1024 k s) s
def execJobRunEnd (job : Fin 1024) (s : State) : Host.Outcome State Fault Refusal := .next (jobRunEnd job.val s)

/-! ### The advisory (R187–R190) -/

def advBuf (s : State) : Nat := xaShared + (if xFrame s % 2 = 0 then 0x910000 else 0x920000) / 8
/-- The job that writes an endpoint's record. -/
def jobOfEndpoint (s : State) (e : Nat) : Option Nat :=
  (jobList s).find? (fun j => let x := jobEnt s j; x.kind == 2 && x.safety && decide (x.pkgFirst ≤ e ∧ e < x.pkgFirst + x.pkgCount))
def inf32 : Int := 0x7FFFFFFF
/-- The record of a configured endpoint (R189): bounds and PEAK as the job left them in the advisory buffer, flags and ages as Xoide holds
them. -/
def advRecOf (s : State) (e : Nat) : AdvRec :=
  let w := fun k => xaGet s (advBuf s + 12 + 3 * e + k)
  let hi := sx 32 (w 0)
  let hi3 := sx 32 (w 1)
  let rise := sx 32 (w 1 / 2 ^ 32)
  let h := tget {} s.x.heads e
  let age := tget 0xFFFF s.x.mapAge e
  let job := match jobOfEndpoint s e with | some j => s.xjob j | none => {}
  let valid := job.state == 3 && decide (age ≤ 2)
  let restarted := job.state == 4 || job.restarted
  let held := match h.held with | some f => decide (xFrame s < f) | none => false
  let flags := b2n valid + 2 * b2n (decide (0 < h.gen)) + 4 * b2n (decide (0 < age)) + 8 * b2n held +
    16 * b2n (hi == inf32 || hi3 == inf32 || rise == inf32) + 32 * b2n restarted
  { hi := hi, lo := sx 32 (w 0 / 2 ^ 32), hi3 := hi3, rise := rise, peak := w 2 % 8192, flags := flags, mapAge := age, headGen := h.gen % 65536 }
def i32Bytes (x : Int) : List Nat := leBytes 4 (ux 32 x)
def advRecBytes (r : AdvRec) : List Nat :=
  i32Bytes r.hi ++ i32Bytes r.lo ++ i32Bytes r.hi3 ++ i32Bytes r.rise ++ leBytes 2 r.peak ++ leBytes 2 r.flags ++ leBytes 2 r.mapAge ++ leBytes 2 r.headGen
/-- The bytes of an advisory before its CRC (R188). -/
def advBytes (a : Advisory) : List Nat :=
  [1, 0x40] ++ leBytes 2 2304 ++ leBytes 4 a.frame ++ leBytes 4 a.setId ++ leBytes 4 a.setGen ++ leBytes 4 a.sec ++ leBytes 4 a.ns ++ leBytes 2 a.flags ++
  leBytes 2 a.nvalid ++ [0, 0, 0, 0] ++ (upto 16).flatMap (fun k => i32Bytes (lget 0 a.slots k)) ++
  (upto 2304).flatMap (fun e => advRecBytes (tget {} a.recs e))
/-- The PTP time of the boundary of the frame before the present one. -/
def prevFrameTime (t : TimeSt) : Nat × Nat :=
  let n := t.sec * 8192 + t.frame * 8 - 8
  (n / 8192 % 2 ^ 32, n % 8192 * 1000000000 / 8192)
/-- The endpoints with a record (R189, R194): in the row configuration, now and as it was passed with the active set. -/
def advEndpoints (s : State) : List Nat := (rowEndpoints s).filter (fun e => s.x.actRow.contains e)
/-- The advisory on the maps of the frame before. -/
def advBuild (late : Bool) (s : State) : Advisory :=
  let recs := (advEndpoints s).foldl (fun t e => tset {} t e (advRecOf s e)) []
  let slotJobs := (jobList s).filter (fun j => (s.xjob j).state == 3)
  let slot := fun k => if slotJobs.any (fun j => bitOf (jobEnt s j).slots k) then sx 32 (xaGet s (advBuf s + 4 + k / 2) / 2 ^ (32 * (k % 2))) else 0
  let valid := (recs.filter (fun (x : Nat × AdvRec) => bitOf x.2.flags 0)).length
  let partial' := decide (valid < (rowEndpoints s).length)
  let (sec, ns) := prevFrameTime s.time
  let a : Advisory := { frame := (xFrame s + 2 ^ 32 - 1) % 2 ^ 32, setId := s.fld F.XJOB_ACTIVE_SET_ID, setGen := s.x.setGen, sec := sec, ns := ns,
                        flags := b2n partial' + 2 * b2n late + 4 * b2n s.x.underfit, nvalid := valid, slots := (upto 16).map slot, recs := recs, crc := 0 }
  { a with crc := crc32 (advBytes a) }
def jobEnded (st : Nat) : Bool := decide (3 ≤ st)
/-- Every job with SAFETY is DONE, FAILED, NOT_PLACED or abandoned. -/
def safetyEnded (s : State) : Bool := (jobList s).all (fun j => !(jobEnt s j).safety || jobEnded (s.xjob j).state)
/-- Reload of the active set's images into the ergs that came back to RUN, after the advisory (R184); an erg waits on where a word could not be
read. -/
def ergReload (s : State) : State :=
  match s.x.active with
  | some m =>
    if s.x.reload = 0 then s
    else
      let n := s.x.reload
      let r := loadImages m (fun t => bitOf n (t / 72)) s
      if r.2 then r.1.onX (fun x => { x with reload := 0 }) else r.1
  | none => s
/-- ADVISORY_POST: posting ends in AON cycle `aon` of the frame (R190); afterwards ergs that came back are reloaded (R184). None is posted while
AONCLK is lost (R14). The advisory buffer is read through the decoder; DESIGN CHOICE (log 68): an uncorrectable word of it is recorded and its
stored bits are posted, since the spec names no other effect on a reader that is no job. -/
def advPost (aon : Nat) (s : State) : State :=
  if s.pwr.aonLost || !(s.x.frameOn && !s.x.posted && s.x.active.isSome && !s.x.barred && quadsRun s && safetyEnded s) then s
  else
    let late := decide (255 < aon)
    let s := (eccRange none (advBuf s) 8192 s).1
    let a := advBuild late s
    let s := s.onX (fun x => { x with adv := some a, posted := true })
    let s := ((s.setFld F.XJOB_FRAME_STAT_POST_AON aon).setFld F.XJOB_FRAME_STAT_LATE (b2n late)).setFld F.XJOB_FRAME_STAT_PARTIAL (a.flags % 2)
    let s := s.setFld F.XJOB_ADV_CNT_POSTED (s.fld F.XJOB_ADV_CNT_POSTED + 1)
    let s := if late then (s.irq 0x88 11).note 1 5 0x88 0xFFFF Ev.advLate aon else s
    ergReload (s.onXopp (fun x => { x with overrun := false }))
def execAdvisoryPost (aon : Fin 1024) (s : State) : Host.Outcome State Fault Refusal := .next (advPost aon.val s)

/-! ### Adaptation (R185) -/

/-- The package whose turn it is: the next by index with an ADAPT job, not held. -/
def nextPackage (s : State) : Option Nat :=
  let ps := ((jobList s).filter (fun j => (jobEnt s j).kind == 3)).map (fun j => (jobEnt s j).head)
  let free := ps.filter (fun p => match (tget {} s.x.heads p).held with | some f => decide (f ≤ xFrame s) | none => true)
  match free.filter (fun p => decide (s.x.nextPkg ≤ p)) with
  | p :: r => some (r.foldl min p)
  | [] => match free with | p :: r => some (r.foldl min p) | [] => none
def adaptAllowed (s : State) : Bool :=
  s.fld F.XJOB_ADAPT_EN == 1 && s.x.frameOn && s.x.posted && !s.x.adapting && !s.x.adaptDone && !s.x.slowed &&
  (jobList s).all (fun j => let r := s.xjob j; r.state != 4 && r.state != 5 && !r.restarted) &&
  (match s.x.lastAdapt with | some f => decide (s.fld F.XJOB_ADAPT_EVERY ≤ (xFrame s + 2 ^ 32 - f) % 2 ^ 32) | none => true) &&
  (match s.x.armed with | some f => (xFrame s + 1) % 2 ^ 32 != f | none => true)
/-- The residual head of a package, as the manifest places it. -/
def headMap (m : Manifest) (p : Nat) : Option HeadMap := m.heads.find? (fun h => h.pkg == p)
/-- The steps a package's model declares for a candidate (R186). -/
def headSteps (m : Manifest) (p : Nat) : Nat := match headMap m p with | some h => h.steps | none => 0
/-- A copy of a head in tile SRAM, as an XA word. -/
def headAt (h : HeadMap) (second : Bool) : Nat := xaTile + 32768 * h.tile + (if second then h.copy1 else h.copy0)
/-- ADAPTATION_START: the ADAPT job of the package in turn, or its CHECK job once the candidate has had its steps (R185, R186). -/
def adaptStart (s : State) : State :=
  if !adaptAllowed s then s
  else
    match nextPackage s, s.x.active with
    | some p, some m =>
      let want := if headSteps m p ≤ (tget {} s.x.heads p).steps then 4 else 3
      let s := s.onX (fun x => { x with adapting := true, adaptDone := true, lastAdapt := some (xFrame s), nextPkg := p + 1 })
      ((jobList s).filter (fun j => (jobEnt s j).kind == want && (jobEnt s j).head == p)).foldl (fun s j => jobStart j s) s
    | _, _ => s
def execAdaptationStart (s : State) : Host.Outcome State Fault Refusal := .next (adaptStart s)
/-- A job still running is stopped and its work discarded. -/
def jobAbandon (j : Nat) (s : State) : State := jobStop j false (s.modJob j (fun r => { r with state := 6 }))
def adaptStop (s : State) : State :=
  let s := ((jobList s).filter (fun j => jobAdapt (jobEnt s j) && (s.xjob j).state == 2)).foldl (fun s j => jobAbandon j s) s
  s.onX (fun x => { x with adapting := false })
def execAdaptationStop (s : State) : Host.Outcome State Fault Refusal := .next (if s.x.adapting then adaptStop s else s)

/-! ### Set swap (R191, R192) -/

def swapDueNext (s : State) : Bool := match s.x.armed with | some f => (xFrame s + 1) % 2 ^ 32 == f | none => false
/-- The swap to frame f is abandoned: the old table stays, its images come back in that frame's window. -/
def swapAbandon (f : Nat) (s : State) : State :=
  let s := s.onX (fun x => { x with armed := none, copyBack := some f, copying := false, copied := false })
  (((s.setFld F.XJOB_CMD_RESULT 5).irq 0x88 12)).note 1 5 0x88 0xFFFF Ev.swapAbandoned 0
/-- SWAP_WINDOW: after the advisory of frame F − 1 the new set's images are copied; in the frame after an abandoned swap, the old set's. -/
def swapWindow (s : State) : State :=
  if s.x.copyBack = some (xFrame s) then
    match s.x.active with
    | some m => (loadImages m (fun _ => true) s).1
    | none => s
  else if swapDueNext s && (s.x.posted || s.x.active.isNone) && quadsRun s && !s.x.copying then
    match s.x.fitted with
    | some m =>
      let r := loadImages m (fun _ => true) (s.onX (fun x => { x with copying := true }))
      if r.2 && m.images.all (fun g => (blkGet s (0x80 + g.tile / 72)).state == .run) then r.1.onX (fun x => { x with copied := true, reloadNew := 0 }) else r.1
    | none => s
  else s
def execSwapWindow (s : State) : Host.Outcome State Fault Refusal := .next (swapWindow s)
/-- SWAP_ABANDON: the copy is not complete at AON cycle 1015, or a quadrant has left RUN. -/
def execSwapAbandon (s : State) : Host.Outcome State Fault Refusal :=
  .next (if swapDueNext s && (!s.x.copied || !quadsRun s) then swapAbandon ((xFrame s + 1) % 2 ^ 32) s else s)

/-! ### The frame boundary (R20, R21, R168, R177, R191) -/

/-- Unfinished jobs are abandoned; without an advisory the frame counts as missed. -/
def frameClose (s : State) : State :=
  if !s.x.frameOn then s
  else
    let open' := (jobList s).filter (fun j => let st := (s.xjob j).state; st == 2 || (st == 1 && jobMain (jobEnt s j)))
    let ab := !open'.isEmpty || s.x.thermStop
    let s := open'.foldl (fun s j => jobAbandon j s) s
    let s := if !open'.isEmpty then (s.irq 0x88 10).note 1 5 0x88 0xFFFF Ev.frameAbandoned (xFrame s) else s
    let s := s.setFld F.XJOB_FRAME_STAT_ABANDONED (b2n ab)
    if s.x.posted || s.x.active.isNone then s else s.satFld F.XJOB_ADV_CNT_MISSED 1
/-- What XJOB_JSTAT shows of a job's last frame, and the runs of FAILED frames. -/
def frameStats (s : State) : State :=
  let js := jobList s
  let failed := js.filter (fun j => (s.xjob j).state == 4)
  let s := s.setFld F.XJOB_FRAME_STAT_FAILED failed.length
  let s := s.onX (fun x => { x with jlast := js.foldl (fun t j => let r := tget {} x.jobs j
    tset 0 t j (r.state + 8 * b2n r.restarted + 256 * r.failCode + 65536 * r.replays)) [] })
  let s := js.foldl (fun s j => s.modJob j (fun r => { r with failRun := if r.state = 4 then min 255 (r.failRun + 1) else 0 })) s
  let rep := js.filter (fun j => (s.xjob j).failRun == 8)
  let s := if (js.any (fun j => decide (8 ≤ (s.xjob j).failRun))) then s.setFld F.XJOB_FRAME_STAT_REPEAT_FAIL 1 else s.setFld F.XJOB_FRAME_STAT_REPEAT_FAIL 0
  rep.foldl (fun s j => s.note 1 5 0x88 j Ev.jobRepeatFail j) s
/-- Mean of valid codes; FFFFh without any. -/
def decMean (sum num : Nat) : Nat := if num = 0 then 0xFFFF else sum / num + b2n (sum % num != 0 && Config.roundUp sum num)
/-- One endpoint's frame in its decimated group: both codes of each hot spot's pair, points 32i. -/
def decAdd (pts : Nat → Nat) (summ : List Nat) (d : DecAcc) : DecAcc :=
  let codes := fun h => ([lget 0xFFFF summ (2 * h), lget 0xFFFF summ (2 * h + 1)]).filter (fun c => c != 0xFFFF)
  { hi := (upto 8).map (fun h => (codes h).foldl max (lget 0 d.hi h)), lo := (upto 8).map (fun h => (codes h).foldl min (lget 0xFFFF d.lo h)),
    sum := (upto 8).map (fun h => lget 0 d.sum h + nsum (codes h)), num := (upto 8).map (fun h => lget 0 d.num h + (codes h).length),
    psum := (upto 32).map (fun i => lget 0 d.psum i + (if pts (32 * i) = 0xFFFF then 0 else pts (32 * i))),
    pnum := (upto 32).map (fun i => lget 0 d.pnum i + b2n (pts (32 * i) != 0xFFFF)), frames := d.frames + 1 }
/-- The 16 words of a decimated record (R168). -/
def decWordsOf (d : DecAcc) : List Nat :=
  let c := (upto 8).flatMap (fun h => if lget 0 d.num h = 0 then [0xFFFF, 0xFFFF, 0xFFFF] else [lget 0 d.hi h, lget 0 d.lo h, decMean (lget 0 d.sum h) (lget 0 d.num h)])
    ++ (upto 32).map (fun i => decMean (lget 0 d.psum i) (lget 0 d.pnum i)) ++ [d.frames]
  (upto 16).map (fun k => nsum ((upto 4).map (fun i => lget 0 c (4 * k + i) * 2 ^ (16 * i))))
/-- HISTORY_WRITE: the closed buffer is read through the decoder; frame g's maps go to their full-rate slot and to the decimated group, whose
record set is stored when its 1,024 frames are complete. Nothing is stored while a quadrant is not in RUN. -/
def historyWrite (g : Nat) (second : Bool) (buf : Tbl Nat) (arr : Tbl Nat) (summ : Tbl (List Nat)) (s : State) : State :=
  let ok := quadsRun s
  let slot := g % 20480
  let s := (eccRange none (xaShared + (if second then ingWords else 0)) ingWords s).1
  let s := if ok then lpCount none true (slot * ingWords) ingWords (xaFreshAt (slot * ingWords) ingWords (s.onX (fun x => { x with hist := tput x.hist slot (some buf) }))) else s
  let full := arr.filter (fun e => e.2 == 3)
  let decs := full.foldl (fun t e => tmod {} t e.1 (decAdd (fun i => tget 0xFFFF buf (1024 * e.1 + i)) (tget [] summ e.1))) s.x.decs
  if g % 1024 = 1023 then
    let k := g / 1024 % 86400
    let words := decs.foldl (fun t e => (upto 16).foldl (fun t i => tset (decDef i) t (16 * e.1 + i) (lget 0 (decWordsOf e.2) i)) t) []
    let s := if ok then lpCount none true (decBase + k * decWords) decWords (xaFreshAt (decBase + k * decWords) decWords (s.onX (fun x => { x with dhist := tput x.dhist k (some words) }))) else s
    s.onX (fun x => { x with decs := [] })
  else s.onX (fun x => { x with decs := decs })
/-- BUFFER_SWAP and the history: the closed buffer, its arrivals, the ages of the maps. -/
def bufferSwap (g : Nat) (s : State) : State :=
  let i := s.ingest
  let closed := if i.sel then i.buf1 else i.buf0
  let s := historyWrite g i.sel closed i.arr i.summ s
  let ages := (rowEndpoints s).foldl (fun t e => let a := tget 0xFFFF s.x.mapAge e
    tset 0xFFFF t e (if tget 0 i.arr e = 3 then 0 else min 0xFFFF (a + 1))) []
  { s.onX (fun x => { x with mapAge := ages }) with
    ingest := if i.sel then { i with sel := false, buf0 := [], arr := [], summ := [] } else { i with sel := true, buf1 := [], arr := [], summ := [] } }
  |> xaFreshAt (xaShared + (if i.sel then 0 else ingWords)) ingWords
/-- An accepted candidate becomes the head in use (R186): the spare copy is now the one in use, its words are written to the adaptation state in
LPDDR6, the generation rises. -/
def headTake (m : Option Manifest) (p : Nat) (s : State) : State :=
  let h := tget {} s.x.heads p
  let s := match m.bind (fun m => headMap m p) with
    | some w => (xaCopy none (headAt w (!h.copy)) (w.xa / 8) w.words s).1
    | none => s
  s.onX (fun x => { x with heads := tset {} x.heads p { h with accepted := false, copy := !h.copy, gen := h.gen + 1 } })
/-- Every accepted head comes into use. -/
def headsTake (s : State) : State := ((s.x.heads.filter (fun h => h.2.accepted)).map (fun h => h.1)).foldl (fun s p => headTake s.x.active p s) s
/-- SET_SWAP_ACTIVATE: at the boundary of frame F the copied set becomes active and accepted heads are discarded; otherwise accepted heads come
into use. -/
def swapActivate (s : State) : State :=
  match s.x.armed with
  | none => headsTake s
  | some f =>
    if xFrame s ≠ f then headsTake s
    else if s.x.copied && quadsRun s then
      let id := match s.x.fitted with | some m => m.setId | none => 0
      let s := s.onX (fun x => { x with armed := none, active := x.fitted, fitted := none, actRow := x.fitRow, tableB := !x.tableB, copying := false, copied := false,
                                        setGen := x.setGen + 1, jobs := [], heads := [], reload := 0, nextPkg := 0 })
      (((s.setFld F.XJOB_ACTIVE_SET_ID id).setFld F.XJOB_CMD_RESULT 1).irq 0x88 12).note 1 5 0x88 0xFFFF Ev.swapDone id
    else headsTake (swapAbandon f s)
/-- The frame's jobs: waiting, not placed, or started; none is placed in the frame that copies an abandoned swap's old images back. -/
def frameOpen (s : State) : State :=
  let js := jobList s
  let s := s.onX (fun x => { x with jobs := js.foldl (fun t j => let r := tget {} x.jobs j
    tset {} t j { r with state := 1, restarted := false, failCode := 0, replays := 0, mism := 0, endCause := none }) [] })
  let slow := decide (s.fld F.XPWR_OPP_REQ < max s.xopp.capLim (max s.xopp.thermLim s.xopp.supplyLim))
  let under := s.x.active.isSome && decide (s.fld F.XJOB_FIT_USE_MIN_OPP < s.xopp.cur)
  let back := s.x.copyBack == some (xFrame s)
  let s := s.onX (fun x => { x with frameOn := true, barred := back, posted := false, slowed := slow, underfit := under, adapting := false, adaptDone := false, adv := none })
  if !quadsRun s then s
  else if back then js.foldl (fun s j => s.modJob j (fun r => { r with state := 5 })) s
  else
    let closed := js.filter (fun j => (jobErgs (jobEnt s j)).any (ergClosed s))
    let s := closed.foldl (fun s j => notPlaced 6 1024 j s) s
    (js.filter (fun j => jobMain (jobEnt s j) && (jobEnt s j).after == 0xFFFF)).foldl (fun s j => jobStart j s) s
/-- FRAME_BOUNDARY of frame g + 1; Xoide's frame is taken from AONCLK and stands while that is lost (R14). -/
def frameBoundary (s : State) : State :=
  let h := s.hopp
  let s := s.onHopp (fun _ => { h with overrun := !h.frameDone || h.overrun, frameDone := false })
  if !s.x.up || s.pwr.aonLost then s
  else
    let g := xFrame s
    let s := frameStats (frameClose s)
    let s := s.setFld F.XJOB_FRAME_COUNT ((g + 1) % 2 ^ 32)
    let s := bufferSwap g (swapActivate s)
    let s := (s.setFld F.XPWR_FRAME_ENERGY_E (s.x.eFrame / 10000000000)).onX (fun x => { x with eFrame := 0, thermStop := false })
    let s := (s.onXopp (fun x => { x with overrun := false })).onX (fun x => { x with reload := x.reload ||| x.reloadNew, reloadNew := 0 })
    frameOpen s
def execFrameBoundary (s : State) : Host.Outcome State Fault Refusal := .next (frameBoundary s)

/-! ### Sleep, start and stop (R51, R62, R165) -/

def ergBusyNow (s : State) (n : Nat) : Bool :=
  (upto 72).any (fun l => (s.tile (72 * n + l)).running) ||
  (s.x.frameOn && (jobList s).any (fun j => let st := (s.xjob j).state; (jobErgs (jobEnt s j)).contains n && (st == 2 || (st == 1 && jobMain (jobEnt s j)))))
/-- In frame F − 1 of an armed swap, and in the frame that copies an abandoned swap's old images back, the ergs stay awake for the swap window
(R191, R192). -/
def swapHolds (s : State) : Bool := swapDueNext s || s.x.copyBack == some (xFrame s)
/-- ERG_SLEEP: an erg with no job left stops its clock and leaves the ledger; after the last one the on-die network stops and every quadrant
enters self-refresh (R51). An erg in STOPPING reaches OFF with it (R165). -/
def ergSleep (n : Nat) (s : State) : State :=
  let k := 0x80 + n
  let st := (blkGet s k).state
  if (st ≠ .run ∧ st ≠ .stopping) ∨ ergBusyNow s n ∨ swapHolds s then s
  else if st = .stopping then blockStopComplete k (ergAsleep n s)
  else if s.fld (F.ERG_STAT_AWAKE n) = 0 then s else ergAsleep n s
def execErgSleep (erg : Fin 8) (s : State) : Host.Outcome State Fault Refusal := .next (if s.x.up then ergSleep erg.val s else s)
/-- ERG_START_COMPLETE: a STARTING erg with its grant has been cleared and tested; `bad` is the local tile that failed. -/
def ergStarted (n : Nat) (bad : Option (Fin 72)) (s : State) : State :=
  let k := 0x80 + n
  let b := blkGet s k
  if b.state ≠ .starting ∨ ¬ b.granted then s
  else match bad with
  | none => blkMove s k .run
  | some l => (((blockFault k s).setFld (F.ERG_STAT_START_FAIL n) 1).setFld (F.ERG_STAT_BAD_TILE n) l.val).setFld (F.ERG_STAT_FAULT_CAUSE n) 2
def execErgStartComplete (erg : Fin 8) (bad : Option (Fin 72)) (s : State) : Host.Outcome State Fault Refusal := .next (ergStarted erg.val bad s)
/-- ERG_PLL_UNLOCK: an awake erg whose PLL loses lock is in FAULT. -/
def ergUnlock (n : Nat) (s : State) : State :=
  if s.fld (F.ERG_STAT_AWAKE n) = 1 then ((blockFault (0x80 + n) s).setFld (F.ERG_STAT_FAULT_CAUSE n) 1).note 1 5 (0x80 + n) 0xFFFF Ev.ergFault 1 else s
/-- FORCE_SAFE of an erg (R35, R165): it goes to sleep at once, and a job of the frame that has a tile on it is not placed. -/
def ergSafe (n : Nat) (s : State) : State :=
  let mine := (jobList s).filter (fun j => (jobErgs (jobEnt s j)).contains n && ((s.xjob j).state == 1 || (s.xjob j).state == 2))
  ergAsleep n (mine.foldl (fun s j => notPlaced 6 1024 j (jobStop j false s)) s)
/-- FORCE_SAFE written (R35). -/
def forceSafe (k : Nat) (on : Bool) (s : State) : State :=
  let s := blockForceSafe k on s
  if on ∧ 0x80 ≤ k ∧ k ≤ 0x87 then ergSafe (k - 0x80) s else s
/-- Whether a job may be staged before the boundary (R20): it starts at the boundary, its work of the present frame has ended, every erg of it
is clocked and open, no swap replaces the table, and it has not been staged yet. -/
def mayStage (s : State) (j : Nat) : Bool :=
  let e := jobEnt s j
  jobMain e && e.after == 0xFFFF && (s.xjob j).state != 1 && (s.xjob j).state != 2 && !(s.xjob j).staged &&
    (jobErgs e).all (fun n => !ergClosed s n && s.fld (F.ERG_STAT_AWAKE n) == 1)
/-- R20 step 2: in the last tick of a frame an erg that runs stages the weights and state of the jobs of the next frame: the stage-in lists of the
jobs that start at its boundary, whose ergs all run. A list with an uncorrectable word runs again with its job. -/
def ergStage (s : State) : State :=
  if s.x.up && s.x.active.isSome && quadsRun s && s.time.tick == 7 && !swapHolds s then
    ((jobList s).filter (mayStage s)).foldl (fun s j =>
      let r := stageTry false j (jobEnt s j).inList (s.modJob j (fun r => { r with energy := 0 }))
      if r.2 then r.1.modJob j (fun r => { r with staged := true }) else r.1) s
  else s
/-- DOMAIN_WAKE_COMPLETE: the domain runs; accesses that waited for it are performed (R313), and an erg stages its next jobs (R20). -/
def domWake (n : Nat) (s : State) : State :=
  let s := memServe (domWakeOnly n s)
  if 21 ≤ n ∧ n ≤ 28 then ergStage s else s
def execDomainWakeComplete (dom : Fin 41) (s : State) : Host.Outcome State Fault Refusal := .next (domWake dom.val s)
def execErgPllUnlock (erg : Fin 8) (s : State) : Host.Outcome State Fault Refusal := .next (ergUnlock erg.val s)
/-- ERG_THERMAL_STOP: at 115 °C every erg stops and the frame's jobs are abandoned; the ergs start again in the next frame at OPP7. -/
def thermalStop (t : Nat) (s : State) : State :=
  if t < 115 then s
  else
    let js := (jobList s).filter (fun j => let st := (s.xjob j).state; st == 1 || st == 2)
    let s := js.foldl (fun s j => jobAbandon j s) s
    let s := if js.isEmpty then s else (s.setFld F.XJOB_FRAME_STAT_ABANDONED 1).irq 0x88 10
    let s := (s.onX (fun x => { x with thermStop := true, barred := true })).onXopp (fun x => { x with tMax := t, cur := 7, target := 7, stepping := none })
    let s := (upto 8).foldl (fun s n => ergAsleep n s) s
    oppShow (s.note 1 5 0x89 0xFFFF Ev.thermalStop t)
def execErgThermalStop (tMax : Nat) (s : State) : Host.Outcome State Fault Refusal := .next (thermalStop tMax s)

end Sys2Proof.Machine
end

