-- ==== Sys2Proof/Machine/XReset.lean ====
section
/-! DEFINITION. The reset of Xoide (R359) and the loss of the package rail (R58, R358). -/
namespace Sys2Proof.Machine
open Sys2Proof

def xPages : List Nat := (upto 16).map (fun k => 0x80 + k)
/-- Pages back to their reset words; PG_GATE.LOCK stays (R364). -/
def pagesReset (ps : List Nat) (rf : RegFile) : RegFile :=
  ps.foldl (fun r p => rset (clearPage r p) (hdrGate p) (rget r (hdrGate p))) rf
/-- Accesses of Hervi that a reset of Xoide loses stay outstanding until they time out (R312). -/
def ucieLost (u : UcieSt) : UcieSt :=
  { u with out := (u.out ++ u.memCpl.map (fun c => (⟨c.tag, 0, false, [], c.data.length⟩ : MemAcc))).map (fun m => { m with xa := xaLost }),
           memCpl := [], regCpl := [], irqs := 0, awake := 0 }
/-- Every block, page and store of Xoide back to reset. `keep` says that LPDDR6 is held in self-refresh; without it its contents are lost. -/
def xoideClear (keep : Bool) (s : State) : State :=
  let x := { XoideSt.init with lp := if keep then s.x.lp else [], hist := if keep then s.x.hist else [], dhist := if keep then s.x.dhist else [],
                               errs := if keep then s.x.errs.filter (fun e => xaMem e.1 == .lpddr) else [] }
  let s := (upto 14).foldl (fun s k => domRun (20 + k) false s) s
  oppShow (supplyLims { s with regs := pagesReset xPages s.regs, blk := tclear s.blk 0x80 0x90, gov := govDropXoide s.gov, x := x, xopp := .xoide,
                               ingest := .init, ucie := ucieLost s.ucie })
/-- XOIDE_RESET: quadrants that run are placed in self-refresh and held there; the active set's manifest is kept to be loaded again. -/
def xoideReset (s : State) : State :=
  let run := (upto 5).filter (fun q => (blkGet s (0x8A + q)).state == .run)
  let set := match s.x.active with | some m => some m | none => s.herv.xset
  let s := xoideClear true { s with herv := { s.herv with xset := set } }
  run.foldl (fun s q => s.setFld (F.XMEM_STAT_SR q) 1) s
/-- PG_CTRL.RST_REQ of page 088. -/
def xoideResetWrite (s : State) : State :=
  if !reachable s 0x88 then busErr s 0x88008 true else if s.locked 0x88 then s.refuse 0x88 4 else xoideReset s
def execXoideReset (s : State) : Host.Outcome State Fault Refusal := .next (xoideResetWrite s)
/-- BLOCK_RESET: RST_REQ of a page's PG_CTRL, a pump channel or a port; on page 088 it resets Xoide. -/
def execBlockReset (blk : BlockId) (via : Via) (s : State) : Host.Outcome State Fault Refusal :=
  .next (if blkKey blk = 0x88 ∧ via = .direct then xoideResetWrite s else ctrlWrite blk via blockReset s)
def execForceSafe (blk : BlockId) (on : Bool) (via : Via) (s : State) : Host.Outcome State Fault Refusal :=
  .next (ctrlWrite blk via (fun k => forceSafe k on) s)

end Sys2Proof.Machine
end

