-- ==== Sys2Proof/Machine/Regs.lean ====
section
/-! DEFINITION. Access to the module aperture from Hervi (R26–R39, R45–R47): what a read returns, what a direct write does, and the mailbox's
GO. -/
namespace Sys2Proof.Machine
open Sys2Proof

/-- The word of a block's PG_CTRL (R30). -/
def ctrlWord (b : Blk) : Nat := b2n b.en + 2 * b2n b.rst + 4 * b2n b.forceSafe
/-- The word of its PG_STAT. -/
def statWord (b : Blk) : Nat := bstateNum b.state + 16 * b2n b.pend + 32 * b2n b.safe

/-! ### Reads -/

/-- The lane whose state a lane-owned page shows (R39). -/
def pageLane (s : State) (p : Nat) : LaneId := if 0x10 ≤ p ∧ p ≤ 0x1F then .a else if 0x20 ≤ p ∧ p ≤ 0x2F then .b else s.lead
/-- The offset a lane keeps a lane-owned page's word at: lane B's own pages stand at lane A's (R394). -/
def lanePageOff (p o : Nat) : Nat := (if 0x20 ≤ p ∧ p ≤ 0x2F then p - 0x10 else p) * 0x1000 + o
/-- PG_GATE (R30, R336): a lane-owned page shows its lane's window, any other the sequencer's. -/
def gateWord (s : State) (p : Nat) (laneOwned : Bool) : Nat :=
  b2n (if laneOwned then s.laneWin (pageLane s p) else s.presence) + 2 * b2n s.panS.tamper + 4 * b2n (s.locked p) + 8 * b2n s.panS.accepted
/-- Word k of a byte string. -/
def wordOf (l : List Nat) (k : Nat) : Nat := leAt l (4 * k) 4
/-- The low or the high word of a wide value. -/
def halfOf (x : Nat) (hi : Bool) : Nat := if hi then x / 2 ^ 32 % 2 ^ 32 else x % 2 ^ 32
/-- The six throttle durations in register order (R66). -/
def thrList (d : DieOpp) : List Nat := [d.thrTherm, d.thrCap, d.thrDroop, d.thrInrush, d.thrSupply, d.thrOverrun]

/-- The header word of a page (R30). PG_CTRL of a lane-owned page is a copy of its lane's P7 (R39); SYS has no PG_CTRL or PG_STAT. -/
def headerView (s : State) (p o : Nat) (laneOwned : Bool) : Nat :=
  if lanePageReserved p ∧ o ≠ 0 then 0
  else if p = 0 ∧ (o = 0x08 ∨ o = 0x0C) then 0
  else if o = 0x08 then (if laneOwned then (rget (s.lane (pageLane s p)).pub (lanePageOff p 0x08)).toNat else ctrlWord (blkGet s p))
  else if o = 0x0C then statWord (blkGet s p)
  else if o = 0x20 then (if laneOwned then (rget (s.lane (pageLane s p)).pub (lanePageOff p 0x20)).toNat else 0)
  else if o = 0x24 then gateWord s p laneOwned
  else if o = 0x18 then (rget s.regs (hdrErr p)).toNat % 2 ^ 24
  else (rget s.regs (p * 0x1000 + o)).toNat

/-- Whether domain n is clocked (R49): one that never sleeps whenever its rail is powered, the debug clock never, any other as its last wake or
sleep left it. -/
def domClocked (s : State) (n : Nat) : Bool :=
  if n = 1 ∨ n = 40 then s.pwr.seqSupply
  else if n ≤ 8 ∨ n = 14 then s.pwr.laneRail
  else if n = 39 then false
  else if (15 ≤ n ∧ n ≤ 19) ∨ 34 ≤ n then s.pwr.pkgRail
  else (if n ≤ 14 then s.pwr.laneRail else s.pwr.pkgRail) && bitOf (s.fld F.CLK_DOM_RUN_LO_RUN + 2 ^ 32 * s.fld F.CLK_DOM_RUN_HI_RUN) (n - 1)
/-- CLK_DOM_RUN: domains 1–32, or 33–40. -/
def domWord (s : State) (hi : Bool) : Nat :=
  nsum ((upto (if hi then 8 else 32)).map (fun k => b2n (domClocked s (k + (if hi then 33 else 1))) * 2 ^ k))
/-- CRVN_PORT_STAT_p as the port stands. -/
def portShow (p : Nat) (s : State) : State :=
  let x := s.cport p
  let b := blkGet s (0x110 + p)
  let s := (s.setFld (F.CRVN_PORT_STAT_STATE p) (bstateNum b.state)).setFld (F.CRVN_PORT_STAT_PEND p) (b2n b.pend)
  let s := (s.setFld (F.CRVN_PORT_STAT_LINK_UP p) (b2n x.linkUp)).setFld (F.CRVN_PORT_STAT_BLOCK_LOCK p) (b2n x.lock)
  (s.setFld (F.CRVN_PORT_STAT_WAIT_PEER p) (b2n x.waiting)).setFld (F.CRVN_PORT_STAT_RELAY p) (b2n x.contact)
/-- A word of a page that is not lane-owned, from 100h upward: what its block holds (R38). -/
def moduleView (s : State) (p o : Nat) : Nat :=
  let w := (rget s.regs (p * 0x1000 + o)).toNat
  if p = 0 then
    if o = 0x100 then s.time.tick + 8 * s.time.frame else if o = 0x104 then s.time.sec % 2 ^ 32 else if o = 0x110 then s.time.count % 2 ^ 32 else w
  else if p = 1 ∧ (o = 0x100 ∨ o = 0x104) then domWord s (o == 0x104)
  else if p = 1 ∧ 0x120 ≤ o ∧ o < 0x150 then halfOf (lget 0 (thrList s.hopp) ((o - 0x120) / 8)) (o % 8 == 4)
  else if p = 0x70 then
    if o = 0x10C ∨ o = 0x110 then halfOf (ownUid s) (o == 0x110)
    else if o = 0x124 ∨ o = 0x134 then (rget (portShow ((o - 0x124) / 16) s).regs (p * 0x1000 + o)).toNat
    else if o = 0x144 then (nodeInfo s).1
    else if o = 0x148 ∨ o = 0x14C then halfOf (nodeInfo s).2 (o == 0x14C)
    else if 0x600 ≤ o ∧ o < 0x800 then (match s.crvn.rx with | [] => 0 | x :: _ => wordOf x.2 ((o - 0x600) / 4))
    else w
  else if p = 0x88 ∧ o = 0x128 then
    let j := s.fld F.XJOB_SEL_JOB
    tget 0 s.x.jlast j % 2 ^ 24 + 2 ^ 24 * min 255 (s.xjob j).failRun
  else if p = 0x89 ∧ 0x110 ≤ o ∧ o < 0x140 then halfOf (lget 0 (thrList s.xopp) ((o - 0x110) / 8)) (o % 8 == 4)
  else if p = 0x89 ∧ o = 0x144 then (s.xjob (s.fld F.XPWR_JOB_SEL_JOB)).energy / 10000000000 % 2 ^ 32
  else if p = 0xA0 ∧ 0x180 ≤ o ∧ o < 0x1A0 then wordOf (leBytes 32 (lget 0 s.sec.meas (s.fld F.SEC_MEAS_SEL_DIE))) ((o - 0x180) / 4)
  else if p = 0xA2 then (rget s.fuses (0xA2000 + o)).toNat
  else if p = 0xB1 ∧ 0x140 ≤ o ∧ o < 0x160 then
    (if invCount (s.fld F.INV_SEL_KIND) ≤ s.fld F.INV_SEL_INDEX then 0
     else wordOf (invBytes s (s.fld F.INV_SEL_KIND) (s.fld F.INV_SEL_INDEX)) ((o - 0x140) / 4))
  else w

/-- Bits of a register whose fields are WO, which read 0 (R38). -/
def woMask : List FieldDesc → Nat
  | [] => 0
  | f :: fs => (if f.acc = .wo then (2 ^ f.w - 1) * 2 ^ f.lo else 0) + woMask fs
def dropWo (p o w : Nat) : Nat :=
  match findReg (pageRegs p) o with
  | some (r, _, _) => w - (w &&& woMask r.fields)
  | none => w
/-- The word a naturally aligned 32-bit read of an assigned page sees, before R29. -/
def pageWord (s : State) (p o : Nat) : Nat :=
  match pageInfo p with
  | none => 0
  | some i =>
    if o < 0x100 then headerView s p o i.laneOwned
    else if i.laneOwned then (rget (s.lane (pageLane s p)).pub (lanePageOff p o)).toNat
    else dropWo p o (moduleView s p o)

/-- Whether offset o of page p holds the lower word of a quantity wider than 32 bits (R29); the upper word follows it. -/
def wideLo (p o : Nat) : Bool :=
  if p = 0 then o == 0x100
  else if p = 1 then o == 0x100 || (decide (0x120 ≤ o ∧ o < 0x150) && o % 8 == 0)
  else if p = 3 then o == 0x118
  else if p = 0x10 ∨ p = 0x20 then o == 0x10C
  else if p = 0x13 ∨ p = 0x23 then o == 0x130 || o == 0x138
  else if p = 0x60 then decide (0x180 ≤ o ∧ o < 0x1C0) && o % 8 == 0
  else if p = 0x70 then o == 0x10C || o == 0x148
  else if 0x80 ≤ p ∧ p ≤ 0x87 then decide (0x120 ≤ o ∧ o < 0x168) && o % 8 == 0
  else if p = 0x88 then o == 0x108
  else if p = 0x89 then decide (0x110 ≤ o ∧ o < 0x140) && o % 8 == 0
  else if 0x8A ≤ p ∧ p ≤ 0x8E then o == 0x110
  else if p = 0x8F then o == 0x110 || o == 0x120
  else if p = 0xB0 then decide (0x180 ≤ o ∧ o < 0x200) && o % 8 == 0
  else false

/-- R29: a read of the lower word latches the upper one; the next read of the upper word returns what was latched. -/
def readWide (s : State) (p o : Nat) : Nat × State :=
  let a := p * 0x1000 + o
  if wideLo p o then (pageWord s p o, { s with hilo := tset none s.hilo (a + 4) (some (pageWord s p (o + 4))) })
  else
    match tget none s.hilo a with
    | some v => (v, { s with hilo := tset none s.hilo a none })
    | none => (pageWord s p o, s)
/-- Fields that show what no command brings, read as free values: the present steering of AONCLK while PTP is locked, −500 to +500 ppm (R13), and the
refresh multiplier of a quadrant in RUN (R174). -/
def readFree (p o v : Nat) (s : State) : Nat × State :=
  if p * 0x1000 + o = F.CLK_AON_STEER_PPM.off ∧ s.fld F.CLK_AON_PTP_LOCK = 1 then
    let (x, s) := s.free 32
    (putBits v 16 10 (ux 10 (((x % 1001 : Nat) : Int) - 500)), s)
  else if 0x8A ≤ p ∧ p ≤ 0x8E ∧ o = 0x104 ∧ (blkGet s p).state = .run then
    let (x, s) := s.free 4
    (putBits v 8 4 x, s)
  else (v, s)
/-- One naturally aligned 32-bit read. -/
def read32 (s : State) (a : Nat) : Nat × State :=
  let p := a / 0x1000 % 256
  if (pageInfo p).isNone || !reachable s p then (0, busErr s (a % 2 ^ 20) false)
  else
    let (v, s) := readWide s p (a % 0x1000)
    let (v, s) := readFree p (a % 0x1000) v s
    if p = 0xB0 ∧ a % 0x1000 = 0x43C then (v, recWin15 s) else (v, s)
/-- Whether an access is one 32-bit access, two of them, or neither (R28). DESIGN CHOICE (log 22): R28 does not say which alignment a 64-bit
access needs; one that is not a multiple of 8 counts as not naturally aligned. -/
def accessKind (a : Nat) (size : AccSize) : Nat :=
  match size with
  | .b4 => if a % 4 = 0 then 1 else 0
  | .b8 => if a % 8 = 0 then 2 else 0
  | _ => 0
/-- A read of any width (R27–R29, R47); the data goes to the reader. -/
def regRead (a : Nat) (size : AccSize) (s : State) : State :=
  let k := accessKind a size
  let p := a / 0x1000 % 256
  if k = 1 then
    let (v, s) := read32 s a
    { s with rdData := v }
  else if k = 2 then
    let (v, s) := read32 s a
    let (w, s) := read32 s (a + 4)
    { s with rdData := v + 2 ^ 32 * w }
  else if (pageInfo p).isNone || !reachable s p then { busErr s a false with rdData := 0 }
  else { s.irq p 3 with rdData := 0 }

/-! ### The mailbox's GO (R41) -/

/-- The entry registers of the SYS page. -/
def mboxEntryAt (s : State) (n : Nat) : MboxEntry :=
  ⟨s.fld (F.SYS_MBOX_ADDR_ADDR n) * 4, BitVec.ofNat 32 (s.fld (F.SYS_MBOX_DATA n)), BitVec.ofNat 32 (s.fld (F.SYS_MBOX_MASK_MASK n))⟩
/-- A batch is on its way: BUSY 1, DONE and APPLIED 0. -/
def mboxSend (tag : Nat) (entries : List MboxEntry) (s : State) : State :=
  let s := ((s.setFld F.SYS_MBOX_STAT_BUSY 1).setFld F.SYS_MBOX_STAT_DONE 0).setFld F.SYS_MBOX_STAT_APPLIED 0
  { s with mbox := { s.mbox with flight := some ⟨tag, entries⟩ } }
/-- SYS_MBOX_CMD written with GO = 1: refused while BUSY (07h), or for N outside 1–8 (08h). -/
def mboxGo (n tag : Nat) (s : State) : State :=
  if s.locked 0 then s.refuse 0 4
  else if s.fld F.SYS_MBOX_STAT_BUSY = 1 then s.refuse 0 7
  else if n = 0 ∨ 8 < n then s.refuse 0 8
  else mboxSend tag ((upto n).map (mboxEntryAt s)) s
def execMboxGo (n : BitVec 4) (tag : BitVec 16) (s : State) : Host.Outcome State Fault Refusal := .next (mboxGo n.toNat tag.toNat s)

/-! ### Direct writes -/

/-- Values a block discards and counts with code 80h. -/
def discards (s : State) (p o d : Nat) : Bool :=
  if p = 1 ∧ o = 0x110 ∨ p = 0x89 ∧ o = 0x10C then decide (d % 16 < 3 ∨ 10 < d % 16)
  else if p = 2 ∧ o = 0x108 then decide (d % 4096 < 0x708 ∨ 0x834 < d % 4096)
  else if p = 0x89 ∧ o = 0x100 then decide (d % 1024 < 0xF0 ∨ 0x3C0 < d % 1024)
  else if p = 0x89 ∧ o = 0x108 then decide (d % 256 < 0x55 ∨ 0x69 < d % 256)
  else if p = 0x88 ∧ o = 0x104 then decide (d % 16 = 0 ∨ 3 < d % 16)
  else if p = 0x88 ∧ o = 0x12C then decide (0x200 < bitsOf d 1 10)
  else if 0x8A ≤ p ∧ p ≤ 0x8E ∧ o = 0x100 then decide (d % 4 = 3) || (upto 5).any (fun q => (blkGet s (0x8A + q)).state != .off)
  else if p = 0x7A ∧ o = 0x100 then decide (d % 4 = 3 ∨ 0x7F < bitsOf d 8 8)
  else if p = 0xA0 ∧ o = 0x104 then decide (d % 16 = 0 ∨ 7 < d % 16)
  else false
/-- The word a register holds after a direct write: RW and RWP fields take the data, W1C fields clear the bits written 1 (R38). -/
def writeFields (d : Nat) : List FieldDesc → Nat → Nat
  | [], w => w
  | f :: fs, w =>
    writeFields d fs (if f.acc = .rw ∨ f.acc = .rwp then putBits w f.lo f.w (bitsOf d f.lo f.w)
      else if f.acc = .w1c then putBits w f.lo f.w (bitsOf w f.lo f.w - (bitsOf w f.lo f.w &&& bitsOf d f.lo f.w)) else w)
/-- PG_CTRL of a page (R30, R33–R35); RST_REQ of page 088 resets Xoide (R359); SYS has none. -/
def writeCtrl (p d : Nat) (s : State) : State :=
  if p = 0 then s
  else
    let s := forceSafe p (bitOf d 2) s
    let s := if bitOf d 0 then blockEnable p s else blockDisable p s
    if bitOf d 1 then (if p = 0x88 then xoideReset s else blockReset p s) else s
/-- A direct write to the header of an assigned page. -/
def writeHeader (p o d : Nat) (laneOwned : Bool) (s : State) : State :=
  if lanePageReserved p ∧ o ≠ 0x08 then s
  else if o = 0x08 then (if laneOwned then s.refuse p 1 else writeCtrl p d s)
  else if o = 0x10 then irqClear p (BitVec.ofNat 32 d) 0 s
  else if o = 0x14 then { s with regs := rset s.regs (hdrIrqEn p) (BitVec.ofNat 32 d) }
  else if o = 0x18 then (if bitOf d 31 then errCntClear p none s else s)
  else s
/-- SEC_CMD by code; the key a token is verified with is a free value here (SEC_ENROLL and its like say it). -/
def writeSecCmd (d : Nat) (s : State) : State :=
  let die := bitsOf d 8 2 % 2
  let (key, s) := s.free 3072
  match d % 16 with
  | 1 => secEnroll key s
  | 2 => secRevoke key s
  | 3 => secTamperClr key s
  | 4 => secRaise s
  | 5 => secAttest s
  | 6 => secDbgOpen die s
  | _ => secDbgKill die s
/-- XJOB_CMD = LOAD by a register write: the manifest is the one at XJOB_SET (R191); the spec gives it no layout in memory, so what it says is
free (XJOB_LOAD says it). -/
def setRead (s : State) : State := xjobLoad (Config.manifestAt s.freeCtr) { s with freeCtr := s.freeCtr + 1 }
/-- LOCKED; the steering of AONCLK follows it. -/
def ptpLock (b : Bool) (s : State) : State :=
  ((s.setFld F.PTP_STAT_LOCKED (b2n b)).setFld F.CLK_AON_PTP_LOCK (b2n b)).setFld F.CLK_AON_XTAL_ONLY (b2n !b)
/-- Grandmaster, or not: the grandmaster is always LOCKED; a module that becomes a follower locks anew. -/
def ptpGm (b : Bool) (s : State) : State :=
  let was := s.fld F.PTP_STAT_GM = 1
  let s := s.setFld F.PTP_STAT_GM (b2n b)
  if b then ptpLock true s
  else if was then ptpLock false { s with ptp := ⟨0, 0, 0⟩ } else s
/-- PTP_CFG.ROLE written: follower only and grandmaster only are what they say at once; the best master clock algorithm decides by messages (R322). -/
def ptpRole (role : Nat) (s : State) : State := if role = 1 then ptpGm true s else if role = 0 then ptpGm false s else s
/-- What a write does beyond storing its fields, register by register. -/
def writeEffect (p o d : Nat) (s : State) : State :=
  if p = 0 then
    if o = 0x108 then (if bitOf d 31 then s.setFld F.SYS_BUS_ERR_COUNT 0 else s)
    else if o = 0x200 then (if bitOf d 0 then mboxGo (bitsOf d 8 4) (bitsOf d 16 16) s else s)
    else s
  else if p = 1 then (if o = 0x10C then oppMove s else if o = 0x114 ∧ bitOf d 0 then frameDone s else s)
  else if p = 2 then (if o = 0x108 then supplyLow s else s)
  else if p = 3 then (if o = 0x104 ∧ bitOf d 31 then ledgerPeakClear s else s)
  else if p = 0x70 then
    if o = 0x120 ∨ o = 0x130 then portEnable ((o - 0x120) / 16) (bitOf d 0) s
    else if o = 0x150 then (if bitOf d 0 then txGo (bitsOf d 8 6) (bitOf d 14) (bitsOf d 16 10) s else s)
    else if o = 0x15C then (if bitOf d 0 then rxPop s else s)
    else if o = 0x160 then
      (if bitOf d 0 then
        let (now, s) := s.free 64
        echoGo (bitsOf d 8 6) now s
       else s)
    else s
  else if p = 0x7A ∧ o = 0x100 then ptpRole (d % 4) s
  else if p = 0x88 ∧ o = 0x104 then
    if !s.x.up then s else if d % 16 = 1 then setRead s else if d % 16 = 2 then xjobArm s else if d % 16 = 3 then xjobCancel s else s
  else if 0x8A ≤ p ∧ p ≤ 0x8E ∧ o = 0x100 then (upto 5).foldl (fun s q => s.setFld (F.XMEM_CFG_RATE q) (d % 4)) s
  else if p = 0x8F ∧ o = 0x124 then injectArm (d % 256) s
  else if p = 0xA0 ∧ o = 0x104 then writeSecCmd d s
  else if p = 0xA1 ∧ o = 0x104 then (if bitOf d 0 then onPanels panClose s else s)
  else if p = 0xB0 ∧ o = 0x10C then recCopy d s
  else if p = 0xB0 ∧ o = 0x118 then (if bitOf d 31 then recPeakClear s else s)
  else if p = 0xB1 ∧ o = 0x104 then (if bitOf d 0 then invSet s else s)
  else s
/-- A direct write to a block's own register on a page that is not lane-owned (R38). -/
def writeOwn (p o d : Nat) (s : State) : State :=
  match findReg (pageRegs p) o with
  | none => s
  | some (r, _, _) =>
    if r.fields.any (fun f => f.acc == .rwp) && !s.presence then s.refuse p 2
    else if p = 0 ∧ 0x220 ≤ o ∧ o < 0x2A0 ∧ s.fld F.SYS_MBOX_STAT_BUSY = 1 then s.refuse 0 7
    else if discards s p o d then s.err p 0x80
    else
      let a := p * 0x1000 + o
      let kept := if (p = 0xA0 ∨ p = 0x88) ∧ o = 0x104 then d - d % 16 else d
      let s := if r.fields.any (fun f => f.acc == .rw || f.acc == .rwp || f.acc == .w1c) then
                 { s with regs := rset s.regs a (BitVec.ofNat 32 (writeFields kept r.fields (rget s.regs a).toNat)) } else s
      writeEffect p o d s
/-- A direct write to a lane-owned page from 100h upward: refused by its access code (R38, R394). -/
def writeLaneOwned (p o : Nat) (s : State) : State :=
  if lanePageReserved p then s.refuse p 1
  else if 0x800 ≤ o ∧ o < 0xC00 then
    (match findReg (pageRegs p) (o - 0x700) with
     | some (r, _, _) => if r.shadowed then s.refuse p 1 else s.refuse p 5
     | none => s.refuse p 5)
  else
    match findReg (pageRegs p) o with
    | none => s
    | some (r, _, _) =>
      if r.fields.any (fun f => f.acc == .rwl) then s.refuse p 1 else if r.fields.any (fun f => f.acc == .rws) then s.refuse p 3 else s
/-- One naturally aligned 32-bit direct write (R27, R32, R38, R47). -/
def write32 (a d : Nat) (s : State) : State :=
  let p := a / 0x1000 % 256
  let o := a % 0x1000
  match pageInfo p with
  | none => busErr s (a % 2 ^ 20) true
  | some i =>
    if !reachable s p then busErr s (a % 2 ^ 20) true
    else if s.locked p && !(o == 0x10 || (o == 0x18 && bitOf d 31) || decide (0xC00 ≤ o)) then s.refuse p 4
    else if o < 0x100 then writeHeader p o d i.laneOwned s
    else if i.laneOwned then writeLaneOwned p o s
    else if 0x800 ≤ o ∧ o < 0xC00 then s.refuse p 5
    else writeOwn p o d s
/-- A direct write of any width (R28). -/
def regWrite (a : Nat) (size : AccSize) (d : Nat) (s : State) : State :=
  let k := accessKind a size
  let p := a / 0x1000 % 256
  if k = 1 then write32 a (d % 2 ^ 32) s
  else if k = 2 then write32 (a + 4) (d / 2 ^ 32 % 2 ^ 32) (write32 a (d % 2 ^ 32) s)
  else if (pageInfo p).isNone || !reachable s p then busErr s a true
  else s.refuse p 6

def execRegisterWrite (addr : BitVec 20) (size : AccSize) (data : BitVec 64) (s : State) : Host.Outcome State Fault Refusal :=
  .next (regWrite addr.toNat size data.toNat s)
def execHiLoReadLatch (addr : BitVec 20) (size : AccSize) (s : State) : Host.Outcome State Fault Refusal := .next (regRead addr.toNat size s)

end Sys2Proof.Machine
end

