-- ==== Sys2Proof/Machine/Net.lean ====
section
/-! DEFINITION. The UCIe link flit by flit (R312–R316), the PTP engine (R322, R324) and the Ethernet ports (R91). -/
namespace Sys2Proof.Machine
open Sys2Proof

/-! ### Flits (R315, R316) -/

/-- The numbers after `a` in a stream of 12-bit sequence numbers. -/
def seqAfter (a x : Nat) : Bool := let d := (x + 4096 - a % 4096) % 4096; decide (1 ≤ d ∧ d < 2048)
/-- A flit leaves its sender: a number not sent before enters the last 64 kept for replay. -/
def flitSent (toHervi : Bool) (n : Nat) (m : UMod) : UMod :=
  if toHervi then
    if n = m.seqX then { m with seqX := (n + 1) % 4096, keptX := (m.keptX ++ [n]).drop (m.keptX.length + 1 - 64) } else m
  else if n = m.seqH then { m with seqH := (n + 1) % 4096, keptH := (m.keptH ++ [n]).drop (m.keptH.length + 1 - 64) } else m
/-- What an intact flit says to its receiver: what the other side has received, and the buffers it has freed. -/
def flitAck (toHervi : Bool) (h : FlitHdr) (m : UMod) : UMod :=
  if toHervi then { m with keptH := m.keptH.filter (seqAfter h.ackseq.toNat), credH := m.credH + h.credits.toNat }
  else { m with keptX := m.keptX.filter (seqAfter h.ackseq.toNat), credX := m.credX + h.credits.toNat }
/-- A module goes down to retrain: its flits move to the other module; with both down the link is in FAULT. -/
def ucieRetrain (n : Nat) (s : State) : State :=
  if (s.umod n).up then
    let s := ucieShow (s.setUmod n { s.umod n with up := false, keptX := [], keptH := [], naks := [] })
    let s := ((s.satFld F.UCIE_STAT_RETRAINS 1).irq 0x90 8).irq 0x90 9
    if (s.umod 0).up ∨ (s.umod 1).up then s else blockFault 0x90 s
  else if (blkGet s 0x90).state = .off then s
  else (s.satFld F.UCIE_STAT_RETRAINS 1).irq 0x90 9
/-- A receiver answers a failed flit with NAK; a module that sends 8 NAKs within 1,024 flit times retrains. -/
def flitNak (n : Nat) (s : State) : State :=
  let m := s.umod n
  let naks := m.flits :: m.naks.filter (fun t => decide (m.flits < t + 1024))
  let s := (s.setUmod n { m with naks := naks }).satFld F.UCIE_ERR_CRC 1
  if 8 ≤ naks.length then ucieRetrain n s else s
/-- The module a flit goes on (R314): a memory flit by its XA, a register or interrupt flit module 0; with one module up, that one. -/
def flitPlace (s : State) (xa : Option Nat) : Nat :=
  if (s.umod 0).up && (s.umod 1).up then (match xa with | some a => a / 256 % 2 | none => 0) else if (s.umod 0).up then 0 else 1
/-- A flit arrives on the module `place` (R314); on another its sender puts none. One whose CRC fails is discarded with a NAK; of the intact
ones the next in sequence is taken. `f` is what it carries. -/
def flitIn (toHervi : Bool) (place : Nat) (h : FlitHdr) (f : State → State) (s : State) : State :=
  let n := h.mod.val
  if n ≠ place ∨ !(s.umod n).up then s
  else
    let m := s.umod n
    let s := s.setUmod n (flitSent toHervi h.fseq.toNat { m with flits := m.flits + 1 })
    if !h.crcOk then flitNak n s
    else
      let m := flitAck toHervi h (s.umod n)
      if h.fseq.toNat = ((if toHervi then m.ackX else m.ackH) + 1) % 4096 then
        f (s.setUmod n (if toHervi then { m with ackX := h.fseq.toNat } else { m with ackH := h.fseq.toNat }))
      else s.setUmod n m
/-- A completion of a register access. -/
def regCplPut (c : Cpl) (s : State) : State := { s with ucie := { s.ucie with regCpl := s.ucie.regCpl ++ [c] } }
def isXPage (a : Nat) : Bool := decide (0x80 ≤ a / 0x1000 % 256 ∧ a / 0x1000 % 256 ≤ 0x8F)
/-- REG_RD: a read of a Xoide page; any other address is unassigned on Xoide's side. -/
def flitRegRd (tag a : Nat) (s : State) : State :=
  if isXPage a then
    let (v, s) := readWide s (a / 0x1000 % 256) (a / 4 * 4 % 0x1000)
    regCplPut ⟨tag, 0, leBytes 4 v, false, 0⟩ s
  else regCplPut ⟨tag, 2, leBytes 4 0, false, 0⟩ s
def execRegRd (h : FlitHdr) (addr : BitVec 20) (s : State) : Host.Outcome State Fault Refusal :=
  .next (flitIn false (flitPlace s none) h (flitRegRd h.tag.toNat addr.toNat) s)
/-- REG_WR: a write of a Xoide page. -/
def flitRegWr (tag a d : Nat) (s : State) : State :=
  if isXPage a then regCplPut ⟨tag, 0, [], false, 0⟩ (write32 (a / 4 * 4) d s) else regCplPut ⟨tag, 2, [], false, 0⟩ s
def execRegWr (h : FlitHdr) (addr : BitVec 20) (data : Word) (s : State) : Host.Outcome State Fault Refusal :=
  .next (flitIn false (flitPlace s none) h (flitRegWr h.tag.toNat addr.toNat data.toNat) s)
/-- REG_CPL: the completion of a TAG reaches Hervi; a read's data goes to the reader. -/
def flitRegCpl (tag : Nat) (s : State) : State :=
  match s.ucie.regCpl.find? (fun c => c.tag == tag) with
  | none => s
  | some c =>
    let s := { s with ucie := { s.ucie with regCpl := s.ucie.regCpl.filter (fun x => x != c), status := c.status } }
    if c.data.isEmpty then s else { s with rdData := leNum c.data }
def execRegCpl (h : FlitHdr) (s : State) : Host.Outcome State Fault Refusal := .next (flitIn true (flitPlace s none) h (flitRegCpl h.tag.toNat) s)
/-- MEM_RD: 32 to 4,096 bytes in steps of 32; another LEN is no request. -/
def flitMemRd (tag xa len : Nat) (s : State) : State :=
  if len % 32 ≠ 0 ∨ len = 0 ∨ 4096 < len then s else memAccess ⟨tag, xa, false, [], len⟩ s
def execMemRd (h : FlitHdr) (xa : BitVec 40) (len : BitVec 16) (s : State) : Host.Outcome State Fault Refusal :=
  .next (flitIn false (flitPlace s (some xa.toNat)) h (flitMemRd h.tag.toNat xa.toNat len.toNat) s)
/-- MEM_WR: 32 to 224 bytes in steps of 32. -/
def flitMemWr (tag xa : Nat) (bytes : List Nat) (s : State) : State :=
  if bytes.length % 32 ≠ 0 ∨ bytes.length = 0 ∨ 224 < bytes.length then s else memAccess ⟨tag, xa, true, bytes, 0⟩ s
def execMemWr (h : FlitHdr) (xa : BitVec 40) (bytes : List (BitVec 8)) (s : State) : Host.Outcome State Fault Refusal :=
  .next (flitIn false (flitPlace s (some xa.toNat)) h (flitMemWr h.tag.toNat xa.toNat (bytes.map BitVec.toNat)) s)
/-- The XA of the bytes the next MEM_CPL of a TAG carries. -/
def cplXa (s : State) (tag : Nat) : Option Nat := (s.ucie.memCpl.find? (fun c => c.tag == tag)).map (fun c => c.xa)
/-- MEM_CPL: up to 224 bytes of the completion of a TAG reach Hervi; the flit with the last of them ends it. -/
def flitMemCpl (tag : Nat) (s : State) : State :=
  match s.ucie.memCpl.find? (fun c => c.tag == tag) with
  | none => s
  | some c =>
    let got := if c.data.isEmpty then s.ucie.memData else (if c.begun then s.ucie.memData else []) ++ c.data.take 224
    let rest := c.data.drop 224
    let more := if rest.isEmpty then s.ucie.memCpl.filter (fun x => x != c)
      else s.ucie.memCpl.map (fun x => if x = c then { c with data := rest, begun := true, xa := c.xa + 224 } else x)
    { s with ucie := { s.ucie with memData := got, memCpl := more, status := c.status } }
def execMemCpl (h : FlitHdr) (s : State) : Host.Outcome State Fault Refusal := .next (flitIn true (flitPlace s (cplXa s h.tag.toNat)) h (flitMemCpl h.tag.toNat) s)
/-- IRQ: Hervi's interrupt controller has the interrupt request of an Xoide page as it stands. -/
def flitIrq (p : Nat) (s : State) : State :=
  if 0x80 ≤ p ∧ p ≤ 0x8F then { s with ucie := { s.ucie with irqs := putBitN s.ucie.irqs (p - 0x80) (s.irqReq p) } } else s
def execIrq (h : FlitHdr) (page : BitVec 8) (s : State) : Host.Outcome State Fault Refusal := .next (flitIn true (flitPlace s none) h (flitIrq page.toNat) s)
/-- IDLE, and a flit of an unknown KIND, which is discarded and counted. -/
def execIdle (h : FlitHdr) (toHervi : Bool) (kind : BitVec 8) (s : State) : Host.Outcome State Fault Refusal :=
  .next (flitIn toHervi h.mod.val h (fun s => if 7 < kind.toNat then s.satFld F.UCIE_ERR_BAD 1 else s) s)
/-- FLIT_REPLAY: the sender of a direction sends every flit after ACKSEQ again; those before it are done with. -/
def flitReplay (n : Nat) (toHervi : Bool) (ack : Nat) (s : State) : State :=
  let m := s.umod n
  if !m.up then s
  else
    (s.setUmod n (if toHervi then { m with keptX := m.keptX.filter (seqAfter ack) } else { m with keptH := m.keptH.filter (seqAfter ack) })).satFld
      F.UCIE_ERR_REPLAY 1
def execFlitReplay (mod : Fin 2) (toHervi : Bool) (ackseq : BitVec 12) (s : State) : Host.Outcome State Fault Refusal :=
  .next (flitReplay mod.val toHervi ackseq.toNat s)
def execUcieRetrain (mod : Fin 2) (s : State) : Host.Outcome State Fault Refusal := .next (ucieRetrain mod.val s)
/-- UCIE_RETRAIN_COMPLETE: the module is trained again, or stays down and is tried again. -/
def ucieRetrained (n : Nat) (ok : Bool) (s : State) : State :=
  if ok ∧ (blkGet s 0x90).state ≠ .off then ucieShow (s.setUmod n { s.umod n with up := true }) else s
def execUcieRetrainComplete (mod : Fin 2) (ok : Bool) (s : State) : Host.Outcome State Fault Refusal := .next (ucieRetrained mod.val ok s)
/-- UCIE_MEMORY_TIMEOUT: the access of a TAG has not completed in 65,536 cycles: a read returns zeros, a write is discarded, with STATUS 03h. -/
def memTimeout (tag : Nat) (s : State) : State :=
  match s.ucie.out.find? (fun m => m.tag == tag) with
  | some m =>
    { s with ucie := { s.ucie with out := s.ucie.out.filter (fun x => x != m),
                                   memData := if m.write then s.ucie.memData else List.replicate m.len 0, status := 3 } }.satFld F.UCIE_TIMEOUT_COUNT 1
  | none =>
    match s.ucie.memCpl.find? (fun c => c.tag == tag) with
    | some c =>
      { s with ucie := { s.ucie with memCpl := s.ucie.memCpl.filter (fun x => x != c),
                                     memData := if c.data.isEmpty then s.ucie.memData else List.replicate c.data.length 0,
                                     status := 3 } }.satFld F.UCIE_TIMEOUT_COUNT 1
    | none => s
def execUcieMemoryTimeout (tag : BitVec 8) (s : State) : Host.Outcome State Fault Refusal := .next (memTimeout tag.toNat s)
/-- QUADRANT_IDLE_TIMEOUT: 1,024 cycles without a Hervi access; between the frames' work the quadrant goes back to self-refresh, and otherwise with
the frame's own sleep. -/
def quadIdle (q : Nat) (s : State) : State :=
  if bitOf s.ucie.awake q ∧ ¬ s.ucie.out.any (fun m => (accWords m).any (fun w => xaMem w == .lpddr && xaQuad w == q)) then
    let s := { s with ucie := { s.ucie with awake := clrBitN s.ucie.awake q } }
    if ergsAsleep s && quadIdleNow s q then quadRest q s else s
  else s
def execQuadrantIdleTimeout (quad : Fin 5) (s : State) : Host.Outcome State Fault Refusal := .next (quadIdle quad.val s)

/-- The 256 bytes of a flit (R315). -/
def flitBytes (kind tag fseq addr len status : Nat) (payload : List Nat) (ackseq : Nat) (nak : Bool) (credits : Nat) : List Nat :=
  let body := [kind, tag] ++ leBytes 2 (fseq % 4096) ++ leBytes 5 addr ++ [0] ++ leBytes 2 len ++ [status, 0, 0, 0] ++ payload ++
    List.replicate (224 - payload.length) 0 ++ leBytes 2 (ackseq % 4096) ++ [b2n nak, credits % 256] ++ [0, 0, 0, 0]
  body ++ leBytes 8 (crc64 body)
/-- The next flit of a memory completion on module n, the last flit of its direction taken (R315): up to 224 bytes of its data. -/
def memCplFlit (n : Nat) (c : Cpl) (s : State) : List Nat :=
  let d := c.data.take 224
  flitBytes 6 c.tag (s.umod n).seqX c.xa d.length c.status d (s.umod n).ackH false 0
/-- The flit of a register completion. -/
def regCplFlit (n : Nat) (c : Cpl) (s : State) : List Nat := flitBytes 3 c.tag (s.umod n).seqX 0 4 c.status c.data (s.umod n).ackH false 0

/-! ### PTP (R13, R322, R324) -/

/-- The lock rules on a Sync's offset: 16 within 50 ns, 4 beyond 500 ns. -/
def ptpRuns (o : Int) (p : PtpSt) : PtpSt :=
  { goodRun := if -50 ≤ o ∧ o ≤ 50 then p.goodRun + 1 else 0, badRun := if o < -500 ∨ 500 < o then p.badRun + 1 else 0, since := 0 }
/-- PTP_SYNC: an acted Sync with its offset and the mean path delay, ns, and the grandmaster's second at the present boundary. The timebase of a
LOCKED follower is the PTP timebase: its seconds are the grandmaster's, while ticks and frames never step (R13). -/
def ptpSync (o : Int) (path sec : Nat) (s : State) : State :=
  if s.fld F.PTP_STAT_GM = 1 then s
  else
    let p := ptpRuns o s.ptp
    let s := (({ s with ptp := p }).setFld F.PTP_OFFSET_NS (ux 32 (clampI (-2147483648) 2147483647 o))).setFld F.PTP_PATH_NS (min path 0xFFFFFFFF)
    let s := if 16 ≤ p.goodRun then ptpLock true s else if 4 ≤ p.badRun then ptpLock false s else s
    if s.fld F.PTP_STAT_LOCKED = 1 then { s with time := { s.time with sec := sec } } else s
def execPtpSync (port : Fin 2) (offset : Int) (sync : SyncIn) (s : State) : Host.Outcome State Fault Refusal :=
  .next (ethHear port.val (ptpSync offset sync.path sync.sec.toNat) s)
/-- PTP_SYNC_TIMEOUT: 4 s, 32,768 ticks, without a Sync. -/
def ptpTimeout (s : State) : State := if s.fld F.PTP_STAT_GM = 0 ∧ 32768 ≤ s.ptp.since then ptpLock false s else s
def execPtpSyncTimeout (s : State) : Host.Outcome State Fault Refusal := .next (ptpTimeout s)
/-- PTP_MESSAGE: another message as the profile has processed it: whether the best master clock algorithm makes this module grandmaster (PTP_CFG.ROLE
decides where it is 0h or 1h), the portStates, the mean path delay where it brought one. -/
def ptpMessage (gm : Bool) (st0 st1 : Nat) (path : Option Nat) (s : State) : State :=
  let role := s.fld F.PTP_CFG_ROLE
  let s := ptpGm (role == 1 || (role == 2 && gm)) s
  let s := (s.setFld F.PTP_STAT_PORT0 st0).setFld F.PTP_STAT_PORT1 st1
  match path with | some d => s.setFld F.PTP_PATH_NS (min d 0xFFFFFFFF) | none => s
def execPtpMessage (port : Fin 2) (gm : Bool) (state0 state1 : BitVec 4) (path : Option Nat) (s : State) : Host.Outcome State Fault Refusal :=
  .next (ethHear port.val (ptpMessage gm state0.toNat state1.toNat path) s)
/-- What the engine sends on a port with link in a tick (R322): as grandmaster Sync (and Follow_Up with two-step) every 0.5 s and Announce every
2 s with clockClass 248; Pdelay_Req, or Delay_Req as follower, every second. Where in the interval each stands the spec does not say (log 85). -/
def ptpSends (p : Nat) (s : State) : List PtpMsg :=
  let gm := s.fld F.PTP_STAT_GM = 1
  let m := fun (k : Nat) => (⟨k, s.fld F.PTP_CFG_DOMAIN, s.fld F.PTP_CFG_PRIO1, 248, s.fld F.PTP_CFG_PRIO2⟩ : PtpMsg)
  if !(s.eth p).link then []
  else
    (if gm ∧ s.time.count % 4096 = 0 then (if s.fld F.PTP_CFG_ONE_STEP = 1 then [m 0] else [m 0, m 8]) else []) ++
    (if gm ∧ s.time.count % 16384 = 0 then [m 11] else []) ++
    (if s.time.count % 8192 = 0 then (if s.fld F.PTP_CFG_P2P = 1 then [m 2] else if gm then [] else [m 1]) else [])
/-- A tick of the PTP engine: the 4 s, where they expired in the ended tick without a Sync in it (R16), and the age of the last Sync. -/
def ptpTick (s : State) : State := let s := ptpTimeout s; { s with ptp := { s.ptp with since := s.ptp.since + 1 } }

/-! ### The Ethernet ports (R91, R370) -/

/-- The MAC address a port sends and receives with: the row's while the module owns the field, else its own fused one (R370). -/
def portMac (p : Nat) (s : State) : Nat := if s.twin.owner then lget 0 (s.lane s.lead).row.macs p else (Config.fusedMac p).toNat

/-- PATH_OK clears, with BLOCK_IRQ bit 8. -/
def pathDown (p : Nat) (s : State) : State :=
  if s.fld (F.ETH_STAT_PATH_OK p) = 1 then (s.setFld (F.ETH_STAT_PATH_OK p) 0).irq (0x78 + p) 8 else s
/-- ETH_LINK_LOSS: the link is lost, or 4 ticks have passed without a frame of EtherType 88B5h. -/
def ethLoss (p : Nat) (noLink : Bool) (s : State) : State :=
  if noLink then pathDown p ((s.setEth p { s.eth p with link := false }).setFld (F.ETH_STAT_LINK p) 0)
  else if 4 ≤ (s.eth p).missRun then pathDown p s else s
def execEthLinkLoss (port : Fin 2) (noLink : Bool) (s : State) : Host.Outcome State Fault Refusal := .next (ethLoss port.val noLink s)
/-- A tick of a port. -/
def ethTick (p : Nat) (s : State) : State :=
  let e := s.eth p
  ethLoss p false (s.setEth p { e with seen := false, missRun := if e.seen then 0 else e.missRun + 1 })

end Sys2Proof.Machine
end

