-- ==== Sys2Proof/Machine/Update.lean ====
section
/-! DEFINITION. A lane's boot and its firmware update (R327, R328, R354, R358, R360–R362). -/
namespace Sys2Proof.Machine
open Sys2Proof

/-! ### A lane's flash banks -/

def State.fw (s : State) : LaneId → LaneFw
  | .a => s.fwA
  | .b => s.fwB
def State.setFw (s : State) (id : LaneId) (x : LaneFw) : State :=
  match id with
  | .a => { s with fwA := x }
  | .b => { s with fwB := x }
def State.modFw (s : State) (id : LaneId) (f : LaneFw → LaneFw) : State := s.setFw id (f (s.fw id))
def fwBank (f : LaneFw) (k : Nat) : FwBank := if k = 0 then f.b0 else f.b1
def setFwBank (f : LaneFw) (k : Nat) (b : FwBank) : LaneFw := if k = 0 then { f with b0 := b } else { f with b1 := b }
/-- The bank that does not run. -/
def fwOther (f : LaneFw) : FwBank := fwBank f (1 - f.run)
def setFwOther (f : LaneFw) (b : FwBank) : LaneFw := setFwBank f (1 - f.run) b
/-- A lane's update page. -/
def lupdPage (id : LaneId) : Nat := 0x1B + 0x10 * laneNum id
/-- A field of a lane's update page in the state both lanes hold. -/
def lupdFld (f : Fld) (id : LaneId) : Fld := { f with off := f.off + 0x10000 * laneNum id }
def lupdResult (id : LaneId) (r : Nat) (s : State) : State := s.modFw id (fun f => { f with result := r })

/-! ### LOCK (R362) -/

/-- The lane-owned pages an update locks. -/
def lockPages : List Nat :=
  (upto 256).filter (fun p => (match pageInfo p with | some i => i.laneOwned | none => false) && !([0x10, 0x11, 0x1B, 0x1C, 0x20, 0x21, 0x2B, 0x2C].contains p))
/-- Set or clear PG_GATE.LOCK of pages. -/
def lockSet (on : Bool) (ps : List Nat) (s : State) : State :=
  { s with regs := ps.foldl (fun rf p => rset rf (hdrGate p) (BitVec.ofNat 32 (putBitN (rget rf (hdrGate p)).toNat 2 on))) s.regs }

/-! ### Boot (R328, R354, R358) -/

/-- A lane whose image is taken completes boot: its measurement and boot count are those of the bank it runs. -/
def bootPass (id : LaneId) (bank : Nat) (s : State) : State :=
  let d := 2 + laneNum id
  let dig := imgDigest (bankHead (fwBank (s.fw id) bank))
  let s := s.modFw id (fun f => { f with run := bank })
  let s := dieBoot d { s with sec := { s.sec with meas := lset s.sec.meas d dig } }
  let s := s.modLane id (coreMod (fun c => { c with bootDone := true }))
  if s.twin.passive || s.twin.waiting then s else s.modLane id (bootResolve id)
/-- A refused bank shows in LSEC_STAT; with both refused the other lane records it (R328). -/
def bankRefusal (id : LaneId) (s : State) : State := s.setLsec id { s.lsec id with bankRefused := true }
def bothRefused (id : LaneId) (s : State) : State :=
  s.modLane (otherLane id) (fun l => if l.running then l.lev (otherLane id) Ev.bankRefused (laneNum id) else l)
/-- BOOT_COMPLETE: the boot ROM takes the running bank's image, or else the other bank's; a lane with both refused stays in BOOT. A trial bank
that is refused has failed its trial. -/
def bootComplete (id : LaneId) (s : State) : State :=
  let f := s.fw id
  if (s.lane id).core.mode ≠ .boot ∨ (s.lane id).core.bootDone = true then s
  else if imgOk s 2 (bankImage (fwBank f f.run)) then bootPass id f.run (s.setLsec id { s.lsec id with bankRefused := false })
  else
    let s := bankRefusal id s
    if imgOk s 2 (bankImage (fwOther f)) then
      bootPass id (1 - f.run) (if f.trial.isSome then s.modFw id (fun f => { f with trial := none, phase := 4, fail := 7 }) else s)
    else bothRefused id s
def execBootComplete (lane : LaneId) (s : State) : Host.Outcome State Fault Refusal := .next (bootComplete lane s)
/-- LANE_WATCHDOG_RESET: the lane restarts from whatever state it is in (R358). -/
def execLaneWatchdogReset (lane : LaneId) (s : State) : Host.Outcome State Fault Refusal := .next (laneRestart lane s)

/-! ### LUPD_CMD (R360) -/

/-- A write of a lane's update page through the mailbox. -/
def lupdEntry (id : LaneId) (f : State → State) (s : State) : State :=
  if s.laneOk (lupdPage id) false && (s.laneA.votes || s.laneB.votes) then f s else s
/-- STAGE: the inactive bank is erased for an image. -/
def lupdStage (id : LaneId) (s : State) : State :=
  let f := s.fw id
  if f.phase = 2 ∨ f.phase = 5 then lupdResult id 3 s
  else
    let x := setFwOther f .init
    s.setFw id { x with phase := 1, fail := 0, svn := 0, result := 1, verify := none }
/-- LUPD_WDATA_k: a word at LUPD_OFF + 4k; beyond 2F_FFFCh it is refused, outside STAGING discarded and counted. -/
def lupdWdata (id : LaneId) (k data : Nat) (s : State) : State :=
  let f := s.fw id
  let a := fget s.leadRegs (lupdFld F.LUPD_OFF_OFF id) + k
  if 0x2FFFFC / 4 < a then s
  else if f.phase ≠ 1 then s.err (lupdPage id) 0x80
  else s.setFw id (setFwOther f { fwOther f with words := tset 0 (fwOther f).words a data })
/-- VERIFY: the check of the staged image begins. -/
def lupdVerify (id : LaneId) (s : State) : State :=
  if (s.fw id).phase = 1 then s.modFw id (fun f => { f with phase := 2, result := 1, verify := some s.time.count }) else lupdResult id 3 s
/-- The state layout number of a Seif image: the first 4 bytes of its body (R361). -/
def imgLayout (i : List Nat) : Nat := leAt (imgBody i) 0 4
/-- The first failing code of the staged image (R325, R326, R361): header, signature, digest, SVN, state layout, flash. -/
def lupdCode (s : State) (id : LaneId) (flashOk : Bool) : Nat :=
  let f := s.fw id
  let i := bankImage (fwOther f)
  if !imgForm 2 i then 1
  else if !imgSigned s i then 2
  else if !imgDigestOk i then 3
  else if imgSvn i < svnFloor s 2 ∨ 64 < imgSvn i then 4
  else if imgLayout i ≠ imgLayout (bankImage (fwBank f f.run)) then 5
  else if !flashOk then 6 else 0
/-- LUPD_VERIFY_COMPLETE: the check of the staged image has ended; `flashOk` says that the bank was erased and read back as written. -/
def lupdVerified (id : LaneId) (flashOk : Bool) (s : State) : State :=
  if (s.fw id).phase = 2 then
    let c := lupdCode s id flashOk
    s.modFw id (fun f => { f with phase := if c = 0 then 3 else 4, fail := c, svn := imgSvn (bankHead (fwOther f)) % 128, verify := none,
                                  result := if c = 0 then f.result else 2 })
  else s
/-- ACTIVATE: the STANDBY target restarts from the staged bank, as a trial, under the LOCK of R362. -/
def lupdActivate (id : LaneId) (s : State) : State :=
  let o := (s.lane (otherLane id)).core
  if (s.fw id).phase ≠ 3 ∨ (s.lane id).core.mode ≠ .standby then lupdResult id 3 s
  else if o.mode ≠ .authority ∨ o.rot.clear = false then lupdResult id 4 s
  else
    let s := s.modFw id (fun f => { f with phase := 5, run := 1 - f.run, trial := some s.time.count, lock := true, result := 1 })
    laneRestart id (lockSet true lockPages s)
/-- ROLLBACK: a lane in STANDBY or OUT restarts from its other bank, when that bank passes verification. -/
def lupdRollback (id : LaneId) (s : State) : State :=
  let m := (s.lane id).core.mode
  if m ≠ .standby ∧ m ≠ .out then lupdResult id 3 s
  else if imgOk s 2 (bankImage (fwOther (s.fw id))) then laneRestart id (s.modFw id (fun f => { f with run := 1 - f.run, phase := 0, trial := none, result := 1 }))
  else lupdResult id 2 s
/-- ABORT: the staged update is abandoned; a trial is not. -/
def lupdAbort (id : LaneId) (s : State) : State :=
  if (s.fw id).phase = 5 then lupdResult id 3 s
  else s.modFw id (fun f =>
      let x := setFwOther f { fwOther f with words := [] }
      { x with phase := 0, fail := 0, verify := none, result := 1 })
/-- LUPD_CMD by code. -/
def lupdCmd (id : LaneId) (code : Nat) (s : State) : State :=
  match code with
  | 1 => lupdStage id s
  | 2 => lupdVerify id s
  | 3 => lupdActivate id s
  | 4 => lupdRollback id s
  | 5 => lupdAbort id s
  | _ => s
/-- A trial that failed: FAIL_CODE 07h and a reboot from the previous bank. -/
def trialFail (id : LaneId) (s : State) : State :=
  laneRestart id (s.modFw id (fun f => { f with phase := 4, fail := 7, run := 1 - f.run, trial := none }))
/-- TRIAL_TIMEOUT: 3,600 s after ACTIVATE the trial lane has not reached STANDBY. -/
def trialTimeout (id : LaneId) (s : State) : State :=
  match (s.fw id).trial with
  | some t => if t + 29491200 ≤ s.time.count ∧ (s.lane id).core.mode.decides = false then trialFail id s else s
  | none => s
/-- The LOCK ends when its target reaches STANDBY or OUT. -/
def lockEnd (id : LaneId) (s : State) : State :=
  let m := (s.lane id).core.mode
  if (s.fw id).lock && (m.decides || m == .out) then lockSet false lockPages (s.modFw id (fun f => { f with lock := false })) else s
/-- A trial in a tick: STANDBY makes the trial bank the running one; OUT ends it, and the timeout once the tick it expires in has ended (R16). -/
def trialTick (id : LaneId) (s : State) : State :=
  let m := (s.lane id).core.mode
  let s := lockEnd id s
  match (s.fw id).trial with
  | none => s
  | some t =>
    if m.decides then s.modFw id (fun f => { f with trial := none, phase := 0 })
    else if m = .out then trialFail id s
    else if t + 29491200 < s.time.count then trialFail id s else s

def execLupdStage (lane : LaneId) (s : State) : Host.Outcome State Fault Refusal := .next (lupdEntry lane (lupdStage lane) s)
def execLupdWdata (lane : LaneId) (k : Fin 7) (data : Word) (s : State) : Host.Outcome State Fault Refusal :=
  .next (lupdEntry lane (lupdWdata lane k.val data.toNat) s)
def execLupdVerify (lane : LaneId) (s : State) : Host.Outcome State Fault Refusal := .next (lupdEntry lane (lupdVerify lane) s)
def execLupdVerifyComplete (lane : LaneId) (eraseOk flashOk : Bool) (s : State) : Host.Outcome State Fault Refusal :=
  .next (lupdVerified lane (eraseOk && flashOk) s)
def execLupdActivate (lane : LaneId) (s : State) : Host.Outcome State Fault Refusal := .next (lupdEntry lane (lupdActivate lane) s)
def execLupdRollback (lane : LaneId) (s : State) : Host.Outcome State Fault Refusal := .next (lupdEntry lane (lupdRollback lane) s)
def execLupdAbort (lane : LaneId) (s : State) : Host.Outcome State Fault Refusal := .next (lupdEntry lane (lupdAbort lane) s)
def execTrialTimeout (lane : LaneId) (s : State) : Host.Outcome State Fault Refusal := .next (trialTimeout lane s)

end Sys2Proof.Machine
end

