-- ==== Sys2Proof/Machine/Hervi.lean ====
section
/-! DEFINITION. Hervi's services (R215, R216, R290, R318–R321, R353, R358, R359, R363, R364): the lane write queue, Redfish, the relay of
shutdown requests, the restarts and updates of Hervi and Xoide. -/
namespace Sys2Proof.Machine
open Sys2Proof

def State.onHerv (s : State) (f : HerviSt → HerviSt) : State := { s with herv := f s.herv }

/-! ### The lane write queue (R318, R321) -/

/-- The HTTP status of a refused lane write (R321). -/
def httpOf (code : Nat) : Nat :=
  match code with
  | 2 | 3 | 4 => 400
  | 6 => 403
  | 7 => 409
  | 0xB => 503
  | _ => 500
/-- An answer of the Redfish service. -/
def redAnswer (status : Nat) (body : List Nat) (s : State) : State := s.onHerv (fun h => { h with status := status, answer := body })
/-- The first batch of the request at the head goes into the mailbox, with a tag other than the last one's. -/
def reqSend (q : LaneReq) (s : State) : State :=
  let t := (s.herv.tag + 1) % 65536
  let t := if t = s.fld F.SYS_MBOX_STAT_TAG then (t + 1) % 65536 else t
  let b := q.batches.head?.getD []
  let s := (upto b.length).foldl (fun s n =>
    let e := lget ⟨0, 0, 0⟩ b n
    ((s.setFld (F.SYS_MBOX_ADDR_ADDR n) (e.addr / 4)).setFld (F.SYS_MBOX_DATA n) e.data.toNat).setFld (F.SYS_MBOX_MASK_MASK n) e.mask.toNat) s
  let s := mboxSend t b s
  s.onHerv (fun h => { h with tag := t, reqs := { q with sent := true } :: h.reqs.drop 1 })
/-- A request that is complete, or whose batch was refused: Redfish answers; the tamper clear and the attestation go on or end (R333, R339);
an attestation for which no lane answers goes on without the lanes' signatures. -/
def reqEnd (q : LaneReq) (code first : Nat) (s : State) : State :=
  let s := s.onHerv (fun h => { h with reqs := h.reqs.drop 1 })
  let s := if code = 5 then s.note 0 6 0 first Ev.mboxNotLane 0 else if code = 8 then s.note 0 6 0 first Ev.mboxTagReuse 0 else s
  if q.src = 1 then tamperAnswer (code == 1) s
  else if q.src = 2 then
    (if code = 1 ∨ code = 0xB then s else secDone 9 (({ s with sec := { s.sec with att := none } }).setFld F.SEC_STAT_ATT_BUSY 0))
  else if code = 1 then redAnswer 200 [] s else redAnswer (httpOf code) [code, first] s
/-- One step of the queue: the next batch goes out, or the reply to the last is taken. A request of another service than Redfish has its answer
once the lanes have applied its last batch. -/
def pumpOnce (s : State) : State :=
  match s.herv.reqs with
  | [] => s
  | q :: _ =>
    if s.fld F.SYS_MBOX_STAT_BUSY = 1 then s
    else if !q.sent then reqSend q s
    else if s.fld F.SYS_MBOX_STAT_DONE = 0 ∨ s.fld F.SYS_MBOX_STAT_TAG ≠ s.herv.tag then s.onHerv (fun h => { h with reqs := { q with sent := false } :: h.reqs.drop 1 })
    else
      let code := s.fld F.SYS_MBOX_STAT_CODE
      if code ≠ 1 then reqEnd q code (s.fld F.SYS_MBOX_STAT_FIRST_BAD) s
      else if 2 ≤ q.batches.length then s.onHerv (fun h => { h with reqs := { q with batches := q.batches.drop 1, sent := false } :: h.reqs.drop 1 })
      else if q.src ≠ 0 ∧ s.time.count < s.fld F.SYS_MBOX_APPLY_TICK_TICK then s
      else reqEnd q 1 0 s
/-- LANE_WRITE_QUEUE: Hervi takes a reply and issues the next batch within 4 µs of it. -/
def hervPump (s : State) : State := if s.herv.up then pumpOnce (pumpOnce (pumpOnce s)) else s

/-! ### Redfish (R320) -/

/-- Whether a rack, or a slot of it, is configured. -/
def rackConf (s : State) (r : Nat) : Bool := decide (r < (s.lane s.lead).row.caps.nrack)
def slotConf (s : State) (r k : Nat) : Bool := rackConf s r && decide (k < lget 0 (s.lane s.lead).row.caps.nslot r)
/-- A share as Redfish shows it, 0.25 W: FFFFh is no limit. -/
def redBody (s : State) (res : RedRes) : Option (List Nat) :=
  let r := (s.lane s.lead).row
  match res with
  | .root | .update => some []
  | .chassis => some ((invBytes s 0 0).take 16 ++ [modeNum s.laneA.core.mode, modeNum s.laneB.core.mode, s.laneA.core.claim, s.laneB.core.claim, b2n r.prot.conserv,
      b2n (s.laneA.core.merge || s.laneB.core.merge)])
  | .sensorPair k => some (match pairRead r.sens k.val with | some x => [ux 32 x] | none => [])
  | .sensorCh g n => if r.f (F.SENS_CH_CFG_EN g.val n.val) = 1 then some [ux 32 (tget {} r.sens.chan (32 * g.val + n.val)).value] else none
  | .sensorFeed b => some [if b then s.pwr.vinB else s.pwr.vinA]
  | .sensorIin => some [s.pwr.iin]
  | .assembly => some ((invKeys.map (fun k => invBytes s k.1 k.2)).flatten)
  | .rack k => if rackConf s k.val then some [b2n (bitOf r.prot.iso k.val), b2n (bitOf r.prot.roff k.val), b2n (bitOf r.caps.habRacks k.val)] else none
  | .budget k => if rackConf s k.val then some [capRack r.caps (96 * k.val)] else none
  | .pkg k t =>
    let e := 96 * k.val + t.val
    if slotConf s k.val t.val then some [capRack r.caps e, capHost r.caps e, (epAt r.caps e).c, (epAt r.caps e).bind] else none
  | .manager => some [(svnRunning s 0).getD 0, (svnRunning s 1).getD 0, (svnRunning s 2).getD 0, s.fld F.PTP_STAT_LOCKED]
  | .events => some ((s.mrec.entries.map entryBytes).flatten)
  | .subscriptions => some (s.herv.subs.map (fun x => x.id))
  | .hall => some ((s.crvn.hall.map (fun x => match x.2 with | some (b, _) => x.1 :: b | none => [])).flatten)
  | .other => none
/-- REDFISH_GET: 404 for a resource the service does not have. -/
def redGet (res : RedRes) (s : State) : State :=
  if s.herv.redfish then (match redBody s res with | some b => redAnswer 200 b s | none => redAnswer 404 [] s) else s
def execRedfishGet (res : RedRes) (s : State) : Host.Outcome State Fault Refusal := .next (redGet res s)

/-- Mailbox entries of the cap tables. -/
def gatherEntry (b : Bool) : MboxEntry := ⟨0x601C0, BitVec.ofNat 32 (b2n b), 1⟩
def ptrEntry (e : Nat) : MboxEntry := ⟨0x60110, BitVec.ofNat 32 (e % 4096), 0x3FFF⟩
def shareEntry (v k : Nat) : MboxEntry := ⟨0x60114 + 4 * k, BitVec.ofNat 32 v, 0xFFFF⟩
def shareEntries (v n : Nat) : List MboxEntry := (upto n).map (shareEntry v)
/-- The 14 batches of a Budget PATCH: 96 words under one GATHER (R320). -/
def budgetBatches (rack v : Nat) : List (List MboxEntry) :=
  [gatherEntry true :: ptrEntry (96 * rack) :: shareEntries v 6] ++
  (upto 12).map (fun k => ptrEntry (96 * rack + 6 + 7 * k) :: shareEntries v 7) ++
  [ptrEntry (96 * rack + 90) :: shareEntries v 6 ++ [gatherEntry false]]
/-- The batch of one package's share, under its own GATHER (R215). -/
def pkgBatches (e v : Nat) : List (List MboxEntry) := [[gatherEntry true, ptrEntry e, shareEntry v 0, gatherEntry false]]
/-- A SetPoint in 0.25 W; null writes FFFFh. -/
def setPoint (x : Option (BitVec 16)) : Nat := match x with | some v => v.toNat | none => 0xFFFF
def redPatch (conf : Bool) (b : List (List MboxEntry)) (s : State) : State :=
  if !s.herv.redfish then s else if !conf then redAnswer 404 [] s else hervPump (laneReq 0 b (redAnswer 0 [] s))
def execRedfishBudgetPatch (rack : Fin 24) (share : Option (BitVec 16)) (s : State) : Host.Outcome State Fault Refusal :=
  .next (redPatch (rackConf s rack.val) (budgetBatches rack.val (setPoint share)) s)
def execRedfishPkgPatch (rack : Fin 24) (slot : Fin 96) (share : Option (BitVec 16)) (s : State) : Host.Outcome State Fault Refusal :=
  .next (redPatch (slotConf s rack.val slot.val) (pkgBatches (96 * rack.val + slot.val) (setPoint share)) s)
/-- EventService: POST and DELETE of a subscription. -/
def subscribe (kinds racks : Nat) (s : State) : State :=
  if !s.herv.redfish then s
  else redAnswer 200 [s.herv.nextSub] (s.onHerv (fun h => { h with subs := h.subs ++ [⟨h.nextSub, kinds, racks⟩], nextSub := h.nextSub + 1 }))
def execRedfishSubscribe (kinds : BitVec 3) (racks : BitVec 24) (s : State) : Host.Outcome State Fault Refusal :=
  .next (subscribe kinds.toNat racks.toNat s)
def unsubscribe (id : Nat) (s : State) : State :=
  if !s.herv.redfish then s
  else if s.herv.subs.any (fun x => x.id == id) then redAnswer 200 [] (s.onHerv (fun h => { h with subs := h.subs.filter (fun x => x.id != id) }))
  else redAnswer 404 [] s
def execRedfishUnsubscribe (id : Nat) (s : State) : Host.Outcome State Fault Refusal := .next (unsubscribe id s)

/-! ### Events to rack managers (R216, R290, R320) -/

/-- Tell every subscription of a kind about the racks of a bit map. -/
def tellSubs (kind racks : Nat) (s : State) : State :=
  let new := (s.herv.subs.filter (fun x => bitOf x.kinds kind)).flatMap (fun x =>
    ((upto 24).filter (fun k => bitOf racks k && bitOf x.racks k)).map (fun k => (x.id, kind, k)))
  s.onHerv (fun h => { h with sent := h.sent ++ new })
/-- SHUTDOWN_RELAY: Hervi reads CAPC_OFF and sends a shutdown request for every rack new in it. -/
def shutdownRelay (s : State) : State :=
  if !s.herv.redfish then s
  else
    let off := fget (s.lane s.lead).pub F.CAPC_OFF_RACKS
    (tellSubs 0 (clrBits off s.herv.relayed) s).onHerv (fun h => { h with relayed := off })
def execShutdownRelay (s : State) : Host.Outcome State Fault Refusal := .next (shutdownRelay s)
/-- Racks with a binding source other than last told, and the verdicts entered since. -/
def hervTell (s : State) : State :=
  if !s.herv.redfish then s
  else
    let c := (s.lane s.lead).row.caps
    let eps := (capEndpoints c).filter (fun e => (epAt c e).bind != tget 1 s.herv.binds e)
    let racks := eps.foldl (fun x e => setBitN x (e / 96)) 0
    let v := protStatBits (s.lane s.lead).row
    let s := tellSubs 2 (if clrBits v s.herv.verdicts = 0 then 0 else 2 ^ 24 - 1) (tellSubs 1 racks s)
    s.onHerv (fun h => { h with binds := eps.foldl (fun t e => tset 1 t e (epAt c e).bind) h.binds, verdicts := v })
/-- Hervi's events of a frame. -/
def hervFrame (s : State) : State := hervTell (shutdownRelay (s.onHerv (fun h => { h with sent := [] })))

/-! ### Restart and update of Hervi (R44, R290, R353, R358, R363) -/

/-- The Hervi cores stop: the queue of requests and the SYS page are lost; the lanes, Xoide and the main recorder go on. -/
def hervDown (s : State) : State :=
  let s := s.onHerv (fun h => { h with up := false, redfish := false, reqs := [], status := 0, answer := [], sent := [] })
  { s with regs := clearPage s.regs 0, sec := { s.sec with att := none } }.setFld F.SEC_STAT_ATT_BUSY 0
def execHerviRestart (s : State) : Host.Outcome State Fault Refusal := .next (hervDown s)
def hervImg (h : HerviSt) (b : Nat) : Option (List Nat) := if b = 0 then h.img0 else h.img1
/-- Hervi runs from a bank: its services start, the recorder with them, CRVN_CFG.CDU_ID is the CDU record's AUX (R351), and it brings the UCIe link up for Xoide's firmware. -/
def hervRun (b : Nat) (s : State) : State :=
  let dig := match hervImg s.herv b with | some i => imgDigest i | none => 0
  let s := s.onHerv (fun h => { h with up := true, redfish := true, halted := false, bank := b, trial := none, relayed := 0, binds := [], verdicts := 0 })
  let s := dieBoot 0 { s with sec := { s.sec with meas := lset s.sec.meas 0 dig }, pwr := { s.pwr with pkgRail := true } }
  let s := (s.setFld F.SEC_STAT_HERVI_BANK b).setFld F.CRVN_CFG_CDU_ID (tget {} s.inv.live (6 * 256)).aux
  let s := oppMove s
  let s := if s.mrec.running then s else recorderStart s
  if (blkGet s 0x90).state = .off then blockEnable 0x90 s else s
/-- HERVI_BOOT_COMPLETE: the security ROM takes the running bank's image, else the other bank's; with both refused Hervi halts (R328). -/
def hervBoot (s : State) : State :=
  let h := s.herv
  if h.up ∨ !(s.pwr.pkgRail || (s.pwr.laneRail && !s.pwr.holdup)) then s
  else if imgTaken s 0 (hervImg h h.bank) then hervRun h.bank s
  else if imgTaken s 0 (hervImg h (1 - h.bank)) then (hervRun (1 - h.bank) s).note 0 7 0xA0 0xFFFF Ev.herviBank h.bank
  else s.onHerv (fun h => { h with halted := true, trial := none })
def execHerviBootComplete (s : State) : Host.Outcome State Fault Refusal := .next (hervBoot s)
/-- HERVI_TRIAL_TIMEOUT: 60 s, 491,520 ticks, without Redfish: the watchdog resets the die, the previous bank boots, an event is recorded. -/
def hervTrialTimeout (s : State) : State :=
  match s.herv.trial with
  | some t =>
    if t + 491520 ≤ s.time.count ∧ s.herv.redfish = false then
      ((hervDown s).onHerv (fun h => { h with bank := 1 - h.bank, trial := none })).note 0 7 0xA0 0xFFFF Ev.herviBank s.herv.bank
    else s
  | none => s
/-- The same by itself, once the tick it expires in has ended without Redfish (R16). -/
def hervTrialTick (s : State) : State :=
  match s.herv.trial with
  | some t => if t + 491520 < s.time.count then hervTrialTimeout s else s
  | none => s
def execHerviTrialTimeout (s : State) : Host.Outcome State Fault Refusal := .next (hervTrialTimeout s)

/-! ### Xoide's firmware and its set (R328, R359, R364) -/

/-- XOIDE_BOOT_COMPLETE: Xoide takes its firmware, or stays in reset with the refusal shown; once it runs Hervi enables quadrants 0–4 and ergs 0–7.
A refused new image leaves the old one to be loaded next. -/
def xoideBoot (s : State) : State :=
  let img := match s.herv.xNew with | some i => some i | none => s.herv.xOld
  if s.x.up ∨ !s.herv.up then s
  else if imgTaken s 1 img then
    let dig := match img with | some i => imgDigest i | none => 0
    let s := (s.onHerv (fun h => { h with xOld := img, xNew := none })).onX (fun x => { x with up := true })
    let s := dieBoot 1 { s with sec := { s.sec with meas := lset s.sec.meas 1 dig } }
    let s := s.setFld F.SEC_STAT_XOIDE_BOOT 0
    ((upto 5).map (fun q => 0x8A + q) ++ (upto 8).map (fun n => 0x80 + n)).foldl (fun s k => blockEnable k s) s
  else (s.setFld F.SEC_STAT_XOIDE_BOOT 1).onHerv (fun h => { h with xNew := none })
def execXoideBootComplete (s : State) : Host.Outcome State Fault Refusal := .next (xoideBoot s)
/-- Every quadrant and erg runs. -/
def xBlocksRun (s : State) : Bool := quadsRun s && (upto 8).all (fun n => (blkGet s (0x80 + n)).state == .run)
/-- Hervi's work for Xoide in a tick: LOAD of the manifest that was active once all blocks run, ARM once it is fitted, and the end of an update's LOCK
when XJOB_ACTIVE names the set again. -/
def hervXoide (s : State) : State :=
  let s := match s.herv.xset with
    | none => s
    | some m =>
      if !s.x.up || !s.herv.up || s.x.fitting.isSome || s.x.armed.isSome then s
      else if s.x.active.isSome || s.fld F.XJOB_FIT_STATUS == 3 then s.onHerv (fun h => { h with xset := none })
      else if s.x.fitted.isSome then xjobArm (s.setFld F.XJOB_ARM_FRAME_FRAME ((xFrame s + 2) % 2 ^ 32))
      else if xBlocksRun s then xjobLoad m s else s
  match s.herv.xUpdate with
  | some id => if s.x.up ∧ s.fld F.XJOB_ACTIVE_SET_ID = id then lockSet false xPages (s.onHerv (fun h => { h with xUpdate := none })) else s
  | none => s
/-- REDFISH_SIMPLE_UPDATE: a Hervi image goes to the inactive bank and is booted as a trial; an Xoide image stands beside the old one, pages 080–08F
are locked and Xoide is reset; a policy image is taken if it verifies. Lane images and model sets then follow R360 and R191. -/
def simpleUpdate (i : List Nat) (s : State) : State :=
  if !s.herv.redfish then s
  else if imgKind i = 0 then
    let s := s.onHerv (fun h => if h.bank = 0 then { h with img1 := some i, bank := 1 } else { h with img0 := some i, bank := 0 })
    hervDown (s.onHerv (fun h => { h with trial := some s.time.count }))
  else if imgKind i = 1 then
    let id := match s.x.active with | some m => m.setId | none => 0
    redAnswer 200 [] (xoideReset (lockSet true xPages (s.onHerv (fun h => { h with xNew := some i, xUpdate := some id }))))
  else if imgKind i = 0x10 then
    (if imgOk s 0x10 i then redAnswer 200 [] (s.onHerv (fun h => { h with policy := some i })) else redAnswer 400 [] s)
  else if imgKind i = 2 ∨ imgKind i = 0x20 then redAnswer 200 [] s
  else redAnswer 400 [] s
def execRedfishSimpleUpdate (img : List (BitVec 8)) (s : State) : Host.Outcome State Fault Refusal := .next (simpleUpdate (img.map BitVec.toNat) s)

/-! ### The package rail (R58, R358) -/

/-- PACKAGE_RAIL_LOSS: Xoide and Hervi stop together; LPDDR6, Hervi's SRAM, their pages and the main recorder are lost; the governor drops every
Xoide request and ledger entry. The token counter is Hervi security's store (R330). -/
def pkgLoss (s : State) : State :=
  let s := xoideClear false (hervDown s)
  let s := { s with pwr := { s.pwr with pkgRail := false }, ucie := .init, blk := tclear s.blk 0x90 0x91, hopp := .hervi,
                    herv := { s.herv with sram := [], halted := false, xset := none },
                    mrec := { s.mrec with entries := [], head := 1, queue := [], peak := 0, events := List.replicate 8 0, lost := List.replicate 8 0,
                                          lastCursor := 0, unread := 0, running := false, seenA := List.replicate 8 0, seenB := List.replicate 8 0,
                                          seenSh := List.replicate 8 0 },
                    mbox := { s.mbox with flight := none }, sec := { s.sec with dbg := s.sec.dbg / 4 * 4 } }
  let kept := [0x1100, 0x1104, 0x1108, F.SEC_CHAL_CNT_COUNT.off]
  let s := { s with regs := kept.foldl (fun r a => rset r a (rget s.regs a)) ([1, 0x90, 0xA0, 0xB0, 0xB1].foldl clearPage s.regs) }
  oppShow (supplyLims (recShow (ownerShow (panShow s))))
def execPackageRailLoss (s : State) : Host.Outcome State Fault Refusal := .next (pkgLoss s)

end Sys2Proof.Machine
end

