-- ==== Sys2Proof/Machine/Twin.lean ====
section
/-! DEFINITION. The twin (R306, R366–R370, R387–R389): field ownership, PAIR frames, pairing, handover. -/
namespace Sys2Proof.Machine
open Sys2Proof

/-- What a LOG or the end of a snapshot brings: the running module's row state, whose words the spec does not lay out. Free. -/
opaque mirrorRow : Nat → RowSt

def State.onTwin (s : State) (f : TwinSt → TwinSt) : State := { s with twin := f s.twin }
/-- SEQ of the present tick (R77). -/
def State.seqNow (s : State) : Nat := (s.time.seqBase + s.time.count) % 2 ^ 32

/-! ### The field (R366, R369, R388, R389) -/

/-- The module drives the field wiring: FIELD_OWN_N low, Playa out of reset, front ends connected. -/
def takeField (s : State) : State :=
  let s := (upto 2).foldl (fun s c => dieBoot (4 + c) ((chipReset c s).modChip c (fun x => { x with powered := true }))) s
  s.onTwin (fun t => { t with owner := true, passive := false, waiting := false })
/-- Step 1 of R369: lanes OUT, Playa in reset, front ends passive, FIELD_OWN_N released. -/
def releaseField (s : State) : State :=
  let s := (upto 2).foldl (fun s c => (chipReset c s).modChip c (fun x => { x with powered := false })) s
  let out := fun (id : LaneId) (s : State) => if (s.lane id).core.mode = .out then s else s.modLane id (goOut id 3)
  (out .b (out .a s)).onTwin (fun t => { t with owner := false, released := true, serving := false, hand := none, bTick := none, sentFinal := false })
/-- Where a module that comes up stands: passive beside an owner, else in the first slot owner, in the second slot waiting (R366). -/
def fieldChoice (s : State) : State :=
  if s.twin.peerOwn then s.onTwin (fun t => { t with passive := true, waiting := false })
  else if s.twin.slot then s.onTwin (fun t => { t with passive := false, waiting := true, highRun := 0 })
  else takeField s
/-- SECOND_SLOT_WAIT: PEER_OWN_N high for 16,384 ticks. -/
def slotWait (s : State) : State := if s.twin.waiting ∧ !s.twin.peerOwn ∧ 16384 ≤ s.twin.highRun then takeField s else s
def execSecondSlotWait (s : State) : Host.Outcome State Fault Refusal := .next (slotWait s)
/-- PEER_OWN_CONFLICT: an owner that samples PEER_OWN_N low in 8 ticks records it once; in the second slot it releases the field unless it
took it under a handover within the last 16 ticks. -/
def ownConflict (s : State) : State :=
  if s.twin.owner ∧ s.twin.lowRun = 8 then
    let s := (s.onTwin (fun t => { t with lowRun := 9 })).note 7 6 0xA1 0xFFFF Ev.peerOwn 0
    let recent : Bool := match s.twin.tookAt with | some t => decide (s.time.count ≤ t + 16) | none => false
    if s.twin.slot && !recent then releaseField s else s
  else s
def execPeerOwnConflict (s : State) : Host.Outcome State Fault Refusal := .next (ownConflict s)
/-- The runs of PEER_OWN_N, sampled once a tick. -/
def peerSample (t : TwinSt) : TwinSt :=
  { t with lowRun := if t.peerOwn then (if t.lowRun = 9 then 9 else t.lowRun + 1) else 0, highRun := if t.peerOwn then 0 else min 16384 (t.highRun + 1) }

/-! ### Pairing on the twin (R367) -/

/-- Pairing starts over. -/
def pairReset (t : TwinSt) : TwinSt :=
  { t with reqWait := 0, accepted := false, chunks := 0, eqRun := 0, pathRun := 0, pathOk := false, missRun := 0, statusIn := false, paired := false,
           handing := false, bSeq := 0, bFinal := false }
/-- A lane that mirrors the running module. -/
def mirrorLane (n gen : Nat) (l : Lane) : Lane :=
  { l with row := { mirrorRow n with events := [], irqs := [], errs := [] }, core := { l.core with gen := gen }, flash := { l.flash with gen := gen } }
def mirrors (l : Lane) : Bool := l.core.mode == .probation || l.core.mode == .standby
/-- The twin's lanes apply the words that have arrived: after the sixteenth tick of chunks they are in PROBATION; then each LOG. -/
def twinApply (s : State) : State :=
  if !s.twin.passive || !s.twin.accepted then s
  else
    let g := s.twin.peerGen
    let enter := fun (id : LaneId) (n : Nat) (s : State) =>
      if (s.lane id).core.mode = .resync then
        s.modLane id (fun l => Lane.lev (coreMod (fun c => { c with mode := .probation, probRun := 0 }) (mirrorLane n g l)) id Ev.laneProbation 0)
      else s
    if s.twin.chunks = 192 then
      let n := s.twin.mirror + 1
      (enter .b n (enter .a n s)).onTwin (fun t => { t with chunks := 193, mirror := n, logs := n })
    else if s.twin.mirror < s.twin.logs then
      let n := s.twin.logs
      let go := fun (id : LaneId) (s : State) => if mirrors (s.lane id) then s.modLane id (mirrorLane n g) else s
      (go .b (go .a s)).onTwin (fun t => { t with mirror := n })
    else s
/-- Step 4: the RHASH of the mirrored record beside the running lane's; 8,192 equal comparisons bring STANDBY, a difference in PROBATION is a
failed copy, after which the twin asks again. `rhash` is the mirrored record's. -/
def twinCompare (rhash : Nat) (s : State) : State :=
  if !s.twin.passive || !s.twin.statusIn || !(mirrors s.laneA || mirrors s.laneB) then s
  else if rhash = s.twin.rhash then
    let s := s.onTwin (fun t => { t with eqRun := min 0x2000 (t.eqRun + 1) })
    let up := fun (id : LaneId) (s : State) =>
      if (s.lane id).core.mode = .probation then s.modLane id (fun l => Lane.lev (coreMod (fun c => { c with mode := .standby }) l) id Ev.laneStandby 0) else s
    if s.twin.eqRun = 0x2000 then up .b (up .a s) else s
  else
    let fail := fun (id : LaneId) (s : State) => if (s.lane id).core.mode = .probation then s.modLane id (copyFailed id s.time.count) else s
    let was := s.laneA.core.mode == .probation || s.laneB.core.mode == .probation
    let s := (fail .b (fail .a s)).onTwin (fun t => { t with eqRun := 0 })
    if was then s.onTwin pairReset else s
/-- PAIRED: both twin lanes STANDBY and 2,048 ticks of path agreement. -/
def pairedSet (s : State) : State :=
  if s.twin.passive ∧ s.laneA.core.mode = .standby ∧ s.laneB.core.mode = .standby ∧ 2048 ≤ s.twin.pathRun then
    s.onTwin (fun t => { t with paired := true, pathOk := true })
  else s
def execPaired (s : State) : Host.Outcome State Fault Refusal := .next (pairedSet s)
/-- Both twin lanes to OUT as on DEMOTE, then to BOOT as on RESTART; pairing starts over. -/
def twinRestart (s : State) : State :=
  let go := fun (id : LaneId) (s : State) => laneRestart id (s.modLane id (goOut id 3))
  (go .b (go .a s)).onTwin (fun t => pairReset { t with result := if t.handing then 4 else t.result })
/-- PAIR_STATUS_LOSS: no PAIR STATUS for 16 ticks while PEER_OWN_N stays low. -/
def statusLoss (s : State) : State := if s.twin.passive ∧ s.twin.accepted ∧ s.twin.peerOwn ∧ 16 ≤ s.twin.missRun then twinRestart s else s
def execPairStatusLoss (s : State) : Host.Outcome State Fault Refusal := .next (statusLoss s)
def pairMiss (t : TwinSt) : TwinSt := if t.passive && t.accepted then { t with missRun := if t.statusIn then 0 else min 16 (t.missRun + 1) } else t

/-! ### Handover (R368, R369) -/

/-- Steps 2 and 3 of R369 on the twin: it owns the field, and lane A takes authority in P5. -/
def twinTake (s : State) : State :=
  let n := s.time.count
  let s := (takeField s).onTwin (fun t => { pairReset t with tookAt := some n, result := if t.handing then 1 else t.result, bSeq := t.bSeq })
  s.modLane .a (coreMod (fun c => { c with takeoverCmd := true }))
/-- HANDOVER_BOUNDARY: the running module releases at its final B, the twin takes the field at the B of a final B_SET. -/
def handBoundary (s : State) : State :=
  let t := s.twin
  if t.owner ∧ t.sentFinal ∧ (match t.bTick with | some b => decide (b ≤ s.time.count) | none => false) = true then releaseField s
  else if t.passive ∧ t.paired ∧ t.handing ∧ t.bFinal ∧ (s.seqNow = t.bSeq ∨ seqNewer s.seqNow t.bSeq = true) then twinTake s
  else s
def execHandoverBoundary (s : State) : Host.Outcome State Fault Refusal := .next (handBoundary s)
/-- A paired twin takes the field at the boundary after PEER_OWN_N went high (R367). -/
def peerGone (s : State) : State := if s.twin.passive ∧ s.twin.paired ∧ !s.twin.peerOwn then twinTake s else s
/-- PEER_OWN_CHANGE: the pin's new level. A twin that is not yet paired goes on as at power-on. -/
def peerOwnSet (low : Bool) (s : State) : State :=
  let s := s.onTwin (fun t => { t with peerOwn := low })
  if s.twin.owner || s.twin.released || s.twin.paired then s
  else if low then (if s.twin.waiting then fieldChoice s else s)
  else if s.twin.passive then
    let go := fun (id : LaneId) (s : State) => if (s.lane id).core.mode = .boot then s else laneRestart id s
    fieldChoice ((go .b (go .a s)).onTwin pairReset)
  else s
def execPeerOwnChange (low : Bool) (s : State) : Host.Outcome State Fault Refusal := .next (peerOwnSet low s)

/-! ### PAIR frames (R306) -/

/-- A frame of the module's own pair. -/
def pairFrom (s : State) (src : Nat) : Bool :=
  s.fld F.CRVN_CFG_PAIR_EN == 1 && s.crvn.order.any (fun x =>
    let k := tget (0, false) s.crvn.known x.1
    x.2 == some src && x.1 != ownUid s && k.2 && k.1 == s.fld F.CRVN_CFG_CDU_ID)
/-- The address of the other module of the pair. -/
def pairPeer (s : State) : Option Nat := s.crvn.order.findSome? (fun x => match x.2 with | some a => if pairFrom s a then some a else none | none => none)
def pairReceive (port : Fin 2) (ok : Bool) (h : CHdr) (lane : LaneId) (body : PairBody) (f : State → State) (s : State) : State :=
  portReceive port.val ok h (ringReceive port.val h (.pair (laneNum lane) body) (fun s => if pairFrom s h.src.toNat then f s else countDrop port.val s)) s
def pairSend (lane : LaneId) (dst : Nat) (body : PairBody) (s : State) : State := (originate dst false false (.pair (laneNum lane) body) s).1
/-- The AUTHORITY lane of the module. -/
def authLane (s : State) : Option LaneId :=
  if s.laneA.core.mode = .authority then some .a else if s.laneB.core.mode = .authority then some .b else none

/-- PAIR_REQ at the running module: ACCEPT when its AUTHORITY lane has a clear health report and neither lane is in MERGE or LINK_DOWN. -/
def pairServe (src : Nat) (s : State) : State :=
  match authLane s with
  | some id =>
    let l := s.lane id
    if s.twin.owner && !l.core.stFail && !s.laneA.core.merge && !s.laneB.core.merge && !s.laneA.core.linkDown && !s.laneB.core.linkDown then
      pairSend id src (.accept l.core.gen) (s.onTwin (fun t => { t with serving := true, served := 0, peerNode := src }))
    else s
  | none => s
def execPairReq (port : Fin 2) (ok : Bool) (hdr : CHdr) (lane : LaneId) (gen : BitVec 8) (s : State) : Host.Outcome State Fault Refusal :=
  .next (pairReceive port ok hdr lane (.req gen.toNat 0) (pairServe hdr.src.toNat) s)
/-- PAIR_ACCEPT at the twin: its lanes leave BOOT for RESYNC. -/
def pairTaken (src gen : Nat) (s : State) : State :=
  if s.twin.passive && !s.twin.accepted then
    let go := fun (id : LaneId) (s : State) => if (s.lane id).core.mode = .boot ∧ (s.lane id).core.bootDone then s.modLane id (goResync id) else s
    (go .b (go .a s)).onTwin (fun t => { t with accepted := true, chunks := 0, missRun := 0, peerNode := src, peerGen := gen })
  else s
def execPairAccept (port : Fin 2) (ok : Bool) (hdr : CHdr) (lane : LaneId) (gen : BitVec 8) (s : State) : Host.Outcome State Fault Refusal :=
  .next (pairReceive port ok hdr lane (.accept gen.toNat) (pairTaken hdr.src.toNat gen.toNat) s)
/-- What a paired frame does on a twin whose pairing was accepted. -/
def onPaired (f : State → State) (s : State) : State := if s.twin.passive && s.twin.accepted then f s else s
/-- PAIR_SNAP: the next of the 192 chunks. -/
def pairChunk (k : Nat) (s : State) : State := if k = s.twin.chunks ∧ k < 192 then s.onTwin (fun t => { t with chunks := k + 1 }) else s
def execPairSnap (port : Fin 2) (ok : Bool) (hdr : CHdr) (lane : LaneId) (chunk : BitVec 16) (s : State) : Host.Outcome State Fault Refusal :=
  .next (pairReceive port ok hdr lane (.snap chunk.toNat) (onPaired (pairChunk chunk.toNat)) s)
/-- PAIR_LOG: applied in P1 of the next tick. -/
def pairLog (s : State) : State := s.onTwin (fun t => { t with logs := t.mirror + 1 })
def execPairLog (port : Fin 2) (ok : Bool) (hdr : CHdr) (lane : LaneId) (s : State) : Host.Outcome State Fault Refusal :=
  .next (pairReceive port ok hdr lane .log (onPaired pairLog) s)
/-- Path agreement of one analog channel: the running module's sample and the twin's own within the path band of R99. -/
def pathAgrees (l : Lane) (id : LaneId) (x : Nat × Int) : Bool :=
  let g := x.1 / 32
  let n := x.1 % 32
  let mode := chanMode l.row.regs g n
  if 4 ≤ g ∨ fget l.row.regs (F.SENS_CH_CFG_EN g n) = 0 then true
  else match tget none l.fe.elec x.1 with
    | some e =>
      let cross := sensOwner g n != laneNum id
      let d := calX l.cal g n mode cross e - calX l.cal g n mode cross x.2
      let lim : Int := (if g < 2 then elecSpan g mode / 200 else 2000) * 4294967296
      decide (-lim ≤ d ∧ d ≤ lim)
    | none => false
/-- PAIR_INPUT: `elec` holds the sampled channels of the running lane's message, keyed by 32 × group + channel. -/
def pairInput (id : LaneId) (elec : List (Nat × Int)) (s : State) : State :=
  let ok := elec.all (pathAgrees (s.lane id) id)
  s.onTwin (fun t => { t with pathRun := if ok then min 2048 (t.pathRun + 1) else 0, pathOk := ok && (t.pathOk || decide (2048 ≤ t.pathRun + 1)) })
def execPairInput (port : Fin 2) (ok : Bool) (hdr : CHdr) (lane : LaneId) (elec : List (Nat × Int)) (s : State) : Host.Outcome State Fault Refusal :=
  .next (pairReceive port ok hdr lane (.input none) (onPaired (pairInput lane elec)) s)
/-- PAIR_STATUS: the twin's SEQ follows the running module's. -/
def pairStatus (claim rhash seq : Nat) (s : State) : State :=
  { s with twin := { s.twin with statusIn := true, rhash := rhash, peerSeq := seq, peerGen := if claim = 0 then s.twin.peerGen else claim / 256 },
           time := { s.time with seqBase := (seq + 2 ^ 32 - s.time.count % 2 ^ 32) % 2 ^ 32 } }
def execPairStatus (port : Fin 2) (ok : Bool) (hdr : CHdr) (lane : LaneId) (claim : BitVec 16) (rhash : BitVec 64) (seq : Word) (s : State) :
    Host.Outcome State Fault Refusal :=
  .next (pairReceive port ok hdr lane (.status none) (onPaired (pairStatus claim.toNat rhash.toNat seq.toNat)) s)
/-- PAIR_HANDOVER at the running module: latched in P1 of the next tick. -/
def handLatch (gen : Nat) (s : State) : State :=
  if s.twin.owner && s.twin.serving && s.twin.hand.isNone then s.onTwin (fun t => { t with hand := some (gen, s.time.count + 1), bTick := none, sentFinal := false }) else s
def execPairHandover (port : Fin 2) (ok : Bool) (hdr : CHdr) (lane : LaneId) (gen : BitVec 8) (s : State) : Host.Outcome State Fault Refusal :=
  .next (pairReceive port ok hdr lane (.handover gen.toNat) (handLatch gen.toNat) s)
/-- PAIR_B_SET at the twin. -/
def bSet (seq : Nat) (fin : Bool) (s : State) : State := if s.twin.handing then s.onTwin (fun t => { t with bSeq := seq, bFinal := fin }) else s
def execPairBSet (port : Fin 2) (ok : Bool) (hdr : CHdr) (lane : LaneId) (seq : Word) (fin : Bool) (s : State) : Host.Outcome State Fault Refusal :=
  .next (pairReceive port ok hdr lane (.bSet seq.toNat fin) (onPaired (bSet seq.toNat fin)) s)

/-! ### TWIN_CMD -/

/-- HANDOVER: refused unless PAIRED, and unless both Ethernet ports are in RUN and PTP is locked. -/
def twinHandover (s : State) : State :=
  if !s.twin.paired || s.twin.handing then s.onTwin (fun t => { t with result := 2 })
  else if (blkGet s 0x78).state != .run || (blkGet s 0x79).state != .run || s.fld F.PTP_STAT_LOCKED != 1 then s.onTwin (fun t => { t with result := 3 })
  else
    let g := (s.laneA.core.gen + 1) % 256
    pairSend .a s.twin.peerNode (.handover g) (s.onTwin (fun t => { t with handing := true, bSeq := 0, bFinal := false, result := 0 }))
/-- CANCEL before B: the twin takes the field at no B; no frame tells the running module. -/
def twinCancel (s : State) : State :=
  s.onTwin (fun t => if t.handing then { t with handing := false, bSeq := 0, bFinal := false, result := 1 } else { t with result := 1 })
def twinCmd (code : Nat) (s : State) : State := if code = 1 then twinHandover s else if code = 2 then twinCancel s else s
def twinCmdEntry (code : Nat) (s : State) : State :=
  if s.laneOk 0x1C (code == 1) && (s.laneA.votes || s.laneB.votes) then twinCmd code s else s
def execTwinHandover (s : State) : Host.Outcome State Fault Refusal := .next (twinCmdEntry 1 s)
def execTwinCancel (s : State) : Host.Outcome State Fault Refusal := .next (twinCmdEntry 2 s)

/-! ### What the lanes do about the pair in a tick -/

/-- The twin's lanes ask every 8,192 ticks until they are answered. -/
def twinReq (s : State) : State :=
  if !s.twin.passive || s.twin.accepted then s
  else if 0 < s.twin.reqWait then s.onTwin (fun t => { t with reqWait := t.reqWait - 1 })
  else
    match pairPeer s with
    | some a =>
      let ask := fun (id : LaneId) (s : State) =>
        if (s.lane id).core.mode = .boot ∧ (s.lane id).core.bootDone then pairSend id a (.req (s.lane id).core.gen (modeNum (s.lane id).core.mode)) s else s
      (ask .b (ask .a s)).onTwin (fun t => { t with reqWait := 8191 })
    | none => s
/-- P1 of the running module: from the latch tick of a HANDOVER its lanes stage nothing and emit only protective valve commands. -/
def handQuiet (s : State) : State :=
  match s.twin.hand with
  | some h => if s.twin.owner ∧ h.2 ≤ s.time.count then s.onRows (fun r => { r with prot := { r.prot with quiet := true } }) else s
  | none => s
/-- No valve profile is reported running or waiting, and the lanes emit no valve command. -/
def valvesStill (r : RowSt) : Bool :=
  r.act.items.isEmpty && (upto 96).all (fun k => match repCh r.act k with | some x => x.phase == 0 && !x.wait | none => false)
/-- The boundary B as it stands in tick `now` (R368): a frame boundary at least 2 ticks after the latch tick and after the pending transaction's;
two ticks before it the valves decide whether it is final. -/
def bChoose (now latch : Nat) (old : Option Nat) (r : RowSt) : Nat × Bool :=
  let lo := max (latch + 2) (match slipPending r.slip with | some t => t.a + 1 | none => 0)
  let b := (max lo (old.getD 0) + 7) / 8 * 8
  if b = now + 2 then (if valvesStill r then (b, true) else (b + 8, false)) else (b, false)
/-- B_SET in P7 of every tick from the latch to B − 2. -/
def handServe (id : LaneId) (s : State) : State :=
  match s.twin.hand with
  | some h =>
    if s.twin.sentFinal ∨ s.time.count < h.2 then s
    else
      let (b, fin) := bChoose s.time.count h.2 s.twin.bTick (s.lane id).row
      pairSend id s.twin.peerNode (.bSet ((s.time.seqBase + b) % 2 ^ 32) fin) (s.onTwin (fun t => { t with bTick := some b, sentFinal := fin }))
  | none => s
/-- P7 of a running module whose twin pairs: twelve SNAP chunks in each of 16 ticks, then LOG, INPUT and STATUS every tick. -/
def twinServe (s : State) : State :=
  match authLane s with
  | some id =>
    if s.twin.owner && s.twin.serving && s.fld F.CRVN_CFG_PAIR_EN == 1 then
      let k := s.twin.served
      let d := s.twin.peerNode
      let s := if k < 16 then ((upto 12).foldl (fun s j => pairSend id d (.snap (12 * k + j)) s) s).onTwin (fun t => { t with served := k + 1 }) else s
      handServe id (pairSend id d (.status (s.lane id).core.statusOwn) (pairSend id d (.input (some (inputOf (s.time.count + 1) id (s.lane id)))) (pairSend id d .log s)))
    else s
  | none => s
/-- The tick B − 1, whose valve commands the running module does not send (R368). -/
def handLast (s : State) : Bool := s.twin.owner && s.twin.sentFinal && s.twin.bTick == some (s.time.count + 1)
/-- The tick after the twin took the field: its own samples are not used (step 4 of R369). -/
def tookLast (s : State) : Bool := match s.twin.tookAt with | some t => s.twin.owner && s.time.count == t + 1 | none => false

/-- TWIN_STAT.ROLE. -/
def twinRole (t : TwinSt) : Nat :=
  if t.owner then 0 else if t.released then 5 else if t.handing then 4 else if t.paired then 3 else if t.accepted then 2 else 1

/-! ### The bytes of a Caravan frame (R297, R302, R303, R306) -/

/-- TYPE of a frame (R298). -/
def CBody.typ : CBody → Nat
  | .link _ => 0x50
  | .disc _ _ _ => 0x51
  | .discEnd _ _ _ => 0x52
  | .assign _ _ _ _ => 0x53
  | .pair _ _ => 0x54
  | .hall _ => 0x55
  | .data _ => 0x56
  | .echo _ => 0x57
/-- The 16-byte head of DISC, DISC_END and ASSIGN (R302). -/
def discHead (init rgen n : Nat) (fin : Bool) : List Nat := beBytes 8 init ++ beBytes 2 rgen ++ [n % 256, b2n fin, 0, 0, 0, 0]
/-- An entry of a DISC list (R302). -/
def discEntBytes (e : DiscEnt) : List Nat :=
  beBytes 8 e.uid ++ [e.last % 64 + 64 * b2n e.lastValid, e.pref % 64 + 64 * b2n e.prefEn, b2n e.pairEn + 2 * b2n e.onEast, 0] ++ beBytes 2 e.cdu ++ [0, 0]
/-- An entry of an ASSIGN (R303). -/
def asgEntBytes (e : AsgEnt) : List Nat := beBytes 8 e.uid ++ [e.addr % 64 + 64 * b2n e.assigned] ++ List.replicate 7 0
/-- SUB, chunk index and body of a PAIR frame (R306); SNAP and LOG carry state words, whose layout the spec does not give. -/
def pairParts : PairBody → Nat × Nat × List Nat
  | .req g m => (1, 0, [g % 256, m])
  | .accept g => (2, 0, [g % 256])
  | .snap k => (3, k, [])
  | .log => (4, 0, [])
  | .input m => (5, 0, match m with | some m => inputBytes m | none => [])
  | .status m => (6, 0, match m with | some m => statusBytes m | none => [])
  | .handover g => (7, 0, [g % 256])
  | .bSet q f => (8, 0, beBytes 4 q ++ [b2n f, 0, 0, 0])
def crvnPayload : CBody → List Nat
  | .link _ => []
  | .disc i g l => discHead i g l.length false ++ (l.map discEntBytes).flatten
  | .discEnd i g l => discHead i g l.length true ++ (l.map discEntBytes).flatten
  | .assign i g line l => discHead i g l.length line ++ (l.map asgEntBytes).flatten
  | .pair lane b => let (sub, k, body) := pairParts b; [sub, lane] ++ beBytes 2 k ++ body
  | .hall b => b
  | .data b => b
  | .echo ts => beBytes 8 ts
/-- CTL.LEAVING. -/
def CBody.leaving : CBody → Bool
  | .link l => l
  | .disc _ _ _ | .discEnd _ _ _ | .assign _ _ _ _ | .pair _ _ | .hall _ | .data _ | .echo _ => false
/-- A frame's bytes from its header on (R297). -/
def crvnBytes (f : CFrame) : List Nat :=
  let p := crvnPayload f.body
  [1, f.body.typ, f.dst % 64 + 64 * b2n f.bcast, f.src % 64, f.ttl, f.body.cls + 4 * b2n f.west + 8 * b2n f.body.leaving] ++ beBytes 2 p.length ++
  beBytes 4 f.rseq ++ beBytes 2 f.rgen ++ [0, 0] ++ p
/-- The destination address of every Caravan frame (R297). -/
def crvnMac : Nat := 0x034F58430100
/-- What stands on a port's line: destination address, EtherType and the frame's bytes. -/
def ringWire (s : State) (p : Nat) : Option (Nat × Nat × List Nat) := (s.cport p).line.map (fun f => (crvnMac, 0x88B5, crvnBytes f))

end Sys2Proof.Machine
end

