-- ==== Sys2Proof/Machine/Power.lean ====
section
/-! DEFINITION. The feeds, hold-up, the lane rail and the cold start (R291–R293, R295, R353, R366). Feed voltages are in 20 mV units. -/
namespace Sys2Proof.Machine
open Sys2Proof

/-! ### The feeds (R63, R291) -/

/-- Both lanes' view of ONE_FEED. -/
def rowOneFeed (b : Bool) (r : RowSt) : RowSt := rowProt (fun p => { p with oneFeed := b }) r
/-- The feeds as measured: PWR_VIN, SUPPLY_LOW, and ONE_FEED while a single feed is outside 36–50 V, with its event. -/
def feedsSet (a b : Nat) (s : State) : State :=
  let s := supplyLow (vinSet a b s)
  let one := feedOk a != feedOk b
  let was := s.pwr.oneFeed
  let s := ({ s with pwr := { s.pwr with oneFeed := one } }.setFld F.PWR_STAT_ONE_FEED (b2n one)).onRows (rowOneFeed one)
  if one && !was then s.note 7 6 2 0xFFFF Ev.oneFeed (b2n (feedOk b)) else s
/-- SUPPLY_LOW_CHANGE brings the feeds whose ORed voltage crosses LOW_TH (R63). -/
def execSupplyLowChange (vinA vinB : BitVec 12) (s : State) : Host.Outcome State Fault Refusal := .next (feedsSet vinA.toNat vinB.toNat s)
def execOneFeed (vinA vinB : BitVec 12) (s : State) : Host.Outcome State Fault Refusal := .next (feedsSet vinA.toNat vinB.toNat s)

/-! ### Hold-up (R292, R293) -/

/-- HOLDUP, asserted: the package stops at once, the boost converters go off, the sequencer's counts go to its store. -/
def holdupAssert (s : State) : State :=
  let s := invHoldup (pkgLoss { s with pwr := { s.pwr with holdup := true } })
  (upto 12).foldl (fun s b => bankConverterOff b s) s
def holdupStart (a b : Nat) (s : State) : State :=
  let s := feedsSet a b s
  if a < 1500 ∧ b < 1500 ∧ s.pwr.laneRail ∧ !s.pwr.holdup then holdupAssert s else s
def execHoldup (vinA vinB : BitVec 12) (s : State) : Host.Outcome State Fault Refusal := .next (holdupStart vinA.toNat vinB.toNat s)
/-- A lane at or beyond tick H + 384. -/
def pastHoldup (tick : Nat) (l : Lane) : Bool := l.votes && (match l.row.prot.hTick with | some h => decide (h + 384 ≤ tick) | none => false)
/-- HOLDUP_FLASH_WRITE: GEN, positions, the committed epoch and the lane's events go to flash; the lane emits nothing from here. -/
def holdupFlash (tick : Nat) (l : Lane) : Lane :=
  if pastHoldup tick l then
    let l := flashLogWrite (flashTick l)
    { l with flash := { l.flash with epoch := l.row.slip.epochNow }, actOut := none, ethOut := none }
  else l
def execHoldupFlashWrite (s : State) : Host.Outcome State Fault Refusal :=
  .next { s with laneA := holdupFlash s.time.count s.laneA, laneB := holdupFlash s.time.count s.laneB }

/-! ### The lane rail (R295, R353, R366) -/

/-- The governor without what runs on the lane rail. -/
def govDropLane (g : GovSt) : GovSt :=
  let keep := fun (i : GovItem) => i.cls == .erg || i.cls == .lpddr
  { g with raised := g.raised.filter (fun r => keep r.item), queue := g.queue.filter (fun r => keep r.item),
           admitted := g.admitted.filter (fun a => keep a.item), granting := g.granting.filter (fun x => keep x.1) }
/-- A lane that comes out of reset with the rail: what its flash holds (R355). -/
def laneCold (l : Lane) : Lane :=
  { l with core := { LaneCore.init with gen := l.flash.gen }, trace := .init, row := { rowFromFlash l.flash with recSh := l.recd.flashSh },
           recd := recBoot l.recd, ownEvents := [], actOut := none, ethOut := none, pub := [],
           cal := { l.cal with stage := [], phase := .idle, leaveCh := none, switchDue := false } }
def panelCold (p : PanelSt) : PanelSt := { PanelSt.init with tamper := p.tamper, cause := p.cause, ttick := p.ttick, stored := p.stored }
/-- Pages 030 to 07F, and the headers of the lanes' pages, back to their reset words; PG_GATE.LOCK is Hervi's and stays. -/
def railPages : List Nat := (upto 0x70).map (fun k => 0x10 + k)
/-- LANE_RAIL_LOSS: relays de-energised, the field released, everything on the rail in reset. What flash and the fuses hold stays. -/
def railLoss (s : State) : State :=
  let s := (upto 5).foldl (fun s k => domRun (9 + k) false s) (relayOff s)
  let s := (upto 2).foldl (fun s c => (chipReset c s).modChip c (fun x => { x with powered := false })) s
  { s with pwr := { s.pwr with laneRail := false, storage := false, holdup := false, aonLost := false }, regs := pagesReset railPages s.regs,
           blk := tset {} (tset {} (tclear (tclear s.blk 0x10 0x80) 0x100 0x112) 0x110 { en := true }) 0x111 { en := true },
           gov := govDropLane s.gov, crvn := { CrvnSt.init with stored := s.crvn.stored }, ptp := .init, eth0 := .init, eth1 := .init,
           mbox := { s.mbox with arrived := none, latched := false, prevTag := none, accepted := none }, fwd := [],
           lsecA := .init, lsecB := .init, panA := panelCold s.panA, panB := panelCold s.panB,
           twin := { TwinSt.init with slot := s.twin.slot, peerOwn := s.twin.peerOwn }, laneA := laneCold s.laneA, laneB := laneCold s.laneB }
def execLaneRailLoss (s : State) : Host.Outcome State Fault Refusal := .next (railLoss s)
/-- HOLDUP_CLEAR: before tick H + 384 the lanes carry on and the package starts as in a cold start; later the whole module starts from cold. -/
def holdupEnd (a b : Nat) (s : State) : State :=
  let s := feedsSet a b s
  if s.pwr.holdup ∧ (feedOk a ∨ feedOk b) then
    if pastHoldup s.time.count s.laneA ∨ pastHoldup s.time.count s.laneB then railLoss s
    else { s with pwr := { s.pwr with holdup := false, pkgRail := true } }
  else s
def execHoldupClear (vinA vinB : BitVec 12) (s : State) : Host.Outcome State Fault Refusal := .next (holdupEnd vinA.toNat vinB.toNat s)

/-! ### Cold start (R353) -/

/-- FEED_UP, step 1: the sequencer supply comes up, the FLL locks and the hold-up storage charges. -/
def feedUp (a b : Nat) (s : State) : State :=
  let s := feedsSet a b s
  if feedOk a ∨ feedOk b then { s with pwr := { s.pwr with seqSupply := true } } else s
def execFeedUp (vinA vinB : BitVec 12) (s : State) : Host.Outcome State Fault Refusal := .next (feedUp vinA.toNat vinB.toNat s)
/-- Step 2, tick 0 (`present`: SLOT_PRES_N low, R337): Playa, the front ends and the Caravan core are released as the field allows (R366), both lanes and both Ethernet ports ask
for admission, pages 070, 078 and 079 are enabled, the package rail is powered. SEQ of tick 0 is free. Without a feed to charge the hold-up storage
the module does not start (R379). -/
def railUp (slot peerLow present : Bool) (s : State) : State :=
  if !s.pwr.seqSupply || s.pwr.laneRail || !(feedOk s.pwr.vinA || feedOk s.pwr.vinB) then s
  else
    let (q, s) := s.free 32
    let s := ((invCycle 0 (invRestore s)).setFld F.PRES_STAT_IN_SLOT (b2n present)).setFld F.CRVN_STAT_ADDR (s.crvn.stored.getD 0)
    let s := { s with pwr := { s.pwr with laneRail := true, storage := true, holdup := false, pkgRail := true }, time := ⟨0, 0, 0, 0, q⟩,
                      laneA := laneCold s.laneA, laneB := laneCold s.laneB }
    let s := fieldChoice (s.onTwin (fun t => { t with slot := slot, peerOwn := peerLow }))
    let s := [(⟨.lane, 0⟩ : GovItem), ⟨.lane, 1⟩, ⟨.eth, 0⟩, ⟨.eth, 1⟩].foldl (fun s i => { s with gov := govRaise s.gov i false }) s
    crvnEnable true (blockEnable 0x79 (blockEnable 0x78 s))
def execLaneRailUp (slot peerLow present : Bool) (s : State) : Host.Outcome State Fault Refusal := .next (railUp slot peerLow present s)

end Sys2Proof.Machine
end

