-- ==== Sys2Proof/Machine/SensingCmd.lean ====
section
/-! DEFINITION. The meanings of the sensing, thermal map and calibration commands. -/
namespace Sys2Proof.Machine
open Sys2Proof

/-- R97: a converter's result, or a pulse counter's tick, reaches its front end; it belongs to the ending tick. -/
def feSample (g n : Nat) (x : Sample) (f : FrontEnd) : FrontEnd :=
  match x with
  | .elec e => { f with elec := tset none f.elec (32 * g + n) (some e) }
  | .edges k t1 t2 => { f with pulse := tset ⟨[], none⟩ f.pulse n (pulseAdd 8 ⟨k, t1, t2⟩ (tget ⟨[], none⟩ f.pulse n)) }
def execSensorSample (fe : LaneId) (group : Fin 8) (ch : Fin 32) (x : Sample) (s : State) : Host.Outcome State Fault Refusal :=
  .next (s.modLane fe (fun l => { l with fe := feSample group.val ch.val x l.fe }))

/-- Apply a channel operation in every lane that computes in step, recording an event where the channel's state changes. -/
def rowChan (g n : Nat) (f : Chan → Chan) (r : RowSt) : RowSt :=
  let c := chanAt r.sens (32 * g + n)
  let d := f c
  let r := { r with sens := setChan r.sens (32 * g + n) d }
  if c.state = d.state then r else r.ev 3 (0x50 + g) n Ev.chanState d.cause

def execRangeFault (group : Fin 8) (ch : Fin 32) (s : State) : Host.Outcome State Fault Refusal :=
  .next (s.onRows (rowChan group.val ch.val chanRangeFault))
def execRangeRecovery (group : Fin 8) (ch : Fin 32) (s : State) : Host.Outcome State Fault Refusal :=
  .next (s.onRows (rowChan group.val ch.val chanRangeRecover))
def execPathSuspect (group : Fin 8) (ch : Fin 32) (s : State) : Host.Outcome State Fault Refusal :=
  .next (s.onRows (rowChan group.val ch.val chanPathSuspect))
def execPathRecovery (group : Fin 8) (ch : Fin 32) (s : State) : Host.Outcome State Fault Refusal :=
  .next (s.onRows (rowChan group.val ch.val chanPathRecover))
def execReturnValid (group : Fin 8) (ch : Fin 32) (s : State) : Host.Outcome State Fault Refusal :=
  .next (s.onRows (rowChan group.val ch.val chanReturnValid))

/-- Apply a sensing operation in every lane that computes in step. -/
def rowSens (f : SensSt → SensSt) (r : RowSt) : RowSt := { r with sens := f r.sens }
/-- The same, with an event where a channel's state changes. -/
def rowSensEv (f : SensSt → SensSt) (r : RowSt) : RowSt := chanEvents r.sens (f r.sens) { r with sens := f r.sens }

def execPairSuspect (pair : Fin 6) (s : State) : Host.Outcome State Fault Refusal :=
  .next (s.onRows (rowSensEv (pairSuspectOp pair.val)))
def execPairRecovery (pair : Fin 6) (s : State) : Host.Outcome State Fault Refusal :=
  .next (s.onRows (rowSensEv (pairRecoverOp pair.val)))

/-- R101: the verdict of a rope whose path has read WET or SHORT in 8 consecutive ticks. -/
def rowLeakVerdict (k : Nat) (r : RowSt) : RowSt :=
  let l := tget {} r.sens.leak k
  let m := leakVerdictOp l
  let r := { r with sens := { r.sens with leak := tset {} r.sens.leak k m } }
  if m.verdict && !l.verdict then r.ev 0 (0x54 + k / 16) (k % 16) Ev.leakVerdict 0 else r
def execLeakVerdict (rope : Fin 32) (s : State) : Host.Outcome State Fault Refusal :=
  .next (s.onRows (rowLeakVerdict rope.val))
def execLeakRopeFault (rope : Fin 32) (s : State) : Host.Outcome State Fault Refusal :=
  .next (s.onRows (fun r => rowChan (4 + rope.val / 16) (rope.val % 16) (leakFaultOp (tget {} r.sens.leak rope.val)) r))
def execSensLeakClr (bits : Word) (s : State) : Host.Outcome State Fault Refusal :=
  .next (s.laneWrite 0x50 true (fun l => { l with row := rowSens (leakClear bits.toNat) l.row }))

/-- R104: in a tick whose count mod 64 is 0 each bus owner polls a sensor. -/
def execDewPoll (s : State) : Host.Outcome State Fault Refusal :=
  .next (s.onRows (rowSens (dewPoll s.time.count)))
/-- R104: the reply of the sensor polled on a bus. A good one (CRC right, status 0) becomes the sample of both front ends. -/
def dewReplyState (bus : Nat) (good : Bool) (dp : Int) (s : State) : State :=
  let polled := fun (l : Lane) => (lget ⟨none, []⟩ l.row.sens.dewBus bus).poll.map (fun x => 4 * bus + x.1)
  let one := fun (l : Lane) =>
    match polled l with
    | some n =>
      let l := if good then { l with fe := { l.fe with elec := tset none l.fe.elec (224 + n) (some dp) } } else l
      { l with row := rowSensEv (dewReply bus good) l.row }
    | none => l
  s.onVoting one
def execDewReply (bus : Fin 2) (crcOk : Bool) (dewPoint : BitVec 16) (status : BitVec 16) (s : State) : Host.Outcome State Fault Refusal :=
  .next (dewReplyState bus.val (crcOk && status == 0) dewPoint.toInt s)
def execDewReplyTimeout (bus : Fin 2) (s : State) : Host.Outcome State Fault Refusal :=
  .next (s.onRows (rowSensEv (dewTimeout bus.val)))
/-- R105: the verdict stands once the run has reached 8 ticks. -/
def dewVerdictOp (s : SensSt) : SensSt := if 8 ≤ s.dewRun then { s with dewVerdict := true } else s
def execDewPointVerdict (s : State) : Host.Outcome State Fault Refusal :=
  .next (s.onRows (rowSens dewVerdictOp))

/-! ### Thermal maps -/

/-- Serial comparison modulo 2³²: a is newer than b. -/
def newer32 (a b : Nat) : Bool := let d := (a + 4294967296 - b % 4294967296) % 4294967296; decide (1 ≤ d ∧ d < 2147483648)
/-- Write a segment's points into a frame buffer; points of the segment beyond NPOINTS read FFFFh. -/
def ingestPoints (base : Nat) (pts : List Nat) (t : Tbl Nat) : Tbl Nat :=
  (upto 512).foldl (fun t i => tset 0xFFFF t (base + i) (lget 0xFFFF pts i)) t
/-- A map segment in the format of R107: TYPE 30h of version 01h, an endpoint of the row, segment 00h of 01h or 01h of 01h, 0 to 512 points. A
frame of another form is no map segment (log 75). -/
def segForm (m : MapSeg) : Bool :=
  decide (m.version = 1 ∧ m.typ = 0x30 ∧ m.endpoint < 2304 ∧ m.seg < 2 ∧ m.segLast = 1 ∧ m.npoints = m.points.length ∧ m.npoints ≤ 512 ∧
    m.flags = (if m.seg = 0 then 1 else 0))
/-- The payload of a segment, in network byte order (R107). -/
def segBytes (m : MapSeg) : List Nat :=
  [m.version, m.typ] ++ beBytes 2 m.endpoint ++ beBytes 4 m.mapSeq ++ [m.seg, m.segLast] ++ beBytes 2 m.npoints ++ [m.flags, m.hotspots, 0, 0] ++
    beBytes 4 m.sec ++ beBytes 4 m.ns ++ (if m.seg = 0 then ((upto 16).map (fun i => beBytes 2 (lget 0xFFFF m.summary i))).flatten else []) ++
    (m.points.map (beBytes 2)).flatten
/-- The frame's EtherType and payload, untagged or with one IEEE 802.1Q tag (R107). -/
def segFrame (m : MapSeg) : List Nat :=
  (match m.tag with | some t => beBytes 2 0x8100 ++ beBytes 2 t | none => []) ++ beBytes 2 0x88B5 ++ segBytes m
/-- R109: ingest of one segment. -/
def ingestSeg (m : MapSeg) (g : Ingest) : Ingest :=
  let key := 2 * m.endpoint + m.seg
  let fresh := match tget none g.lastSeq key with
    | some q => newer32 m.mapSeq q
    | none => true
  if fresh then
    let base := 1024 * m.endpoint + 512 * m.seg
    let g := { g with lastSeq := tset none g.lastSeq key (some m.mapSeq), arr := tmod 0 g.arr m.endpoint (fun b => setBitN b m.seg),
                      summ := if m.seg = 0 then tset [] g.summ m.endpoint (m.summary.take (2 * min m.hotspots 8)) else g.summ }
    if g.sel then { g with buf1 := ingestPoints base m.points g.buf1 } else { g with buf0 := ingestPoints base m.points g.buf0 }
  else { g with dups := g.dups + 1 }
/-- The words of shared SRAM a segment's points fill (R107, R167). -/
def ingestTouch (m : MapSeg) (s : State) : State :=
  xaFreshAt (xaShared + (if s.ingest.sel then ingWords else 0) + 256 * m.endpoint + 128 * m.seg) 128 s
/-- R107, R109, R110: a segment arrives at a port; Xoide ingests it while its firmware runs, and the port controller forwards a segment 0's
summary. -/
def mapSegment (port : Nat) (m : MapSeg) (s : State) : State :=
  if segForm m = false then s
  else
    let s := ethSeen port (ethCount (F.ETH_RX_MAPS_COUNT port) 1 s)
    let g := ingestSeg m s.ingest
    let s := if !s.x.up then s else if g.dups = s.ingest.dups then ingestTouch m { s with ingest := g } else { s with ingest := g }
    if m.seg = 0 then { s with fwd := s.fwd ++ [⟨m.endpoint, m.mapSeq, min m.hotspots 8, m.summary⟩] } else s
def execMapSegment (port : Fin 2) (seg : MapSeg) (s : State) : Host.Outcome State Fault Refusal :=
  .next (ethHear port.val (mapSegment port.val seg) s)
/-- R110: the port controller hands the oldest forwarded summary to both lanes, which latch it in P1 of the next tick. -/
def hotspotSummary (s : State) : State :=
  match s.fwd with
  | [] => s
  | x :: r => { s.onRows (rowSens (fun t => { t with summIn := t.summIn ++ [x] })) with fwd := r }
def execHotspotSummary (s : State) : Host.Outcome State Fault Refusal := .next (hotspotSummary s)
/-- Apply an operation to one hot spot. -/
def rowHot (e h : Nat) (f : HotSpot → HotSpot) (r : RowSt) : RowSt :=
  { r with sens := { r.sens with hot := tmod {} r.sens.hot (8 * e + h) f } }
def execHotspotSuspect (endpoint : Fin 2304) (spot : Fin 8) (s : State) : Host.Outcome State Fault Refusal :=
  .next (s.onRows (rowHot endpoint.val spot.val (hotSuspectOp s.time.count)))
def execHotspotClear (endpoint : Fin 2304) (spot : Fin 8) (s : State) : Host.Outcome State Fault Refusal :=
  .next (s.onRows (rowHot endpoint.val spot.val (hotClearOp s.time.count)))
/-- R108: an agent that has had no beacon from its home port in 4 consecutive ticks sends to the other port. -/
def agentFailover (tick : Nat) (a : Agent) : Agent :=
  match a.last with
  | some t => if t + 4 ≤ tick then { a with away := true } else a
  | none => if 4 ≤ tick then { a with away := true } else a
def execAgentPortFailover (endpoint : Fin 2304) (s : State) : Host.Outcome State Fault Refusal :=
  .next { s with agents := tmod {} s.agents endpoint.val (agentFailover s.time.count) }

/-! ### Calibration -/

def laneCal (f : CalSt → CalSt) (l : Lane) : Lane := { l with cal := f l.cal }
def execLcalStage (s : State) : Host.Outcome State Fault Refusal := .next (s.laneWrite 0x12 false (laneCal calStage))
/-- LCAL_WDATA_k at the LCAL_OFF in force; above 1FFCh it is refused, and outside STAGING discarded and counted with code 80h. -/
def lcalWdata (k data : Nat) (l : Lane) : Lane :=
  let off := 4 * fget l.row.regs F.LCAL_OFF_OFF
  if 0x1FFC < off + 4 * k then l
  else if l.cal.phase = .staging then laneCal (calWdata off k data) l
  else { l with row := l.row.err 0x12 0x80 }
def execLcalWdata (k : Fin 7) (data : Word) (s : State) : Host.Outcome State Fault Refusal :=
  .next (s.laneWrite 0x12 false (lcalWdata k.val data.toNat))
def execLcalCommit (s : State) : Host.Outcome State Fault Refusal := .next (s.laneWrite 0x12 true (laneCal (calCommit false)))
def execLcalCommitForeign (s : State) : Host.Outcome State Fault Refusal := .next (s.laneWrite 0x12 true (laneCal (calCommit true)))
def execLcalAbort (s : State) : Host.Outcome State Fault Refusal := .next (s.laneWrite 0x12 false (laneCal calAbort))
def execCalReady (lane : LaneId) (flashOk : Bool) (s : State) : Host.Outcome State Fault Refusal :=
  .next (s.modLane lane (laneCal (calReady flashOk)))
/-- R114 steps 5 and 6: both lanes READY with equal generation and CRC switch; unequal images fail with code 0Ah. -/
def calSwitch (s : State) : State :=
  if s.laneA.cal.phase = .ready ∧ s.laneB.cal.phase = .ready then
    if stgWord s.laneA.cal 3 = stgWord s.laneB.cal 3 ∧ stgCrc s.laneA.cal = stgCrc s.laneB.cal then
      { s with laneA := calSwitchLane s.laneA, laneB := calSwitchLane s.laneB }
    else { s with laneA := laneCal (calFail 10) s.laneA, laneB := laneCal (calFail 10) s.laneB }
  else s
def execCalSwitch (s : State) : Host.Outcome State Fault Refusal := .next (calSwitch s)
def execCalTimeout (s : State) : Host.Outcome State Fault Refusal :=
  .next { s with laneA := laneCal calTimeout s.laneA, laneB := laneCal calTimeout s.laneB }
def execCalEnter (group : Fin 8) (ch : Fin 32) (s : State) : Host.Outcome State Fault Refusal :=
  .next (s.laneWrite 0x50 false (calEnter group.val ch.val))
def execCalLeave (group : Fin 8) (ch : Fin 32) (s : State) : Host.Outcome State Fault Refusal :=
  .next (s.laneWrite 0x50 true (calLeave group.val ch.val))
def execCalCancel (group : Fin 8) (ch : Fin 32) (s : State) : Host.Outcome State Fault Refusal :=
  .next (s.laneWrite 0x50 false (calCancel group.val ch.val))
def execCalAbandon (group : Fin 8) (ch : Fin 32) (s : State) : Host.Outcome State Fault Refusal :=
  .next (s.onRows (calAbandon (32 * group.val + ch.val)))

end Sys2Proof.Machine
end

