-- ==== Sys2Proof/Machine/Mailbox.lean ====
section
/-! DEFINITION. The lane mailbox (R40–R44, R93, R132): what a batch targets, its checks, the exchange of verdicts, the reply, its application. -/
namespace Sys2Proof.Machine
open Sys2Proof

/-- The numbers of R43's reply codes. -/
def replyNum : Reply → Nat
  | .none => 0 | .accept => 1 | .belowMin => 2 | .aboveMax => 3 | .step => 4 | .notLane => 5 | .presence => 6 | .locked => 7 | .tagReuse => 8
  | .disagree => 9 | .notRun => 10 | .noLane => 11

/-! ### Targets -/

/-- The loop and word of a loop page offset from 180h to 77Fh: word 18 is LOOP_MODE. -/
def loopWord (p o : Nat) : Nat × Nat := (16 * (p - 0x14) + (o - 0x180) / 0x60, (o - 0x180) % 0x60 / 4)
def isLoopPage (p : Nat) : Bool := decide (0x14 ≤ p ∧ p ≤ 0x17)
def isSens (p : Nat) : Bool := decide (0x50 ≤ p ∧ p ≤ 0x57)
/-- A banked descriptor word. -/
def isBanked (p o : Nat) : Bool := isLoopPage p && decide (0x180 ≤ o ∧ o < 0x780) && decide ((loopWord p o).2 < 18)
/-- Lane B's pages take writes on 020 and 02B alone (R137 and its like). -/
def mbPage (p : Nat) : Bool := match pageInfo p with | some i => ctrlByMailbox p i.laneOwned | none => false
/-- Min and Max that depend on the instance (R94, R96, R194 and the tables). -/
def mbLimits (rf : RegFile) (p o : Nat) (f : FieldDesc) : FieldDesc :=
  if isSens p ∧ 0x200 ≤ o ∧ o < 0x280 then
    let g := p - 0x50
    let k := sensPairOf g ((o - 0x200) / 4)
    if f.lo = 0 ∨ f.lo = 3 then { f with min := b2n k.isSome }
    else if f.lo = 1 then { f with max := if g < 2 then 1 else 0 }
    else match k with | some k => { f with min := pairDir k, max := pairDir k } | none => f
  else if p = 0x50 ∧ 0x1A0 ≤ o ∧ o < 0x1B8 then
    let k := (o - 0x1A0) / 4
    if k < 3 then { f with min := 0xA, max := 0x3E8 } else if k < 5 then { f with min := 0x14, max := 0x1F4 } else { f with min := 0x64, max := 0xEA6 }
  else if p = 0x60 ∧ 0x200 ≤ o ∧ o < 0x260 then { f with min := if (o - 0x200) / 4 < fget rf F.CAPC_ROW_NRACK then 1 else 0 }
  else f
/-- The fields a mailbox entry may write at a target: PG_CTRL's bits, RWL fields, and the shadows of RWS fields; none for any other target. -/
def mbFields (rf : RegFile) (p o : Nat) : List FieldDesc :=
  if !mbPage p then []
  else if isSens p && decide (0x200 ≤ o ∧ o < 0x480) && decide (sensGrpCount (p - 0x50) ≤ o % 0x80 / 4) then []
  else if o = 8 then (upto 3).map (fun k => ⟨k, 1, .rwl, 0, 0, 1, false, .none⟩)
  else if 0x800 ≤ o ∧ o < 0xC00 then
    match findReg (pageRegs p) (o - 0x700) with
    | some (r, _, _) => r.fields.filter (fun f => f.acc == .rws)
    | none => []
  else if o < 0x100 then []
  else match findReg (pageRegs p) o with
    | some (r, _, _) => (r.fields.filter (fun f => f.acc == .rwl)).map (mbLimits rf p o)
    | none => []
def fieldMask (f : FieldDesc) : Nat := (2 ^ f.w - 1) * 2 ^ f.lo
/-- The fields a mask touches, in ascending bit order. -/
def mbTouched (fs : List FieldDesc) (mask : Nat) : List FieldDesc := fs.filter (fun f => fieldMask f &&& mask != 0)

/-! ### Values -/

def addrOf (p o : Nat) : Nat := p * 0x1000 + o
/-- The pointer of CAPC_TBL_WDATA_k: endpoint and table. -/
def tblAt (r : RowSt) (o : Nat) : Nat × Nat := (r.f F.CAPC_TBL_PTR_IDX + (o - 0x114) / 4, r.f F.CAPC_TBL_PTR_SEL)
def isTbl (p o : Nat) : Bool := decide (p = 0x60 ∧ 0x114 ≤ o ∧ o < 0x130)
/-- The current word of a target, with the row as the entries so far leave it. -/
def mbCur (s : State) (r : RowSt) (p o : Nat) : Nat :=
  if o = 8 then ctrlWord (blkGet s p)
  else if isBanked p o then let (j, k) := loopWord p o; bWord r.loops.edit j k
  else if p = 0x13 ∧ 0x124 ≤ o ∧ o < 0x130 then bLut r.loops.edit (r.f F.LENG_LUT_PTR_LOOP) (r.f F.LENG_LUT_PTR_IDX) ((o - 0x124) / 4)
  else if isTbl p o then let (e, sel) := tblAt r o; capLatest r.caps sel e
  else if p = 0x60 ∧ o = 0x1C0 then b2n r.caps.gather
  else (rget r.regs (addrOf p o)).toNat
/-- The writable bits of a target the mask names, from DATA; every other bit stays (R40). -/
def mbNew (cur : Nat) (fs : List FieldDesc) (e : MboxEntry) : Nat :=
  let m := e.mask.toNat &&& nsum (fs.map fieldMask)
  cur - (cur &&& m) + (e.data.toNat &&& m)
/-- Bits of a command register that read 0 after execution. -/
def cmdBits (p o : Nat) : Nat :=
  if (p = 0x10 ∨ p = 0x20) ∧ o = 0x120 then 0xF
  else if p = 0x12 ∧ o = 0x108 then 0xF
  else if p = 0x13 ∧ (o = 0x108 ∨ o = 0xC28) then 0xF
  else if p = 0x13 ∧ (o = 0x138 ∨ o = 0x13C) then 0xFFFFFFFF
  else if p = 0x18 ∧ o = 0x120 then 0xF
  else if (p = 0x19 ∨ p = 0x1B ∨ p = 0x2B ∨ p = 0x1C) ∧ o = 0x104 then 0xF
  else if 0x30 ≤ p ∧ p ≤ 0x3B ∧ o = 0x280 then 0xFF
  else if 0x30 ≤ p ∧ p ≤ 0x3B ∧ o = 0x284 then 0x100
  else if 0x40 ≤ p ∧ p ≤ 0x42 ∧ o = 0x10C then 0xFFFF
  else if p = 0x48 ∧ o = 0x110 then 0xF
  else if p = 0x48 ∧ o = 0x114 then 0xC
  else if p = 0x50 ∧ o = 0x1C0 then 0xF
  else if p = 0x50 ∧ o = 0x1D4 then 0xFFFFFFFF
  else if p = 0x61 ∧ o = 0x128 then 0xF
  else 0
/-- What a written word leaves in the row: banked words in the edit bank, table words, GATHER, else the register without its command bits. -/
def mbStore (tick p o v : Nat) (r : RowSt) : RowSt :=
  if o = 8 then r
  else if isBanked p o then let (j, k) := loopWord p o; rowLoops (bankWrite j k v) r
  else if p = 0x13 ∧ (o = 0x124 ∨ o = 0x128) then rowLoops (lutWrite (r.f F.LENG_LUT_PTR_LOOP) (r.f F.LENG_LUT_PTR_IDX) ((o - 0x124) / 4) v) r
  else if p = 0x13 ∧ o = 0x12C then rowLutS v r
  else if isTbl p o then let (e, sel) := tblAt r o; { r with caps := capTblWrite e sel v r.caps }
  else if p = 0x60 ∧ o = 0x1C0 then { r with caps := capGatherWrite (v % 2 == 1) tick r.caps }
  else
    let old := (rget r.regs (addrOf p o)).toNat
    let r' := { r with regs := rset r.regs (addrOf p o) (BitVec.ofNat 32 (v - (v &&& cmdBits p o))) }
    if isLoopPage p ∧ 0x180 ≤ o ∧ o < 0x780 then rowLoops (modeChange (loopWord p o).1 (old % 8) (v % 8)) r'
    else if p = 0x60 ∧ (o = 0x1C4 ∨ (0x200 ≤ o ∧ o < 0x260)) then { r' with caps := { r'.caps with rowDirty := true } }
    else r'

/-! ### Checks (R40, R43) -/

/-- A field's own Min and Max. -/
def fieldCode (f : FieldDesc) (v : Nat) : Option Reply :=
  let x : Int := if f.sgn then sx f.w (bitsOf v f.lo f.w) else (bitsOf v f.lo f.w : Nat)
  if x < f.min then some .belowMin else if (f.max : Int) < x then some .aboveMax else none
/-- SENS_CAL_OFS_OWN, GAIN_OWN, OFS_X and GAIN_X (k = 0 to 3) against the ranges of R113 for the channel in CAL (R116): a leak, pulse or dew
point channel takes its constant in the first, and the other three must be 0. -/
def calConstCode (s : SensSt) (k v : Nat) : Option Reply :=
  match (s.chan.filter (fun x => x.2.state == .cal)).head? with
  | none => none
  | some (key, _) =>
    let g := key / 32
    let within := fun (lo hi x : Int) => if x < lo then some Reply.belowMin else if hi < x then some Reply.aboveMax else none
    if g < 4 then (if k % 2 = 0 then within (-1311) 1311 (sx 32 v) else within 0xE666 0x1199A v)
    else if k ≠ 0 then within 0 0 v
    else if g < 6 then within 1000 40000 v
    else if g = 6 then within 0x10000 (1000 * 0x10000) v
    else if v / 65536 = 0 then within (-500) 500 (sx 16 v) else some .aboveMax
/-- The relations of R40, R194, R217, R257 and of the staging offsets, for one touched field. `r` is the row before the entry, `r'` after. -/
def relCode (r r' : RowSt) (p o v mask : Nat) (f : FieldDesc) : Option Reply :=
  let pair := fun (lo hi wl : Nat) =>
    if hi ≤ lo then (if f.lo = 0 then some Reply.aboveMax else if mask &&& (2 ^ wl - 1) = 0 then some Reply.belowMin else none) else none
  if p = 0x18 ∧ o = 0x10C then pair (v % 65536) (v / 65536) 16
  else if 0x40 ≤ p ∧ p ≤ 0x42 ∧ o = 0x104 then pair (bitsOf v 0 8) (bitsOf v 8 8) 8
  else if 0x40 ≤ p ∧ p ≤ 0x42 ∧ 0x300 ≤ o ∧ o < 0x400 then
    let lo := bitsOf v 0 14
    let hi := bitsOf v 16 14
    if bitOf v 31 ∧ (hi ≤ lo ∨ lo + 500 < hi) then some .aboveMax else none
  else if 0x50 ≤ p ∧ p ≤ 0x51 ∧ 0x280 ≤ o ∧ o < 0x380 then
    let n := o % 0x80
    if rget r'.regs (addrOf p (0x280 + n)) = rget r'.regs (addrOf p (0x300 + n)) then some .aboveMax else none
  else if p = 0x50 ∧ 0x1C4 ≤ o ∧ o < 0x1D4 then calConstCode r.sens ((o - 0x1C4) / 4) v
  else if p = 0x60 ∧ o = 0x1C4 then
    (if (upto (v % 32)).any (fun k => k < 24 && r'.f (F.CAPC_RACK_NSLOT k) == 0) then some .aboveMax else none)
  else if isTbl p o then let (e, sel) := tblAt r o; tblLimit r.caps sel e v mask
  else if p = 0x12 ∧ 0x110 ≤ o ∧ o < 0x12C then (if 0x1FFC < 4 * r.f F.LCAL_OFF_OFF + (o - 0x110) then some .aboveMax else none)
  else if (p = 0x1B ∨ p = 0x2B) ∧ 0x10C ≤ o ∧ o < 0x128 then
    (if 0x2FFFFC < 4 * fget r.regs (lupdFld F.LUPD_OFF_OFF (if p = 0x1B then .a else .b)) + (o - 0x10C) then some .aboveMax else none)
  else none
/-- The largest step per write: LOOP_SP and LOOP_MAN_OUT move by at most OUT_MAX − OUT_MIN of the active bank. -/
def stepCode (r : RowSt) (p o old v : Nat) : Option Reply :=
  if isLoopPage p ∧ 0x800 ≤ o ∧ o < 0x880 then
    let j := 16 * (p - 0x14) + (o - 0x800) % 0x40 / 4
    let b := r.loops.act
    let d := sx 32 v - sx 32 old
    let lim := sx 32 (bWord b j 11) - sx 32 (bWord b j 10)
    if d ≠ 0 ∧ (lim < d ∨ lim < -d) then some .step else none
  else none
/-- A batch that edits loop j's descriptor. -/
def editsLoop (b : MboxBatch) (j : Nat) : Bool :=
  b.entries.any (fun e => let p := e.addr / 0x1000; let o := e.addr % 0x1000; isBanked p o && (loopWord p o).1 == j)
/-- R132, for the fields an entry touches. `last` is the edit bank the batch leaves, `old` the word before the entry. -/
def loopGuard (b : MboxBatch) (r : RowSt) (last : LoopBank) (p o old v mask : Nat) : Bool :=
  let (j, k) := loopWord p o
  let a := r.loops.act
  let rel := loopSafety a j || (editsLoop b j && loopSafety last j)
  let w := bWord a j k
  let hit := fun (lo n : Nat) => bitsOf mask lo n != 0
  let chg := fun (lo n : Nat) => hit lo n && bitsOf v lo n != bitsOf old lo n
  rel &&
    (if k = 18 then chg 0 3 && v % 8 != 1
     else if k = 0 then chg 1 2 || chg 8 6
     else if k = 1 then chg 0 16
     else if k = 10 then hit 0 32 && decide (sx 32 v < sx 32 w)
     else if k = 14 then hit 0 32 && decide (sx 32 w < sx 32 v)
     else if k = 15 then (hit 0 16 && decide (w % 65536 < v % 65536)) || (hit 16 2 && decide (bitsOf v 16 2 < bitsOf w 16 2))
     else false)
/-- A field whose change the tables count as raising a safety limit. -/
def fieldGuard (old v : Nat) (f : FieldDesc) : Bool :=
  let a := bitsOf old f.lo f.w
  let b := bitsOf v f.lo f.w
  match f.guard with
  | .none => false
  | .up => decide (a < b)
  | .down => decide (b < a)
  | .any => a != b
/-- Whether an entry raises a safety limit (R43, R132 and the fields' tables). -/
def mbGuard (s : State) (b : MboxBatch) (r : RowSt) (last : LoopBank) (p o old v mask : Nat) (touched : List FieldDesc) : Bool :=
  touched.any (fieldGuard old v) ||
  (if (p = 0x10 ∨ p = 0x20) ∧ o = 0x120 then v % 16 == 2
   else if p = 0x12 ∧ o = 0x108 then v % 16 == 2 || v % 16 == 4
   else if isLoopPage p ∧ 0x180 ≤ o ∧ o < 0x780 then loopGuard b r last p o old v mask
   else if p = 0x18 ∧ o = 0x120 then decide (2 ≤ v % 16 ∧ v % 16 ≤ 4)
   else if p = 0x19 ∧ o = 0x104 then decide (1 ≤ v % 16 ∧ v % 16 ≤ 3)
   else if p = 0x1C ∧ o = 0x104 then v % 16 == 1
   else if 0x30 ≤ p ∧ p ≤ 0x3B ∧ 0x200 ≤ o ∧ o < 0x220 then valveClass ((o - 0x200) / 4) == 0 && old % 2 == 1 && v % 2 == 0
   else if 0x30 ≤ p ∧ p ≤ 0x3B ∧ o = 0x284 then bitOf v 8
   else if p = 0x48 ∧ o = 0x110 then v % 16 != 0
   else if p = 0x48 ∧ o = 0x114 then bitsOf v 2 2 != 0
   else if p = 0x48 ∧ 0x200 ≤ o ∧ o < 0x240 then
     let n := (o - 0x200) / 16
     n != r.f F.PUMP_CFG_STANDBY && (blkGet s (0x100 + n)).state == .run && old % 2 == 1 && v % 2 == 0
   else if p = 0x50 ∧ o = 0x1C0 then v % 16 == 2
   else if p = 0x50 ∧ o = 0x1D4 then v != 0
   else if isSens p ∧ 0x200 ≤ o ∧ o < 0x380 then
     old != v && (r.f (F.SENS_CH_CFG_SAFETY (p - 0x50) (o % 0x80 / 4)) == 1 || (decide (o < 0x280) && bitOf v 3))
   else if isTbl p o then let (e, sel) := tblAt r o; tblGuard r.caps sel e v
   else false)
/-- The first code of R43 for one entry: `r` before it, `r'` after. -/
def entryCode (s : State) (id : LaneId) (b : MboxBatch) (last : LoopBank) (e : MboxEntry) (r r' : RowSt) : Reply :=
  let p := e.addr / 0x1000 % 256
  let o := e.addr % 0x1000
  let fs := mbFields r.regs p o
  let mask := e.mask.toNat
  let touched := mbTouched fs mask
  if touched.isEmpty then .notLane
  else if s.locked p then .locked
  else
    let old := mbCur s r p o
    let v := mbNew old fs e
    match touched.findSome? (fun f => match fieldCode f v with
      | some c => some c
      | none => match relCode r r' p o v mask f with | some c => some c | none => stepCode r p o old v) with
    | some c => c
    | none => if mbGuard s b r last p o old v mask touched && !s.laneWin id then .presence else .accept
/-- The row after each entry, as the checks of later entries see it. -/
def mbRun (s : State) (e : MboxEntry) (r : RowSt) : RowSt :=
  let p := e.addr / 0x1000 % 256
  let o := e.addr % 0x1000
  let fs := mbFields r.regs p o
  if (mbTouched fs e.mask.toNat).isEmpty then r else mbStore s.time.count p o (mbNew (mbCur s r p o) fs e) r
def mbRows (s : State) : List MboxEntry → RowSt → List (MboxEntry × RowSt × RowSt)
  | [], _ => []
  | e :: es, r => let r' := mbRun s e r; (e, r, r') :: mbRows s es r'
/-- A lane's own verdicts on a batch (R43). -/
def mbVerdicts (s : State) (id : LaneId) (b : MboxBatch) : List Reply :=
  if s.mbox.prevTag = some b.tag then Reply.tagReuse :: List.replicate (b.entries.length - 1) Reply.none
  else
    let rows := mbRows s b.entries (s.lane id).row
    let last := match rows.getLast? with | some x => x.2.2.loops.edit | none => (s.lane id).row.loops.edit
    rows.map (fun x => entryCode s id b last x.1 x.2.1 x.2.2)

/-! ### Application (R41) -/

/-- What a command register's word, or a word with an effect beyond its register, does. `who` are the lanes that take the batch; an effect
outside the lanes' own state follows the lane with the higher claim, and one that a single lane executes, that lane (R42). -/
def mbEffect (who : LaneId → Bool) (p o v mask : Nat) (s : State) : State :=
  let c := v % 16
  let t := s.time.count
  let row := fun (f : RowSt → RowSt) => onWho who (laneRow f) s
  let led := fun (f : State → State) => if who s.lead then f s else s
  let runs := fun (id : LaneId) => (s.lane id).votes && who id
  if o = 8 then led (writeCtrl p (v - (v &&& 2) + (v &&& mask &&& 2)))
  else if (p = 0x10 ∨ p = 0x20) ∧ o = 0x120 then
    let id := if p = 0x10 then LaneId.a else .b
    if runs id then laneCmdRun id c s else s
  else if p = 0x12 ∧ o = 0x108 then
    onWho who (laneCal (fun x => match c with | 1 => calStage x | 2 => calCommit false x | 3 => calAbort x | 4 => calCommit true x | _ => x)) s
  else if p = 0x12 ∧ 0x110 ≤ o ∧ o < 0x12C then onWho who (lcalWdata ((o - 0x110) / 4) v) s
  else if p = 0x13 ∧ o = 0x108 then (if c = 0 then s else row (fun r => { r with loops := bankCmd r.regs c t r.loops }))
  else if p = 0x13 ∧ (o = 0x138 ∨ o = 0x13C) then row (rowLoops (feClear (if o = 0x13C then 32 else 0) v))
  else if p = 0x13 ∧ o = 0xC28 then onWho who (fun l => match c with | 1 => laneTrace traceArm l | 2 => laneForce l | 3 => laneTrace traceStop l | _ => l) s
  else if p = 0x18 ∧ o = 0x120 then (if c = 0 then s else onWho who (protCmdWrite c (bitsOf v 8 5)) s)
  else if p = 0x19 ∧ o = 0x104 then
    (match c with
     | 2 | 3 => let id := if bitsOf v 4 2 % 2 = 0 then LaneId.a else .b
                if runs id then lsecRun id c (bitsOf v 4 2) s else s
     | _ => lsecShared (fun id => who id || !(s.lane id).votes) c s)
  else if (p = 0x1B ∨ p = 0x2B) ∧ o = 0x104 then
    let id := if p = 0x1B then LaneId.a else .b
    if (s.lane id).votes && !who id then s else lupdCmd id c s
  else if (p = 0x1B ∨ p = 0x2B) ∧ 0x10C ≤ o ∧ o < 0x128 then
    let id := if p = 0x1B then LaneId.a else .b
    if (s.lane id).votes && !who id then s else lupdWdata id ((o - 0x10C) / 4) v s
  else if p = 0x1C ∧ o = 0x104 then led (twinCmd c)
  else if 0x30 ≤ p ∧ p ≤ 0x3B ∧ o = 0x280 then led (vchClear (p - 0x30) (v % 256))
  else if 0x30 ≤ p ∧ p ≤ 0x3B ∧ o = 0x284 then (if bitOf v 8 then led (posSet who (8 * (p - 0x30) + v % 8) (bitsOf v 4 2)) else s)
  else if 0x40 ≤ p ∧ p ≤ 0x42 ∧ o = 0x10C then led (fanClear (p - 0x40) (v % 65536))
  else if p = 0x48 ∧ o = 0x110 then row (dryClear c)
  else if p = 0x48 ∧ o = 0x114 then
    let n := v % 4
    let m : Option MbCmd := match bitsOf v 2 2 with
      | 1 => some ⟨n, .setLoss, 0x100, bitsOf v 16 9⟩
      | 2 => some ⟨n, .write, fget s.leadRegs F.PUMP_MB_WR_REG, fget s.leadRegs F.PUMP_MB_WR_VALUE⟩
      | _ => none
    (match m with | some _ => led (setBus (n / 2) (fun b => { b with cmd := m, result := 0 })) | none => s)
  else if p = 0x48 ∧ 0x200 ≤ o ∧ o < 0x240 then led (pumpEnable (0x100 + (o - 0x200) / 16) (v % 2 == 1))
  else if p = 0x50 ∧ o = 0x1C0 then
    let g := bitsOf v 8 3
    let n := bitsOf v 16 5
    (match c with | 1 => onWho who (calEnter g n) s | 2 => onWho who (calLeave g n) s | 3 => onWho who (calCancel g n) s | _ => s)
  else if p = 0x50 ∧ o = 0x1D4 then row (rowSens (leakClear v))
  else if p = 0x61 ∧ o = 0x128 then
    (match c with | 1 => row (slipSubmit (bitOf v 8)) | 2 => row slipWithdraw | 3 => row (slipOperator t) | _ => s)
  else s
/-- The lane whose state the batch's words are computed from: the one with the higher claim, if it takes the batch. -/
def mbSource (who : LaneId → Bool) (s : State) : LaneId := if who s.lead then s.lead else otherLane s.lead
/-- Apply one entry: the row's word in every lane that takes the batch, then its effect. -/
def mbApplyEntry (who : LaneId → Bool) (e : MboxEntry) (s : State) : State :=
  let p := e.addr / 0x1000 % 256
  let o := e.addr % 0x1000
  let src := (s.lane (mbSource who s)).row
  let fs := mbFields src.regs p o
  let v := mbNew (mbCur s src p o) fs e
  let s := onWho who (laneRow (fun r => mbStore s.time.count p o (mbNew (mbCur s r p o) fs e) r)) s
  mbEffect who p o v e.mask.toNat s
/-- Whether a lane applies the batch resolved last. -/
def mbTakes (l : Lane) : Bool := l.votes && !l.core.verdictOwn.isEmpty && l.core.verdictOwn.all (fun v => v == .accept)
/-- MBOX_APPLY: in P0 of tick T + 2 every voting lane that accepted the batch applies every entry in order. -/
def mbApply (s : State) : State :=
  match s.mbox.accepted with
  | some (b, t) =>
    if t ≤ s.time.count then
      let a := mbTakes s.laneA
      let c := mbTakes s.laneB
      let who : LaneId → Bool := fun id => match id with | .a => a | .b => c
      let s := b.entries.foldl (fun s e => mbApplyEntry who e s) { s with mbox := { s.mbox with accepted := none } }
      s.flush
    else s
  | none => s
def execMboxApply (s : State) : Host.Outcome State Fault Refusal := .next (mbApply s)

/-! ### Arrival, latch, exchange, reply (R41, R42) -/

/-- MBOX_BATCH_ARRIVAL: the tick is T. -/
def mbArrive (s : State) : State :=
  match s.mbox.flight with
  | some b => { s with mbox := { s.mbox with flight := none, arrived := some (b, s.time.count), latched := false } }
  | none => s
def execMboxBatchArrival (s : State) : Host.Outcome State Fault Refusal := .next (mbArrive s)
/-- An entry that names a lane which does not vote goes to it as a CMD in tick T + 1 (R93). -/
def mbCmdOut (b : MboxBatch) (apply : Nat) (s : State) : State :=
  b.entries.foldl (fun s e =>
    let p := e.addr / 0x1000 % 256
    let o := e.addr % 0x1000
    let v := (e.data &&& e.mask).toNat
    let c := v % 16
    let send := fun (id : LaneId) (m : LaneCmdMsg) =>
      if c = 0 || (s.lane id).votes then s else s.modLane (otherLane id) (fun l => if l.votes then coreMod (fun x => { x with cmdWait := some m }) l else l)
    if (p = 0x10 ∨ p = 0x20) ∧ o = 0x120 then
      let id := if p = 0x10 then LaneId.a else .b
      send id ⟨false, c, laneNum id, apply⟩
    else if p = 0x19 ∧ o = 0x104 ∧ (c = 2 ∨ c = 3) then
      let t := bitsOf v 4 2
      send (if t % 2 = 0 then .a else .b) ⟨true, c, t, apply⟩
    else s) s
/-- The decided codes of a lane from its own verdicts and the other deciding lane's. -/
def decideCodes (own : List Reply) (other : Option (List Reply)) : List Reply :=
  match other with
  | some o => (upto own.length).map (fun k => let a := lget .none own k; if lget .none o k = a then a else .disagree)
  | none => own
/-- In a refused batch an acceptable entry reports NOT_RUN. -/
def notRun (refused : Bool) (l : List Reply) : List Reply := if refused then l.map (fun v => if v = .accept then .notRun else v) else l
def replyWord (l : List Reply) : Nat := nsum ((upto 8).map (fun k => replyNum (lget .none l k) * 16 ^ k))
/-- The overall code and the entry that gives it. -/
def overall (l : List Reply) : Reply × Nat :=
  match (upto l.length).find? (fun k => lget .none l k != .accept && lget .none l k != .notRun) with
  | some k => (lget .none l k, k)
  | none => (.accept, 0)
/-- The SYS page takes the reply, if it still waits for one (R44). -/
def sysReply (tag : Nat) (code : Reply) (first apply : Nat) (a b : List Reply) (s : State) : State :=
  if s.fld F.SYS_MBOX_STAT_BUSY = 0 then s
  else
    let ok := code == .accept
    let s := ((s.setFld F.SYS_MBOX_STAT_BUSY 0).setFld F.SYS_MBOX_STAT_DONE 1).setFld F.SYS_MBOX_STAT_APPLIED (b2n ok)
    let s := ((s.setFld F.SYS_MBOX_STAT_FIRST_BAD first).setFld F.SYS_MBOX_STAT_CODE (replyNum code)).setFld F.SYS_MBOX_STAT_TAG tag
    { s with regs := rset (rset (rset s.regs 0x208 (BitVec.ofNat 32 (if ok then apply else 0))) 0x20C (BitVec.ofNat 32 (replyWord a))) 0x210 (BitVec.ofNat 32 (replyWord b)) }
/-- A deciding lane that holds verdicts. -/
def mbDecides (l : Lane) : Bool := l.core.mode.decides && !l.core.verdictOwn.isEmpty
/-- A lane's decided codes. -/
def laneCodes (s : State) (id : LaneId) : List Reply :=
  let l := s.lane id
  let o := s.lane (otherLane id)
  decideCodes l.core.verdictOwn (if mbDecides l && mbDecides o && !l.core.linkDown then l.core.verdictIn else none)
/-- P7 of tick T + 1: the replies and the overall code, by the deciding lane with the higher claim. A PROBATION lane takes the decided codes; one
that differs goes back to RESYNC. -/
def mbResolve (s : State) : State :=
  match s.mbox.arrived with
  | some (b, t) =>
    if !(mbDecides s.laneA || mbDecides s.laneB) then s
    else
      let lead := if !mbDecides s.laneA then LaneId.b else if !mbDecides s.laneB then .a else s.lead
      let ca := laneCodes s .a
      let cb := laneCodes s .b
      let codes := match lead with | .a => ca | .b => cb
      let (code, first) := overall codes
      let s0 := s
      let settle := fun (id : LaneId) (c : List Reply) (s : State) =>
        let l := s.lane id
        if l.core.verdictOwn.isEmpty then s
        else
          let prob := l.core.mode == .probation
          let s := s.modLane id (coreMod (fun x => { x with verdictOwn := if prob then codes else c, verdictIn := none, verdictWait := false }))
          let s := if c.contains .disagree then s.modLane id (fun l => l.lev id Ev.disagree 0) else s
          if prob ∧ (s0.lane id).core.verdictOwn ≠ codes then s.modLane id (copyFailed id s.time.count) else s
      let s := settle .b cb (settle .a ca s)
      let reply := fun (l : Lane) (c : List Reply) =>
        if l.core.verdictOwn.isEmpty then [] else notRun ((if l.core.mode = .probation then codes else c).any (fun v => v != .accept)) c
      let ra := reply s0.laneA ca
      let rb := reply s0.laneB cb
      let s := sysReply b.tag code first (t + 2) ra rb s
      let takes := mbTakes s.laneA || mbTakes s.laneB
      let s := { s with mbox := { s.mbox with arrived := none, latched := false, accepted := if takes then some (b, t + 2) else s.mbox.accepted } }
      if code = .accept then mbCmdOut b (t + 2) s else s
  | none => s
/-- Both voting lanes have the other's verdicts, or need none. -/
def mbReady (s : State) : Bool :=
  let one := fun (l : Lane) => l.core.verdictOwn.isEmpty || !l.core.verdictWait || l.core.verdictIn.isSome
  one s.laneA && one s.laneB
/-- Tick T + 1: every voting lane latches the batch and checks it; without an exchange the reply follows in the same tick. DESIGN CHOICE
(log 21): the previous batch of TAG_REUSE is the last one a voting lane has latched, so a batch that ended NO_LANE unlatched is none. -/
def mbTick (s : State) : State :=
  match s.mbox.arrived with
  | some (b, t) =>
    if !s.mbox.latched && decide (t + 1 ≤ s.time.count) then
      let va := if s.laneA.votes then mbVerdicts s .a b else []
      let vb := if s.laneB.votes then mbVerdicts s .b b else []
      let take := fun (v : List Reply) (o : Lane) => coreMod (fun x => { x with verdictOwn := v, verdictIn := none, verdictWait := !v.isEmpty && o.votes && !x.linkDown })
      let s := { s with laneA := take va s.laneB s.laneA, laneB := take vb s.laneA s.laneB,
                        mbox := { s.mbox with latched := s.laneA.votes || s.laneB.votes, prevTag := if s.laneA.votes || s.laneB.votes then some b.tag else s.mbox.prevTag } }
      if s.mbox.latched && mbReady s then mbResolve s else s
    else s
  | none => s
/-- P7 of tick T + 1: a lane that has not received the other's verdicts by then decides on its own (R41, R42). -/
def mbFinish (s : State) : State :=
  match s.mbox.arrived with
  | some (_, t) => if s.mbox.latched && decide (t + 1 ≤ s.time.count) then mbResolve s else s
  | none => s
/-- MBOX_VERDICT: the other lane's verdicts; a copy whose CRC fails is missing, and the lane decides on its own. -/
def mbVerdict (rcv : LaneId) (ok : Bool) (s : State) : State :=
  let o := (s.lane (otherLane rcv)).core.verdictOwn
  let s := deliver rcv ok id s
  if s.mbox.latched && !(s.lane rcv).core.verdictOwn.isEmpty && !o.isEmpty then
    let s := s.modLane rcv (coreMod (fun c => { c with verdictIn := some (if ok then o else c.verdictOwn) }))
    if mbReady s then mbResolve s else s
  else s
def execMboxVerdict (rcv : LaneId) (ok : Bool) (s : State) : Host.Outcome State Fault Refusal := .next (mbVerdict rcv ok s)
/-- MBOX_NO_LANE: two ticks after its arrival no deciding lane has taken the batch. -/
def mbNoLane (s : State) : State :=
  match s.mbox.arrived with
  | some (b, t) =>
    if (t + 2 ≤ s.time.count ∨ !s.pwr.laneRail) ∧ !(s.mbox.latched && (mbDecides s.laneA || mbDecides s.laneB)) then
      sysReply b.tag .noLane 0 0 [] [] { s with mbox := { s.mbox with arrived := none, latched := false } }
    else s
  | none => s
def execMboxNoLane (s : State) : Host.Outcome State Fault Refusal := .next (mbNoLane s)

end Sys2Proof.Machine
end

