-- ==== Sys2Proof/Machine/Publish.lean ====
section
/-! DEFINITION. The copy of its pages that a lane writes to its bus interface in P7 (R39): the writable words in force and every read-only word of
pages 010–01C, 030–048 and 050–061, at lane A's offsets. -/
namespace Sys2Proof.Machine
open Sys2Proof

/-- Write words at aperture offsets, and values of fields. -/
def putWords (l : List (Nat × Nat)) (rf : RegFile) : RegFile := l.foldl (fun rf x => rset rf x.1 (BitVec.ofNat 32 x.2)) rf
def putFlds (l : List (Fld × Nat)) (rf : RegFile) : RegFile := l.foldl (fun rf x => fset rf x.1 x.2) rf
/-- n words from an offset on. -/
def wordRow (off n : Nat) (f : Nat → Nat) : List (Nat × Nat) := (upto n).map (fun k => (off + 4 * k, f k))
/-- The low 16 bits of a signed value. -/
def s16 (x : Int) : Nat := ux 16 x

/-! ### Pages 010 to 012 -/

def pubCore (l : Lane) : List (Nat × Nat) :=
  let c := l.core
  let r := c.rot
  [(0x10100, c.claim + 65536 * c.otherClaim),
   (0x10104, modeNum c.mode + 16 * b2n c.merge + 32 * b2n c.linkDown + 64 * b2n l.row.prot.conserv + 128 * b2n c.aonLost + 256 * b2n c.bothFail +
      512 * b2n l.row.adv.isSome),
   (0x10108, c.seq), (0x1010C, c.hash % 2 ^ 32), (0x10110, c.hash / 2 ^ 32 % 2 ^ 32), (0x10114, c.mismatch + 65536 * min 0x2000 c.equalRun),
   (0x10118, c.stCount + 65536 * c.stFails + 2 ^ 24 * c.stLast), (0x1011C, c.gen % 256 + 256 * (c.cause % 4) + 65536 * c.takeovers),
   (0x11100, r.slice), (0x11104, r.done + 65536 * min 0xFFFF (r.sinceDone / 8192)), (0x11108, r.items),
   (0x1110C, b2n r.overdue + 2 * b2n r.clear + 4 * min 3 c.copyFails.length), (0x11110, c.linkErrCrc + 65536 * c.linkMissing)]
def pubCal (l : Lane) : List (Nat × Nat) :=
  let c := l.cal
  [(0x12100, calGen c), (0x12104, b2n (calUser c) + 2 * calPhaseNum c.phase + 256 * c.failCode + 65536 * c.len)] ++
  wordRow 0x12130 8 (fun k => calRead c (4 * l.row.f F.LCAL_OFF_OFF + 4 * k))

/-! ### Pages 013 to 017 -/

/-- The bank LENG_CTRL.VIEW selects. -/
def viewBank (r : RowSt) : LoopBank := if r.f F.LENG_CTRL_VIEW = 1 then r.loops.act else r.loops.edit
def traceNum : TraceState → Nat
  | .idle => 0 | .armed => 1 | .triggered => 2 | .frozen => 3
def pubLoop (b : LoopBank) (r : RowSt) (j : Nat) : List (Nat × Nat) :=
  let base := 0x14000 + 0x1000 * (j / 16) + 0x180 + 0x60 * (j % 16)
  let x := loopAt r.loops j
  wordRow base 18 (bWord b j) ++
  [(base + 0x4C, ux 32 x.u), (base + 0x50, ux 32 x.i), (base + 0x54, ux 32 x.err), (base + 0x58, ux 32 x.pv),
   (base + 0x5C, x.path % 4 + 4 * b2n x.ran + 8 * b2n x.sat + 16 * b2n x.iClamp + 32 * b2n x.outClamp + 64 * b2n x.slew + 128 * b2n x.pvLost +
      256 * b2n x.overridden + 512 * b2n x.feTrip + 4096 * effMode (loopMode r.regs j) (bFeAct r.loops.act j) x.feTrip + 65536 * x.feCnt)]
def pubLoops (l : Lane) : List (Nat × Nat) :=
  let r := l.row
  let s := r.loops
  let b := viewBank r
  let t := l.trace
  let trips := fun (base : Nat) => nsum ((upto 32).map (fun n => if (loopAt s (base + n)).feTrip then 2 ^ n else 0))
  let ch := r.f F.LENG_TRC_RD_CH
  let blk := r.f F.LENG_TRC_RD_BLK
  [(0x13104, s.active + 2 * b2n s.checked + 4 * b2n (s.armedAt.isSome || s.txnSwap) + 256 * s.badCode + 65536 * s.badLoop), (0x13114, s.crc),
   (0x13118, s.swaps), (0x13130, trips 0), (0x13134, trips 32)] ++
  wordRow 0x13124 3 (fun c => bLut b (r.f F.LENG_LUT_PTR_LOOP) (r.f F.LENG_LUT_PTR_IDX) c) ++
  [(0x13C2C, traceNum t.state), (0x13C30, t.tick), (0x13C3C, ch + 64 * blk)] ++ wordRow 0x13D00 64 (fun k => traceRead t ch (64 * blk + k)) ++
  ((upto 64).map (pubLoop b r)).flatten
/-- R136: under AUTO the next block follows, and AUTO clears after block 63 of channel 7. -/
def traceAdvance (r : RowSt) : RowSt :=
  if r.f F.LENG_TRC_RD_AUTO = 1 then
    let n := 64 * r.f F.LENG_TRC_RD_CH + r.f F.LENG_TRC_RD_BLK
    if 511 ≤ n then r.setF F.LENG_TRC_RD_AUTO 0 else (r.setF F.LENG_TRC_RD_CH ((n + 1) / 64)).setF F.LENG_TRC_RD_BLK ((n + 1) % 64)
  else r

/-! ### Pages 019 to 01C -/

/-- Word k of a 3,072-bit signature, most significant first; 0 until signed. -/
def sigWord (x : Option Nat) (k : Nat) : Nat := match x with | some v => v / 2 ^ (32 * (95 - k)) % 2 ^ 32 | none => 0
def pubSec (s : State) (id : LaneId) : List (Nat × Nat) :=
  let x := s.lsec id
  let p := match id with | .a => s.panA | .b => s.panB
  let f := s.fw id
  let n := laneNum id
  let svn := laneSvn f
  [(0x19100, b2n (s.laneWin id) + 2 * b2n p.w + 4 * b2n x.disagree + 8 * b2n p.tamper + 16 * f.run + 32 * b2n x.bankRefused +
      64 * b2n (bitOf s.sec.dbg (2 + n)) + 128 * b2n (bitOf s.sec.dbg (4 + n)) + 256 * (svn % 128) + 65536 * ((s.lane id).core.secResult % 16))] ++
  wordRow 0x19140 8 (fun k => wordOf (leBytes 32 (lget 0 s.sec.meas (2 + n))) k) ++ wordRow 0x19200 96 (sigWord x.sig) ++ wordRow 0x19400 96 (sigWord x.psig)
def pubRec (l : Lane) : List (Nat × Nat) :=
  let r := l.recd
  [(0x1A100, min 4096 r.undeliv.length + 65536 * (r.entries.filter (fun e => e.opened)).length), (0x1A104, l.row.recSh.num), (0x1A108, r.ownNum)] ++
  wordRow 0x1A140 8 (fun c => lget 0 l.row.recSh.counts c) ++ wordRow 0x1A160 8 (fun c => lget 0 r.ownCounts c) ++ wordRow 0x1A180 8 (fun c => lget 0 r.lost c)
/-- The update page: lane B's writable words stand on page 02B. -/
def pubUpd (s : State) (id : LaneId) : List (Nat × Nat) :=
  let f := s.fw id
  let at4 := fun (o : Nat) => (rget (s.lane id).row.regs (lupdPage id * 0x1000 + o)).toNat
  [(0x1B100, f.run + 2 * f.phase + 256 * f.fail + 65536 * (f.svn % 128)), (0x1B104, 16 * (f.result % 16)), (0x1B108, at4 0x108)] ++
    wordRow 0x1B10C 7 (fun k => at4 (0x10C + 4 * k))
def pubTwin (s : State) : List (Nat × Nat) :=
  let t := s.twin
  let b := if t.owner then (match t.bTick with | some b => (s.time.seqBase + b) % 2 ^ 32 | none => 0) else t.bSeq
  [(0x1C100, twinRole t + 8 * b2n t.slot + 16 * b2n t.peerOwn + 32 * b2n t.pathOk + 64 * (t.peerNode % 64) + 65536 * t.eqRun),
   (0x1C104, 16 * t.result), (0x1C108, b)]

/-! ### Pages 030 to 048, from the reports -/

def pubBank (r : RowSt) (b : Nat) : List (Nat × Nat) :=
  let base := 0x30000 + 0x1000 * b
  match repBank r.act b with
  | none => []
  | some x =>
    let ph := fun (n : Nat) => match repCh r.act (8 * b + n) with | some c => c.phase | none => 0
    let act := (upto 8).find? (fun n => ph n == 1 || ph n == 2)
    [(base + 0x100, x.rail + 1024 * b2n (repReady r (8 * b)) + 2048 * b2n x.recharge + 4096 * act.getD 0 + 2 ^ 15 * b2n act.isSome +
        65536 * repHold r.act b + 2 ^ 25 * x.queue.length),
     (base + 0x108, x.ignored + 65536 * x.refused), (base + 0x10C, x.refCh + 16 * x.refCause + 256 * x.refTick)] ++
    ((upto 8).map (fun n =>
      let c := (repCh r.act (8 * b + n)).getD {}
      [(base + 0x220 + 4 * n, c.pos + 4 * c.phase + 16 * b2n c.wait + 32 * b2n c.fault + 64 * b2n c.cand.isSome + 256 * c.cmdId + 65536 * c.result +
          2 ^ 20 * c.diag + 2 ^ 24 * c.ignId),
       (base + 0x240 + 4 * n, c.moveT + 65536 * c.ttp), (base + 0x260 + 4 * n, c.strokes)])).flatten
def pubFan (r : RowSt) (g : Nat) : List (Nat × Nat) :=
  let base := 0x40000 + 0x1000 * g
  let xs := (upto 16).map (fun i => repFan r.act (16 * g + i))
  let count := fun (st : Nat) => (xs.filter (fun x => match x with | some y => y.state == st | none => false)).length
  let wd := fun (c : Nat) => match actRep r.act c with | some x => x.chip.wdog | none => false
  let wdog := if g = 0 then wd 0 else if g = 1 then wd 0 || wd 1 else wd 1
  (base + 0x108, count 0 + 32 * count 4 + 1024 * count 3 + 2 ^ 15 * b2n (count 4 != 0) + 2 ^ 16 * b2n wdog) ::
  ((upto 16).map (fun i =>
    match lget none xs i with
    | some (x : FanCh) =>
      [(base + 0x240 + 4 * i, x.state + 8 * x.kick + 32 * b2n x.slow + 64 * b2n (x.state == 4) + 65536 * x.rpm.getD 0xFFFF),
       (base + 0x280 + 4 * i, x.applied + 65536 * x.cur)]
    | none => [])).flatten
def pubPumps (s : State) (r : RowSt) : List (Nat × Nat) :=
  ((upto 4).map (fun n =>
    let b := blkGet s (0x100 + n)
    let base := 0x48200 + 16 * n
    let head := bstateNum b.state + 16 * b2n b.pend + 256 * b2n (bitOf r.prot.dry n)
    match repPump r.act n with
    | some x =>
      [(base + 4, head + 32 * b2n x.tachLost + 64 * b2n x.mbLost + 128 * b2n x.lossBad + 65536 * x.applied),
       (base + 8, x.rpm.getD 0xFFFF + 65536 * lget 0 x.mb 0),
       (base + 12, lget 0 x.mb 1 + 65536 * (lget 0 x.mb 4 % 256) + 2 ^ 24 * x.age)]
    | none => [(base + 4, head), (base + 8, 0xFFFF)])).flatten

/-! ### Pages 050 to 061 -/

def leakNum : LeakClass → Nat
  | .dry => 0 | .wet => 1 | .opened => 2 | .short => 3
/-- The registers of one channel. DESIGN CHOICE (log 73): SENS_CH_STAT.LEAK shows the class of the owner path. -/
def pubChan (t : SensSt) (g n : Nat) : List (Nat × Nat) :=
  let c := chanAt t (32 * g + n)
  let k := 0x50000 + 0x1000 * g + 4 * n
  let leak : LeakCh := if g = 4 ∨ g = 5 then tget {} t.leak (16 * (g - 4) + n) else {}
  [(k + 0x380, ux 32 c.value),
   (k + 0x400, chStateNum c.state + 16 * c.cause + 256 * b2n c.pathDiff + 512 * sensOwner g n + 1024 * leakNum leak.own + 4096 * b2n leak.verdict +
      65536 * c.faults),
   (k + 0xC00, c.rawOwn + 65536 * c.rawX)]
def pubSens (l : Lane) : List (Nat × Nat) :=
  let t := l.row.sens
  [(0x50188, t.suspectPkg + 65536 * t.missingPkg), (0x50190, s16 t.dewMax + 65536 * t.dewValid + 2 ^ 20 * b2n t.dewFixed),
   (0x50194, s16 t.dewFloor + 65536 * b2n t.dewVerdict)] ++ (chanKeys.map (fun x => pubChan t x.1 x.2)).flatten
def pubPairs (t : SensSt) : List (Fld × Nat) :=
  ((upto 6).map (fun k => let p := pairAt t k
    [(F.SENS_PAIR_SUSPECT 0 k, b2n p.suspect), (F.SENS_PAIR_LOST 0 k, b2n p.lost), (F.SENS_PAIR_USED 0 k, b2n p.usedB)])).flatten
/-- Racks with RACK_OFF, or with an OFF record. -/
def capOffRacks (r : RowSt) : Nat :=
  nsum ((upto 24).map (fun k => if bitOf r.prot.roff k || r.caps.ep.any (fun (x : Nat × EpCap) => x.1 / 96 == k && x.2.off) then 2 ^ k else 0))
def pubCaps (m : Option DecRec) (r : RowSt) : List (Nat × Nat) :=
  let c := r.caps
  let eps := capEndpoints c
  let e0 := r.f F.CAPC_TBL_PTR_IDX
  let sel := r.f F.CAPC_TBL_PTR_SEL
  let (hr, hc) := match c.haboob with | some h => (h.racks, h.cause) | none => (0, 0)
  wordRow 0x60130 8 (fun k => capShown c sel (e0 + k)) ++
  [(0x60150, b2n r.prot.conserv + 2 * b2n (c.habRacks != 0) + 4 * b2n c.follow.isSome + 16 * (eps.filter (fun e => (epAt c e).dropped)).length),
   (0x60154, hr + 2 ^ 24 * hc), (0x60158, capOffRacks r), (0x6015C, nsum (eps.map (fun e => (epAt c e).c)))] ++
  wordRow 0x60160 8 (fun b => (eps.filter (fun e => (epAt c e).bind == b)).length) ++
  wordRow 0x60180 16 (fun k => halfOf (lget 0 c.bindTime (k / 2)) (k % 2 == 1)) ++
  (0x60C00, c.snapPos) :: wordRow 0x60C40 64 (fun k =>
    let x := capRecOf m r (c.snapPos + k)
    x.capNow + 65536 * x.bind + 2 ^ 19 * b2n x.dropped + 2 ^ 20 * b2n x.off + 2 ^ 21 * b2n (x.warm != 0) + 2 ^ 22 * b2n x.member)
/-- CAPC_SNAP_POS moves on after each P7. -/
def snapAdvance (r : RowSt) : RowSt := { r with caps := { r.caps with snapPos := (r.caps.snapPos + 64) % 2304 } }
def pubSlip (r : RowSt) : List (Nat × Nat) :=
  let t := r.slip
  let phase := match t.cur with | some x => (if x.phase = 3 then 3 else x.phase) | none => 0
  let (ep, a, mem, ack) := match t.cur with | some x => (x.epoch, x.a, x.members.length, x.acked.length) | none => (t.lastEpoch, 0, 0, 0)
  let acked : Tbl Bool := match t.cur with | some x => x.acked | none => []
  [(0x61100, phase + 8 * b2n t.split + 16 * t.lastOut + 256 * t.cause), (0x61104, ep), (0x61108, a % 2 ^ 32), (0x6110C, mem + 65536 * ack),
   (0x61110, t.firstMiss + 65536 * t.late), (0x61114, t.commits), (0x61118, t.aborts), (0x6111C, t.splits), (0x6112C, t.hepoch)] ++
  wordRow 0x61C40 72 (fun k => nsum ((upto 32).map (fun n => if tget false acked (32 * k + n) then 2 ^ n else 0)))

/-! ### The copy -/

/-- The lane-owned pages and the block whose PG_CTRL a lane shows there: lane B has PG_CTRL of its own on pages 020 and 02B (R39, R394). -/
def ctrlPages (id : LaneId) : List (Nat × Nat) :=
  let own := fun (i : Nat) => match id with | .a => 0x10 + i | .b => if i = 0 ∨ i = 0xB then 0x20 + i else 0x10 + i
  (upto 13).map (fun i => (0x10 + i, own i)) ++ (upto 12).map (fun b => (0x30 + b, 0x30 + b)) ++ (upto 3).map (fun g => (0x40 + g, 0x40 + g)) ++
    [(0x48, 0x48)] ++ (upto 8).map (fun g => (0x50 + g, 0x50 + g)) ++ [(0x60, 0x60), (0x61, 0x61)]
def pubCtrl (s : State) (id : LaneId) : List (Nat × Nat) := (ctrlPages id).map (fun x => (x.1 * 0x1000 + 8, ctrlWord (blkGet s x.2)))
/-- RESULT fields that share a register with a writable field. -/
def pubResults (s : State) (l : Lane) : List (Fld × Nat) :=
  let n := fget l.row.regs F.PUMP_MB_CMD_PUMP
  let rep : Nat := match actRep l.row.act (n / 2) with | some x => x.chip.mb.result | none => (s.chip (n / 2)).mb.result
  [(F.LANE_CMD_RESULT, l.core.cmdResult), (F.LCAL_CMD_RESULT, l.cal.result), (F.LENG_BANK_CMD_RESULT, l.row.loops.result),
   (F.SENS_CAL_CMD_RESULT 0, l.cal.calResult), (F.PUMP_MB_CMD_RESULT, rep), (F.SLIP_HREQ_CMD_RESULT, l.row.slip.hres),
   (F.CAPC_BUDGET_CTRL_GATHER, b2n l.row.caps.gather), (F.CAPC_BUDGET_CTRL_HELD, l.row.caps.held.length)]
/-- The lane's pages as it writes them in P7; `m` is the merged record in MERGE. -/
def pubLane (s : State) (id : LaneId) (m : Option DecRec) : RegFile :=
  let l := s.lane id
  let r := l.row
  let words := pubCore l ++ pubCal l ++ pubLoops l ++ pubSec s id ++ pubRec l ++ pubUpd s id ++ pubTwin s ++ ((upto 12).map (pubBank r)).flatten ++
    ((upto 3).map (pubFan r)).flatten ++ pubCtrl s id ++ pubPumps s r ++ pubSens l ++ pubCaps m r ++ pubSlip r
  putFlds (pubResults s l ++ pubPairs r.sens) (putWords words r.regs)
/-- P7 of a lane on its bus interface; what the copy shows next moves on afterwards. -/
def publish (id : LaneId) (m : Option DecRec) (s : State) : State :=
  let rf := pubLane s id m
  s.modLane id (fun l => { l with pub := rf, row := if l.votes then snapAdvance (traceAdvance l.row) else l.row })

end Sys2Proof.Machine
end

