-- ==== Sys2Proof/Machine/Emission.lean ====
section
/-! DEFINITION. The end of a lane's tick (R17, P5 to P7): roles, the exchange of self-test verdicts and decision records, MERGE, assembly and
emission (R72, R78, R83–R87, R202, R249, R395). -/
namespace Sys2Proof.Machine
open Sys2Proof

/-- A lane that decides for the row in this tick: it votes, and its module is not passive (R367). -/
def laneDecides (s : State) (l : Lane) : Bool := l.votes && !s.twin.passive
/-- Apply a row operation in every lane that decides. -/
def onDeciding (f : RowSt → RowSt) (s : State) : State := if s.twin.passive then s else s.onRows f
/-- The targets decided in a decision tick, and in the first tick of MERGE. -/
def isDecision (s : State) : Bool := s.time.tick == 2
/-- The row with the tick's transaction staged (R219). -/
def rowStage (s : State) (r : RowSt) : RowSt := slipStage s.time.count s.seqNow (isDecision s) r.caps.staged r
/-- The lane's own decision record of the tick (R395); its epoch is that of the transaction this P5 stages. -/
def ownRec (s : State) (r : RowSt) : DecRec :=
  let e := match (rowStage s r).slip.cur with | some t => if t.p = s.time.count then t.epoch else 0 | none => 0
  buildRec s.seqNow e r
/-- PG_CTRL.EN and FORCE_SAFE of the twelve banks. -/
def bankBits (f : Blk → Bool) (s : State) : Nat := nsum ((upto 12).map (fun b => if f (blkGet s (0x30 + b)) then 2 ^ b else 0))
/-- The STATUS message of the tick (R72). -/
def statusOf (s : State) (l : Lane) : StatusMsg :=
  let c := l.core
  { claim := c.claim, mode := c.mode, merge := c.merge, linkDown := c.linkDown, aonLost := c.aonLost, stFail := c.stFail,
    conserv := l.row.prot.conserv, inputMiss := c.inputMiss, seq := s.seqNow, hash := if l.votes then c.hash else 0,
    rhash := if l.votes then c.rhash else 0, rot := c.rot.slice }
/-- What a lane that runs but does not vote sends on the ports: its claim beacon alone (R77). -/
def beaconOnly (s : State) (l : Lane) : EthOut :=
  { claim := l.core.claim, seq := s.seqNow, merged := false, conserv := l.row.prot.conserv, node := s.fld F.CRVN_STAT_ADDR,
    tstamp := (tickInst s.time 0).2, haboob := [], drops := [], nrec := [], habRacks := 0, offRacks := 0, timeFree := s.fld F.PTP_STAT_LOCKED == 0,
    epochNow := 0, pend := none, slew := 0, recs := [], aborts := [] }
/-- P6: the frames of a lane that decides, their HASH and the RHASH of its own record; a passive module's lane emits no frame (R367). -/
def assemble (s : State) (m : Option DecRec) (own : DecRec) (l : Lane) : Lane :=
  if !l.votes then (if l.running && !s.twin.passive then { l with ethOut := some (beaconOnly s l) } else l)
  else
    let l := coreMod (fun c => { c with rhash := recHash own }) l
    if s.twin.passive then coreMod (fun c => { c with hash := 0 }) l
    else
      let r := if handLast s then rowAct (fun a => { a with items := [] }) l.row else l.row
      let a := buildAct s.time.count l.core.claim s.seqNow (bankBits (fun b => b.en) s) (bankBits (fun b => b.forceSafe) s) m r
      let o := buildEth s.time (s.fld F.PTP_STAT_LOCKED == 0) (s.fld F.CRVN_STAT_ADDR) l.core.claim s.seqNow m r
      coreMod (fun c => { c with hash := tickHash a o }) { l with actOut := some a, ethOut := some o }
/-- P7: STATUS, the pages on the bus interface, the flash record. -/
def emit (id : LaneId) (m : Option DecRec) (s : State) : State :=
  let l := s.lane id
  let s := s.modLane id (coreMod (fun c => { c with await := .nothing, seq := s.seqNow, statusOwn := if l.running then some (statusOf s l) else none }))
  let s := if l.running then publish id m s else s
  s.modLane id (fun l => holdupFlash s.time.count (if l.votes then flashTick l else l))
/-- Staging, assembly and emission of one lane; `m` is the merged record in MERGE. -/
def emitStage (id : LaneId) (m : Option DecRec) (s : State) : State :=
  let l := laneClaim id (s.lane id)
  let own := match l.core.recordOut with | some d => d | none => ownRec s l.row
  let l := if laneDecides s l then { l with row := rowStage s l.row } else l
  emit id m (s.setLane id (assemble s m own l))

/-! ### Roles and MERGE (R84–R87) -/

/-- The decisions on roles; a lane in MERGE sends its record and waits for the other's, any other lane emits. -/
def roleGo (id : LaneId) (s : State) : State :=
  let s := s.modLane id (fun l => if s.twin.passive then coreMod (fun c => { c with mergeEndDue := false, mergeDue := false }) l
    else roleStep id s.time.count l)
  let l := s.lane id
  if laneDecides s l && l.core.merge then s.modLane id (coreMod (fun c => { c with recordOut := some (ownRec s l.row), await := .record }))
  else emitStage id none s
/-- A lane that would take authority for silence alone waits for a STATUS that may still arrive in the tick (R16, R82). -/
def roleStage (id : LaneId) (s : State) : State :=
  if !s.twin.passive && takeoverLate id (s.lane id) then s.modLane id (coreMod (fun c => { c with await := .status })) else roleGo id s
/-- The lane decides with the merged record: the field-by-field merge with the other lane's where that came, its own where it did not. -/
def mergeStage (id : LaneId) (other : Option DecRec) (s : State) : State :=
  let l := s.lane id
  let own := match l.core.recordOut with | some d => d | none => ownRec s l.row
  let first := outranks l.core.claim (s.lane (otherLane id)).core.claim
  let m := match other with | some o => if first then mergeRec own o else mergeRec o own | none => own
  let l := { l with row := mergeApply s.time.count (l.core.mergeStart == s.time.count) own m l.row }
  emitStage id (some m) (s.setLane id l)
/-- Whether a RECORD of the other lane can still come. -/
def recordComes (s : State) (id : LaneId) : Bool :=
  let o := s.lane (otherLane id)
  o.core.recordOut.isSome || o.core.await == .selftest || o.core.await == .status
/-- A lane in MERGE whose partner sends no record emits with its own decision. -/
def mergeAlone (id : LaneId) (s : State) : State :=
  if (s.lane id).core.await = .record ∧ recordComes s id = false then mergeStage id none s else s
/-- Both lanes have emitted. -/
def tickDone (s : State) : Bool := s.laneA.core.await == .nothing && s.laneB.core.await == .nothing

/-! ### The end of the tick -/

/-- Frames a port with link sends for a lane: its claim beacon and every frame of R202 and R226. -/
def laneFrames (l : Lane) : Nat := match l.ethOut with | some o => 1 + (ethPayloads o 0).length | none => 0
def txCount (p : Nat) (s : State) : State :=
  if (s.eth p).link then ethCount (F.ETH_TX_LANE_COUNT p) (laneFrames s.laneA + laneFrames s.laneB) s else s
/-- The RHASH of the record a twin's lanes mirror. -/
def mirrorHash (s : State) : Nat := if mirrors s.laneA then s.laneA.core.rhash else s.laneB.core.rhash
/-- What follows both lanes' emission: pair frames, event delivery, counts. -/
def tickTail (s : State) : State :=
  let s := twinServe (twinCompare (mirrorHash s) s)
  let clear := coreMod (fun c => { c with inputIn := none })
  let s := { s.onTwin (fun t => { t with statusIn := false }) with laneA := clear s.laneA, laneB := clear s.laneB }
  txCount 1 (txCount 0 (recordTick s.flush))
/-- The tail, once no lane waits. -/
def tailIf (was : Bool) (s : State) : State :=
  let s := mergeAlone .b (mergeAlone .a s)
  if was && tickDone s then tickTail s else s

/-! ### SELFTEST and RECORD -/

/-- SELFTEST: the other lane's verdict; a copy whose CRC fails counts as missing (R84). -/
def selftestGo (rcv : LaneId) (ok : Bool) (s : State) : State :=
  let v := (s.lane (otherLane rcv)).core.selftestOut
  let s := deliver rcv ok id s
  if (s.lane rcv).core.await = .selftest then
    tailIf true (roleStage rcv (s.modLane rcv (coreMod (fun c => { c with await := .nothing, selftestIn := if ok then v else none }))))
  else s
def execSelftest (rcv : LaneId) (ok : Bool) (s : State) : Host.Outcome State Fault Refusal := .next (selftestGo rcv ok s)
/-- RECORD: the other lane's record for the merge; a copy whose CRC fails counts as missing (R85). -/
def recordGo (rcv : LaneId) (ok : Bool) (s : State) : State :=
  let d := (s.lane (otherLane rcv)).core.recordOut
  let s := deliver rcv ok id s
  if (s.lane rcv).core.await = .record ∧ (d.isSome ∨ ok = false) then tailIf true (mergeStage rcv (if ok then d else none) s)
  else s
def execRecord (rcv : LaneId) (ok : Bool) (s : State) : Host.Outcome State Fault Refusal := .next (recordGo rcv ok s)
/-- A verdict, record or STATUS that has not come by the end of the tick is missing. -/
def tickFinish (s : State) : State :=
  let one := fun (id : LaneId) (s : State) =>
    let s := if (s.lane id).core.await = .selftest then roleStage id (s.modLane id (coreMod (fun c => { c with await := .nothing, selftestIn := none }))) else s
    let s := if (s.lane id).core.await = .status then roleGo id (s.modLane id (coreMod (fun c => { c with await := .nothing }))) else s
    if (s.lane id).core.await = .record then mergeStage id none s else s
  if tickDone s then s else tailIf true (one .b (one .a s))

/-! ### STATUS and TAKEOVER -/

/-- STATUS: what the sender emitted in the ending tick (R72). One that arrives while the lane waits to take authority for silence cancels that
(R16, R82). -/
def statusGo (rcv : LaneId) (ok : Bool) (s : State) : State :=
  let m := (s.lane (otherLane rcv)).core.statusOwn
  let s := deliver rcv ok (takeStatusIn m) s
  if (s.lane rcv).core.await = .status ∧ ok ∧ m.isSome then
    tailIf true (roleGo rcv (s.modLane rcv (coreMod (fun c => { c with await := .nothing, missRun := 1 }))))
  else s
def execStatus (rcv : LaneId) (ok : Bool) (s : State) : Host.Outcome State Fault Refusal := .next (statusGo rcv ok s)
/-- TAKEOVER (R82): a lane that waits in P5 takes authority; the frames of the tick go out with the new claim. -/
def takeoverGo (id : LaneId) (s : State) : State :=
  if (s.lane id).core.await = .status then tailIf true (roleGo id (s.modLane id (coreMod (fun c => { c with await := .nothing }))))
  else s.modLane id (fun l => if l.core.mode = .standby then reclaim id (takeoverOp id l) else l)
def execTakeover (lane : LaneId) (s : State) : Host.Outcome State Fault Refusal := .next (takeoverGo lane s)

end Sys2Proof.Machine
end

