-- ==== Sys2Proof/Machine/Tick.lean ====
section
/-! DEFINITION. TICK_BOUNDARY (R12, R15–R17): the parts of the module that work to the tick, then each lane's phases P0 to P7. -/
namespace Sys2Proof.Machine
open Sys2Proof

/-! ### The module at a boundary -/

/-- Ticks, frames and seconds (R12). -/
def timeStep (t : TimeSt) : TimeSt :=
  let n := t.count + 1
  { t with count := n, tick := n % 8, frame := n / 8 % 1024, sec := if n % 8192 = 0 then t.sec + 1 else t.sec }
/-- PG_STAT.SAFE falls at the first boundary with FORCE_SAFE 0 (R35); a valve bank's follows the frames (R250). -/
def safeBoundary (s : State) : State :=
  { s with blk := s.blk.foldl (fun t (x : Nat × Blk) => tset {} t x.1 { x.2 with safe := if isBank x.1 then x.2.safe else x.2.forceSafe }) [] }
/-- Cycles an erg at f MHz counts in tick n: a tick is 15,625/128 µs. -/
def tickCycles (f n : Nat) : Nat := (n + 1) * f * 15625 / 128 - n * f * 15625 / 128
/-- ERG_CYCLES over a tick: an awake erg's tile cycles, every second edge suppressed while the clock stretcher is active (R64, R138). -/
def ergCount (k : Nat) (s : State) : State :=
  if s.fld (F.ERG_STAT_AWAKE k) = 1 then
    ergAct F.ERG_CYCLES_LO_COUNT F.ERG_CYCLES_HI_COUNT k (tickCycles (oppMhz s.xopp.cur) s.time.count / (if s.xopp.stretch then 2 else 1)) s
  else s
/-- Lateness counts from the end of tick 1 in a frame that is to post an advisory and has not (R21). -/
def lateTick (s : State) : State :=
  if s.time.tick = 2 ∧ s.x.frameOn ∧ !s.x.posted ∧ s.x.active.isSome then { s with xopp := { s.xopp with overrun := true } } else s
/-- The parts of the module outside the lanes, in the tick that begins. -/
def moduleTick (s : State) : State :=
  let s := panelTick (lateTick ((upto 8).foldl (fun s k => ergCount k s) (safeBoundary s)))
  let s := ethTick 1 (ethTick 0 (ptpTick (crvnTick s)))
  let s := if s.time.count % 8192 = 0 then invSecond s else s
  let s := hervXoide (hervTrialTick (trialTick .b (trialTick .a s)))
  if s.time.tick = 0 then hervFrame s else s
/-- The pair at a boundary: the last LOG is applied, then the field changes hands where it is due (R366–R369, R388, R389). -/
def twinTick (s : State) : State :=
  let s := slotWait (ownConflict ((twinApply s).onTwin peerSample))
  twinReq (statusLoss ((peerGone (handBoundary s)).onTwin pairMiss))

/-! ### P0 -/

/-- The tick S + 16 of a returning lane comes with the other lane's state at the end of S + 15 (R88). -/
def resyncBoth (s : State) : State :=
  if s.twin.passive then s
  else { s with laneA := resyncTick s.laneB .a s.time.count s.laneA, laneB := resyncTick s.laneA .b s.time.count s.laneB }
def rowP0 (tick : Nat) (r : RowSt) : RowSt :=
  capFollowApply tick (rowBankSwap (slipP0 tick r))
/-- P0: commit, bank swap, FOLLOW, calibration switch, mailbox batch, lane commands. -/
def tickP0 (s : State) : State :=
  let s := onDeciding (rowP0 s.time.count) s
  let s := if s.laneA.cal.switchDue && s.laneB.cal.switchDue then calSwitch s else s
  let s := mbApply s
  let one := fun (id : LaneId) (s : State) => cmdTimeout id (secCmdIn id (laneCmdIn id s))
  one .b (one .a s)

/-! ### P1 -/

/-- The messages of the ending tick in a lane: STATUS and Playa's reports. -/
def laneP1 (id : LaneId) (tick : Nat) (l : Lane) : Lane :=
  if !l.running then { l with core := { l.core with statusIn := none } }
  else
    let reps := l.row.act.repIn
    let l := coreMod (fun c => { c with playaSawA := reps.any (fun x => x.2.chip.sawA), playaSawB := reps.any (fun x => x.2.chip.sawB) }) (latchStatus id tick l)
    { l with row := actLatch tick l.row }
/-- A lane whose boot is complete resolves authority in the module that owns the field (R354, R366). -/
def bootP1 (owner : Bool) (id : LaneId) (l : Lane) : Lane :=
  if l.core.mode = .boot ∧ l.core.bootDone ∧ owner then
    bootResolve id (coreMod (fun c => { c with bootWait := c.bootWait + 1 }) l)
  else l
/-- Summaries, acknowledgements, hold-up and the feeds, for the row. -/
def rowP1 (tick : Nat) (holdup oneFeed : Bool) (r : RowSt) : RowSt :=
  let eps := capEndpoints r.caps
  let s := r.sens.summIn.foldl (fun s x => summLatch (r.f (F.SENS_HS_BAND 0)) tick x s) { r.sens with summIn := [] }
  let s := eps.foldl (fun s e => hotTick tick e s) s
  let s := { s with suspectPkg := (eps.filter (fun e => pkgSuspect s e)).length, missingPkg := (eps.filter (fun e => summMissing s e tick)).length }
  gatherTimeout tick { r with sens := s, slip := slipLatch r.slip, prot := { r.prot with hup := holdup, oneFeed := oneFeed } }
/-- What a lane that does not decide drops. -/
def rowDrop (r : RowSt) : RowSt := { r with sens := { r.sens with summIn := [] }, slip := { r.slip with acks := [] } }
/-- Lane `l` takes part in the INPUT exchange of tick `tick`: it votes, or the AUTHORITY lane `o` serves its copy (R88). -/
def exchanges (tick : Nat) (o l : Lane) : Bool :=
  l.votes || (l.core.mode == .resync && o.core.mode == .authority && (match o.core.serving with | some t => decide (t ≤ tick) | none => false))
/-- The other lane's INPUT of the tick is missing (R73): `l` and, as its STATUS or the copy it is served shows, the other lane take part. -/
def inputMissing (tick : Nat) (o l : Lane) : Bool :=
  let shown : Bool := match l.core.statusLast with | some m => m.mode.votes | none => false
  exchanges tick o l && !l.core.linkDown && l.core.inputIn.isNone && (shown || l.core.serving.isSome)
/-- The lane's own advisory, and whether INPUT came. -/
def coreP1 (tick : Nat) (c : LaneCore) (miss : Bool) : LaneCore :=
  let adv := match c.advPend with | some p => if p.tick ≤ tick then some p else c.advOwn | none => c.advOwn
  let pend := match c.advPend with | some p => if p.tick ≤ tick then none else some p | none => none
  { c with advOwn := adv, advPend := pend, inputMiss := miss, inmPend := c.inmPend || miss }
def tickP1 (s : State) : State :=
  let t := s.time.count
  let s := { s with laneA := laneP1 .a t s.laneA, laneB := laneP1 .b t s.laneB }
  let s := { s with laneA := bootP1 s.twin.owner .a s.laneA, laneB := bootP1 s.twin.owner .b s.laneB }
  let s := handQuiet s
  let one := fun (o l : Lane) =>
    let l := if laneDecides s l then { l with row := rowP1 t s.pwr.holdup s.pwr.oneFeed l.row } else { l with row := rowDrop l.row }
    coreMod (fun c => coreP1 t c (inputMissing t o l)) l
  { s with laneA := one s.laneB s.laneA, laneB := one s.laneA s.laneB }

/-! ### P2 and P3 -/

/-- The samples a lane evaluates (R69, R73). -/
def sampleSrc (id : LaneId) (l : Lane) : SampleSrc :=
  { id := id, own := l.fe, other := if l.core.linkDown then none else l.core.inputIn.map (fun m => m.fe) }
/-- The commit timers of a lane's calibration, the check of a staged image (DESIGN CHOICE, log 77: in the first tick after the apply tick), and the tick in which both INPUT messages show READY (R114). -/
def calTick (l : Lane) : Lane :=
  let c := if l.cal.phase.busy then { l.cal with age := l.cal.age + 1 } else l.cal
  let c := calTimeout (calChecked c)
  let both := c.phase == .ready && (match l.core.inputIn with | some m => m.calPhase == .ready | none => false)
  { l with cal := { c with switchDue := c.switchDue || both } }
/-- Whether P3 finds a hash of the tick before that differs (R83). -/
def hashDiffers (l : Lane) : Bool :=
  match statusNow l, l.core.statusOwn with
  | some o, some w =>
    !l.core.linkDown && o.mode.votes && !o.inputMiss && !w.inputMiss && o.seq == w.seq && l.votes && o.hash != w.hash
  | _, _ => false
/-- P3 of a lane that decides; `chips` are the epochs of the chips reported in the ending tick. -/
def laneP3 (id : LaneId) (tick : Nat) (skip : Bool) (chips : List (Nat × Nat)) (l : Lane) : Lane :=
  let l := advTick tick { l with row := { l.row with slip := slipDeadline tick l.row.slip } }
  let l := if skip then l else { l with row := senseTick l.cal (sampleSrc id l) tick l.row }
  let l := probationPass id (compareHash id tick l)
  { l with row := chips.foldl (fun r x => slipSplit tick x.1 x.2 r) l.row }

/-! ### P4 -/

/-- Idleness, whose trim offset the loops of the tick use (R201), the loops, the bank check and the trace of one lane. -/
def laneP4 (tick : Nat) (seq : Nat) (diff : Bool) (l : Lane) : Lane :=
  let r := capIdle tick l.row
  let (ls, evs) := loopTick (loopEnv r) (!l.core.merge) l.core.claim seq tick r.loops
  let (ls, evs2) := bankCheckRun r.regs (swapAtDue tick ls)
  let tr := traceTick r.regs ls diff (l.core.merge && l.core.mergeStart + 1 == tick) tick l.trace
  { l with row := { r with loops := { ls with swappedNow := false }, events := r.events ++ evs ++ evs2 }, trace := tr }
/-- The self-test that a mismatch or MERGE asks for, the rotation slice, and the signing time they leave. -/
def testP4 (id : LaneId) (item : Nat) (rot : Option Nat) (s : State) : State :=
  let l := s.lane id
  if !l.votes then signTick id false s
  else
    let due := selfTestDue s.time.count l
    let l := if due then selfTestRun id s.time.count item l else l
    signTick id due (s.setLane id (rotTick id s.time.count due rot l))

/-! ### P5 -/

/-- Protective valve commands among the items of the tick, and the standby pump a rule started in it (R230). -/
def protItems (r : RowSt) : List Nat := (r.act.items.filter (fun x => valProt x.2)).map (fun x => x.1)
def protPump (r : RowSt) : Option Nat := if r.act.standbyNow then some (r.f F.PUMP_CFG_STANDBY) else none
/-- Caps and Slipface of P5. -/
def rowP5 (tick : Nat) (r : RowSt) : RowSt :=
  let r := if tick % 8 = 2 then
      let (r, st) := capDecide tick (capLoadWords r)
      { r with caps := { r.caps with staged := st } }
    else { r with caps := { r.caps with staged := [] } }
  let r := slipProtect tick (protItems r) (protPump r) r.loops.outs (slipOutcome tick r)
  protPublish tick (capFollowOut tick { r with sens := dewPoll tick r.sens })
/-- P5 up to the roles. -/
def tickP5 (s : State) : State :=
  let t := s.time.count
  let s := onDeciding (fun r => p5Rules t (pumpStates s) (conservClear r)) s
  if s.twin.passive then s
  else
    let s := fanTick (pumpTick s)
    let pst := pumpStates s
    let fst := fanStates s
    let psafe := (blkGet s 0x48).safe
    let fsafe := (upto 3).map (fun g => (blkGet s (0x40 + g)).safe)
    s.onVoting (fun l => { l with row := rowP5 t (valveIssue t l.cal (dutyFields pst fst psafe fsafe l.row)) })

/-! ### The tick -/

/-- P2 to P5 of both lanes; `repA`, `repB` are the chips reported in the ending tick. -/
def tickMid (stA stB : Nat) (rotA rotB : Option Nat) (repA repB : List (Nat × Nat)) (s : State) : State :=
  let t := s.time.count
  let dA := hashDiffers s.laneA
  let dB := hashDiffers s.laneB
  let skip := tookLast s
  let p3 := fun (id : LaneId) (reps : List (Nat × Nat)) (l : Lane) =>
    coreMod (fun c => { c with statusOwn := none }) (calTick (if laneDecides s l then laneP3 id t skip reps l else l))
  let s := { s with laneA := p3 .a repA s.laneA, laneB := p3 .b repB s.laneB }
  let s := mbNoLane (mbTick s)
  let s := testP4 .b stB rotB (testP4 .a stA rotA s)
  let seq := s.seqNow
  let p4 := fun (d : Bool) (l : Lane) => if laneDecides s l then laneP4 t seq d l else l
  tickP5 { s with laneA := p4 dA s.laneA, laneB := p4 dB s.laneB }
/-- Roles and emission: the lanes wait for each other's SELFTEST where both have run the test. -/
def tickEnd (s : State) : State :=
  let tested := fun (l : Lane) => l.core.stOwn.isSome
  if tested s.laneA && tested s.laneB then
    let w := coreMod (fun c => { c with await := .selftest })
    { s with laneA := w s.laneA, laneB := w s.laneB }
  else tailIf true (roleStage .b (roleStage .a s))
/-- What stands from the tick before goes: its frames, verdicts and records. -/
def tickStart (l : Lane) : Lane :=
  { l with actOut := none, ethOut := none, row := { l.row with loops := { l.row.loops with outs := [] } }, core := { l.core with selftestOut := none, recordOut := none, await := .nothing } }
def repEpochs (l : Lane) : List (Nat × Nat) := l.row.act.repIn.map (fun x => (x.1, x.2.chip.epoch))
/-- The lanes' tick. -/
def laneTick (stA stB : Nat) (rotA rotB : Option Nat) (s : State) : State :=
  let s := tickP0 (resyncBoth { s with laneA := tickStart s.laneA, laneB := tickStart s.laneB })
  let repA := repEpochs s.laneA
  let repB := repEpochs s.laneB
  tickEnd (tickMid stA stB rotA rotB repA repB (tickP1 s))
/-- TICK_BOUNDARY: a verdict or record still awaited is missing; the clock steps; the module, the pair and the lanes do the work of the tick. -/
def tickBoundary (stA stB : Nat) (rotA rotB : Option Nat) (s : State) : State :=
  if !s.pwr.seqSupply then s
  else
    let s := if s.pwr.laneRail then mbFinish (tickFinish s) else s
    let s := moduleTick { s with time := timeStep s.time }
    hervPump (if s.pwr.laneRail then laneTick stA stB rotA rotB (twinTick s) else s)
def execTickBoundary (stA stB : Fin 6) (rotA rotB : Option (Fin 7)) (s : State) : Host.Outcome State Fault Refusal :=
  .next (tickBoundary stA.val stB.val (rotA.map (fun x => x.val)) (rotB.map (fun x => x.val)) s)

end Sys2Proof.Machine
end

