-- ==== Sys2Proof/Machine/Dispatch.lean ====
section
/-! DEFINITION. The dispatch: each command's meaning, one arm for each constructor of `Instr`. -/
namespace Sys2Proof.Machine
open Sys2Proof

def exec (i : Instr) (s : State) : Host.Outcome State Fault Refusal :=
  match i with
  | .tickBoundary stA stB rotA rotB => Sys2Proof.Machine.execTickBoundary stA stB rotA rotB s
  | .takeover lane => Sys2Proof.Machine.execTakeover lane s
  | .aonclkLoss lane => Sys2Proof.Machine.execAonclkLoss lane s
  | .tickMark rcv ok => Sys2Proof.Machine.execTickMark rcv ok s
  | .frameBoundary => Sys2Proof.Machine.execFrameBoundary s
  | .selfRefreshExitRequest => Sys2Proof.Machine.execSelfRefreshExitRequest s
  | .ergClockStartRequest erg => Sys2Proof.Machine.execErgClockStartRequest erg s
  | .advisoryPost aon => Sys2Proof.Machine.execAdvisoryPost aon s
  | .advisory rcv ok => Sys2Proof.Machine.execAdvisory rcv ok s
  | .advisoryExpiry => Sys2Proof.Machine.execAdvisoryExpiry s
  | .conservClear => Sys2Proof.Machine.execConservClear s
  | .adaptationStart => Sys2Proof.Machine.execAdaptationStart s
  | .adaptationStop => Sys2Proof.Machine.execAdaptationStop s
  | .ergSleep erg => Sys2Proof.Machine.execErgSleep erg s
  | .mboxGo n tag => Sys2Proof.Machine.execMboxGo n tag s
  | .mboxBatchArrival => Sys2Proof.Machine.execMboxBatchArrival s
  | .mboxVerdict rcv ok => Sys2Proof.Machine.execMboxVerdict rcv ok s
  | .mboxApply => Sys2Proof.Machine.execMboxApply s
  | .mboxNoLane => Sys2Proof.Machine.execMboxNoLane s
  | .registerWrite addr size data => Sys2Proof.Machine.execRegisterWrite addr size data s
  | .busTimeout addr write => Sys2Proof.Machine.execBusTimeout addr write s
  | .hiLoReadLatch addr size => Sys2Proof.Machine.execHiLoReadLatch addr size s
  | .blockEnable blk via => Sys2Proof.Machine.execBlockEnable blk via s
  | .blockDisable blk via => Sys2Proof.Machine.execBlockDisable blk via s
  | .blockReset blk via => Sys2Proof.Machine.execBlockReset blk via s
  | .forceSafe blk on via => Sys2Proof.Machine.execForceSafe blk on via s
  | .blockReady blk => Sys2Proof.Machine.execBlockReady blk s
  | .blockStopComplete blk => Sys2Proof.Machine.execBlockStopComplete blk s
  | .pendingEnableStart blk => Sys2Proof.Machine.execPendingEnableStart blk s
  | .blockFault blk => Sys2Proof.Machine.execBlockFault blk s
  | .irqClear page bits same => Sys2Proof.Machine.execIrqClear page bits same s
  | .errCntClear page same => Sys2Proof.Machine.execErrCntClear page same s
  | .busErrClear => Sys2Proof.Machine.execBusErrClear s
  | .governorCycle iin => Sys2Proof.Machine.execGovernorCycle iin s
  | .inrushRequest item => Sys2Proof.Machine.execInrushRequest item s
  | .grant item => Sys2Proof.Machine.execGrant item s
  | .surgeWindowEnd item => Sys2Proof.Machine.execSurgeWindowEnd item s
  | .spacingIntervalEnd cls => Sys2Proof.Machine.execSpacingIntervalEnd cls s
  | .bypassStart pump => Sys2Proof.Machine.execBypassStart pump s
  | .inrushHold => Sys2Proof.Machine.execInrushHold s
  | .inrushHoldClear => Sys2Proof.Machine.execInrushHoldClear s
  | .packageRailLoss => Sys2Proof.Machine.execPackageRailLoss s
  | .domainWakeComplete dom => Sys2Proof.Machine.execDomainWakeComplete dom s
  | .powerEvalInterval tXoide tHervi => Sys2Proof.Machine.execPowerEvalInterval tXoide tHervi s
  | .ergThermalStop tMax => Sys2Proof.Machine.execErgThermalStop tMax s
  | .dvfsStepComplete die => Sys2Proof.Machine.execDvfsStepComplete die s
  | .supplyLowChange vinA vinB => Sys2Proof.Machine.execSupplyLowChange vinA vinB s
  | .droopDetect die mv pointMv => Sys2Proof.Machine.execDroopDetect die mv pointMv s
  | .droopRelease die => Sys2Proof.Machine.execDroopRelease die s
  | .droopWaitEnd die => Sys2Proof.Machine.execDroopWaitEnd die s
  | .frameDone => Sys2Proof.Machine.execFrameDone s
  | .ledgerPeakClear => Sys2Proof.Machine.execLedgerPeakClear s
  | .input rcv ok => Sys2Proof.Machine.execInput rcv ok s
  | .selftest rcv ok => Sys2Proof.Machine.execSelftest rcv ok s
  | .snapshot rcv ok => Sys2Proof.Machine.execSnapshot rcv ok s
  | .record rcv ok => Sys2Proof.Machine.execRecord rcv ok s
  | .log rcv ok => Sys2Proof.Machine.execLog rcv ok s
  | .status rcv ok => Sys2Proof.Machine.execStatus rcv ok s
  | .cmd rcv ok => Sys2Proof.Machine.execCmd rcv ok s
  | .linkDown lane => Sys2Proof.Machine.execLinkDown lane s
  | .linkDownClear lane => Sys2Proof.Machine.execLinkDownClear lane s
  | .mergeEnd lane => Sys2Proof.Machine.execMergeEnd lane s
  | .mergeSelftestRepeat lane item => Sys2Proof.Machine.execMergeSelftestRepeat lane item s
  | .bootComplete lane => Sys2Proof.Machine.execBootComplete lane s
  | .laneBBootWait => Sys2Proof.Machine.execLaneBBootWait s
  | .resyncComplete lane => Sys2Proof.Machine.execResyncComplete lane s
  | .probationPass lane => Sys2Proof.Machine.execProbationPass lane s
  | .rotationOverdue lane => Sys2Proof.Machine.execRotationOverdue lane s
  | .laneCmdRestart lane => Sys2Proof.Machine.execLaneCmdRestart lane s
  | .laneCmdDemote lane => Sys2Proof.Machine.execLaneCmdDemote lane s
  | .laneCmdTakeover lane => Sys2Proof.Machine.execLaneCmdTakeover lane s
  | .commandReportTimeout lane => Sys2Proof.Machine.execCommandReportTimeout lane s
  | .claimBeacon endpoint lane port => Sys2Proof.Machine.execClaimBeacon endpoint lane port s
  | .receiverHoldExpiry endpoint => Sys2Proof.Machine.execReceiverHoldExpiry endpoint s
  | .receiverAuthForget endpoint => Sys2Proof.Machine.execReceiverAuthForget endpoint s
  | .playaTickBoundary chip cur rails => Sys2Proof.Machine.execPlayaTickBoundary chip cur rails s
  | .actuatorFrame chip lane crcOk => Sys2Proof.Machine.execActuatorFrame chip lane crcOk s
  | .loopOut chip lane idx crcOk => Sys2Proof.Machine.execLoopOut chip lane idx crcOk s
  | .playaStatusReport chip lane crcOk => Sys2Proof.Machine.execPlayaStatusReport chip lane crcOk s
  | .playaReset chip => Sys2Proof.Machine.execPlayaReset chip s
  | .sensorSample fe group ch x => Sys2Proof.Machine.execSensorSample fe group ch x s
  | .rangeFault group ch => Sys2Proof.Machine.execRangeFault group ch s
  | .rangeRecovery group ch => Sys2Proof.Machine.execRangeRecovery group ch s
  | .pathSuspect group ch => Sys2Proof.Machine.execPathSuspect group ch s
  | .pathRecovery group ch => Sys2Proof.Machine.execPathRecovery group ch s
  | .pairSuspect pair => Sys2Proof.Machine.execPairSuspect pair s
  | .pairRecovery pair => Sys2Proof.Machine.execPairRecovery pair s
  | .leakVerdict rope => Sys2Proof.Machine.execLeakVerdict rope s
  | .leakRopeFault rope => Sys2Proof.Machine.execLeakRopeFault rope s
  | .sensLeakClr bits => Sys2Proof.Machine.execSensLeakClr bits s
  | .dewPoll => Sys2Proof.Machine.execDewPoll s
  | .dewReply bus crcOk dewPoint status => Sys2Proof.Machine.execDewReply bus crcOk dewPoint status s
  | .dewReplyTimeout bus => Sys2Proof.Machine.execDewReplyTimeout bus s
  | .dewPointVerdict => Sys2Proof.Machine.execDewPointVerdict s
  | .mapSegment port seg => Sys2Proof.Machine.execMapSegment port seg s
  | .hotspotSummary => Sys2Proof.Machine.execHotspotSummary s
  | .hotspotSuspect endpoint spot => Sys2Proof.Machine.execHotspotSuspect endpoint spot s
  | .hotspotClear endpoint spot => Sys2Proof.Machine.execHotspotClear endpoint spot s
  | .agentPortFailover endpoint => Sys2Proof.Machine.execAgentPortFailover endpoint s
  | .lcalStage => Sys2Proof.Machine.execLcalStage s
  | .lcalWdata k data => Sys2Proof.Machine.execLcalWdata k data s
  | .lcalCommit => Sys2Proof.Machine.execLcalCommit s
  | .lcalCommitForeign => Sys2Proof.Machine.execLcalCommitForeign s
  | .lcalAbort => Sys2Proof.Machine.execLcalAbort s
  | .calReady lane flashOk => Sys2Proof.Machine.execCalReady lane flashOk s
  | .calSwitch => Sys2Proof.Machine.execCalSwitch s
  | .calTimeout => Sys2Proof.Machine.execCalTimeout s
  | .calEnter group ch => Sys2Proof.Machine.execCalEnter group ch s
  | .calLeave group ch => Sys2Proof.Machine.execCalLeave group ch s
  | .calCancel group ch => Sys2Proof.Machine.execCalCancel group ch s
  | .calAbandon group ch => Sys2Proof.Machine.execCalAbandon group ch s
  | .returnValid group ch => Sys2Proof.Machine.execReturnValid group ch s
  | .lengFeClr hi bits => Sys2Proof.Machine.execLengFeClr hi bits s
  | .bankCmdCheck => Sys2Proof.Machine.execBankCmdCheck s
  | .bankCmdSwap => Sys2Proof.Machine.execBankCmdSwap s
  | .bankCmdSwapAt => Sys2Proof.Machine.execBankCmdSwapAt s
  | .bankCmdCancel => Sys2Proof.Machine.execBankCmdCancel s
  | .bankCmdCopy => Sys2Proof.Machine.execBankCmdCopy s
  | .bankSwap => Sys2Proof.Machine.execBankSwap s
  | .lutEntryWrite slope => Sys2Proof.Machine.execLutEntryWrite slope s
  | .traceArm => Sys2Proof.Machine.execTraceArm s
  | .traceForce => Sys2Proof.Machine.execTraceForce s
  | .traceStop => Sys2Proof.Machine.execTraceStop s
  | .nop t => Sys2Proof.Machine.execNop t s
  | .jmp t => Sys2Proof.Machine.execJmp t s
  | .brz t => Sys2Proof.Machine.execBrz t s
  | .loop t => Sys2Proof.Machine.execLoop t s
  | .setr t => Sys2Proof.Machine.execSetr t s
  | .bar t => Sys2Proof.Machine.execBar t s
  | .xEnd t => Sys2Proof.Machine.execXEnd t s
  | .ldw t => Sys2Proof.Machine.execLdw t s
  | .mm t => Sys2Proof.Machine.execMm t s
  | .aclr t => Sys2Proof.Machine.execAclr t s
  | .vadd t => Sys2Proof.Machine.execVadd t s
  | .vsub t => Sys2Proof.Machine.execVsub t s
  | .vmul t => Sys2Proof.Machine.execVmul t s
  | .vmulc t => Sys2Proof.Machine.execVmulc t s
  | .vmax t => Sys2Proof.Machine.execVmax t s
  | .vmin t => Sys2Proof.Machine.execVmin t s
  | .vrelu t => Sys2Proof.Machine.execVrelu t s
  | .vclamp t => Sys2Proof.Machine.execVclamp t s
  | .vfma t => Sys2Proof.Machine.execVfma t s
  | .vexp t => Sys2Proof.Machine.execVexp t s
  | .vlog2 t => Sys2Proof.Machine.execVlog2 t s
  | .vrcp t => Sys2Proof.Machine.execVrcp t s
  | .vrsqrt t => Sys2Proof.Machine.execVrsqrt t s
  | .vsig t => Sys2Proof.Machine.execVsig t s
  | .vtanh t => Sys2Proof.Machine.execVtanh t s
  | .vrmax t => Sys2Proof.Machine.execVrmax t s
  | .vrsum t => Sys2Proof.Machine.execVrsum t s
  | .cvt t => Sys2Proof.Machine.execCvt t s
  | .xld t => Sys2Proof.Machine.execXld t s
  | .xst t => Sys2Proof.Machine.execXst t s
  | .residueVerdict t half ok => Sys2Proof.Machine.execResidueVerdict t half ok s
  | .replay t => Sys2Proof.Machine.execReplay t s
  | .ergStartComplete erg bad => Sys2Proof.Machine.execErgStartComplete erg bad s
  | .ergPllUnlock erg => Sys2Proof.Machine.execErgPllUnlock erg s
  | .jobStart job => Sys2Proof.Machine.execJobStart job s
  | .jobDone job layerOk envOk mseOk => Sys2Proof.Machine.execJobDone job layerOk envOk mseOk s
  | .jobRunEnd job => Sys2Proof.Machine.execJobRunEnd job s
  | .scrub => Sys2Proof.Machine.execScrub s
  | .xjobLoad m => Sys2Proof.Machine.execXjobLoad m s
  | .fittingComplete => Sys2Proof.Machine.execFittingComplete s
  | .xjobArm => Sys2Proof.Machine.execXjobArm s
  | .xjobCancel => Sys2Proof.Machine.execXjobCancel s
  | .swapWindow => Sys2Proof.Machine.execSwapWindow s
  | .swapAbandon => Sys2Proof.Machine.execSwapAbandon s
  | .xeccInjectArm hi => Sys2Proof.Machine.execXeccInjectArm hi s
  | .xoideReset => Sys2Proof.Machine.execXoideReset s
  | .capFrame endpoint lane port locked => Sys2Proof.Machine.execCapFrame endpoint lane port locked s
  | .dropFrame endpoint lane port seg => Sys2Proof.Machine.execDropFrame endpoint lane port seg s
  | .haboobFrame endpoint lane port => Sys2Proof.Machine.execHaboobFrame endpoint lane port s
  | .capApply endpoint sec ns => Sys2Proof.Machine.execCapApply endpoint sec ns s
  | .receiverSilenceHold endpoint => Sys2Proof.Machine.execReceiverSilenceHold endpoint s
  | .receiverSilenceRevert endpoint => Sys2Proof.Machine.execReceiverSilenceRevert endpoint s
  | .idleDwell endpoint => Sys2Proof.Machine.execIdleDwell endpoint s
  | .capcTblWdata k data => Sys2Proof.Machine.execCapcTblWdata k data s
  | .gatherTimeout => Sys2Proof.Machine.execGatherTimeout s
  | .shutdownRelay => Sys2Proof.Machine.execShutdownRelay s
  | .ack endpoint epoch cap => Sys2Proof.Machine.execAck endpoint epoch cap s
  | .ackDeadline => Sys2Proof.Machine.execAckDeadline s
  | .abortFrame endpoint lane port seg => Sys2Proof.Machine.execAbortFrame endpoint lane port seg s
  | .slipSubmit swap => Sys2Proof.Machine.execSlipSubmit swap s
  | .slipWithdraw => Sys2Proof.Machine.execSlipWithdraw s
  | .slipAbort => Sys2Proof.Machine.execSlipAbort s
  | .profileStart bank rail => Sys2Proof.Machine.execProfileStart bank rail s
  | .boostEnd ch ttp => Sys2Proof.Machine.execBoostEnd ch ttp s
  | .peakEnd ch => Sys2Proof.Machine.execPeakEnd ch s
  | .holdEnd ch => Sys2Proof.Machine.execHoldEnd ch s
  | .profileCut ch => Sys2Proof.Machine.execProfileCut ch s
  | .openCoil ch cur => Sys2Proof.Machine.execOpenCoil ch cur s
  | .channelOvercurrent ch cur => Sys2Proof.Machine.execChannelOvercurrent ch cur s
  | .switchOvercurrent bank cur => Sys2Proof.Machine.execSwitchOvercurrent bank cur s
  | .railOvervoltage bank rail => Sys2Proof.Machine.execRailOvervoltage bank rail s
  | .commandWaitTimeout ch => Sys2Proof.Machine.execCommandWaitTimeout ch s
  | .moveVerdict ch d t => Sys2Proof.Machine.execMoveVerdict ch d t s
  | .boostRechargeRequest bank rail => Sys2Proof.Machine.execBoostRechargeRequest bank rail s
  | .boostRechargeEnd bank rail => Sys2Proof.Machine.execBoostRechargeEnd bank rail s
  | .bankStartTimeout bank rail => Sys2Proof.Machine.execBankStartTimeout bank rail s
  | .vbankChClr bank bits => Sys2Proof.Machine.execVbankChClr bank bits s
  | .vbankPosSet bank ch pos => Sys2Proof.Machine.execVbankPosSet bank ch pos s
  | .dutyLoad out => Sys2Proof.Machine.execDutyLoad out s
  | .tachEdge out ts => Sys2Proof.Machine.execTachEdge out ts s
  | .fanStartWindowEnd ch => Sys2Proof.Machine.execFanStartWindowEnd ch s
  | .fanEdgeTimeout ch => Sys2Proof.Machine.execFanEdgeTimeout ch s
  | .fanKickEnd ch => Sys2Proof.Machine.execFanKickEnd ch s
  | .fanTachRecovery ch => Sys2Proof.Machine.execFanTachRecovery ch s
  | .fanStall ch => Sys2Proof.Machine.execFanStall ch s
  | .fanClr group bits => Sys2Proof.Machine.execFanClr group bits s
  | .playaWatchdog chip => Sys2Proof.Machine.execPlayaWatchdog chip s
  | .pumpStartTimeout pump => Sys2Proof.Machine.execPumpStartTimeout pump s
  | .pumpStopTimeout pump => Sys2Proof.Machine.execPumpStopTimeout pump s
  | .pumpTachLost pump => Sys2Proof.Machine.execPumpTachLost pump s
  | .pumpPoll chip => Sys2Proof.Machine.execPumpPoll chip s
  | .modbusReply chip crcOk exc regs => Sys2Proof.Machine.execModbusReply chip crcOk exc regs s
  | .modbusReplyTimeout chip => Sys2Proof.Machine.execModbusReplyTimeout chip s
  | .lossConfigRead pump act ms => Sys2Proof.Machine.execLossConfigRead pump act ms s
  | .pumpMbSetLoss pump ms => Sys2Proof.Machine.execPumpMbSetLoss pump ms s
  | .pumpMbWrite pump => Sys2Proof.Machine.execPumpMbWrite pump s
  | .dryRunVerdict pump => Sys2Proof.Machine.execDryRunVerdict pump s
  | .pumpDryClr bits => Sys2Proof.Machine.execPumpDryClr bits s
  | .fanSlow ch => Sys2Proof.Machine.execFanSlow ch s
  | .fanSlowClear ch => Sys2Proof.Machine.execFanSlowClear ch s
  | .flowStop => Sys2Proof.Machine.execFlowStop s
  | .flowRestored => Sys2Proof.Machine.execFlowRestored s
  | .flowDecl => Sys2Proof.Machine.execFlowDecl s
  | .flowDeclEnd => Sys2Proof.Machine.execFlowDeclEnd s
  | .pressHi => Sys2Proof.Machine.execPressHi s
  | .pressHiEnd => Sys2Proof.Machine.execPressHiEnd s
  | .pressMax => Sys2Proof.Machine.execPressMax s
  | .supOver => Sys2Proof.Machine.execSupOver s
  | .haboobConditionEnd => Sys2Proof.Machine.execHaboobConditionEnd s
  | .shutdownTimer => Sys2Proof.Machine.execShutdownTimer s
  | .protCmdHaboob racks => Sys2Proof.Machine.execProtCmdHaboob racks s
  | .protCmdHaboobEnd => Sys2Proof.Machine.execProtCmdHaboobEnd s
  | .protCmdRestore rack => Sys2Proof.Machine.execProtCmdRestore rack s
  | .protCmdStandbyRet => Sys2Proof.Machine.execProtCmdStandbyRet s
  | .packageOff endpoint => Sys2Proof.Machine.execPackageOff endpoint s
  | .packageOffClear endpoint => Sys2Proof.Machine.execPackageOffClear endpoint s
  | .dewOverrideEnd => Sys2Proof.Machine.execDewOverrideEnd s
  | .dewBreach => Sys2Proof.Machine.execDewBreach s
  | .oneFeed vinA vinB => Sys2Proof.Machine.execOneFeed vinA vinB s
  | .holdup vinA vinB => Sys2Proof.Machine.execHoldup vinA vinB s
  | .holdupFlashWrite => Sys2Proof.Machine.execHoldupFlashWrite s
  | .holdupClear vinA vinB => Sys2Proof.Machine.execHoldupClear vinA vinB s
  | .portLoopbackCheck eastOk westOk => Sys2Proof.Machine.execPortLoopbackCheck eastOk westOk s
  | .relayConfirm => Sys2Proof.Machine.execRelayConfirm s
  | .relayConfirmTimeout port => Sys2Proof.Machine.execRelayConfirmTimeout port s
  | .relayDisagree port => Sys2Proof.Machine.execRelayDisagree port s
  | .waitPeerTimeout port => Sys2Proof.Machine.execWaitPeerTimeout port s
  | .laneRailLoss => Sys2Proof.Machine.execLaneRailLoss s
  | .link port ok hdr leaving held => Sys2Proof.Machine.execLink port ok hdr leaving held s
  | .caravanLinkUp port => Sys2Proof.Machine.execCaravanLinkUp port s
  | .caravanLinkDown port => Sys2Proof.Machine.execCaravanLinkDown port s
  | .blockLockLoss port => Sys2Proof.Machine.execBlockLockLoss port s
  | .discoveryStart => Sys2Proof.Machine.execDiscoveryStart s
  | .disc port ok hdr init rgen list => Sys2Proof.Machine.execDisc port ok hdr init rgen list s
  | .discEnd port ok hdr init rgen list => Sys2Proof.Machine.execDiscEnd port ok hdr init rgen list s
  | .assign port ok hdr init rgen line list => Sys2Proof.Machine.execAssign port ok hdr init rgen line list s
  | .discoveryFail => Sys2Proof.Machine.execDiscoveryFail s
  | .pairReq port ok hdr lane gen => Sys2Proof.Machine.execPairReq port ok hdr lane gen s
  | .pairAccept port ok hdr lane gen => Sys2Proof.Machine.execPairAccept port ok hdr lane gen s
  | .pairSnap port ok hdr lane chunk => Sys2Proof.Machine.execPairSnap port ok hdr lane chunk s
  | .pairLog port ok hdr lane => Sys2Proof.Machine.execPairLog port ok hdr lane s
  | .pairInput port ok hdr lane elec => Sys2Proof.Machine.execPairInput port ok hdr lane elec s
  | .pairStatus port ok hdr lane claim rhash seq => Sys2Proof.Machine.execPairStatus port ok hdr lane claim rhash seq s
  | .pairHandover port ok hdr lane gen => Sys2Proof.Machine.execPairHandover port ok hdr lane gen s
  | .pairBSet port ok hdr lane seq fin => Sys2Proof.Machine.execPairBSet port ok hdr lane seq fin s
  | .hallBroadcast => Sys2Proof.Machine.execHallBroadcast s
  | .hall port ok hdr bytes => Sys2Proof.Machine.execHall port ok hdr bytes s
  | .data port ok hdr bytes => Sys2Proof.Machine.execData port ok hdr bytes s
  | .echo port ok hdr ts now => Sys2Proof.Machine.execEcho port ok hdr ts now s
  | .crvnTxGo dst bcast len => Sys2Proof.Machine.execCrvnTxGo dst bcast len s
  | .crvnRxPop => Sys2Proof.Machine.execCrvnRxPop s
  | .crvnEchoGo dst now => Sys2Proof.Machine.execCrvnEchoGo dst now s
  | .echoTimeout => Sys2Proof.Machine.execEchoTimeout s
  | .redfishGet res => Sys2Proof.Machine.execRedfishGet res s
  | .redfishBudgetPatch rack share => Sys2Proof.Machine.execRedfishBudgetPatch rack share s
  | .redfishPkgPatch rack slot share => Sys2Proof.Machine.execRedfishPkgPatch rack slot share s
  | .redfishSubscribe kinds racks => Sys2Proof.Machine.execRedfishSubscribe kinds racks s
  | .redfishUnsubscribe id => Sys2Proof.Machine.execRedfishUnsubscribe id s
  | .redfishSimpleUpdate img => Sys2Proof.Machine.execRedfishSimpleUpdate img s
  | .regRd h addr => Sys2Proof.Machine.execRegRd h addr s
  | .regWr h addr data => Sys2Proof.Machine.execRegWr h addr data s
  | .regCpl h => Sys2Proof.Machine.execRegCpl h s
  | .memRd h xa len => Sys2Proof.Machine.execMemRd h xa len s
  | .memWr h xa bytes => Sys2Proof.Machine.execMemWr h xa bytes s
  | .memCpl h => Sys2Proof.Machine.execMemCpl h s
  | .irq h page => Sys2Proof.Machine.execIrq h page s
  | .idle h toHervi kind => Sys2Proof.Machine.execIdle h toHervi kind s
  | .flitReplay mod toHervi ackseq => Sys2Proof.Machine.execFlitReplay mod toHervi ackseq s
  | .ucieRetrain mod => Sys2Proof.Machine.execUcieRetrain mod s
  | .ucieMemoryTimeout tag => Sys2Proof.Machine.execUcieMemoryTimeout tag s
  | .quadrantIdleTimeout quad => Sys2Proof.Machine.execQuadrantIdleTimeout quad s
  | .ptpSync port offset sync => Sys2Proof.Machine.execPtpSync port offset sync s
  | .ptpSyncTimeout => Sys2Proof.Machine.execPtpSyncTimeout s
  | .ptpMessage port gm state0 state1 path => Sys2Proof.Machine.execPtpMessage port gm state0 state1 path s
  | .secEnroll key => Sys2Proof.Machine.execSecEnroll key s
  | .secRevoke key => Sys2Proof.Machine.execSecRevoke key s
  | .secTamperClr key => Sys2Proof.Machine.execSecTamperClr key s
  | .secRaiseSvn => Sys2Proof.Machine.execSecRaiseSvn s
  | .secAttest => Sys2Proof.Machine.execSecAttest s
  | .attestationComplete => Sys2Proof.Machine.execAttestationComplete s
  | .secDbgOpen die => Sys2Proof.Machine.execSecDbgOpen die s
  | .secDbgKill die => Sys2Proof.Machine.execSecDbgKill die s
  | .lsecTamperClr => Sys2Proof.Machine.execLsecTamperClr s
  | .lsecDbgOpen target => Sys2Proof.Machine.execLsecDbgOpen target s
  | .lsecDbgKill target => Sys2Proof.Machine.execLsecDbgKill target s
  | .lsecAttest => Sys2Proof.Machine.execLsecAttest s
  | .fuseBlowComplete die => Sys2Proof.Machine.execFuseBlowComplete die s
  | .panelSample seq a b => Sys2Proof.Machine.execPanelSample seq a b s
  | .presenceOpen => Sys2Proof.Machine.execPresenceOpen s
  | .presenceWindowExpiry => Sys2Proof.Machine.execPresenceWindowExpiry s
  | .buttonRelease => Sys2Proof.Machine.execButtonRelease s
  | .buttonStuck => Sys2Proof.Machine.execButtonStuck s
  | .jumperFitted => Sys2Proof.Machine.execJumperFitted s
  | .jumperRemoved => Sys2Proof.Machine.execJumperRemoved s
  | .presCtrlClose => Sys2Proof.Machine.execPresCtrlClose s
  | .sealOpen => Sys2Proof.Machine.execSealOpen s
  | .sealRead seq a b => Sys2Proof.Machine.execSealRead seq a b s
  | .eventOccurrence o => Sys2Proof.Machine.execEventOccurrence o s
  | .entryClose => Sys2Proof.Machine.execEntryClose s
  | .recorderStartRedelivery => Sys2Proof.Machine.execRecorderStartRedelivery s
  | .recCursor seq => Sys2Proof.Machine.execRecCursor seq s
  | .recWinAutoRead => Sys2Proof.Machine.execRecWinAutoRead s
  | .recFifoPeakClr => Sys2Proof.Machine.execRecFifoPeakClr s
  | .invSet => Sys2Proof.Machine.execInvSet s
  | .inventoryFlush => Sys2Proof.Machine.execInventoryFlush s
  | .laneFlashLog lane => Sys2Proof.Machine.execLaneFlashLog lane s
  | .feedUp vinA vinB => Sys2Proof.Machine.execFeedUp vinA vinB s
  | .laneRailUp slot peerLow present => Sys2Proof.Machine.execLaneRailUp slot peerLow present s
  | .lupdStage lane => Sys2Proof.Machine.execLupdStage lane s
  | .lupdWdata lane k data => Sys2Proof.Machine.execLupdWdata lane k data s
  | .lupdVerify lane => Sys2Proof.Machine.execLupdVerify lane s
  | .lupdVerifyComplete lane eraseOk flashOk => Sys2Proof.Machine.execLupdVerifyComplete lane eraseOk flashOk s
  | .lupdActivate lane => Sys2Proof.Machine.execLupdActivate lane s
  | .lupdRollback lane => Sys2Proof.Machine.execLupdRollback lane s
  | .lupdAbort lane => Sys2Proof.Machine.execLupdAbort lane s
  | .trialTimeout lane => Sys2Proof.Machine.execTrialTimeout lane s
  | .herviTrialTimeout => Sys2Proof.Machine.execHerviTrialTimeout s
  | .twinHandover => Sys2Proof.Machine.execTwinHandover s
  | .twinCancel => Sys2Proof.Machine.execTwinCancel s
  | .secondSlotWait => Sys2Proof.Machine.execSecondSlotWait s
  | .paired => Sys2Proof.Machine.execPaired s
  | .pairStatusLoss => Sys2Proof.Machine.execPairStatusLoss s
  | .peerOwnChange low => Sys2Proof.Machine.execPeerOwnChange low s
  | .handoverBoundary => Sys2Proof.Machine.execHandoverBoundary s
  | .peerOwnConflict => Sys2Proof.Machine.execPeerOwnConflict s
  | .slotRemoval => Sys2Proof.Machine.execSlotRemoval s
  | .herviRestart => Sys2Proof.Machine.execHerviRestart s
  | .laneWatchdogReset lane => Sys2Proof.Machine.execLaneWatchdogReset lane s
  | .herviBootComplete => Sys2Proof.Machine.execHerviBootComplete s
  | .xoideBootComplete => Sys2Proof.Machine.execXoideBootComplete s
  | .ucieRetrainComplete mod ok => Sys2Proof.Machine.execUcieRetrainComplete mod ok s
  | .ethLinkLoss port noLink => Sys2Proof.Machine.execEthLinkLoss port noLink s

end Sys2Proof.Machine
end

