-- ==== Sys2Proof/Machine/Step.lean ====
section
/-! DEFINITION. One step of the module: the command at the front of the queue, or, with nothing waiting, the Caravan ports going on with what
they have to send. -/
namespace Sys2Proof.Machine
open Sys2Proof

/-- A step. With an empty queue each Caravan port sends one frame of its own queue (DESIGN CHOICE, log entry 8); nothing else moves without a
command. -/
def step (s : State) : Host.Outcome State Fault Refusal :=
  match s.pending with
  | [] => .next (ringIdle s)
  | c :: rest => exec c { s with pending := rest }

/-- The state with the command a word spells at the front of its queue; a word that spells none changes nothing. -/
def State.withFetchWord (s : State) (nbits w : Nat) : State :=
  match decodeTableWord nbits w with
  | some c => { s with pending := c :: s.pending }
  | none => s

end Sys2Proof.Machine
end

