-- ==== Sys2Proof/Safety.lean ====
section
/-! DEFINITION. What a safe step is, in the terms the statements use: what a command may change at most, and the invariants of the machine. -/
namespace Sys2Proof.Machine
open Sys2Proof

/-! ### What may differ -/

/-- Only the two lanes differ. -/
def lanesOnly (s t : State) : Prop := t = { s with laneA := t.laneA, laneB := t.laneB }
/-- Only the state the lanes share differs, and only in a lane that computes in step. -/
def rowsOnly (s t : State) : Prop :=
  lanesOnly s t ∧ ∀ lane, t.lane lane = { s.lane lane with row := (t.lane lane).row } ∧ ((s.lane lane).votes = false → t.lane lane = s.lane lane)
/-- A write to a lane-owned page the lanes have taken: the lanes and the page headers of their interrupts and errors; a lane that does not
compute in step only hands over what it had asked for. -/
def laneWritten (s t : State) : Prop :=
  t = { s with laneA := t.laneA, laneB := t.laneB, regs := t.regs } ∧
    ∀ lane, (s.lane lane).votes = false → t.lane lane = { s.lane lane with row := { (s.lane lane).row with irqs := [], errs := [] } }
/-- Only the shared state of the lanes that compute in step differs, and there as `p` says of the row before and after. -/
def rowsNow (s t : State) (p : RowSt → RowSt → Prop) : Prop :=
  rowsOnly s t ∧ ∀ lane, (s.lane lane).votes = true → p (s.lane lane).row (t.lane lane).row
/-- A write the lanes have taken changed the row of every lane that computes in step as `p` says. -/
def rowsWritten (s t : State) (p : RowSt → RowSt → Prop) : Prop :=
  laneWritten s t ∧ ∀ lane, (s.lane lane).votes = true → p (s.lane lane).row (t.lane lane).row
/-- A row differs in its sensing state and in what it reports only. -/
def sensOnly (r q : RowSt) : Prop := q = { r with sens := q.sens, events := q.events }
/-- Channel `key` of a lane's row is now `c`, and no other channel has changed. -/
def chanNow (r q : RowSt) (key : Nat) (c : Chan) : Prop :=
  chanAt q.sens key = c ∧ (∀ k, k ≠ key → chanAt q.sens k = chanAt r.sens k) ∧ sensOnly r q
/-- R104: the poll of sensor `k` on a bus ended without a good reply. Its count of missing ones in a row goes up, the third puts a channel in
service in FAULT with cause no reply, and no other channel changes. -/
def dewMissed (r q : RowSt) (bus k : Nat) (req : List Nat) : Prop :=
  sensOnly r q ∧ lget ⟨none, []⟩ q.sens.dewBus bus = ⟨none, req⟩ ∧
    (tget {} q.sens.dewMiss (4 * bus + k)).miss = (tget {} r.sens.dewMiss (4 * bus + k)).miss + 1 ∧
    (∀ j, j ≠ 224 + (4 * bus + k) → chanAt q.sens j = chanAt r.sens j) ∧
    (chanAt q.sens (224 + (4 * bus + k))).state =
      (if 2 ≤ (tget {} r.sens.dewMiss (4 * bus + k)).miss ∧ ((chanAt r.sens (224 + (4 * bus + k))).state = .valid ∨
        (chanAt r.sens (224 + (4 * bus + k))).state = .suspect ∨ (chanAt r.sens (224 + (4 * bus + k))).state = .ret) then .fault
        else (chanAt r.sens (224 + (4 * bus + k))).state) ∧
    (2 ≤ (tget {} r.sens.dewMiss (4 * bus + k)).miss → inPairState (chanAt r.sens (224 + (4 * bus + k))).state = true →
      (chanAt q.sens (224 + (4 * bus + k))).cause = 8)
/-- R116: channel `n` of group `g` has gone from CAL to RETURN, no other channel has changed, and the event of it is recorded. -/
def calReturned (r q : RowSt) (g n : Nat) : Prop :=
  (chanAt q.sens (32 * g + n)).state = .ret ∧ (∀ j, j ≠ 32 * g + n → chanAt q.sens j = chanAt r.sens j) ∧
    q.events = r.events ++ [⟨3, 4, 0x50 + g, n, 0, Ev.calCancelled, 0⟩]
/-- Of a row, only the protection state, the lanes' side of the actuators and what the row reports differ. -/
def protOnly (r q : RowSt) : Prop := q = { r with prot := q.prot, act := q.act, events := q.events, irqs := q.irqs }
/-- The standby pump is started at a duty, unless it has run dry or the pressure is high (R272, R277, R280). -/
def standbyStarted (r q : RowSt) (urgent : Bool) (duty : Nat) : Prop :=
  (bitOf r.prot.dry (r.f F.PUMP_CFG_STANDBY) = false → overPress r = false →
    q.act.sbOn = true ∧ q.act.standbyNow = true ∧ (urgent = true → q.act.sbBypass = true ∧ q.act.standbyUrgent = true) ∧
    (r.f F.PUMP_CFG_STANDBY < r.act.lastPump.length → lget 0 q.act.lastPump (r.f F.PUMP_CFG_STANDBY) =
      (if r.act.sbOn then max (lget 0 r.act.lastPump (r.f F.PUMP_CFG_STANDBY)) duty else duty))) ∧
    (bitOf r.prot.dry (r.f F.PUMP_CFG_STANDBY) = true ∨ overPress r = true → q.act = r.act)
/-- A shutdown timer of R274 has expired at `tick`. -/
def timerSet (tick : Nat) (l : Latch) : Latch :=
  if l.on = true ∧ l.shut = false ∧ l.since + 16384 ≤ tick then { l with shut := true } else l
/-- Only the receiver of endpoint `e` differs. -/
def recvOnly (s t : State) (e : Nat) : Prop := (∀ k, k ≠ e → tget {} t.recv k = tget {} s.recv k) ∧ t = { s with recv := t.recv }
/-- Only the receiver of endpoint `e` differs, and it as `p` says of it before and after. -/
def recvBy (s t : State) (e : Nat) (p : Recv → Recv → Prop) : Prop := recvOnly s t e ∧ p (tget {} s.recv e) (tget {} t.recv e)
/-- A frame of a receiver's present AUTH or above it, with a RANK, newer than the last of its TYPE and SEG acted on (R79). -/
abbrev frameTaken (r : Recv) (claim key seq : Nat) : Prop :=
  bitsOf claim 1 7 ≠ 0 ∧ seqFresh r key seq = true ∧ r.auth.all (fun a => !higherClaim a claim) = true
/-- Only the Playa chips and page headers differ, and no valve channel but `k`. -/
def valveOnly (s t : State) (k : Nat) : Prop :=
  (∀ j, j ≠ k → t.vch j = s.vch j) ∧ t = { s with chip0 := t.chip0, chip1 := t.chip1, regs := t.regs }
/-- Valve bank `b` is in FAULT (R237, R252): its running profiles are cut, nothing waits, its converter is off; other banks, the lanes and the
clock are as they were. -/
def bankFaulted (s t : State) (b rail : Nat) : Prop :=
  (blkGet t (0x30 + b)).state = .fault ∧ (t.bank b).queue = [] ∧ (t.bank b).recharge = false ∧ (t.bank b).rail = rail ∧
    (∀ n : Fin 8, t.vch (8 * b + n.val) =
      (if (s.vch (8 * b + n.val)).phase = 0 then { s.vch (8 * b + n.val) with wait := (t.vch (8 * b + n.val)).wait, result := (t.vch (8 * b + n.val)).result }
       else { s.vch (8 * b + n.val) with phase := 0, pos := (if (s.vch (8 * b + n.val)).verdict = none then 0 else (s.vch (8 * b + n.val)).pos),
                                         diag := (s.vch (8 * b + n.val)).diag ||| 4, wait := (t.vch (8 * b + n.val)).wait,
                                         result := (t.vch (8 * b + n.val)).result })) ∧
    (∀ j, j / 8 ≠ b → t.vch j = s.vch j) ∧ t.laneA = s.laneA ∧ t.laneB = s.laneB ∧ t.time = s.time
/-- Of the lanes, only what they report differs. -/
def reportsOnly (s t : State) : Prop :=
  ∀ lane, t.lane lane = {
    s.lane lane with
    ownEvents := (t.lane lane).ownEvents, row := { (s.lane lane).row with events := (t.lane lane).row.events } }
/-- Every running lane records this event of Playa chip `chip`, and no other (R342, R348). -/
def playaEvent (s t : State) (chip unit sub code arg : Nat) : Prop :=
  ∀ lane, (t.lane lane).ownEvents = (if (s.lane lane).running then (s.lane lane).ownEvents ++ [⟨2, 5 + chip, unit, sub, 0, code, arg⟩]
    else (s.lane lane).ownEvents)
/-- Only the Playa chips, page headers, inventory counts and reports differ, and no fan channel but `c`. -/
def fanOnly (s t : State) (c : Nat) : Prop :=
  (∀ j, j ≠ c → fanAt t j = fanAt s j) ∧ reportsOnly s t ∧
    t = { s with chip0 := t.chip0, chip1 := t.chip1, regs := t.regs, inv := t.inv, laneA := t.laneA, laneB := t.laneB }
/-- Only the Playa chips, page headers and reports differ, and no pump channel but `n`. -/
def pumpOnly (s t : State) (n : Nat) : Prop :=
  (∀ j, j < 4 → j ≠ n → pumpAt t j = pumpAt s j) ∧ reportsOnly s t ∧
    t = { s with chip0 := t.chip0, chip1 := t.chip1, regs := t.regs, laneA := t.laneA, laneB := t.laneB }
/-- R266: the poll of pump `i` of a chip ended missing: it counts, and the third in a row sets MB_LOST. -/
def pollMissed (s t : State) (chip i : Nat) : Prop :=
  pumpOnly s t (2 * chip + i) ∧ (t.chip chip).mb.out = none ∧
    pumpAt t (2 * chip + i) = {
      pumpAt s (2 * chip + i) with
      missRun := min 0xFF ((pumpAt s (2 * chip + i)).missRun + 1), age := min 0xFF ((pumpAt s (2 * chip + i)).age + 1),
      mbLost := (pumpAt s (2 * chip + i)).mbLost || decide (3 ≤ (pumpAt s (2 * chip + i)).missRun + 1) }
/-- Only the Caravan core, page registers and the main recorder differ. -/
def crvnOnly (s t : State) : Prop := t = { s with crvn := t.crvn, regs := t.regs, mrec := t.mrec }
/-- Port `p` is in RUN and passes a frame with this header on (R297). -/
abbrev portHears (s : State) (p : Nat) (h : CHdr) : Prop := portState s p = .run ∧ h.version = 1 ∧ knownType h.typ.toNat = true
/-- A frame of the ring generation in force or later that is addressed to this node alone (R299). -/
abbrev forThisNode (s : State) (h : CHdr) : Prop :=
  older16 h.rgen.toNat (s.fld F.CRVN_RGEN_RGEN) = false ∧ h.bcast = false ∧ ownAddr s = some h.dst.toNat
/-- Tile `t` may issue, no codeword of Xoide holds an error, and the next instruction of the tile is `i`, legal and of opcode `opc`
(R140, R147, R162, R170). -/
def tileFetches (s : State) (t opc : Nat) (i : XIns) : Prop :=
  s.x.errs = [] ∧ tileReady t s = true ∧ xIns ((s.tile t).word (s.tile t).pc) = i ∧ xLegal i = true ∧ i.opc = opc
/-- Of the tiles, only tile `t` differs. -/
def otherTiles (s u : State) (t : Nat) : Prop := ∀ v, v ≠ t → u.tile v = s.tile v
/-- Only tile `t` differs, and it is now `x`. -/
def tileNow (s u : State) (t : Nat) (x : Tile) : Prop :=
  u.tile t = x ∧ otherTiles s u t ∧ u = { s with x := { s.x with tiles := u.x.tiles } }
/-- A unit's instruction on tile `t`: the tile is what its pass or groups made it, `y`, issued as `iss` says and one instruction on; its flags are
added to ERG_FLAGS of the erg; beside page registers, activity and energy nothing else differs. -/
def unitDone (s u : State) (t : Nat) (y : Tile × Nat) (iss : Tile → Tile) : Prop :=
  u.tile t = { iss y.1 with pc := ((iss y.1).pc + 1) % 2048 } ∧ otherTiles s u t ∧
    rget u.regs (F.ERG_FLAGS_INVALID (t / 72)).off = rget s.regs (F.ERG_FLAGS_INVALID (t / 72)).off ||| BitVec.ofNat 32 (y.2 % 16) ∧
    u = { s with x := u.x, regs := u.regs, freeCtr := u.freeCtr }
/-- A vector operation over its groups, issued with its occupancy and latency (R163); a bound operation is readable two cycles later. A reduction
(`one`) has a single result at its end, any other one a group. -/
def vecDone (s u : State) (t : Nat) (i : XIns) (y : Tile × Nat) (occ lat : Nat) (one : Bool := false) : Prop :=
  unitDone s u t y (issueVec (s.tile t).pc occ (if i.bnd then lat + 2 else lat) one [] i)
/-- The word of a tile's next instruction. -/
def tileWord (s : State) (t : Nat) : Nat := (s.tile t).word (s.tile t).pc
/-- A frame of a port in RUN for this node from the other module of its pair (R297, R299, R306). -/
abbrev pairHears (s : State) (p : Nat) (h : CHdr) : Prop := portHears s p h ∧ forThisNode s h ∧ pairFrom s h.src.toNat = true
/-- Only the state of the twin procedure differs, and it is `x`; frames that are sent and page registers beside it. -/
def twinNow (s u : State) (x : TwinSt) : Prop := u = { s with twin := x, crvn := u.crvn, regs := u.regs }
/-- An intact flit of a trained module, on the module its sender puts it (`place`), next in sequence (R314–R316). -/
abbrev flitTaken (s : State) (toHervi : Bool) (place : Nat) (h : FlitHdr) : Prop :=
  h.mod.val = place ∧ (s.umod h.mod.val).up = true ∧ h.crcOk = true ∧
    h.fseq.toNat = ((if toHervi then (s.umod h.mod.val).ackX else (s.umod h.mod.val).ackH) + 1) % 4096
/-- The link once it has taken a flit: its number is the last received, what it acknowledges is dropped, its credits are added. -/
def afterFlit (toHervi : Bool) (h : FlitHdr) (s : State) : State :=
  let m := flitAck toHervi h (flitSent toHervi h.fseq.toNat { s.umod h.mod.val with flits := (s.umod h.mod.val).flits + 1 })
  s.setUmod h.mod.val (if toHervi then { m with ackX := h.fseq.toNat } else { m with ackH := h.fseq.toNat })
/-- An access of n bytes at an XA that lies in shared SRAM, whole words, with nothing outstanding and no codeword in error. -/
abbrev sharedAccess (s : State) (xa n : Nat) : Prop :=
  s.ucie.out = [] ∧ s.ucie.memCpl.length < 256 ∧ s.x.errs = [] ∧ s.x.inject = none ∧ xa % 8 = 0 ∧ xaShared ≤ xa / 8 ∧ (xa + n) / 8 ≤ xaSharedEnd
/-- Only the service panel's holders, Hervi's tamper latch, page registers and the main recorder differ. -/
def panelsOnly (s u : State) : Prop :=
  u = { s with panS := u.panS, panA := u.panA, panB := u.panB, sec := { s.sec with tamper := u.sec.tamper }, regs := u.regs, mrec := u.mrec }
/-- All three holders took the same step, and the sequencer's tamper latch is Hervi's while it runs. -/
def holdersNow (s u : State) (f : PanelSt → PanelSt) : Prop :=
  u.panS = f s.panS ∧ u.panA = f s.panA ∧ u.panB = f s.panB ∧
    u.sec.tamper = (s.sec.tamper || ((f s.panS).tamper && s.herv.up)) ∧ panelsOnly s u

/-! ### Invariants -/

/-- The tick in its frame and the frame in its second are those of the tick count (R12); the second is the timebase's (R13). -/
abbrev clockOk (s : State) : Prop :=
  s.time.tick = s.time.count % 8 ∧ s.time.frame = s.time.count / 8 % 1024

/-- The addressed memories are in canonical form: LPDDR6, its stored frames, shared SRAM, the ingest buffers, tile SRAM, the stored error
patterns and Hervi's SRAM each list their words in rising order, and none that reads as an unlisted one. -/
def Memory.wf (s : State) : Bool :=
  tblWf 0 s.x.lp && tblWf 0 s.x.shared && tblWf 0 s.x.errs && tblWf {} s.x.tiles && s.x.tiles.all (fun t => tblWf 0 t.2.sram) &&
  tblWf none s.x.hist && s.x.hist.all (fun h => tblWf 0xFFFF (h.2.getD [])) && tblWf 0xFFFF s.ingest.buf0 && tblWf 0xFFFF s.ingest.buf1 &&
  tblWf 0 s.herv.sram

end Sys2Proof.Machine
end

