-- ==== Sys2Proof/Certificates/Slice0/Obligations.lean ====
section
/-! DEFINITION. The statements for the provers. -/
open Sys2Proof Sys2Proof.Machine

/-- The messages of the cross-lane link (R70–R73, R88, R93, R106): an intact INPUT, STATUS or CMD is held for the receiving lane and changes
nothing else (a STATUS for which the lane waits in P5 aside: R82), a CMD only where the receiver does not vote. SNAPSHOT and LOG k of the
AUTHORITY lane count for a lane in RESYNC in tick S + k, in order, the log after its chunk (log entry 72). A copy whose CRC fails is discarded
and counted in the receiving lane's link errors, saturating at FFFFh, and changes nothing else. — AONCLK (R14, R71): a lane that loses AONCLK
runs from its own crystal and records the event in its own series; a second report of the same loss changes nothing; Xoide's clock counts as lost
with that of every lane that runs (log entry 69). A tick marker from the lane with the higher claim is taken by a lane that has lost AONCLK, and
by no other. -/
def Obligations.CrossLaneMessagesAndAonclk : Prop :=
  (
    ∀ (rcv : LaneId) (s : State),
      (exec (.input rcv true) s =
        .next (s.modLane rcv (fun l => { l with core := { l.core with inputIn := some (inputOf (s.time.count + 1) (otherLane rcv) (s.lane (otherLane rcv))) } }))) ∧
      ((s.lane rcv).core.await ≠ .status → exec (.status rcv true) s =
        .next (s.modLane rcv (fun l => { l with core := { l.core with statusIn := (s.lane (otherLane rcv)).core.statusOwn } }))) ∧
      (∀ t0, (s.lane (otherLane rcv)).core.serving = some t0 → (s.lane (otherLane rcv)).core.mode = .authority → (s.lane rcv).core.mode = .resync →
        (∀ k, k < 16 → s.time.count = t0 + k → (s.lane rcv).core.chunks = k → (s.lane rcv).core.logs = k →
          exec (.snapshot rcv true) s = .next (s.modLane rcv (fun l => { l with core := { l.core with chunks := k + 1 } }))) ∧
        (∀ k, s.time.count = t0 + k → (s.lane rcv).core.chunks = k + 1 → (s.lane rcv).core.logs = k →
          exec (.log rcv true) s = .next (s.modLane rcv (fun l => { l with core := { l.core with logs := k + 1 } })))) ∧
      (∀ m, (s.lane (otherLane rcv)).core.cmdWait = some m →
        ((s.lane rcv).votes = false → exec (.cmd rcv true) s = .next (s.modLane rcv (fun l => { l with core := { l.core with cmdIn := some m } }))) ∧
        ((s.lane rcv).votes = true → exec (.cmd rcv true) s = .next s)) ∧
      (∀ c, c = Instr.input rcv false ∨ c = Instr.status rcv false ∨ c = Instr.snapshot rcv false ∨ c = Instr.log rcv false ∨ c = Instr.cmd rcv false →
        exec c s = .next (s.modLane rcv (fun l => { l with core := { l.core with linkErrCrc :=
          if l.core.linkErrCrc + 1 > 0xFFFF then 0xFFFF else l.core.linkErrCrc + 1 } })))) ∧ (
    ∀ (lane : LaneId) (s : State),
      ((s.lane lane).core.aonLost = false →
        ∃ t, exec (.aonclkLoss lane) s = .next t ∧ t.lane lane = { s.lane lane with
            core := { (s.lane lane).core with aonLost := true },
            ownEvents := (s.lane lane).ownEvents ++ [⟨1, 2 + laneNum lane, 0x10 + 0x10 * laneNum lane, 0xFFFF, 0, Ev.aonLost, 0⟩] } ∧
          t.lane (otherLane lane) = s.lane (otherLane lane) ∧
          (((s.lane (otherLane lane)).running = false ∨ (s.lane (otherLane lane)).core.aonLost = true) → t.pwr = { s.pwr with aonLost := true }) ∧
          ((s.lane (otherLane lane)).running = true → (s.lane (otherLane lane)).core.aonLost = false → t.pwr = s.pwr) ∧
          t = { s with laneA := t.laneA, laneB := t.laneB, pwr := t.pwr }) ∧
      ((s.lane lane).core.aonLost = true → exec (.aonclkLoss lane) s = .next s) ∧
      ((s.lane lane).core.aonLost = true → outranks (s.lane (otherLane lane)).core.claim (s.lane lane).core.claim = true →
        exec (.tickMark lane true) s = .next (s.modLane lane (fun l => { l with core := { l.core with markTick := some s.time.count } }))) ∧
      ((s.lane lane).core.aonLost = false ∨ outranks (s.lane (otherLane lane)).core.claim (s.lane lane).core.claim = false → exec (.tickMark lane true) s = .next s))

/-- Takeover and LANE_CMD (R16, R81, R82, R93). A STANDBY lane that waits for nothing takes AUTHORITY with GEN + 1 on an accepted TAKEOVER, on a
STATUS of the other lane with claim 0000h or, from its AUTHORITY with ST_FAIL, while the lane shows none itself, or after two ticks without
STATUS in which Playa saw no frame of that lane; its claim then carries RANK 40h, GEN stands in its flash, and nothing outside the lane changes.
A STATUS that still arrives while a lane waits in P5 to take authority for silence alone leaves it in STANDBY. LANE_CMD is taken while the page
is not LOCKED: TAKEOVER by a STANDBY lane; DEMOTE, with the presence windows open, by a voting lane beside a STANDBY or AUTHORITY lane without
ST_FAIL; RESTART for a lane that does not vote waits in the voting lane to be sent. Unreported in the second tick after its apply tick, RESTART
resets the named lane, which asks for admission again, and any other command ends REFUSED_STATE. -/
def Obligations.TakeoverAndLaneCommands : Prop :=
  ∀ (lane : LaneId) (s : State),
    ((s.lane lane).core.mode = .standby → (s.lane lane).core.await ≠ .status →
      ((s.lane lane).core.takeoverCmd = true ∨
       (s.lane lane).core.statusLast.any (fun o => o.claim == 0 || (o.mode == .authority && o.stFail && !(s.lane lane).core.stFail)) = true ∨
       (2 ≤ (s.lane lane).core.missRun ∧ (if lane = .a then (s.lane lane).core.playaSawB else (s.lane lane).core.playaSawA) = false)) →
      ∃ t, exec (.takeover lane) s = .next t ∧ (t.lane lane).core.mode = .authority ∧
        (t.lane lane).core.gen = ((s.lane lane).core.gen + 1) % 256 ∧ (t.lane lane).flash.gen = ((s.lane lane).core.gen + 1) % 256 ∧
        (t.lane lane).core.claim = ((s.lane lane).core.gen + 1) % 256 * 256 + 0x80 + laneNum lane ∧
        (t.lane lane).row = (s.lane lane).row ∧ (t.lane lane).fe = (s.lane lane).fe ∧ (t.lane lane).cal = (s.lane lane).cal ∧
        t.lane (otherLane lane) = s.lane (otherLane lane) ∧ t = { s with laneA := t.laneA, laneB := t.laneB }) ∧
    (∀ m, (s.lane lane).core.mode = .standby → (s.lane lane).core.await = .status → (s.lane lane).core.merge = false →
      (s.lane lane).core.takeoverCmd = false → (s.lane lane).core.stOwn = none → (s.lane lane).core.rot.faultTick = none →
      (s.lane lane).core.statusLast.all (fun o => o.claim != 0 && !o.stFail) = true →
      (s.lane (otherLane lane)).core.statusOwn = some m → (s.lane (otherLane lane)).core.await = .nothing →
      ∃ t, exec (.status lane true) s = .next t ∧ (t.lane lane).core.mode = .standby ∧ (t.lane lane).core.statusIn = some m ∧
        (t.lane lane).core.await = .nothing) ∧
    (s.locked (0x10 + 0x10 * laneNum lane) = false → (s.lane lane).core.mode = .standby →
      exec (.laneCmdTakeover lane) s = .next (s.modLane lane (fun l => { l with core := { l.core with takeoverCmd := true, cmdResult := 1 } }))) ∧
    (s.locked (0x10 + 0x10 * laneNum lane) = false → s.panS.w = true → s.panA.w = true → s.panB.w = true → (s.lane lane).votes = true →
      ((s.lane (otherLane lane)).core.mode = .standby ∨ (s.lane (otherLane lane)).core.mode = .authority) →
      (s.lane (otherLane lane)).core.stFail = false →
      ∃ t, exec (.laneCmdDemote lane) s = .next t ∧ (t.lane lane).core.mode = .out ∧ (t.lane lane).core.cmdResult = 1 ∧
        (t.lane lane).core.merge = false ∧ (t.lane lane).row = (s.lane lane).row ∧
        t.lane (otherLane lane) = s.lane (otherLane lane) ∧ t = { s with laneA := t.laneA, laneB := t.laneB }) ∧
    (s.locked (0x10 + 0x10 * laneNum lane) = false → (s.lane lane).votes = false → (s.lane (otherLane lane)).votes = true →
      exec (.laneCmdRestart lane) s = .next (s.modLane (otherLane lane) (fun l => { l with
        core := { l.core with cmdWait := some ⟨false, 1, laneNum lane, s.time.count + 1⟩ } }))) ∧
    (∀ m, (s.lane (otherLane lane)).core.cmdWait = some m → m.apply + 2 ≤ s.time.count →
      ∃ t, exec (.commandReportTimeout lane) s = .next t ∧ (t.lane (otherLane lane)).core.cmdWait = none ∧
        (m.isSec = false → m.code = 1 → (t.lane lane).core.mode = .boot ∧ (t.lane lane).core.cmdResult = 1 ∧ (t.lane lane).core.gen = (s.lane lane).flash.gen ∧
          t.gov = govRaise (govWithdraw s.gov ⟨.lane, laneNum lane⟩) ⟨.lane, laneNum lane⟩ false) ∧
        (m.isSec = false → m.code ≠ 1 → t.lane lane = { s.lane lane with core := { (s.lane lane).core with cmdResult := 3 } } ∧ t.gov = s.gov) ∧
        (m.isSec = true → t.lane lane = { s.lane lane with core := { (s.lane lane).core with secResult := 3 } } ∧ t.gov = s.gov) ∧
        t = { s with laneA := t.laneA, laneB := t.laneB, gov := t.gov })

/-- The link between the lanes and MERGE (R70, R73, R84, R85, R87). LINK_DOWN is set after two missing STATUS and clears after eight intact ones,
when a PROBATION or STANDBY lane with the lower claim goes to RESYNC; MERGE ends after 8,192 equal RHASH comparisons or on a STATUS with claim
0000h; in MERGE the comparison self-test runs again every 64 ticks and its verdict goes out; a lane that failed its test beside a lane that
passed goes to OUT with claim 0000h when the other lane's SELFTEST comes; a RECORD that comes ends the lane's wait, with RHASH that of its own
record. A SELFTEST or RECORD whose CRC fails, for which the lane does not wait, is counted and discarded. -/
def Obligations.LinkMergeAndSelfTest : Prop :=
  ∀ (lane : LaneId) (s : State),
    ((s.lane lane).core.linkDown = false → 2 ≤ (s.lane lane).core.missRun →
      exec (.linkDown lane) s = .next (s.modLane lane (fun l => { l with
        core := { l.core with linkDown := true, inmPend := false },
        ownEvents := l.ownEvents ++ [⟨1, 2 + laneNum lane, 0x10 + 0x10 * laneNum lane, 0xFFFF, 0, Ev.linkDown, 0⟩] }))) ∧
    ((s.lane lane).core.linkDown = true → 8 ≤ (s.lane lane).core.goodRun →
      ∃ t, exec (.linkDownClear lane) s = .next t ∧ (t.lane lane).core.linkDown = false ∧
        (((s.lane lane).core.mode = .probation ∨ (s.lane lane).core.mode = .standby) →
          outranks (s.lane lane).core.otherClaim (s.lane lane).core.claim = true →
          (t.lane lane).core.mode = .resync ∧ (t.lane lane).core.serving = none ∧ (t.lane lane).core.chunks = 0 ∧ (t.lane lane).core.logs = 0) ∧
        (((s.lane lane).core.mode ≠ .probation ∧ (s.lane lane).core.mode ≠ .standby) ∨
            outranks (s.lane lane).core.otherClaim (s.lane lane).core.claim = false →
          (t.lane lane).core = { (s.lane lane).core with linkDown := false }) ∧
        (t.lane lane).row = (s.lane lane).row ∧ t.lane (otherLane lane) = s.lane (otherLane lane) ∧
        t = { s with laneA := t.laneA, laneB := t.laneB }) ∧
    ((s.lane lane).core.merge = true → (8192 ≤ (s.lane lane).core.equalRun ∨ (s.lane lane).core.mergeEndDue = true) →
      exec (.mergeEnd lane) s = .next (s.modLane lane (fun l => { l with
        core := { l.core with merge := false, bothFail := false },
        ownEvents := l.ownEvents ++ [⟨1, 2 + laneNum lane, 0x10 + 0x10 * laneNum lane, 0xFFFF, 0, Ev.mergeEnd, 0⟩] }))) ∧
    (∀ item : Fin 6, (s.lane lane).core.merge = true → (s.lane lane).core.mergeStart < s.time.count →
      (s.time.count - (s.lane lane).core.mergeStart) % 64 = 0 → (s.lane lane).core.stTick ≠ some s.time.count →
      ∃ t, exec (.mergeSelftestRepeat lane item) s = .next t ∧ (t.lane lane).core.stTick = some s.time.count ∧
        (t.lane lane).core.stOwn = some (item.val == 0) ∧ (t.lane lane).core.selftestOut = some (item.val == 0) ∧ (t.lane lane).core.await = .selftest ∧
        (t.lane lane).core.stCount = (if (s.lane lane).core.stCount + 1 > 0xFFFF then 0xFFFF else (s.lane lane).core.stCount + 1) ∧
        (item.val ≠ 0 → (t.lane lane).core.stLast = item.val ∧
          (t.lane lane).core.stFails = (if (s.lane lane).core.stFails + 1 > 0xFF then 0xFF else (s.lane lane).core.stFails + 1)) ∧
        (item.val = 0 → (t.lane lane).core.stLast = (s.lane lane).core.stLast ∧ (t.lane lane).core.stFails = (s.lane lane).core.stFails) ∧
        (t.lane lane).row = (s.lane lane).row ∧
        t.lane (otherLane lane) = s.lane (otherLane lane) ∧ t = { s with laneA := t.laneA, laneB := t.laneB }) ∧
    (s.twin.passive = false → (s.lane lane).core.await = .selftest → (s.lane (otherLane lane)).core.await = .selftest →
      (s.lane lane).core.stOwn = some false → (s.lane (otherLane lane)).core.selftestOut = some true →
      ∃ t, exec (.selftest lane true) s = .next t ∧ (t.lane lane).core.mode = .out ∧ (t.lane lane).core.claim = 0 ∧
        t.lane (otherLane lane) = s.lane (otherLane lane)) ∧
    (∀ own other, s.twin.passive = false → (s.lane lane).votes = true → (s.lane lane).core.await = .record →
      (s.lane lane).core.recordOut = some own → (s.lane (otherLane lane)).core.recordOut = some other →
      (s.lane (otherLane lane)).core.await = .record →
      ∃ t, exec (.record lane true) s = .next t ∧ (t.lane lane).core.await = .nothing ∧ (t.lane lane).core.rhash = recHash own ∧
        t.lane (otherLane lane) = s.lane (otherLane lane)) ∧
    (∀ c, c = Instr.selftest lane false ∧ (s.lane lane).core.await ≠ .selftest ∨ c = Instr.record lane false ∧ (s.lane lane).core.await ≠ .record →
      exec c s = .next (s.modLane lane (fun l => { l with core := { l.core with linkErrCrc :=
        if l.core.linkErrCrc + 1 > 0xFFFF then 0xFFFF else l.core.linkErrCrc + 1 } })))

/-- Boot and return (R81, R88–R90, R354, R358). A lane whose bank holds an image the boot ROM takes completes boot; once admitted, beside a lane
whose latest STATUS shows a state other than BOOT, it takes AUTHORITY where that shows claim 0000h and goes to RESYNC where it shows a claim.
Lane B takes AUTHORITY after 64 ticks beside a lane A in BOOT. A lane in RESYNC with its 16 chunks and logs computes in step from tick S + 16, in
PROBATION, with the AUTHORITY lane's row state, calibration and GEN; 8,192 equal hashes make a PROBATION lane STANDBY. A rotation not complete
after 4,915,200 ticks is OVERDUE. A watchdog reset boots the lane with the GEN of its flash and asks for admission. -/
def Obligations.BootAndReturn : Prop :=
  ∀ (lane : LaneId) (s : State),
    ((s.lane lane).core.mode = .boot → (s.lane lane).core.bootDone = false → s.twin.passive = false → s.twin.waiting = false →
      imgOk s 2 (bankImage (fwBank (s.fw lane) (s.fw lane).run)) = true →
      ∃ t, exec (.bootComplete lane) s = .next t ∧ (t.lane lane).core.bootDone = true ∧
        ((s.lane lane).core.admitted = false → (t.lane lane).core.mode = .boot) ∧
        (∀ o, (s.lane lane).core.admitted = true → (s.lane lane).core.missRun < 2 → (s.lane lane).core.statusLast = some o → o.mode ≠ .boot →
          (t.lane lane).core.mode = (if o.claim = 0 then .authority else .resync)) ∧
        (t.lane (otherLane lane)).core = (s.lane (otherLane lane)).core ∧ t.gov = s.gov ∧ t.x = s.x ∧ t.pending = s.pending) ∧
    (s.laneB.core.mode = .boot → s.laneB.core.bootDone = true → s.laneB.core.admitted = true → 64 ≤ s.laneB.core.bootWait →
      s.laneB.core.statusLast.all (fun o => o.mode == .boot) = true →
      ∃ t, exec .laneBBootWait s = .next t ∧ t.laneB.core.mode = .authority ∧ t.laneB.core.gen = (s.laneB.core.gen + 1) % 256 ∧
        t.laneB.flash.gen = (s.laneB.core.gen + 1) % 256 ∧ t = { s with laneB := t.laneB }) ∧
    (∀ t0, (s.lane (otherLane lane)).core.serving = some t0 → t0 + 16 ≤ s.time.count →
      (s.lane lane).core.mode = .resync → (s.lane lane).core.chunks = 16 → (s.lane lane).core.logs = 16 →
      ∃ t, exec (.resyncComplete lane) s = .next t ∧ (t.lane lane).core.mode = .probation ∧
        (t.lane lane).row = { (s.lane (otherLane lane)).row with events := [], irqs := [], errs := [] } ∧
        (t.lane lane).core.gen = (s.lane (otherLane lane)).core.gen ∧ (t.lane lane).cal = (s.lane (otherLane lane)).cal ∧
        (t.lane lane).core.probRun = 0 ∧ t.lane (otherLane lane) = s.lane (otherLane lane) ∧ t = { s with laneA := t.laneA, laneB := t.laneB }) ∧
    ((s.lane lane).core.mode = .probation → 8192 ≤ (s.lane lane).core.probRun →
      exec (.probationPass lane) s = .next (s.modLane lane (fun l => { l with
        core := { l.core with mode := .standby },
        ownEvents := l.ownEvents ++ [⟨1, 2 + laneNum lane, 0x10 + 0x10 * laneNum lane, 0xFFFF, 0, Ev.laneStandby, 0⟩] }))) ∧
    ((s.lane lane).core.rot.overdue = false → 4915200 ≤ (s.lane lane).core.rot.ticks →
      exec (.rotationOverdue lane) s = .next (s.modLane lane (fun l => { l with
        core := { l.core with rot := { l.core.rot with overdue := true } },
        ownEvents := l.ownEvents ++ [⟨1, 2 + laneNum lane, 0x11 + 0x10 * laneNum lane, 0xFFFF, 0, Ev.rotationOverdue, 0⟩] }))) ∧
    (∃ t, exec (.laneWatchdogReset lane) s = .next t ∧ (t.lane lane).core.mode = .boot ∧ (t.lane lane).core.gen = (s.lane lane).flash.gen ∧
      (t.lane lane).core.claim = 0 ∧ (t.lane lane).actOut = none ∧ (t.lane lane).ethOut = none ∧
      t.gov = govRaise (govWithdraw s.gov ⟨.lane, laneNum lane⟩) ⟨.lane, laneNum lane⟩ false ∧
      t.lane (otherLane lane) = s.lane (otherLane lane) ∧ t = { s with laneA := t.laneA, laneB := t.laneB, gov := t.gov })

/-- The row's clock (R12). A tick boundary counts one tick: the tick in its frame, the frame in its second and the second follow the count; it
changes nothing while the sequencer has no supply. -/
def Obligations.TickBoundaryStepsTheClock : Prop :=
  ∀ (a b : Fin 6) (ra rb : Option (Fin 7)) (s : State),
    (s.pwr.seqSupply = true → ∃ t, exec (.tickBoundary a b ra rb) s = .next t ∧ t.time.count = s.time.count + 1 ∧
      t.time.tick = (s.time.count + 1) % 8 ∧ t.time.frame = (s.time.count + 1) / 8 % 1024 ∧
      t.time.sec = (if (s.time.count + 1) % 8192 = 0 then s.time.sec + 1 else s.time.sec) ∧ t.time.seqBase = s.time.seqBase) ∧
    (s.pwr.seqSupply = false → exec (.tickBoundary a b ra rb) s = .next s)

/-- Xoide's frame outside its jobs (R14, R20, R51, R60, R66, R165, R177). At a frame boundary Hervi's unfinished work of the frame sets its
overrun flag, and that is all where Xoide is down or AONCLK is lost; with Xoide up and no model set active or armed, the frame counter advances,
the ingest buffers change over and the frame opens without an advisory. Quadrants and ergs asleep in RUN ask the governor for admission at their
request instants, and the cap limit takes the cap's point; an awake erg with no job left stops its clock and leaves the ledger, and one in
STOPPING reaches OFF with it. -/
def Obligations.FrameBoundaryAndSleep : Prop :=
  ∀ (s : State),
    (s.x.up = false ∨ s.pwr.aonLost = true →
      exec .frameBoundary s = .next { s with hopp := { s.hopp with overrun := !s.hopp.frameDone || s.hopp.overrun, frameDone := false } }) ∧
    (s.x.up = true → s.pwr.aonLost = false → s.x.active = none → s.x.armed = none →
      ∃ t, exec .frameBoundary s = .next t ∧ t.fld F.XJOB_FRAME_COUNT = (s.fld F.XJOB_FRAME_COUNT + 1) % 2 ^ 32 ∧
        t.ingest.sel = !s.ingest.sel ∧ t.x.frameOn = true ∧ t.x.posted = false ∧ t.x.adv = none ∧
        t.hopp.overrun = (!s.hopp.frameDone || s.hopp.overrun) ∧ t.hopp.frameDone = false ∧
        t.laneA = s.laneA ∧ t.laneB = s.laneB ∧ t.gov = s.gov ∧ t.time = s.time) ∧
    (s.x.up = true → ∃ t, exec .selfRefreshExitRequest s = .next t ∧ t.xopp.frameStart = capPoint (s.fld F.XPWR_CAP_QW) ∧
      t.xopp.capLim = capPoint (s.fld F.XPWR_CAP_QW) ∧
      (∀ q : Fin 5, (blkGet s (0x8A + q.val)).state = .run → s.fld (F.XMEM_STAT_SR q.val) = 1 →
        (⟨⟨.lpddr, q.val⟩, 0, false⟩ : GovReq) ∈ t.gov.raised)) ∧
    (∀ n : Fin 8, s.x.up = true → (blkGet s (0x80 + n.val)).state = .run → s.fld (F.ERG_STAT_AWAKE n.val) = 0 →
      (blkGet s (0x80 + n.val)).safe = false →
      exec (.ergClockStartRequest n) s = .next {
          blkSet s (0x80 + n.val) { blkGet s (0x80 + n.val) with granted := false } with
          gov := { s.gov with
            raised := s.gov.raised.filter (fun r => r.item != (⟨.erg, n.val⟩ : GovItem)) ++ [(⟨⟨.erg, n.val⟩, 0, false⟩ : GovReq)],
            queue := s.gov.queue.filter (fun r => r.item != (⟨.erg, n.val⟩ : GovItem)) } }) ∧
    (∀ n m : Fin 8, s.x.up = true → s.fld (F.ERG_STAT_AWAKE n.val) = 1 → ergBusyNow s n.val = false → swapHolds s = false →
      m ≠ n → s.fld (F.ERG_STAT_AWAKE m.val) = 1 →
      ((blkGet s (0x80 + n.val)).state = .run →
        ∃ t, exec (.ergSleep n) s = .next t ∧ t.fld (F.ERG_STAT_AWAKE n.val) = 0 ∧ t.fld (F.ERG_STAT_AWAKE m.val) = 1 ∧
          t.gov = govStop s.gov ⟨.erg, n.val⟩ ∧ blkGet t (0x80 + n.val) = { blkGet s (0x80 + n.val) with granted := false } ∧
          (∀ k, k ≠ 0x80 + n.val → blkGet t k = blkGet s k) ∧ t = { s with regs := t.regs, gov := t.gov, blk := t.blk }) ∧
      ((blkGet s (0x80 + n.val)).state = .stopping →
        ∃ t, exec (.ergSleep n) s = .next t ∧ t.fld (F.ERG_STAT_AWAKE n.val) = 0 ∧ (blkGet t (0x80 + n.val)).state = .off ∧
          (⟨.erg, n.val⟩ : GovItem) ∈ t.gov.ended))

/-- Advisories (R14, R22, R188–R190, R289). Xoide posts the advisory once the SAFETY jobs have ended and counts it, in time where posting ends by
AON cycle 255 and late after that; none while AONCLK is lost. A lane holds an intact copy from the boundary that latches it (tick 2 of the frame
for one that arrives in tick 0 or 1) and discards a damaged one; a lane drops an advisory 24 ticks after latching it and CONSERV sets; CONSERV
clears with the eighth consecutive agreed advisory. -/
def Obligations.AdvisoriesArePostedHeldAndExpire : Prop :=
  ∀ (s : State),
    (∀ aon : Fin 1024, s.pwr.aonLost = false → s.x.frameOn = true → s.x.posted = false → s.x.active.isSome = true → s.x.barred = false →
      quadsRun s = true → safetyEnded s = true → s.x.reload = 0 → s.x.errs = [] →
      ∃ t, exec (.advisoryPost aon) s = .next t ∧ t.x = { s.x with adv := some (advBuild (decide (255 < aon.val)) s), posted := true } ∧
        t.fld F.XJOB_ADV_CNT_POSTED = (s.fld F.XJOB_ADV_CNT_POSTED + 1) % 65536 ∧ t.fld F.XJOB_FRAME_STAT_POST_AON = aon.val ∧
        t.fld F.XJOB_FRAME_STAT_LATE = (if 255 < aon.val then 1 else 0) ∧ t.xopp = { s.xopp with overrun := false } ∧
        t = { s with x := t.x, regs := t.regs, xopp := t.xopp, mrec := t.mrec } ∧ (aon.val ≤ 255 → t.mrec = s.mrec)) ∧
    (∀ aon : Fin 1024, s.pwr.aonLost = true → exec (.advisoryPost aon) s = .next s) ∧
    (∀ (rcv : LaneId) m, s.x.adv = some m → s.x.posted = true →
      exec (.advisory rcv true) s = .next (s.modLane rcv (fun l => {
        l with
        core := {
          l.core with
          advPend := some ⟨m, if s.time.tick % 8 < 2 then s.time.count + (2 - s.time.tick % 8) else s.time.count + 1⟩ } })) ∧
      exec (.advisory rcv false) s = .next s) ∧
    (∃ t, exec .advisoryExpiry s = .next t ∧ (∀ lane a, (s.lane lane).votes = true → (s.lane lane).row.adv = some a → a.tick + 24 ≤ s.time.count →
        (t.lane lane).row.adv = none ∧ (t.lane lane).row.prot.conserv = true) ∧
      (∀ lane a, (s.lane lane).row.adv = some a → s.time.count < a.tick + 24 → t.lane lane = s.lane lane) ∧
      t = { s with laneA := t.laneA, laneB := t.laneB }) ∧
    (∃ t, exec .conservClear s = .next t ∧ (∀ lane, (s.lane lane).votes = true → 8 ≤ (s.lane lane).row.prot.advRun →
        (t.lane lane).row.prot.conserv = false) ∧
      (∀ lane, (s.lane lane).row.prot.advRun < 8 → t.lane lane = s.lane lane) ∧ t = { s with laneA := t.laneA, laneB := t.laneB })

/-- The enable of a block (R33, R34, R378), by a direct write to PG_CTRL of a page that is not lane-owned, answers and is not LOCKED: EN = 1
moves an OFF block to STARTING (an Ethernet port whose cable is active or optical only counts the refusal) and sets PEND in STOPPING; EN = 0
moves STARTING, RUN and FAULT to STOPPING and clears PEND in STOPPING; RST_REQ brings the block to OFF with PEND clear, and EN stays as last
written; the lanes, the mailbox, the fuses and the clock stay as they are. (Page 070 and its ports, and the pump channels, follow rules of their
own: R265, R294.). — The other moves of a page's block (R33–R35, R165, R252): STARTING that is ready, its admission granted where the governor
admits it (a valve bank once its rail is at or above 64.0 V), moves to RUN; a shutdown complete moves STOPPING to OFF, unless a bank's profile
still runs or an erg is awake; OFF with PEND, or with EN still 1 after a reset, moves to STARTING and PEND clears; a fault moves every other
state to FAULT; FORCE_SAFE written 1 by a direct write is in effect at once, and puts an erg to sleep. The lanes, the mailbox, the fuses and the
clock stay as they are. -/
def Obligations.BlocksMoveBetweenTheirStates : Prop :=
  (
    ∀ (p : BitVec 8) (i : PageInfo) (s : State), pageInfo p.toNat = some i → i.laneOwned = false → reachable s p.toNat = true → s.locked p.toNat = false →
      blkHasState p.toNat = true → p.toNat ≠ 0x70 →
      ((blkGet s p.toNat).state = .off → cableBad s p.toNat = false →
        ∃ t, exec (.blockEnable (.page p) .direct) s = .next t ∧ (blkGet t p.toNat).state = .starting ∧ (blkGet t p.toNat).en = true ∧
          (blkGet t p.toNat).pend = false ∧ t.laneA = s.laneA ∧ t.laneB = s.laneB ∧ t.mbox = s.mbox ∧ t.fuses = s.fuses ∧ t.time = s.time) ∧
      ((blkGet s p.toNat).state = .off → cableBad s p.toNat = true →
        exec (.blockEnable (.page p) .direct) s = .next ((blkSet s p.toNat { blkGet s p.toNat with en := true }).err p.toNat 0x80)) ∧
      ((blkGet s p.toNat).state = .stopping →
        (∃ t, exec (.blockEnable (.page p) .direct) s = .next t ∧ blkGet t p.toNat = { blkGet s p.toNat with en := true, pend := true } ∧
          (∀ j, j ≠ p.toNat → blkGet t j = blkGet s j) ∧ t = { s with blk := t.blk }) ∧
        (∃ t, exec (.blockDisable (.page p) .direct) s = .next t ∧ blkGet t p.toNat = { blkGet s p.toNat with en := false, pend := false } ∧
          (∀ j, j ≠ p.toNat → blkGet t j = blkGet s j) ∧ t = { s with blk := t.blk })) ∧
      ((blkGet s p.toNat).state = .starting ∨ (blkGet s p.toNat).state = .run ∨ (blkGet s p.toNat).state = .fault →
        ∃ t, exec (.blockDisable (.page p) .direct) s = .next t ∧ (blkGet t p.toNat).state = .stopping ∧ (blkGet t p.toNat).en = false ∧
          (blkGet t p.toNat).pend = false ∧ t.laneA = s.laneA ∧ t.laneB = s.laneB ∧ t.mbox = s.mbox ∧ t.fuses = s.fuses ∧ t.time = s.time) ∧
      (∃ t, exec (.blockReset (.page p) .direct) s = .next t ∧ (blkGet t p.toNat).state = .off ∧ (blkGet t p.toNat).en = (blkGet s p.toNat).en ∧
        (blkGet t p.toNat).pend = false ∧ t.laneA = s.laneA ∧ t.laneB = s.laneB ∧ t.mbox = s.mbox ∧ t.fuses = s.fuses ∧ t.time = s.time)) ∧ (
    ∀ (p : BitVec 8) (s : State), blkHasState p.toNat = true → p.toNat ≠ 0x70 →
      ((blkGet s p.toNat).state = .starting → (blkGoverned p.toNat = false ∨ (blkGet s p.toNat).granted = true) →
        (0x30 ≤ p.toNat → p.toNat ≤ 0x3B → 640 ≤ (s.bank (p.toNat - 0x30)).rail) →
        ∃ t, exec (.blockReady (.page p)) s = .next t ∧ (blkGet t p.toNat).state = .run ∧
          t.laneA = s.laneA ∧ t.laneB = s.laneB ∧ t.mbox = s.mbox ∧ t.fuses = s.fuses ∧ t.time = s.time) ∧
      ((blkGet s p.toNat).state = .stopping → stopBusy s p.toNat = false →
        ∃ t, exec (.blockStopComplete (.page p)) s = .next t ∧ (blkGet t p.toNat).state = .off ∧ (blkGet t p.toNat).pend = (blkGet s p.toNat).pend ∧
          t.laneA = s.laneA ∧ t.laneB = s.laneB ∧ t.mbox = s.mbox ∧ t.fuses = s.fuses ∧ t.time = s.time) ∧
      (stopBusy s p.toNat = true → exec (.blockStopComplete (.page p)) s = .next s) ∧
      ((blkGet s p.toNat).state = .off → (blkGet s p.toNat).pend = true ∨ blkWanted s p.toNat = true →
        ∃ t, exec (.pendingEnableStart (.page p)) s = .next t ∧ (blkGet t p.toNat).state = .starting ∧ (blkGet t p.toNat).pend = false ∧
          t.laneA = s.laneA ∧ t.laneB = s.laneB ∧ t.mbox = s.mbox ∧ t.fuses = s.fuses ∧ t.time = s.time) ∧
      ((blkGet s p.toNat).state ≠ .fault →
        ∃ t, exec (.blockFault (.page p)) s = .next t ∧ (blkGet t p.toNat).state = .fault ∧
          t.laneA = s.laneA ∧ t.laneB = s.laneB ∧ t.mbox = s.mbox ∧ t.fuses = s.fuses ∧ t.time = s.time) ∧
      (∀ i, pageInfo p.toNat = some i → i.laneOwned = false → reachable s p.toNat = true → s.locked p.toNat = false →
        (¬ (0x80 ≤ p.toNat ∧ p.toNat ≤ 0x87) →
          ∃ t, exec (.forceSafe (.page p) true .direct) s = .next t ∧ blkGet t p.toNat = { blkGet s p.toNat with forceSafe := true, safe := true } ∧
            (∀ j, j ≠ p.toNat → blkGet t j = blkGet s j) ∧ t = { s with blk := t.blk }) ∧
        (∀ n : Fin 8, p.toNat = 0x80 + n.val → ∃ t, exec (.forceSafe (.page p) true .direct) s = .next t ∧ (blkGet t p.toNat).forceSafe = true ∧
            (blkGet t p.toNat).safe = true ∧ t.fld (F.ERG_STAT_AWAKE n.val) = 0 ∧ t.laneA = s.laneA ∧ t.laneB = s.laneB)))

/-- The common header and the module register bus (R28, R29, R31, R32, R47): writing 1 to PG_IRQ bits clears them but those an event sets in the
same cycle; PG_ERR_CNT.CLR sets COUNT and LAST_CODE to 0, and an error of the same cycle leaves them at 1 and its code; SYS_BUS_ERR.CLR sets the
count to 0; an access without a response in time is counted with its address, and a read returns 0; a read of the lower word of a wide register
latches its upper word; an aligned 32-bit write reaches PG_IRQ_EN of a page that is not LOCKED. Each leaves everything else as it is. -/
def Obligations.HeaderAndBusCommands : Prop :=
  ∀ (s : State),
    (∀ (p : BitVec 8) (bits same : Word), reachable s p.toNat = true →
      exec (.irqClear p bits same) s = .next {
        s with regs := rset s.regs (p.toNat * 0x1000 + 0x10) ((rget s.regs (p.toNat * 0x1000 + 0x10) &&& ~~~bits) ||| (same &&& 0xFFFFFF0F)) }) ∧
    (∀ p : BitVec 8, reachable s p.toNat = true →
      exec (.errCntClear p none) s = .next { s with regs := rset s.regs (p.toNat * 0x1000 + 0x18) 0 } ∧
      (∀ c : BitVec 8, ∃ t, exec (.errCntClear p (some c)) s = .next t ∧
        (rget t.regs (p.toNat * 0x1000 + 0x18)).toNat = 1 + 65536 * c.toNat ∧ t = { s with regs := t.regs })) ∧
    (s.locked 0 = false → ∃ t, exec .busErrClear s = .next t ∧ t.fld F.SYS_BUS_ERR_COUNT = 0 ∧
      (∀ off, off ≠ F.SYS_BUS_ERR_COUNT.off → rget t.regs off = rget s.regs off) ∧ t = { s with regs := t.regs }) ∧
    (∀ a : BitVec 20, ∃ t, exec (.busTimeout a false) s = .next t ∧ t.rdData = 0 ∧
      t.fld F.SYS_BUS_ERR_COUNT = (if s.fld F.SYS_BUS_ERR_COUNT + 1 > 65535 then 65535 else s.fld F.SYS_BUS_ERR_COUNT + 1) ∧
      t.fld F.SYS_BUS_ERR_ADDR_ADDR = a.toNat ∧ t.fld F.SYS_BUS_ERR_ADDR_WRITE = 0 ∧ t = { s with regs := t.regs, rdData := 0 }) ∧
    (∀ a : BitVec 20, ∃ t, exec (.busTimeout a true) s = .next t ∧
      t.fld F.SYS_BUS_ERR_COUNT = (if s.fld F.SYS_BUS_ERR_COUNT + 1 > 65535 then 65535 else s.fld F.SYS_BUS_ERR_COUNT + 1) ∧
      t.fld F.SYS_BUS_ERR_ADDR_ADDR = a.toNat ∧ t.fld F.SYS_BUS_ERR_ADDR_WRITE = 1 ∧ t = { s with regs := t.regs }) ∧
    (∀ a : BitVec 20, a.toNat % 4 = 0 → (pageInfo (a.toNat / 0x1000)).isSome = true → reachable s (a.toNat / 0x1000) = true →
      wideLo (a.toNat / 0x1000) (a.toNat % 0x1000) = true → a.toNat / 0x1000 ≠ 0xB0 → a.toNat / 0x1000 ≠ 1 → a.toNat / 0x1000 ≠ 2 →
      ∃ t, exec (.hiLoReadLatch a .b4) s = .next t ∧
        tget none t.hilo (a.toNat + 4) = some (pageWord s (a.toNat / 0x1000) (a.toNat % 0x1000 + 4)) ∧
        t.laneA = s.laneA ∧ t.laneB = s.laneB ∧ t.blk = s.blk ∧ t.mbox = s.mbox ∧ t.time = s.time) ∧
    (∀ (p : BitVec 8) (d : Word), (pageInfo p.toNat).isSome = true → reachable s p.toNat = true → s.locked p.toNat = false →
      lanePageReserved p.toNat = false →
      exec (.registerWrite (BitVec.ofNat 20 (p.toNat * 0x1000 + 0x14)) .b4 (d.setWidth 64)) s =
        .next { s with regs := rset s.regs (p.toNat * 0x1000 + 0x14) d })

/-- The lane mailbox (R41, R42, R44, R71): GO with 1 to 8 entries sends the entries of the SYS page and sets BUSY; GO while BUSY is refused with
07h, with another count with 08h, and on a LOCKED page with 04h; the batch arrives with its tick T; a lane takes the other lane's verdicts, or
keeps its own where that copy is damaged, which it counts; once no lane waits, the reply clears BUSY and sets DONE with the batch's tag. An
accepted batch is applied at its apply tick, once, by every lane that accepted it and by no other; a batch that no deciding lane has taken in two
ticks ends with NO_LANE. -/
def Obligations.LaneMailbox : Prop :=
  ∀ (s : State),
    (∀ (n : BitVec 4) (tag : BitVec 16),
      (s.locked 0 = false → s.fld F.SYS_MBOX_STAT_BUSY = 0 → 1 ≤ n.toNat → n.toNat ≤ 8 →
        ∃ t, exec (.mboxGo n tag) s = .next t ∧ t.fld F.SYS_MBOX_STAT_BUSY = 1 ∧ t.fld F.SYS_MBOX_STAT_DONE = 0 ∧ t.fld F.SYS_MBOX_STAT_APPLIED = 0 ∧
          t.mbox = { s.mbox with flight := some ⟨tag.toNat, (upto n.toNat).map (mboxEntryAt s)⟩ } ∧ t = { s with regs := t.regs, mbox := t.mbox }) ∧
      (s.locked 0 = false → s.fld F.SYS_MBOX_STAT_BUSY = 1 → exec (.mboxGo n tag) s = .next (s.refuse 0 7)) ∧
      (s.locked 0 = false → s.fld F.SYS_MBOX_STAT_BUSY = 0 → (n.toNat = 0 ∨ 8 < n.toNat) → exec (.mboxGo n tag) s = .next (s.refuse 0 8)) ∧
      (s.locked 0 = true → exec (.mboxGo n tag) s = .next (s.refuse 0 4))) ∧
    (∀ b, s.mbox.flight = some b →
      exec .mboxBatchArrival s = .next { s with mbox := { s.mbox with flight := none, arrived := some (b, s.time.count), latched := false } }) ∧
    (s.mbox.flight = none → exec .mboxBatchArrival s = .next s) ∧
    (∀ rcv : LaneId, s.mbox.latched = true → (s.lane rcv).core.verdictOwn ≠ [] → (s.lane (otherLane rcv)).core.verdictOwn ≠ [] →
      (s.lane (otherLane rcv)).core.verdictWait = true → (s.lane (otherLane rcv)).core.verdictIn = none →
      exec (.mboxVerdict rcv true) s = .next (s.modLane rcv (fun l => { l with core := { l.core with
        verdictIn := some (s.lane (otherLane rcv)).core.verdictOwn } })) ∧
      exec (.mboxVerdict rcv false) s = .next (s.modLane rcv (fun l => { l with core := {
        l.core with
        verdictIn := some l.core.verdictOwn
        linkErrCrc := if l.core.linkErrCrc + 1 > 0xFFFF then 0xFFFF else l.core.linkErrCrc + 1 } }))) ∧
    (∀ (rcv : LaneId) (ok : Bool) b t0, s.mbox.latched = true → s.mbox.arrived = some (b, t0) → s.fld F.SYS_MBOX_STAT_BUSY = 1 →
      (s.lane rcv).core.verdictOwn ≠ [] → (s.lane rcv).core.mode.decides = true → (s.lane (otherLane rcv)).core.verdictOwn ≠ [] →
      (s.lane (otherLane rcv)).core.verdictIn ≠ none →
      ∃ t, exec (.mboxVerdict rcv ok) s = .next t ∧ t.fld F.SYS_MBOX_STAT_BUSY = 0 ∧ t.fld F.SYS_MBOX_STAT_DONE = 1 ∧
        t.fld F.SYS_MBOX_STAT_TAG = b.tag % 65536 ∧ t.mbox.arrived = none ∧ t.mbox.latched = false) ∧
    (∀ b t0, s.mbox.accepted = some (b, t0) →
      (t0 ≤ s.time.count → ∃ t, exec .mboxApply s = .next t ∧ t.mbox.accepted = none ∧
        (∀ d, b.entries = [⟨0x48118, d, 0xFFFFFFFF⟩] →
          (∀ lane, mbTakes (s.lane lane) = true → rget (t.lane lane).row.regs 0x48118 = d) ∧
          (∀ lane, mbTakes (s.lane lane) = false → (t.lane lane).row.regs = (s.lane lane).row.regs))) ∧
      (s.time.count < t0 → exec .mboxApply s = .next s)) ∧
    (s.mbox.accepted = none → exec .mboxApply s = .next s) ∧
    (∀ b t0, s.mbox.arrived = some (b, t0) → t0 + 2 ≤ s.time.count → mbDecides s.laneA = false → mbDecides s.laneB = false →
      s.fld F.SYS_MBOX_STAT_BUSY = 1 →
      ∃ t, exec .mboxNoLane s = .next t ∧ t.fld F.SYS_MBOX_STAT_BUSY = 0 ∧ t.fld F.SYS_MBOX_STAT_DONE = 1 ∧ t.fld F.SYS_MBOX_STAT_APPLIED = 0 ∧
        t.fld F.SYS_MBOX_STAT_CODE = 0xB ∧ t.fld F.SYS_MBOX_STAT_TAG = b.tag % 65536 ∧ t.mbox = { s.mbox with arrived := none, latched := false } ∧
        t = { s with regs := t.regs, mbox := t.mbox })

/-- The inrush governor's cycle (R52–R57). With no bypass raised, a cycle that starts with the ledger within the 12.00 A budget ends within it;
while HOLD stays, and from HOLDUP on, a cycle admits nothing but lanes; a lone request that fits the budget and has no spacing interval running
is admitted in the cycle after it is raised, with its surge window, and its grant is two cycles away. The cycle completes in every state. — The
governor's requests, grants, windows and its bypass (R53–R57). A request is raised for the next cycle; a grant on its way reaches the block or
the lane that asked, and no other; the end of a surge window takes the item's surge cost from the ledger and leaves its steady cost; the end of a
spacing interval frees its class; a bypass is admitted whatever the budget and the spacing, which starts again, and counted once; 16 cycles above
the budget set HOLD and 16 at or below 11.50 A clear it; PEAK_CLR sets PEAK to the ledger. -/
def Obligations.GovernorCyclesRequestsAndGrants : Prop :=
  (
    ∀ (iin : BitVec 12) (s : State),
      ∃ t, exec (.governorCycle iin) s = .next t ∧ t.pwr = { s.pwr with iin := iin.toNat } ∧ t.time = s.time ∧ t.fuses = s.fuses ∧
        ((∀ r ∈ s.gov.raised, r.bypass = false) → govLedger s.gov ≤ 1200 → govLedger t.gov ≤ 1200) ∧
        ((s.gov.hold = true ∧ 1150 < iin.toNat ∨ s.pwr.holdup = true) → (∀ r ∈ s.gov.raised, r.bypass = false) →
          ∀ a ∈ t.gov.admitted, a.item.cls ≠ .lane → ∃ b ∈ s.gov.admitted, b.item = a.item) ∧
        (∀ r, s.gov.raised = [r] → r.age = 0 → r.bypass = false → s.gov.queue = [] → s.gov.ended = [] → s.gov.admitted = [] → s.gov.granting = [] →
          s.gov.hold = false → s.gov.overNow = false → s.gov.overRun < 15 → s.pwr.holdup = false → govGap s.gov r.item.cls ≤ 1 →
          t.gov.admitted = [(⟨r.item, govWindow r.item.cls⟩ : GovAdm)] ∧ t.gov.queue = [] ∧ t.gov.granting = [(r.item, 2)])) ∧ (
    ∀ (s : State) (item : GovItem),
      exec (.inrushRequest item) s = .next { s with gov := { s.gov with raised := s.gov.raised ++ [(⟨item, 0, false⟩ : GovReq)] } } ∧
      (s.gov.granting.any (fun x => x.1 == item) = true →
        (∀ k, itemBlk item = some k → ∃ t, exec (.grant item) s = .next t ∧ blkGet t k = { blkGet s k with granted := true } ∧
          (∀ j, j ≠ k → blkGet t j = blkGet s j) ∧ t.gov.granting = s.gov.granting.filter (fun x => x.1 != item) ∧
          t.laneA = s.laneA ∧ t.laneB = s.laneB ∧ (item.cls ≠ .valve → t = { s with gov := t.gov, blk := t.blk })) ∧
        (item.cls = .lane → ∀ lane, lane = (if item.inst = 0 then LaneId.a else LaneId.b) → ∃ t, exec (.grant item) s = .next t ∧
          t.lane lane = { s.lane lane with core := { (s.lane lane).core with admitted := true } } ∧ t.lane (otherLane lane) = s.lane (otherLane lane) ∧
          t.gov.granting = s.gov.granting.filter (fun x => x.1 != item) ∧ t = { s with gov := t.gov, laneA := t.laneA, laneB := t.laneB })) ∧
      (s.gov.granting.any (fun x => x.1 == item) = false → exec (.grant item) s = .next s) ∧
      (∃ t, exec (.surgeWindowEnd item) s = .next t ∧ (∀ a ∈ t.gov.admitted, a.item = item → a.surgeLeft = 0) ∧
        (∀ a ∈ s.gov.admitted, a.item ≠ item → a.surgeLeft ≠ 0 → a ∈ t.gov.admitted) ∧
        (∀ a ∈ s.gov.admitted, a.item = item → govSteady item.cls ≠ 0 → (⟨item, 0⟩ : GovAdm) ∈ t.gov.admitted) ∧
        t.fld F.INRUSH_LEDGER_AMPS = govLedger t.gov % 2048 ∧ t = { s with gov := t.gov, regs := t.regs }) ∧
      (∃ t, exec (.spacingIntervalEnd .pump) s = .next t ∧ t.gov.pumpGap = 0 ∧ t.gov.ergGap = s.gov.ergGap ∧ t.gov.admitted = s.gov.admitted ∧
        t.gov.queue = s.gov.queue ∧ t.fld F.INRUSH_PUMP_GAP_REMAIN = 0 ∧ t = { s with gov := t.gov, regs := t.regs }) ∧
      (∃ t, exec (.spacingIntervalEnd .erg) s = .next t ∧ t.gov.ergGap = 0 ∧ t.gov.pumpGap = s.gov.pumpGap ∧ t.gov.admitted = s.gov.admitted ∧
        t.gov.queue = s.gov.queue ∧ t = { s with gov := t.gov, regs := t.regs }) ∧
      (∀ n : Fin 4,
        (s.gov.raised.any (fun r => r.bypass && r.item == ⟨.pump, n.val⟩) = true ∨ s.gov.admitted.any (fun a => a.item == ⟨.pump, n.val⟩) = false →
          ∃ t, exec (.bypassStart n) s = .next t ∧ t.gov.admitted = s.gov.admitted ++ [(⟨⟨.pump, n.val⟩, 16384⟩ : GovAdm)] ∧
            t.gov.granting = s.gov.granting ++ [((⟨.pump, n.val⟩ : GovItem), 2)] ∧ t.gov.pumpGap = 25165824 ∧
            t.gov.raised = s.gov.raised.filter (fun r => !(r.bypass && r.item == ⟨.pump, n.val⟩)) ∧
            t.gov.bypasses = (if s.gov.bypasses + 1 > 0xFFFF then 0xFFFF else s.gov.bypasses + 1) ∧
            t.gov.overNow = decide (1200 < govLedger t.gov) ∧ t = { s with gov := t.gov, regs := t.regs }) ∧
        (s.gov.raised.any (fun r => r.bypass && r.item == ⟨.pump, n.val⟩) = false → s.gov.admitted.any (fun a => a.item == ⟨.pump, n.val⟩) = true →
          ∃ t, exec (.bypassStart n) s = .next t ∧ t.gov = { s.gov with peak := max s.gov.peak (govLedger s.gov) } ∧
            t = { s with gov := t.gov, regs := t.regs })) ∧
      (16 ≤ s.gov.overRun → ∃ t, exec .inrushHold s = .next t ∧ t.gov.hold = true ∧ t.fld F.INRUSH_BLOCK_HOLD = 1 ∧
        t.gov.admitted = s.gov.admitted ∧ t = { s with gov := t.gov, regs := t.regs }) ∧
      (16 ≤ s.gov.underRun → ∃ t, exec .inrushHoldClear s = .next t ∧ t.gov.hold = false ∧ t.fld F.INRUSH_BLOCK_HOLD = 0 ∧
        t.gov.admitted = s.gov.admitted ∧ t = { s with gov := t.gov, regs := t.regs }) ∧
      (s.locked 3 = false → ∃ t, exec .ledgerPeakClear s = .next t ∧ t.gov = { s.gov with peak := govLedger s.gov } ∧
        t.fld F.INRUSH_LEDGER_PEAK = govLedger s.gov % 2048 ∧ t.fld F.INRUSH_LEDGER_AMPS = s.fld F.INRUSH_LEDGER_AMPS ∧
        (∀ off, off ≠ F.INRUSH_LEDGER_PEAK.off → rget t.regs off = rget s.regs off) ∧ t = { s with gov := t.gov, regs := t.regs }))

/-- Operating points and limits (R49, R58–R63). A step's end puts its point in force (while every erg sleeps, the faster point set for the next
frame); an evaluation interval moves the thermal limits of both dies by one point and Xoide's cap limit by the interval's energy, and starts a
new estimate; at 115 °C every erg stops, the point is OPP7 and the frame's jobs are abandoned; the feeds set SUPPLY_LOW and with it the supply
limits; an erg or a quadrant whose wake its grant has started accepts work, and a domain without a grant stays as it is; Hervi marks its work of
the frame done. — Droop (R59, R64, R65). A supply below the voltage of the point in force by more than the threshold (on Xoide the fused
XPWR_STATIC voltage, on Hervi the one the sample brings) sets the flag, stretches the clock and counts; any other leaves the state as it is; the
release clears both; a step that waited on the flag is taken to the slowest point then required. -/
def Obligations.OperatingPointsAndDroop : Prop :=
  (
    ∀ (s : State),
      (∀ n, s.xopp.stepping = some n → ∃ t, exec (.dvfsStepComplete .xoide) s = .next t ∧ t.gov = s.gov ∧ t.pwr = s.pwr ∧ t.hopp = s.hopp ∧
        (ergsAsleep s = false ∨ s.xopp.waiting = true ∨ n ≤ s.xopp.target → t.xopp.cur = n) ∧
        (ergsAsleep s = true → s.xopp.waiting = false → s.xopp.target < n → t.xopp.cur = s.xopp.target ∧ t.xopp.stepping = none)) ∧
      (∀ n, s.hopp.stepping = some n → ∃ t, exec (.dvfsStepComplete .hervi) s = .next t ∧ t.hopp.cur = n ∧ t.gov = s.gov ∧ t.pwr = s.pwr ∧ t.xopp = s.xopp) ∧
      (∀ tx th : Nat, ∃ t, exec (.powerEvalInterval tx th) s = .next t ∧ t.x.eInt = 0 ∧ t.xopp.tMax = tx ∧ t.hopp.tMax = th ∧
        t.xopp.thermLim = (if s.fld F.XPWR_THERM_T_TH ≤ tx then min 7 (s.xopp.thermLim + 1)
          else if tx + 5 ≤ s.fld F.XPWR_THERM_T_TH then s.xopp.thermLim - 1 else s.xopp.thermLim) ∧
        t.hopp.thermLim = (if 100 ≤ th then s.hopp.thermLim - 1 else if th ≤ 95 then min 8 (s.hopp.thermLim + 1) else s.hopp.thermLim) ∧
        (∀ e, e = (chargeStatic (tx : Int) s).x.eInt → t.xopp.capLim = (if overCap e (s.fld F.XPWR_CAP_QW) then min 7 (s.xopp.capLim + 1)
          else if underCap e (s.fld F.XPWR_CAP_QW) = true ∧ s.xopp.frameStart < s.xopp.capLim then s.xopp.capLim - 1 else s.xopp.capLim)) ∧
        t.laneA = s.laneA ∧ t.laneB = s.laneB ∧ t.gov = s.gov ∧ t.blk = s.blk ∧ t.time = s.time) ∧
      (∀ tm : Nat, 115 ≤ tm → ∃ t, exec (.ergThermalStop tm) s = .next t ∧ t.x.thermStop = true ∧ t.x.barred = true ∧ t.xopp.cur = 7 ∧
        t.xopp.stepping = none ∧ (∀ n : Fin 8, t.fld (F.ERG_STAT_AWAKE n.val) = 0) ∧
        (∀ j ∈ jobList s, ((s.xjob j).state = 1 ∨ (s.xjob j).state = 2) → (t.xjob j).state = 6) ∧ t.time = s.time ∧ t.pwr = s.pwr) ∧
      (∀ tm : Nat, tm < 115 → exec (.ergThermalStop tm) s = .next s) ∧
      (∀ a b : BitVec 12, ∃ t, exec (.supplyLowChange a b) s = .next t ∧
        t.pwr = { s.pwr with vinA := a.toNat, vinB := b.toNat, supplyLow := t.pwr.supplyLow, oneFeed := feedOk a.toNat != feedOk b.toNat } ∧
        t.pwr.supplyLow = decide (max a.toNat b.toNat < s.fld F.PWR_SUPPLY_CFG_LOW_TH) ∧
        t.xopp.supplyLim = (if max a.toNat b.toNat < s.fld F.PWR_SUPPLY_CFG_LOW_TH then 4 else 0) ∧
        t.hopp.supplyLim = (if max a.toNat b.toNat < s.fld F.PWR_SUPPLY_CFG_LOW_TH then 4 else 8) ∧
        t.gov = s.gov ∧ t.blk = s.blk ∧ t.x = s.x) ∧
      (∀ e : Fin 8, s.ucie.out = [] → (blkGet s (0x80 + e.val)).granted = true → (blkGet s (0x80 + e.val)).state = .run →
        ∃ t, exec (.domainWakeComplete ⟨21 + e.val, by omega⟩) s = .next t ∧ t.fld (F.ERG_STAT_AWAKE e.val) = 1 ∧ t = { s with regs := t.regs }) ∧
      (∀ q : Fin 5, s.ucie.out = [] → (blkGet s (0x8A + q.val)).granted = true → (blkGet s (0x8A + q.val)).state = .run →
        ∃ t, exec (.domainWakeComplete ⟨29 + q.val, by omega⟩) s = .next t ∧ t.fld (F.XMEM_STAT_SR q.val) = 0 ∧ t = { s with regs := t.regs }) ∧
      (∀ n : Fin 41, s.ucie.out = [] → (domBlk n.val).all (fun k => !(blkGet s k).granted) = true → n.val ≠ 9 → n.val ≠ 10 → n.val ≠ 11 → n.val ≠ 20 →
        exec (.domainWakeComplete n) s = .next s) ∧
      (s.locked 1 = false → exec .frameDone s = .next { s with hopp := { s.hopp with frameDone := true, overrun := false } })) ∧ (
    ∀ (s : State),
      (∀ mv pt : Nat, 100 * mv < s.fld (F.XPWR_STATIC_V_MV s.xopp.cur) * (100 - s.fld F.XPWR_DROOP_THR) → ∃ t, exec (.droopDetect .xoide mv pt) s = .next t ∧
        t.xopp = { s.xopp with droop := true, stretch := true, droopEvents := satAdd 0xFFFF s.xopp.droopEvents 1 } ∧
        t.fld F.XPWR_DROOP_EVENTS = t.xopp.droopEvents % 65536 ∧ t = { s with xopp := t.xopp, regs := t.regs }) ∧
      (∀ mv pt : Nat, s.fld (F.XPWR_STATIC_V_MV s.xopp.cur) * (100 - s.fld F.XPWR_DROOP_THR) ≤ 100 * mv → exec (.droopDetect .xoide mv pt) s = .next s) ∧
      (∀ mv pt : Nat, 100 * mv < pt * (100 - s.fld F.CLK_HERVI_DROOP_THR) → ∃ t, exec (.droopDetect .hervi mv pt) s = .next t ∧
        t.hopp = { s.hopp with droop := true, stretch := true, droopEvents := satAdd 0xFFFF s.hopp.droopEvents 1 } ∧
        t.fld F.CLK_HERVI_DROOP_EVENTS = t.hopp.droopEvents % 65536 ∧ t = { s with hopp := t.hopp, regs := t.regs }) ∧
      (∀ mv pt : Nat, pt * (100 - s.fld F.CLK_HERVI_DROOP_THR) ≤ 100 * mv → exec (.droopDetect .hervi mv pt) s = .next s) ∧
      exec (.droopRelease .xoide) s = .next { s with xopp := { s.xopp with droop := false, stretch := false } } ∧
      exec (.droopRelease .hervi) s = .next { s with hopp := { s.hopp with droop := false, stretch := false } } ∧
      (s.xopp.waiting = true → s.xopp.droop = false → exec (.droopWaitEnd .xoide) s = .next {
        s with
        xopp := { s.xopp with waiting := false, stepping := if s.xopp.cur < s.xopp.target ∨ (ergsAsleep s = true ∧ s.xopp.target ≠ s.xopp.cur) then some s.xopp.target else none } }) ∧
      (s.hopp.waiting = true → s.hopp.droop = false → exec (.droopWaitEnd .hervi) s = .next {
        s with
        hopp := { s.hopp with waiting := false, stepping := if hEff s ≠ s.hopp.cur then some (hEff s) else none } }))

/-- Channels (R97, R99, R116). A sample reaches its front end and no other channel's; sixteen ticks out of range put a channel in FAULT with the
cause of its sample, 8,192 ticks in range bring it back; copies apart for 2,048 ticks make a VALID channel SUSPECT, 8,192 ticks of agreement
clear it; RETURN ends after 2,048 good ticks. Each acts in every lane that computes in step and on that channel alone. -/
def Obligations.ChannelsChangeState : Prop :=
  ∀ (g : Fin 8) (n : Fin 32) (s : State),
    (∀ fe e, ∃ t, exec (.sensorSample fe g n (.elec e)) s = .next t ∧ tget none (t.lane fe).fe.elec (32 * g.val + n.val) = some e ∧
      (∀ k, k ≠ 32 * g.val + n.val → tget none (t.lane fe).fe.elec k = tget none (s.lane fe).fe.elec k) ∧
      t.lane (otherLane fe) = s.lane (otherLane fe) ∧ (t.lane fe).row = (s.lane fe).row ∧ lanesOnly s t) ∧
    (∀ fe e t1 t2, ∃ t, exec (.sensorSample fe g n (.edges e t1 t2)) s = .next t ∧
      (t.lane fe).fe.elec = (s.lane fe).fe.elec ∧
      (tget ⟨[], none⟩ (t.lane fe).fe.pulse n.val).ticks = ((⟨e, t1, t2⟩ : PulseTick) :: (tget ⟨[], none⟩ (s.lane fe).fe.pulse n.val).ticks).take 8 ∧
      (e ≠ 0 → (tget ⟨[], none⟩ (t.lane fe).fe.pulse n.val).last = some t2) ∧
      (∀ k, k ≠ n.val → tget ⟨[], none⟩ (t.lane fe).fe.pulse k = tget ⟨[], none⟩ (s.lane fe).fe.pulse k) ∧ lanesOnly s t) ∧
    (∃ t, exec (.rangeFault g n) s = .next t ∧ rowsOnly s t ∧ ∀ lane, (s.lane lane).votes = true →
      let c := chanAt (s.lane lane).row.sens (32 * g.val + n.val)
      chanNow (s.lane lane).row (t.lane lane).row (32 * g.val + n.val)
        (if 16 ≤ c.oorRun ∧ (c.state = .valid ∨ c.state = .suspect ∨ c.state = .ret) then
          { c with state := .fault, cause := c.oorCause, faults := satAdd 0xFFFF c.faults 1, used := false } else c)) ∧
    (∃ t, exec (.rangeRecovery g n) s = .next t ∧ rowsOnly s t ∧ ∀ lane, (s.lane lane).votes = true →
      let c := chanAt (s.lane lane).row.sens (32 * g.val + n.val)
      chanNow (s.lane lane).row (t.lane lane).row (32 * g.val + n.val)
        (if c.state = .fault ∧ 8192 ≤ c.inRun then { c with state := .valid, cause := 0 } else c)) ∧
    (∃ t, exec (.pathSuspect g n) s = .next t ∧ rowsOnly s t ∧ ∀ lane, (s.lane lane).votes = true →
      let c := chanAt (s.lane lane).row.sens (32 * g.val + n.val)
      chanNow (s.lane lane).row (t.lane lane).row (32 * g.val + n.val)
        (if c.state = .valid ∧ 2048 ≤ c.diffRun then { c with state := .suspect, cause := 5 } else c)) ∧
    (∃ t, exec (.pathRecovery g n) s = .next t ∧ rowsOnly s t ∧ ∀ lane, (s.lane lane).votes = true →
      let c := chanAt (s.lane lane).row.sens (32 * g.val + n.val)
      chanNow (s.lane lane).row (t.lane lane).row (32 * g.val + n.val)
        (if c.state = .suspect ∧ c.cause = 5 ∧ 8192 ≤ c.sameRun then { c with state := .valid, cause := 0 } else c)) ∧
    (∃ t, exec (.returnValid g n) s = .next t ∧ rowsOnly s t ∧ ∀ lane, (s.lane lane).votes = true →
      let c := chanAt (s.lane lane).row.sens (32 * g.val + n.val)
      chanNow (s.lane lane).row (t.lane lane).row (32 * g.val + n.val)
        (if c.state = .ret ∧ 2048 ≤ c.retRun then { c with state := .valid, cause := 0, retRun := 0 } else c))

/-- Pairs and leak ropes (R99, R101). Sensors of a pair further apart than its band for 2,048 ticks both become SUSPECT with cause PAIR; 8,192
ticks within it clear them; a rope wet on either path for 8 ticks latches its verdict, open or short for 16 puts its channel in FAULT; the clear
takes a verdict away only where both paths read DRY. -/
def Obligations.PairsAndLeakRopes : Prop :=
  ∀ (s : State),
    (∀ k : Fin 6, ∃ t, exec (.pairSuspect k) s = .next t ∧ rowsOnly s t ∧ ∀ lane, (s.lane lane).votes = true →
      sensOnly (s.lane lane).row (t.lane lane).row ∧
      (2048 ≤ (pairAt (s.lane lane).row.sens k.val).outRun →
        inPairState (chanAt (s.lane lane).row.sens (pairKeyA k.val)).state = true →
        inPairState (chanAt (s.lane lane).row.sens (pairKeyB k.val)).state = true →
        (chanAt (t.lane lane).row.sens (pairKeyA k.val)).state = .suspect ∧ (chanAt (t.lane lane).row.sens (pairKeyA k.val)).cause = 6 ∧
        (chanAt (t.lane lane).row.sens (pairKeyB k.val)).state = .suspect ∧ (chanAt (t.lane lane).row.sens (pairKeyB k.val)).cause = 6 ∧
        (pairAt (t.lane lane).row.sens k.val).suspect = true) ∧
      ∀ j, j ≠ pairKeyA k.val → j ≠ pairKeyB k.val → chanAt (t.lane lane).row.sens j = chanAt (s.lane lane).row.sens j) ∧
    (∀ k : Fin 6, ∃ t, exec (.pairRecovery k) s = .next t ∧ rowsOnly s t ∧ ∀ lane, (s.lane lane).votes = true →
      sensOnly (s.lane lane).row (t.lane lane).row ∧
      (8192 ≤ (pairAt (s.lane lane).row.sens k.val).inRun → (pairAt (s.lane lane).row.sens k.val).suspect = true →
        ((chanAt (s.lane lane).row.sens (pairKeyA k.val)).state = .suspect ∧ (chanAt (s.lane lane).row.sens (pairKeyA k.val)).cause = 6 →
          (chanAt (t.lane lane).row.sens (pairKeyA k.val)).state = .valid) ∧
        ((chanAt (s.lane lane).row.sens (pairKeyB k.val)).state = .suspect ∧ (chanAt (s.lane lane).row.sens (pairKeyB k.val)).cause = 6 →
          (chanAt (t.lane lane).row.sens (pairKeyB k.val)).state = .valid) ∧
        (pairAt (t.lane lane).row.sens k.val).suspect = false)) ∧
    (∀ k : Fin 32, ∃ t, exec (.leakVerdict k) s = .next t ∧ rowsOnly s t ∧ ∀ lane, (s.lane lane).votes = true →
      let l := tget {} (s.lane lane).row.sens.leak k.val
      tget {} (t.lane lane).row.sens.leak k.val = (if 8 ≤ l.wetOwn ∨ 8 ≤ l.wetX then { l with verdict := true } else l) ∧
      (∀ j, j ≠ k.val → tget {} (t.lane lane).row.sens.leak j = tget {} (s.lane lane).row.sens.leak j) ∧
      sensOnly (s.lane lane).row (t.lane lane).row) ∧
    (∀ k : Fin 32, ∃ t, exec (.leakRopeFault k) s = .next t ∧ rowsOnly s t ∧ ∀ lane, (s.lane lane).votes = true →
      let l := tget {} (s.lane lane).row.sens.leak k.val
      let c := chanAt (s.lane lane).row.sens (128 + 32 * (k.val / 16) + k.val % 16)
      chanNow (s.lane lane).row (t.lane lane).row (128 + 32 * (k.val / 16) + k.val % 16)
        (if (16 ≤ l.badRun ∨ 16 ≤ l.badX) ∧ (c.state = .valid ∨ c.state = .suspect ∨ c.state = .ret) then
          { c with state := .fault, cause := if l.own = .short ∨ (l.own ≠ .opened ∧ l.cross = .short) then 4 else 3, faults := satAdd 0xFFFF c.faults 1, used := false } else c)) ∧
    (∀ bits : Word, s.laneOk 0x50 true = true → ∃ t, exec (.sensLeakClr bits) s = .next t ∧ laneWritten s t ∧ ∀ lane, (s.lane lane).votes = true →
      ∀ k : Fin 32, let l := tget {} (s.lane lane).row.sens.leak k.val
        (tget {} (t.lane lane).row.sens.leak k.val).verdict =
          (if bitOf bits.toNat k.val = true ∧ l.own = .dry ∧ l.cross = .dry then false else l.verdict))

/-- Dew points (R104, R105). Every 64 ticks both buses poll sensor (count div 64) mod 4 with function 04h from 0000h, count 4, at its address; a
good reply of the sensor polled becomes the sample of both front ends and ends the poll; a bad one, or none until 40 ticks have passed since the
request's last character, counts as missing, and the third in a row puts the sensor in FAULT with cause no reply; eight ticks under the floor set
the verdict. -/
def Obligations.DewPointsArePolled : Prop :=
  ∀ (s : State),
    (s.time.count % 64 = 0 → ∃ t, exec .dewPoll s = .next t ∧ rowsOnly s t ∧ ∀ lane, (s.lane lane).votes = true →
      sensOnly (s.lane lane).row (t.lane lane).row ∧ (∀ k, chanAt (t.lane lane).row.sens k = chanAt (s.lane lane).row.sens k) ∧
      (t.lane lane).row.sens.dewBus = (s.lane lane).row.sens.dewBus.map (fun _ => ⟨some (s.time.count / 64 % 4, 0),
        [s.time.count / 64 % 4 + 1, 4, 0, 0, 0, 4] ++ leBytes 2 (crc16Modbus [s.time.count / 64 % 4 + 1, 4, 0, 0, 0, 4])⟩)) ∧
    (∀ (bus : Fin 2) (dp : BitVec 16), ∃ t, exec (.dewReply bus true dp 0) s = .next t ∧ lanesOnly s t ∧
      ∀ lane k age q, (s.lane lane).votes = true → lget ⟨none, []⟩ (s.lane lane).row.sens.dewBus bus.val = ⟨some (k, age), q⟩ →
        tget none (t.lane lane).fe.elec (224 + (4 * bus.val + k)) = some dp.toInt ∧
        (tget {} (t.lane lane).row.sens.dewMiss (4 * bus.val + k)).miss = 0 ∧ lget ⟨none, []⟩ (t.lane lane).row.sens.dewBus bus.val = ⟨none, q⟩ ∧
        (∀ j, j ≠ 224 + (4 * bus.val + k) → chanAt (t.lane lane).row.sens j = chanAt (s.lane lane).row.sens j ∧
          tget none (t.lane lane).fe.elec j = tget none (s.lane lane).fe.elec j) ∧
        sensOnly (s.lane lane).row (t.lane lane).row ∧ (t.lane lane).cal = (s.lane lane).cal) ∧
    (∀ (bus : Fin 2) (ok : Bool) (dp st : BitVec 16), ok = false ∨ st ≠ 0 → ∃ t, exec (.dewReply bus ok dp st) s = .next t ∧ lanesOnly s t ∧
      ∀ lane k age q, (s.lane lane).votes = true → lget ⟨none, []⟩ (s.lane lane).row.sens.dewBus bus.val = ⟨some (k, age), q⟩ →
        (t.lane lane).fe = (s.lane lane).fe ∧ dewMissed (s.lane lane).row (t.lane lane).row bus.val k q) ∧
    (∀ bus : Fin 2, ∃ t, exec (.dewReplyTimeout bus) s = .next t ∧ rowsOnly s t ∧
      ∀ lane k age q, (s.lane lane).votes = true → lget ⟨none, []⟩ (s.lane lane).row.sens.dewBus bus.val = ⟨some (k, age), q⟩ →
        (modbusWait 8 < age → dewMissed (s.lane lane).row (t.lane lane).row bus.val k q) ∧
        (age ≤ modbusWait 8 → t.lane lane = s.lane lane)) ∧
    (∃ t, exec .dewPointVerdict s = .next t ∧ rowsOnly s t ∧ ∀ lane, (s.lane lane).votes = true →
      (t.lane lane).row = { (s.lane lane).row with sens := (t.lane lane).row.sens } ∧
      (8 ≤ (s.lane lane).row.sens.dewRun → (t.lane lane).row.sens = { (s.lane lane).row.sens with dewVerdict := true }) ∧
      ((s.lane lane).row.sens.dewRun < 8 → (t.lane lane).row.sens = (s.lane lane).row.sens))

/-- Thermal maps and hot spots (R107–R111). At a port with a link, a segment in the format of R107 goes into the frame's buffer and marks its
arrival where it is newer than the last one accepted, is counted as a duplicate and discarded where it is not, and is not ingested while Xoide is
down; a segment 0's ENDPOINT, MAP_SEQ, HOTSPOTS and SUMMARY are forwarded; a frame of another form changes nothing. The oldest summary forwarded
goes to the lanes that compute in step. 2,048 ticks after the first summary that differed, or 2,048 ticks without a valid reading, a hot spot
becomes SUSPECT, and 8,192 ticks of agreement clear it. An agent without a beacon for 4 ticks turns to the other port. -/
def Obligations.ThermalMapsAndHotSpots : Prop :=
  ∀ (s : State),
    (∀ (port : Fin 2) (m : MapSeg), (s.eth port.val).link = true → segForm m = true → ∃ t, exec (.mapSegment port m) s = .next t ∧
      (s.x.up = true →
        (tget none s.ingest.lastSeq (2 * m.endpoint + m.seg)).all (fun q => newer32 m.mapSeq q) = true →
        tget none t.ingest.lastSeq (2 * m.endpoint + m.seg) = some m.mapSeq ∧ bitOf (tget 0 t.ingest.arr m.endpoint) m.seg = true ∧
        t.ingest.dups = s.ingest.dups ∧ t.ingest.sel = s.ingest.sel ∧
        ∀ i, i < 512 → tget 0xFFFF (if s.ingest.sel then t.ingest.buf1 else t.ingest.buf0) (1024 * m.endpoint + 512 * m.seg + i) = lget 0xFFFF m.points i) ∧
      (s.x.up = true → ∀ q, tget none s.ingest.lastSeq (2 * m.endpoint + m.seg) = some q → newer32 m.mapSeq q = false →
        t.ingest = { s.ingest with dups := s.ingest.dups + 1 }) ∧
      (s.x.up = false → t.ingest = s.ingest) ∧
      t.fwd = (if m.seg = 0 then s.fwd ++ [(⟨m.endpoint, m.mapSeq, min m.hotspots 8, m.summary⟩ : SummaryIn)] else s.fwd) ∧
      t = { s with ingest := t.ingest, fwd := t.fwd, regs := t.regs, eth0 := t.eth0, eth1 := t.eth1, x := { s.x with errs := t.x.errs } }) ∧
    (∀ (port : Fin 2) (m : MapSeg), (s.eth port.val).link = true → segForm m = false → exec (.mapSegment port m) s = .next s) ∧
    (∀ m, segForm m = true ↔ m.version = 1 ∧ m.typ = 0x30 ∧ m.endpoint < 2304 ∧ m.seg < 2 ∧ m.segLast = 1 ∧ m.npoints = m.points.length ∧
      m.npoints ≤ 512 ∧ m.flags = (if m.seg = 0 then 1 else 0)) ∧
    (∀ x r, s.fwd = x :: r → ∃ t, exec .hotspotSummary s = .next t ∧ t.fwd = r ∧
      (∀ lane, (s.lane lane).votes = true → (t.lane lane).row = {
        (s.lane lane).row with
        sens := { (s.lane lane).row.sens with summIn := (s.lane lane).row.sens.summIn ++ [x] } }) ∧
      (∀ lane, (s.lane lane).votes = false → t.lane lane = s.lane lane) ∧ t = { s with laneA := t.laneA, laneB := t.laneB, fwd := r }) ∧
    (∀ (e : Fin 2304) (h : Fin 8), ∃ t, exec (.hotspotSuspect e h) s = .next t ∧ rowsOnly s t ∧ ∀ lane, (s.lane lane).votes = true →
      (∀ d, (hotAt (s.lane lane).row.sens e.val h.val).diffFrom = some d →
        hotAt (t.lane lane).row.sens e.val h.val = { hotAt (s.lane lane).row.sens e.val h.val with
          suspect := decide (d + 2048 ≤ s.time.count) || (hotAt (s.lane lane).row.sens e.val h.val).suspect }) ∧
      ((hotAt (s.lane lane).row.sens e.val h.val).diffFrom = none →
        hotAt (t.lane lane).row.sens e.val h.val = { hotAt (s.lane lane).row.sens e.val h.val with
          suspect := decide (2048 < (hotAt (s.lane lane).row.sens e.val h.val).noneRun) || (hotAt (s.lane lane).row.sens e.val h.val).suspect }) ∧
      (∀ e' h', 8 * e' + h' ≠ 8 * e.val + h.val → hotAt (t.lane lane).row.sens e' h' = hotAt (s.lane lane).row.sens e' h') ∧
      (t.lane lane).row = {
        (s.lane lane).row with
        sens := { (s.lane lane).row.sens with hot := (t.lane lane).row.sens.hot } }) ∧
    (∀ (e : Fin 2304) (h : Fin 8), ∃ t, exec (.hotspotClear e h) s = .next t ∧ rowsOnly s t ∧ ∀ lane, (s.lane lane).votes = true →
      (∀ d, (hotAt (s.lane lane).row.sens e.val h.val).sameFrom = some d →
        hotAt (t.lane lane).row.sens e.val h.val = { hotAt (s.lane lane).row.sens e.val h.val with
          suspect := !decide (d + 8192 ≤ s.time.count) && (hotAt (s.lane lane).row.sens e.val h.val).suspect }) ∧
      ((hotAt (s.lane lane).row.sens e.val h.val).sameFrom = none → hotAt (t.lane lane).row.sens e.val h.val = hotAt (s.lane lane).row.sens e.val h.val) ∧
      (∀ e' h', 8 * e' + h' ≠ 8 * e.val + h.val → hotAt (t.lane lane).row.sens e' h' = hotAt (s.lane lane).row.sens e' h') ∧
      (t.lane lane).row = {
        (s.lane lane).row with
        sens := { (s.lane lane).row.sens with hot := (t.lane lane).row.sens.hot } }) ∧
    (∀ (e : Fin 2304), ∃ t, exec (.agentPortFailover e) s = .next t ∧
      (tget {} t.agents e.val).away = ((tget {} s.agents e.val).away || decide (((tget {} s.agents e.val).last.getD 0) + 4 ≤ s.time.count)) ∧
      (tget {} t.agents e.val).last = (tget {} s.agents e.val).last ∧ (tget {} t.agents e.val).runFrom = (tget {} s.agents e.val).runFrom ∧
      (∀ k, k ≠ e.val → tget {} t.agents k = tget {} s.agents k) ∧ t = { s with agents := t.agents })

/-- Committing a calibration set (R114). STAGE clears the staging area, a word lands at its offset and nowhere else, COMMIT and COMMIT_FOREIGN
start the check, ABORT discards the image, a command out of its phase only sets RESULT 3h and a word out of STAGING is discarded; a checked and
stored image is READY, any other FAILED with its code and the staged image discarded; both lanes switch together to one image, or fail with 0Ah
and keep the set in force; 2,048 ticks without a switch fail with 09h and keep the set in force. -/
def Obligations.CalibrationSetsSwitchTogether : Prop :=
  ∀ (s : State),
    (s.laneOk 0x12 false = true → ∃ t, exec .lcalStage s = .next t ∧ laneWritten s t ∧ ∀ lane, (s.lane lane).votes = true →
      (((s.lane lane).cal.phase = .idle ∨ (s.lane lane).cal.phase = .staging ∨ (s.lane lane).cal.phase = .failed) →
        (t.lane lane).cal = { (s.lane lane).cal with phase := .staging, stage := [], failCode := 0, result := 0 }) ∧
      ((s.lane lane).cal.phase.busy = true → (t.lane lane).cal = { (s.lane lane).cal with result := 3 })) ∧
    (∀ (k : Fin 7) (d : Word), s.laneOk 0x12 false = true → ∃ t, exec (.lcalWdata k d) s = .next t ∧ laneWritten s t ∧
      ∀ lane, (s.lane lane).votes = true →
        ((s.lane lane).cal.phase = .staging → 4 * fget (s.lane lane).row.regs F.LCAL_OFF_OFF + 4 * k.val ≤ 0x1FFC →
          stgWord (t.lane lane).cal (fget (s.lane lane).row.regs F.LCAL_OFF_OFF + k.val) = d.toNat ∧
          (∀ j, j ≠ fget (s.lane lane).row.regs F.LCAL_OFF_OFF + k.val → stgWord (t.lane lane).cal j = stgWord (s.lane lane).cal j) ∧
          (t.lane lane).cal = { (s.lane lane).cal with stage := (t.lane lane).cal.stage }) ∧
        ((s.lane lane).cal.phase ≠ .staging ∨ 0x1FFC < 4 * fget (s.lane lane).row.regs F.LCAL_OFF_OFF + 4 * k.val → (t.lane lane).cal = (s.lane lane).cal)) ∧
    (s.laneOk 0x12 true = true →
      (∃ t, exec .lcalCommit s = .next t ∧ laneWritten s t ∧ ∀ lane, (s.lane lane).votes = true → (t.lane lane).cal =
        (if (s.lane lane).cal.phase = .staging then { (s.lane lane).cal with phase := .checking, age := 0, foreign := false, result := 0 }
          else { (s.lane lane).cal with result := 3 })) ∧
      (∃ t, exec .lcalCommitForeign s = .next t ∧ laneWritten s t ∧ ∀ lane, (s.lane lane).votes = true → (t.lane lane).cal =
        (if (s.lane lane).cal.phase = .staging then { (s.lane lane).cal with phase := .checking, age := 0, foreign := true, result := 0 }
          else { (s.lane lane).cal with result := 3 }))) ∧
    (s.laneOk 0x12 false = true → ∃ t, exec .lcalAbort s = .next t ∧ laneWritten s t ∧ ∀ lane, (s.lane lane).votes = true → (t.lane lane).cal =
      (if (s.lane lane).cal.phase = .idle then { (s.lane lane).cal with result := 3 }
        else { (s.lane lane).cal with phase := .idle, stage := [], leaveCh := none })) ∧
    (∀ lane ok, ∃ t, exec (.calReady lane ok) s = .next t ∧
      ((s.lane lane).cal.phase = .checking → calCheck (s.lane lane).cal ≠ 0 →
        (t.lane lane).cal.phase = .failed ∧ (t.lane lane).cal.failCode = calCheck (s.lane lane).cal ∧ (t.lane lane).cal.stage = []) ∧
      ((s.lane lane).cal.phase = .writing ∨ ((s.lane lane).cal.phase = .checking ∧ calCheck (s.lane lane).cal = 0) →
        (ok = true → (t.lane lane).cal = { (s.lane lane).cal with phase := .ready }) ∧
        (ok = false → (t.lane lane).cal.phase = .failed ∧ (t.lane lane).cal.failCode = 8 ∧ (t.lane lane).cal.stage = [])) ∧
      ((s.lane lane).cal.phase ≠ .checking → (s.lane lane).cal.phase ≠ .writing → t = s) ∧
      (t.lane lane).cal.set = (s.lane lane).cal.set ∧ (t.lane lane).row = (s.lane lane).row ∧
      t.lane (otherLane lane) = s.lane (otherLane lane) ∧ lanesOnly s t) ∧
    (∃ t, exec .calSwitch s = .next t ∧ lanesOnly s t ∧
      (s.laneA.cal.phase = .ready → s.laneB.cal.phase = .ready →
        (stgWord s.laneA.cal 3 = stgWord s.laneB.cal 3 → stgCrc s.laneA.cal = stgCrc s.laneB.cal →
          ∀ lane, (t.lane lane).cal.phase = .idle ∧ (t.lane lane).cal.result = 1 ∧ (t.lane lane).cal.stage = [] ∧
            ∀ k, k < calWords → calWord (t.lane lane).cal k = stgWord (s.lane lane).cal k) ∧
        ((stgWord s.laneA.cal 3 ≠ stgWord s.laneB.cal 3 ∨ stgCrc s.laneA.cal ≠ stgCrc s.laneB.cal) →
          ∀ lane, (t.lane lane).cal.phase = .failed ∧ (t.lane lane).cal.failCode = 10 ∧ (t.lane lane).cal.stage = [] ∧
            (t.lane lane).cal.set = (s.lane lane).cal.set)) ∧
      ((s.laneA.cal.phase ≠ .ready ∨ s.laneB.cal.phase ≠ .ready) → t = s)) ∧
    (∃ t, exec .calTimeout s = .next t ∧ lanesOnly s t ∧
      (∀ lane, (s.lane lane).cal.phase.busy = true → 2048 ≤ (s.lane lane).cal.age →
        (t.lane lane).cal.phase = .failed ∧ (t.lane lane).cal.failCode = 9 ∧ (t.lane lane).cal.stage = [] ∧
        (t.lane lane).cal.set = (s.lane lane).cal.set) ∧
      (∀ lane, ((s.lane lane).cal.age < 2048 ∨ (s.lane lane).cal.phase.busy = false) → t.lane lane = s.lane lane))

/-- Recalibrating one channel (R116). ENTER takes a channel out of use, unless its partner is not VALID or, outside the pairs, SENS_CH_CFG.SAFETY
is 1 (REFUSED_PARTNER), or another channel is in CAL (REFUSED_BUSY); that an OFF or absent channel gets REFUSED_STATE, and the order of the
checks, are the model's choice (log 78). LEAVE of a channel in CAL builds a set with the new constants, ORIGIN 01h and the next generation from
the set in force and starts its check, and leaves the set in force alone; CANCEL and 3,600 s without LEAVE send the channel to RETURN and record
an event. No other channel changes. -/
def Obligations.OneChannelIsRecalibrated : Prop :=
  ∀ (g : Fin 8) (n : Fin 32) (s : State),
    (s.laneOk 0x50 false = true → ∃ t, exec (.calEnter g n) s = .next t ∧ laneWritten s t ∧ ∀ lane, (s.lane lane).votes = true →
      (∀ j, j ≠ 32 * g.val + n.val → chanAt (t.lane lane).row.sens j = chanAt (s.lane lane).row.sens j) ∧
      (let c := chanAt (s.lane lane).row.sens (32 * g.val + n.val);
        let free := ((sensPairOf g.val n.val).map (fun k =>
          decide ((chanAt (s.lane lane).row.sens (if pairKeyA k = 32 * g.val + n.val then pairKeyB k else pairKeyA k)).state = .valid))).getD
          (decide (fget (s.lane lane).row.regs (F.SENS_CH_CFG_SAFETY g.val n.val) ≠ 1));
        let res := if sensGrpCount g.val ≤ n.val ∨ c.state = .off then 4 else if calBusy (s.lane lane).row.sens then 3 else if free then 1 else 2;
        (t.lane lane).cal.calResult = res ∧ (t.lane lane).cal = { (s.lane lane).cal with calResult := res } ∧
        chanAt (t.lane lane).row.sens (32 * g.val + n.val) = (if res = 1 then { c with state := .cal, used := false, calTicks := 0 } else c))) ∧
    (s.laneOk 0x50 true = true → ∃ t, exec (.calLeave g n) s = .next t ∧ laneWritten s t ∧ ∀ lane, (s.lane lane).votes = true →
      (t.lane lane).row.sens = (s.lane lane).row.sens ∧ (t.lane lane).cal.set = (s.lane lane).cal.set ∧
      (((chanAt (s.lane lane).row.sens (32 * g.val + n.val)).state ≠ .cal ∨ (s.lane lane).cal.phase.busy = true) →
        (t.lane lane).cal = { (s.lane lane).cal with calResult := 4 }) ∧
      ((chanAt (s.lane lane).row.sens (32 * g.val + n.val)).state = .cal → (s.lane lane).cal.phase.busy = false →
        (t.lane lane).cal.phase = .checking ∧ (t.lane lane).cal.leaveCh = some (32 * g.val + n.val) ∧ (t.lane lane).cal.foreign = false ∧
        (t.lane lane).cal.age = 0 ∧ stgWord (t.lane lane).cal 3 = (calGen (s.lane lane).cal + 1) % 2 ^ 32 ∧
        stgWord (t.lane lane).cal 1 = 0x00070101 ∧ stgCrc (t.lane lane).cal = crc32 (calBody (stgWord (t.lane lane).cal)) ∧
        ∀ k, k < calWords → k ≠ 1 → k ≠ 3 →
          (let lo := calRecAt (calRecOf g.val n.val).1 + calRecWords (calRecOf g.val n.val).1 * (calRecOf g.val n.val).2;
            stgWord (t.lane lane).cal k = if lo ≤ k ∧ k < lo + calRecWords (calRecOf g.val n.val).1 then
              lget 0 [fget (s.lane lane).row.regs (F.SENS_CAL_OFS_OWN 0), fget (s.lane lane).row.regs (F.SENS_CAL_GAIN_OWN 0),
                fget (s.lane lane).row.regs (F.SENS_CAL_OFS_X 0), fget (s.lane lane).row.regs (F.SENS_CAL_GAIN_X 0)] (k - lo)
              else calWord (s.lane lane).cal k))) ∧
    (s.laneOk 0x50 false = true → ∃ t, exec (.calCancel g n) s = .next t ∧ laneWritten s t ∧ ∀ lane, (s.lane lane).votes = true →
      ((chanAt (s.lane lane).row.sens (32 * g.val + n.val)).state = .cal →
        calReturned (s.lane lane).row (t.lane lane).row g.val n.val ∧ (t.lane lane).cal = { (s.lane lane).cal with calResult := 1 }) ∧
      ((chanAt (s.lane lane).row.sens (32 * g.val + n.val)).state ≠ .cal →
        (t.lane lane).cal = { (s.lane lane).cal with calResult := 4 } ∧ (t.lane lane).row.sens = (s.lane lane).row.sens)) ∧
    (∃ t, exec (.calAbandon g n) s = .next t ∧ rowsOnly s t ∧ ∀ lane, (s.lane lane).votes = true →
      ((chanAt (s.lane lane).row.sens (32 * g.val + n.val)).state = .cal → 29491200 ≤ (chanAt (s.lane lane).row.sens (32 * g.val + n.val)).calTicks →
        calReturned (s.lane lane).row (t.lane lane).row g.val n.val) ∧
      ((chanAt (s.lane lane).row.sens (32 * g.val + n.val)).calTicks < 29491200 → (t.lane lane).row = (s.lane lane).row))

/-- The coefficient banks (R128–R130). CHECK reports the edit bank's first failure and sets CHECKED when there is none; SWAP takes place at the
next boundary when the check passes and the CRC is the expected one, and is refused otherwise; SWAP_AT is refused when late or busy, and one for
the next tick is checked at once; CANCEL clears an armed one; COPY fills the edit bank unless a swap is armed; a swap that is due exchanges the
banks, clears CHECKED and counts; the write of a table entry changes that entry alone and clears CHECKED. (No check is due between commands: it
runs in P4 of the tick of its command.) -/
def Obligations.LoopBanksCheckAndSwap : Prop :=
  ∀ (s : State), s.laneOk 0x13 false = true →
    (∃ t, exec .bankCmdCheck s = .next t ∧ laneWritten s t ∧ ∀ lane, (s.lane lane).votes = true →
      let l := (s.lane lane).row.loops
      let code := (bankCheckFrom (s.lane lane).row.regs l.edit (upto 64)).1
      (t.lane lane).row.loops.checked = decide (code = 0) ∧ (t.lane lane).row.loops.badCode = code ∧
      (t.lane lane).row.loops.result = (if code = 0 then 1 else 2) ∧ (t.lane lane).row.loops.crc = bankCrc l.edit ∧
      (t.lane lane).row.loops.swapNext = l.swapNext ∧ (t.lane lane).row.loops.bank0 = l.bank0 ∧ (t.lane lane).row.loops.bank1 = l.bank1) ∧
    (∃ t, exec .bankCmdSwap s = .next t ∧ laneWritten s t ∧ ∀ lane, (s.lane lane).votes = true → (s.lane lane).row.loops.checkDue = none →
      let l := (s.lane lane).row.loops
      let code := (bankCheckFrom (s.lane lane).row.regs l.edit (upto 64)).1
      (bankArmed l = true → (t.lane lane).row.loops = { l with result := 5 }) ∧
      (bankArmed l = false → code ≠ 0 → (t.lane lane).row.loops.result = 2 ∧ (t.lane lane).row.loops.swapNext = false) ∧
      (bankArmed l = false → code = 0 → bankCrc l.edit ≠ fget (s.lane lane).row.regs F.LENG_SWAP_CRC →
        (t.lane lane).row.loops.result = 3 ∧ (t.lane lane).row.loops.swapNext = false) ∧
      (bankArmed l = false → code = 0 → bankCrc l.edit = fget (s.lane lane).row.regs F.LENG_SWAP_CRC →
        (t.lane lane).row.loops.result = 1 ∧ (t.lane lane).row.loops.swapNext = true) ∧
      (t.lane lane).row.loops.active = l.active ∧ (t.lane lane).row.loops.run = l.run) ∧
    (∃ t, exec .bankCmdSwapAt s = .next t ∧ laneWritten s t ∧ ∀ lane, (s.lane lane).votes = true → (s.lane lane).row.loops.checkDue = none →
      let l := (s.lane lane).row.loops
      let at0 := fget (s.lane lane).row.regs F.LENG_SWAP_TICK
      let late := decide (2147483648 ≤ (at0 + 4294967296 - (s.time.count + 1) % 4294967296) % 4294967296)
      let code := (bankCheckFrom (s.lane lane).row.regs l.edit (upto 64)).1
      (late = true → l.armedAt.map (· % 4294967296) ≠ some ((s.time.count + 1) % 4294967296) → (t.lane lane).row.loops = { l with result := 4 }) ∧
      (late = false → bankArmed l = true → l.armedAt.map (· % 4294967296) ≠ some ((s.time.count + 1) % 4294967296) →
        (t.lane lane).row.loops = { l with result := 5 }) ∧
      (late = false → bankArmed l = false → at0 % 4294967296 ≠ (s.time.count + 1) % 4294967296 →
        (t.lane lane).row.loops = { l with armedAt := some at0, result := 0 }) ∧
      (bankArmed l = false → at0 % 4294967296 = (s.time.count + 1) % 4294967296 →
        (t.lane lane).row.loops.result = (if code ≠ 0 then 2 else if bankCrc l.edit ≠ fget (s.lane lane).row.regs F.LENG_SWAP_CRC then 3 else 1) ∧
        (t.lane lane).row.loops.swapNext = (decide (code = 0) && decide (bankCrc l.edit = fget (s.lane lane).row.regs F.LENG_SWAP_CRC))) ∧
      (t.lane lane).row.loops.active = l.active ∧ (t.lane lane).row.loops.run = l.run) ∧
    (∃ t, exec .bankCmdCancel s = .next t ∧ laneWritten s t ∧ ∀ lane, (s.lane lane).votes = true → (s.lane lane).row.loops.checkDue = none →
      (t.lane lane).row.loops = (if (s.lane lane).row.loops.armedAt.isSome then { (s.lane lane).row.loops with armedAt := none, result := 6 }
        else { (s.lane lane).row.loops with result := 1 })) ∧
    (∃ t, exec .bankCmdCopy s = .next t ∧ laneWritten s t ∧ ∀ lane, (s.lane lane).votes = true → (s.lane lane).row.loops.checkDue = none →
      let l := (s.lane lane).row.loops
      (bankArmed l = true → (t.lane lane).row.loops = { l with result := 5 }) ∧
      (bankArmed l = false → (t.lane lane).row.loops.edit = l.act ∧ (t.lane lane).row.loops.act = l.act ∧ (t.lane lane).row.loops.checked = false ∧
        (t.lane lane).row.loops.result = 1)) ∧
    (∃ t, exec .bankSwap s = .next t ∧ rowsOnly s t ∧ ∀ lane, (s.lane lane).votes = true →
      let l := (s.lane lane).row.loops
      (l.swapNext = true → (t.lane lane).row.loops.act = l.edit ∧ (t.lane lane).row.loops.edit = l.act ∧ (t.lane lane).row.loops.checked = false ∧
        (t.lane lane).row.loops.swaps = (l.swaps + 1) % 4294967296 ∧ (t.lane lane).row.loops.swapNext = false) ∧
      (l.swapNext = false → (t.lane lane).row = (s.lane lane).row)) ∧
    (∀ v : Word, ∃ t, exec (.lutEntryWrite v) s = .next t ∧ laneWritten s t ∧ ∀ lane, (s.lane lane).votes = true →
      let l := (s.lane lane).row.loops
      let j := fget (s.lane lane).row.regs F.LENG_LUT_PTR_LOOP
      let k := fget (s.lane lane).row.regs F.LENG_LUT_PTR_IDX
      tget 0 (t.lane lane).row.loops.edit.lut (192 * j + 3 * k + 2) = v.toNat ∧
      (∀ a, a ≠ 192 * j + 3 * k + 2 → tget 0 (t.lane lane).row.loops.edit.lut a = tget 0 l.edit.lut a) ∧
      (t.lane lane).row.loops.act = l.act ∧ (t.lane lane).row.loops.checked = false ∧
      (fget (s.lane lane).row.regs F.LENG_LUT_PTR_INC = 1 → fget (t.lane lane).row.regs F.LENG_LUT_PTR_IDX = min 63 (k + 1)) ∧
      (fget (s.lane lane).row.regs F.LENG_LUT_PTR_INC ≠ 1 → (t.lane lane).row.regs = (s.lane lane).row.regs))

/-- The trace and the trips (R122, R134–R136). ARM starts a capture from IDLE or FROZEN, FORCE asks for a trigger only while ARMED and with
LENG_TRC_CTRL.PRE samples recorded, STOP returns to IDLE (that ARM has no effect while ARMED or TRIGGERED is the model's choice, log 79); a bit
of LENG_FE_CLR clears that loop's trip and count and no other loop's. -/
def Obligations.TraceAndTripsAreCommanded : Prop :=
  ∀ (s : State), s.laneOk 0x13 false = true →
    (∃ t, exec .traceArm s = .next t ∧ laneWritten s t ∧ ∀ lane, (s.lane lane).votes = true →
      (t.lane lane).trace = (if (s.lane lane).trace.state = .idle ∨ (s.lane lane).trace.state = .frozen then
        { (s.lane lane).trace with state := .armed, buf := [], pos := 0, count := 0, left := 0, force := false } else (s.lane lane).trace) ∧
      (t.lane lane).row.loops = (s.lane lane).row.loops) ∧
    (∃ t, exec .traceForce s = .next t ∧ laneWritten s t ∧ ∀ lane, (s.lane lane).votes = true →
      (t.lane lane).trace = (if (s.lane lane).trace.state = .armed ∧ fget (s.lane lane).row.regs F.LENG_TRC_CTRL_PRE ≤ (s.lane lane).trace.count then
        { (s.lane lane).trace with force := true } else (s.lane lane).trace)) ∧
    (∃ t, exec .traceStop s = .next t ∧ laneWritten s t ∧ ∀ lane, (s.lane lane).votes = true →
      (t.lane lane).trace = { (s.lane lane).trace with state := .idle, force := false }) ∧
    (∀ (hi : Bool) (bits : Word), ∃ t, exec (.lengFeClr hi bits) s = .next t ∧ laneWritten s t ∧ ∀ lane, (s.lane lane).votes = true →
      ∀ n : Fin 32, loopAt (t.lane lane).row.loops ((if hi then 32 else 0) + n.val) =
        (if bitOf bits.toNat n.val then { loopAt (s.lane lane).row.loops ((if hi then 32 else 0) + n.val) with feTrip := false, feCnt := 0 }
         else loopAt (s.lane lane).row.loops ((if hi then 32 else 0) + n.val)) ∧
        loopAt (t.lane lane).row.loops ((if hi then 0 else 32) + n.val) = loopAt (s.lane lane).row.loops ((if hi then 0 else 32) + n.val))

/-- Package power agents receive caps (R79, R207–R209, R212, R213, R222). A lane's CAP frame with a RANK and a newer SEQ, not below AUTH, is
acted on: the cap falls to CAP_NOW at least (to DROP_CAP with a shutdown where it is switched off), its DROP_CAP, HOLD_CAP and WARM are kept, its
pending transaction is taken unless it is aborted and acknowledged by a member, and AUTH follows; one below AUTH is held; one with no RANK or no
newer SEQ, or with no record for the receiver, changes neither cap nor AUTH. A frame boundary applies the pending transaction at its instant,
else raises C by at most S toward the CAP_NOW of a record newly acted on; a receiver that is locked, with TIME_FREE 0, applies at no other time.
The power kept at least is WARM while that is not above C. — Emergency frames, holds and silence at a receiver (R79, R208, R210, R212, R214,
R227). A fresh frame with a RANK first brings about what its SEQ makes due at a receiver that applies by SEQ (`recvSeqDue`: nothing at one that
is locked with TIME_FREE 0). A DROP value lowers the cap on receipt, and no pending apply can raise it again; one with FOLLOW waits for its
instant; a Haboob lowers the cap of the racks it names to DROP_CAP, once for each HSEQ; an ABORT drops the pending transaction of its epoch and
is remembered; the oldest held frame is acted on when its hold ends unless another came first; AUTH is forgotten 1 s after the last frame acted
on; 64 ms of silence lowers the cap to HOLD_CAP and 1 s returns the package to its own limit; a beacon tells the agent that its home port is
alive and is a frame for AUTH. -/
def Obligations.ReceiversFollowTheirFrames : Prop :=
  (
    ∀ (e : Fin 2304) (lane : LaneId) (port : Fin 2) (locked : Bool) (s : State),
      (∀ o, (s.lane lane).ethOut = some o → e.val % 96 < lget 0 o.nrec (e.val / 96) →
        (frameTaken (tget {} s.recv e.val) o.claim (256 + e.val / 96) o.seq →
          ∃ t, exec (.capFrame e lane port locked) s = .next t ∧ recvBy s t e.val (fun r q =>
            q.auth = some o.claim ∧ q.acted = true ∧ q.locked = locked ∧ q.dropCap = some (tget {} o.recs e.val).dropCap ∧
            q.holdCap = (tget {} o.recs e.val).holdCap ∧ q.warm = (tget {} o.recs e.val).warm ∧ q.silent = false ∧
            q.keep = (if (tget {} o.recs e.val).warm ≤ q.c then (tget {} o.recs e.val).warm else 0) ∧
            tget none q.lastSeq (256 + e.val / 96) = some o.seq ∧
            ((tget {} o.recs e.val).off = false → bitOf o.offRacks (e.val / 96) = false → q.c ≤ (tget {} o.recs e.val).capNow) ∧
            (r.acted = false → (tget {} o.recs e.val).off = false → bitOf o.offRacks (e.val / 96) = false → r.pend = none → r.follow = [] →
              q.c = min (Config.recvLimit e.val) (tget {} o.recs e.val).capNow) ∧
            (r.acted = true → (tget {} o.recs e.val).off = false → bitOf o.offRacks (e.val / 96) = false → r.pend = none → r.follow = [] →
              q.c = min r.c (tget {} o.recs e.val).capNow) ∧
            (((tget {} o.recs e.val).off = true ∨ bitOf o.offRacks (e.val / 96) = true) → q.c = (tget {} o.recs e.val).dropCap ∧ q.shutdown = true) ∧
            (o.pend = none → q.pend = none ∧ q.ackOut = r.ackOut) ∧
            (∀ x sec ns aseq, o.pend = some (x, sec, ns, aseq) → r.aborted.contains x = true → q.pend = none ∧ q.ackOut = r.ackOut) ∧
            (∀ x sec ns aseq, o.pend = some (x, sec, ns, aseq) → r.aborted.contains x = false → r.pend = none →
              q.pend = some (x, (tget {} o.recs e.val).capNext, sec, ns, aseq) ∧
              ((tget {} o.recs e.val).member = true → r.ackEpoch ≠ x →
                q.ackOut = r.ackOut ++ [⟨e.val, x, (tget {} o.recs e.val).capNext, locked, false, o.seq, r.ports ||| 2 ^ port.val⟩]) ∧
              ((tget {} o.recs e.val).member = false → q.ackOut = r.ackOut)))) ∧
        (∀ a, (tget {} s.recv e.val).auth = some a → higherClaim a o.claim = true → bitsOf o.claim 1 7 ≠ 0 →
          seqFresh (tget {} s.recv e.val) (256 + e.val / 96) o.seq = true →
          ∃ t, exec (.capFrame e lane port locked) s = .next t ∧ recvBy s t e.val (fun r q =>
            q = { r with locked := locked, ports := r.ports ||| 2 ^ port.val, holds := r.holds ++ [ethCap o e.val port.val] })) ∧
        (bitsOf o.claim 1 7 = 0 ∨ seqFresh (tget {} s.recv e.val) (256 + e.val / 96) o.seq = false →
          ∃ t, exec (.capFrame e lane port locked) s = .next t ∧ recvBy s t e.val (fun r q =>
            q = { r with locked := locked, ports := r.ports ||| 2 ^ port.val }))) ∧
      ((s.lane lane).ethOut.all (fun o => decide (lget 0 o.nrec (e.val / 96) ≤ e.val % 96)) = true →
        ∃ t, exec (.capFrame e lane port locked) s = .next t ∧ recvBy s t e.val (fun r q => q = { r with locked := locked })) ∧
      (∀ sec ns : Word, ∃ t, exec (.capApply e sec ns) s = .next t ∧ recvBy s t e.val (fun r q =>
        q.cBound = q.c ∧ q.cPrev = r.cBound ∧ q.newRec = false ∧ q.keep = (if r.warm ≤ q.c then r.warm else 0) ∧
        (let due := if r.locked && !r.timeFree then (r.follow.filter (fun x => instGe sec.toNat ns.toNat x.2.1 x.2.2.1)).map (fun x => x.2.2.2) else [];
          (∀ ep next ps pn aseq, r.pend = some (ep, next, ps, pn, aseq) → r.locked = true → r.timeFree = false → instGe sec.toNat ns.toNat ps pn = true →
            r.aborted.contains ep = false →
            q.pend = none ∧ q.c = min (due.foldl min (r.since.elim next (min next))) (r.cBound + min (Config.recvSlew e.val) r.slew)) ∧
          ((r.locked = false ∨ r.timeFree = true ∨ r.pend.all (fun x => !instGe sec.toNat ns.toNat x.2.2.1 x.2.2.2.1) = true) →
            q.pend = r.pend ∧ q.c = (if r.acted && r.newRec then max (due.foldl min r.c)
              (min (due.foldl min r.capNow) (r.cBound + min (Config.recvSlew e.val) r.slew)) else due.foldl min r.c)))))) ∧ (
    ∀ (e : Fin 2304) (lane : LaneId) (port : Fin 2) (s : State),
      (∀ (r : Recv) (q : Nat) (free : Bool), r.locked = true → r.timeFree = false → free = false → recvSeqDue e.val q free r = r) ∧
      (∀ (seg : BitVec 8) o, (s.lane lane).ethOut = some o → ∀ d, o.drops[seg.toNat]? = some d → bitsOf o.claim 1 7 ≠ 0 →
        seqFresh (tget {} s.recv e.val) (512 + seg.toNat) o.seq = true →
        ∃ t, exec (.dropFrame e lane port seg) s = .next t ∧ recvBy s t e.val (fun r q =>
          tget none q.lastSeq (512 + seg.toNat) = some o.seq ∧ q.auth = r.auth ∧ q.holds = r.holds ∧
          (∀ v, (d.entries.filter (fun x => x.1 == e.val)).head? = some (e.val, v) → d.follow = none →
            (let r' := recvSeqDue e.val o.seq r.timeFree r;
              q.c = min r'.c v ∧ q.capNow = min r'.capNow v ∧ q.pend = r'.pend ∧ q.since = some (r'.since.elim v (fun y => min y v)))) ∧
          (∀ v, (d.entries.filter (fun x => x.1 == e.val)).head? = some (e.val, v) → ∀ aseq sec ns, d.follow = some (aseq, sec, ns) →
            r.locked = true → o.timeFree = false → r.follow = [] →
            (if instGe (tickInst s.time 0).1 (tickInst s.time 0).2 sec ns then q.c = min r.c v ∧ q.follow = []
              else q.c = r.c ∧ q.follow = [(aseq, sec, ns, v)])) ∧
          ((d.entries.filter (fun x => x.1 == e.val)).head? = none → r.locked = true → r.timeFree = false → o.timeFree = false →
            q.c = r.c ∧ q.pend = r.pend))) ∧
      (∀ o, (s.lane lane).ethOut = some o → ∀ h hs, o.haboob = h :: hs → bitsOf o.claim 1 7 ≠ 0 → seqFresh (tget {} s.recv e.val) 768 o.seq = true →
        ∃ t, exec (.haboobFrame e lane port) s = .next t ∧ recvBy s t e.val (fun r q =>
          (let r' := recvSeqDue e.val o.seq r.timeFree r; let seen := r'.hseqs.any (fun x => x.1 == h.hseq && decide (s.time.count < x.2 + 8192));
            tget none q.lastSeq 768 = some o.seq ∧
            (seen = true ∨ bitOf h.racks (e.val / 96) = false → q.c = r'.c) ∧
            (seen = false → q.hseqs.head? = some (h.hseq, s.time.count)) ∧
            (seen = false → bitOf h.racks (e.val / 96) = true → h.off = false → q.c = min r'.c (r'.dropCap.getD (Config.recvLowest e.val))) ∧
            (seen = false → bitOf h.racks (e.val / 96) = true → h.off = true →
              q.c = r'.dropCap.getD (Config.recvLowest e.val) ∧ q.shutdown = true)))) ∧
      (∀ (seg : BitVec 8) o, (s.lane lane).ethOut = some o → ∀ a, o.aborts[seg.toNat]? = some a →
        frameTaken (tget {} s.recv e.val) o.claim (4608 + seg.toNat) o.seq →
        ∃ t, exec (.abortFrame e lane port seg) s = .next t ∧ recvBy s t e.val (fun r q =>
          (let r' := recvSeqDue e.val o.seq r.timeFree r;
            q.aborted.head? = some a.epoch ∧ q.aborted.length ≤ 4 ∧ q.c = r'.c ∧ q.auth = some o.claim ∧
            (∀ x, r'.pend = some x → q.pend = if x.1 = a.epoch then none else some x)))) ∧
      (∀ f fs, (tget {} s.recv e.val).holds = f :: fs → ∃ t, exec (.receiverHoldExpiry e) s = .next t ∧ recvBy s t e.val (fun r q =>
        q.holds = fs ∧ q.auth = r.auth ∧
        (seqFresh r (256 * f.typ + f.seg) f.seq = true →
          tget none q.lastSeq (256 * f.typ + f.seg) = some f.seq ∧
          q = recvAct e.val s.time.count (tickInst s.time 0).1 (tickInst s.time 0).2 f { r with holds := fs }) ∧
        (seqFresh r (256 * f.typ + f.seg) f.seq = false → q = { r with holds := fs }))) ∧
      (∃ t, exec (.receiverAuthForget e) s = .next t ∧ recvBy s t e.val (fun r q =>
        q = { r with auth := if r.lastAct.all (fun x => decide (x + 8192 ≤ s.time.count)) then none else r.auth })) ∧
      (∃ t, exec (.receiverSilenceHold e) s = .next t ∧ recvBy s t e.val (fun r q =>
        (r.acted = true → q = { r with
          c := min r.c r.holdCap, newRec := false, silent := true, keep := if r.warm ≤ min r.c r.holdCap then r.warm else 0 }) ∧
        (r.acted = false → q = r))) ∧
      (∃ t, exec (.receiverSilenceRevert e) s = .next t ∧ recvBy s t e.val (fun r q =>
        q.acted = false ∧ q.auth = none ∧ q.c = Config.recvLimit e.val ∧ q.pend = none ∧ q.follow = [] ∧ q.holds = [] ∧ q.keep = 0 ∧
        q.lastSeq = r.lastSeq)) ∧
      (∀ o, (s.lane lane).ethOut = some o → ∃ t, exec (.claimBeacon e lane port) s = .next t ∧ t = { s with recv := t.recv, agents := t.agents } ∧
        (port.val = e.val / 96 % 2 → (tget {} t.agents e.val).last = some s.time.count) ∧
        (port.val ≠ e.val / 96 % 2 → tget {} t.agents e.val = tget {} s.agents e.val) ∧
        (∀ k, k ≠ e.val → tget {} t.agents k = tget {} s.agents k ∧ tget {} t.recv k = tget {} s.recv k) ∧
        (frameTaken (tget {} s.recv e.val) o.claim 0x2000 o.seq →
          (tget {} t.recv e.val).auth = some o.claim ∧ (tget {} t.recv e.val).c =
            (recvSeqDue e.val o.seq (tget {} s.recv e.val).timeFree (tget {} s.recv e.val)).c) ∧
        (∀ a, (tget {} s.recv e.val).auth = some a → higherClaim a o.claim = true → bitsOf o.claim 1 7 ≠ 0 →
          seqFresh (tget {} s.recv e.val) 0x2000 o.seq = true →
          tget {} t.recv e.val = { tget {} s.recv e.val with holds := (tget {} s.recv e.val).holds ++ [ethBeacon o port.val] })) ∧
      ((s.lane lane).ethOut = none → exec (.claimBeacon e lane port) s = .next s))

/-- Cap tables and idleness (R40, R201, R217, R218). A table word within the limits of R217 waits for the decision tick in every lane, a BUDGET
word under GATHER is held, a word outside its limits changes nothing; the limits are FLOOR below MAX and not above HOLD, TRIP 3Ch–7Dh, THETA
0064h–2710h, GROUP 0–3FFh with HOLD at least FLOOR, reserved bits 0. GATHER ends 8,192 ticks after it was last written, releases every word held
and records an event; a configured endpoint that has been cold for the dwell time is idle. — Slipface from outside (R16, R221–R225). An
acknowledgement that a port with a link brings joins those of its tick in both lanes, one for ports without link is lost; the deadline in tick
A−2 names the lowest member missing; SUBMIT takes a host request whose pages have staged words and refuses a second, an empty one or a page
without such words; WITHDRAW takes a waiting one back; ABORT ends the pending transaction with cause 05h before tick A−2, in that tick enters the
decision of its P5, and is too late after it or with nothing pending. -/
def Obligations.CapTablesAndSlipfaceRequests : Prop :=
  (
    ∀ (s : State),
      (∀ (k : Fin 7) (d : Word), let r := (s.lane s.lead).row
        let e := r.f F.CAPC_TBL_PTR_IDX + k.val
        let sel := r.f F.CAPC_TBL_PTR_SEL
        (tblLimit r.caps sel e d.toNat 0xFFFFFFFF = none → s.laneOk 0x60 (tblGuard r.caps sel e d.toNat) = true →
          ∃ t, exec (.capcTblWdata k d) s = .next t ∧ rowsWritten s t (fun r q =>
            (sel = 0 → r.caps.gather = true → tget none q.caps.held e = some d.toNat ∧ q.caps.next = r.caps.next ∧
              (∀ j, j ≠ e → tget none q.caps.held j = tget none r.caps.held j)) ∧
            (sel ≠ 0 ∨ r.caps.gather = false → tget none q.caps.next (4 * e + sel) = some d.toNat ∧
              (∀ j, j ≠ 4 * e + sel → tget none q.caps.next j = tget none r.caps.next j) ∧ q.caps.held = r.caps.held) ∧
            q = { r with irqs := q.irqs, errs := q.errs, caps := { r.caps with next := q.caps.next, held := q.caps.held } })) ∧
        (tblLimit r.caps sel e d.toNat 0xFFFFFFFF ≠ none → exec (.capcTblWdata k d) s = .next s)) ∧
      (∀ (c : CapSt) (e : Fin 2304) (d : Word),
        (tblLimit c 0 e.val d.toNat 0xFFFFFFFF = none) ∧
        (tblLimit c 1 e.val d.toNat 0xFFFFFFFF = none ↔ d.toNat % 65536 < d.toNat / 65536 ∧ d.toNat % 65536 ≤ capLatest c 3 e.val / 65536) ∧
        (tblLimit c 2 e.val d.toNat 0xFFFFFFFF = none ↔ 0x3C ≤ bitsOf d.toNat 0 8 ∧ bitsOf d.toNat 0 8 ≤ 0x7D ∧ 0x64 ≤ bitsOf d.toNat 8 16 ∧
          bitsOf d.toNat 8 16 ≤ 0x2710 ∧ bitsOf d.toNat 25 7 = 0) ∧
        (tblLimit c 3 e.val d.toNat 0xFFFFFFFF = none ↔ bitsOf d.toNat 10 6 = 0 ∧ capLatest c 1 e.val % 65536 ≤ d.toNat / 65536)) ∧
      (∃ t, exec .gatherTimeout s = .next t ∧ rowsNow s t (fun r q =>
        (r.caps.gather = true → r.caps.gatherTick + 8192 ≤ s.time.count → q.caps.gather = false ∧ q.caps.held = [] ∧
          q.events = r.events ++ [⟨4, 4, 0x60, 0xFFFF, 0, Ev.gatherTimeout, 0⟩] ∧
          q = { r with events := q.events, caps := { r.caps with next := q.caps.next, held := [], gather := false } } ∧
          (tblWf none r.caps.held = true → (∀ e v, tget none r.caps.held e = some v → tget none q.caps.next (4 * e) = some v) ∧
            ∀ k, (k % 4 ≠ 0 ∨ tget none r.caps.held (k / 4) = none) → tget none q.caps.next k = tget none r.caps.next k)) ∧
        (r.caps.gather = false ∨ s.time.count < r.caps.gatherTick + 8192 → q = r))) ∧
      (∀ e : Fin 2304, ∃ t, exec (.idleDwell e) s = .next t ∧ rowsNow s t (fun r q =>
        (capConfigured r.caps e.val = true → r.f F.CAPC_WARM_DWELL * 8192 ≤ (epAt r.caps e.val).idleRun →
          epAt q.caps e.val = { epAt r.caps e.val with idle := true } ∧ (∀ j, j ≠ e.val → epAt q.caps j = epAt r.caps j) ∧
          q = { r with caps := { r.caps with ep := q.caps.ep } }) ∧
        (capConfigured r.caps e.val = false ∨ (epAt r.caps e.val).idleRun < r.f F.CAPC_WARM_DWELL * 8192 → q = r)))) ∧ (
    ∀ (s : State),
      (∀ (e : Fin 2304) (ep : Word) (cap : BitVec 16),
        let mine := fun (a : AckMsg) => a.epoch == ep.toNat && a.cap == cap.toNat
        let ports := ((tget {} s.recv e.val).ackOut.filter mine).head?.elim 3 (fun a => a.ports)
        let heard := (bitOf ports 0 && ((s.eth 0).link || (blkGet s 0x78).state == .run)) || (bitOf ports 1 && ((s.eth 1).link || (blkGet s 0x79).state == .run))
        ∃ t, exec (.ack e ep cap) s = .next t ∧
          (heard = true → ∀ lane, (s.lane lane).votes = true → (t.lane lane).row = {
            (s.lane lane).row with
            slip := { (s.lane lane).row.slip with acks := (s.lane lane).row.slip.acks ++ [(e.val, ep.toNat, cap.toNat, s.time.count)] } }) ∧
          (∀ lane, (s.lane lane).votes = false ∨ heard = false → t.lane lane = s.lane lane) ∧
          (tget {} t.recv e.val) = { tget {} s.recv e.val with ackOut := (tget {} s.recv e.val).ackOut.eraseP mine } ∧
          (∀ j, j ≠ e.val → tget {} t.recv j = tget {} s.recv j) ∧
          t = { s with laneA := t.laneA, laneB := t.laneB, regs := t.regs, eth0 := t.eth0, eth1 := t.eth1, recv := t.recv }) ∧
      (∃ t, exec .ackDeadline s = .next t ∧ rowsNow s t (fun r q =>
        (∀ x, r.slip.cur = some x → q = (if x.phase = 1 ∧ s.time.count + 2 = x.a then
          { r with slip := { r.slip with firstMiss := (txnMissing x).head?.getD 0xFFF } } else r)) ∧ (r.slip.cur = none → q = r))) ∧
      (s.laneOk 0x61 false = true →
        (∀ swap : Bool, ∃ t, exec (.slipSubmit swap) s = .next t ∧ rowsWritten s t (fun r q =>
          (r.slip.hreq.isSome = true → q.slip = { r.slip with hres := 5 }) ∧
          (r.slip.hreq = none → (hreqPages r.regs = [] ∧ swap = false ∨ ∃ p ∈ hreqPages r.regs, rwsOffs p = []) → q.slip = { r.slip with hres := 4 }) ∧
          (r.slip.hreq = none → (hreqPages r.regs ≠ [] ∨ swap = true) → (∀ p ∈ hreqPages r.regs, rwsOffs p ≠ []) →
            q.slip = { r.slip with hres := 0, hreq := some (hreqPages r.regs, swap) }))) ∧
        (∃ t, exec .slipWithdraw s = .next t ∧ rowsWritten s t (fun r q =>
          q.slip = (if r.slip.hreq.isSome then { r.slip with hreq := none, hres := 9 } else { r.slip with hres := 7 }))) ∧
        (∃ t, exec .slipAbort s = .next t ∧ rowsWritten s t (fun r q =>
          (∀ x, slipPending r.slip = some x → (s.time.count + 2 < x.a ∨ s.time.count + 2 = x.a ∧ x.phase = 2) → q.slip.hres = 3 ∧ q.slip.lastOut = 2 ∧
            q.slip.cause = 5 ∧ q.slip.aborts = (r.slip.aborts + 1) % 2 ^ 32 ∧ slipPending q.slip = none ∧ q.slip.epochNow = r.slip.epochNow ∧
            q.slip.aborted.getLast? = q.slip.cur ∧ (∀ y, q.slip.cur = some y → y.epoch = x.epoch ∧ y.cause = 5 ∧ y.abortTick = s.time.count) ∧
            q.caps = r.caps) ∧
          (∀ x, slipPending r.slip = some x → s.time.count + 2 = x.a → x.phase = 1 →
            q.slip = { r.slip with cur := some { x with cause := 5 }, hres := 3 }) ∧
          (∀ x, slipPending r.slip = some x → x.a < s.time.count + 2 → q.slip = { r.slip with hres := 7 }) ∧
          (slipPending r.slip = none → q.slip = { r.slip with hres := 7 })))))

/-- The coolant verdicts (R272, R273, R277–R279, R284, R285). A verdict is entered when its run is complete (41 ticks of flow below 20 %; 8 of
pressure or temperature), with its tick, its event and, but for PRESS_HI, its Haboob of every configured rack, and ends after 8 good ticks; flow
stop starts the standby pump as a bypass at full duty, a decline at the highest duty of the duty pumps in RUN, unless it has run dry or the
pressure is high; a decline ends after 8,192 quiet ticks. Nothing happens before, and nothing else of the module changes. -/
def Obligations.CoolantVerdictsEnterAndEnd : Prop :=
  ∀ (s : State),
    (∃ t, exec .flowStop s = .next t ∧ rowsNow s t (fun r q =>
      (r.prot.flowStop.on = false → 41 ≤ r.prot.flowStop.onRun → protOnly r q ∧
        q.prot = { r.prot with flowStop := { r.prot.flowStop with on := true, since := s.time.count, shut := false },
                               hab := r.prot.hab ++ [(confRacks r.caps, 1, false)] } ∧ standbyStarted r q true 10000) ∧
      (r.prot.flowStop.on = true ∨ r.prot.flowStop.onRun < 41 → q = r))) ∧
    (∃ t, exec .flowRestored s = .next t ∧ rowsNow s t (fun r q =>
      (r.prot.flowStop.on = true → 8 ≤ r.prot.flowStop.offRun → q = { r with
        prot := { r.prot with flowStop := { r.prot.flowStop with on := false, shut := false } }, events := q.events }) ∧
      (r.prot.flowStop.on = false ∨ r.prot.flowStop.offRun < 8 → q = r))) ∧
    (∃ t, exec .flowDecl s = .next t ∧ rowsNow s t (fun r q =>
      (r.prot.flowDecl = false → r.prot.flowStop.on = false → (1024 ≤ r.prot.eRun ∧ declM r = true ∨ r.prot.conserv = true ∧ 4096 ≤ r.prot.eRun) →
        protOnly r q ∧ q.prot = { r.prot with flowDecl := true, nRun := 0 } ∧ standbyStarted r q false (topDuty (pumpStates s) r)) ∧
      (r.prot.flowDecl = true ∨ r.prot.flowStop.on = true ∨ r.prot.eRun < 1024 → q = r))) ∧
    (∃ t, exec .flowDeclEnd s = .next t ∧ rowsNow s t (fun r q =>
      (r.prot.flowDecl = true → 8192 ≤ r.prot.nRun → q = { r with prot := { r.prot with flowDecl := false }, events := q.events }) ∧
      (r.prot.flowDecl = false ∨ r.prot.nRun < 8192 → q = r))) ∧
    (∃ t, exec .pressHi s = .next t ∧ rowsNow s t (fun r q =>
      (r.prot.pressHi.on = false → 8 ≤ r.prot.pressHi.onRun → q = { r with
        prot := { r.prot with pressHi := { r.prot.pressHi with on := true, since := s.time.count, shut := false } }, events := q.events }) ∧
      (r.prot.pressHi.on = true ∨ r.prot.pressHi.onRun < 8 → q = r))) ∧
    (∃ t, exec .pressHiEnd s = .next t ∧ rowsNow s t (fun r q =>
      (r.prot.pressHi.on = true → 8 ≤ r.prot.pressHi.offRun → q = { r with
        prot := { r.prot with pressHi := { r.prot.pressHi with on := false, shut := false } }, events := q.events }) ∧
      (r.prot.pressHi.on = false ∨ r.prot.pressHi.offRun < 8 → q = r))) ∧
    (∃ t, exec .pressMax s = .next t ∧ rowsNow s t (fun r q =>
      (r.prot.pressMax.on = false → 8 ≤ r.prot.pressMax.onRun → q = { r with
        prot := { r.prot with pressMax := { r.prot.pressMax with on := true, since := s.time.count, shut := false },
                              hab := r.prot.hab ++ [(confRacks r.caps, 2, false)] }, events := q.events }) ∧
      (r.prot.pressMax.on = true ∨ r.prot.pressMax.onRun < 8 → q = r))) ∧
    (∃ t, exec .supOver s = .next t ∧ rowsNow s t (fun r q =>
      (r.prot.supOver.on = false → 8 ≤ r.prot.supOver.onRun → q = { r with
        prot := { r.prot with supOver := { r.prot.supOver with on := true, since := s.time.count, shut := false },
                              hab := r.prot.hab ++ [(confRacks r.caps, 3, false)] }, events := q.events }) ∧
      (r.prot.supOver.on = true ∨ r.prot.supOver.onRun < 8 → q = r)))

/-- Shutdowns, packages off and the dew point override (R273, R274, R286, R287). A condition that is still in force 16,384 ticks after it was
entered shuts every configured rack down; a Haboob whose condition has ended is no longer in force; 8 ticks over the trip at the floor put a
package off and 8,192 cool ticks take it back; the override ends when the verdict has been absent for more than 8,192 ticks; 8 ticks of breach
are reported. Each is an event, and nothing happens before. -/
def Obligations.ShutdownsAndPackagesOff : Prop :=
  ∀ (s : State),
    (∃ t, exec .shutdownTimer s = .next t ∧ rowsNow s t (fun r q =>
      q.prot = { r.prot with flowStop := timerSet s.time.count r.prot.flowStop, pressMax := timerSet s.time.count r.prot.pressMax,
                             supOver := timerSet s.time.count r.prot.supOver, roff := q.prot.roff } ∧
      (q.prot ≠ r.prot → q.prot.roff = r.prot.roff ||| confRacks r.caps) ∧
      (timerSet s.time.count r.prot.flowStop = r.prot.flowStop → timerSet s.time.count r.prot.pressMax = r.prot.pressMax →
        timerSet s.time.count r.prot.supOver = r.prot.supOver → q = r) ∧
      (r.prot.flowStop.on = true → r.prot.flowStop.shut = false → r.prot.flowStop.since + 16384 ≤ s.time.count →
        q.prot.flowStop.shut = true ∧ q.prot.roff = r.prot.roff ||| confRacks r.caps) ∧
      (r.prot.pressMax.on = true → r.prot.pressMax.shut = false → r.prot.pressMax.since + 16384 ≤ s.time.count →
        q.prot.pressMax.shut = true ∧ q.prot.roff = r.prot.roff ||| confRacks r.caps) ∧
      (r.prot.supOver.on = true → r.prot.supOver.shut = false → r.prot.supOver.since + 16384 ≤ s.time.count →
        q.prot.supOver.shut = true ∧ q.prot.roff = r.prot.roff ||| confRacks r.caps) ∧
      protOnly r q ∧ q.act = r.act)) ∧
    (∃ t, exec .haboobConditionEnd s = .next t ∧ rowsNow s t (fun r q =>
      q = { r with prot := q.prot, caps := { r.caps with habRacks := q.caps.habRacks }, events := q.events } ∧
      q.caps.habRacks = (r.prot.leakHab ||| r.prot.op) ||| (if q.prot.flowStop.on || q.prot.pressMax.on || q.prot.supOver.on then confRacks r.caps else 0) ∧
      q.prot.flowStop.on = (r.prot.flowStop.on && decide (r.prot.flowStop.offRun < 8)) ∧
      q.prot.pressMax.on = (r.prot.pressMax.on && decide (r.prot.pressMax.offRun < 8)) ∧
      q.prot.supOver.on = (r.prot.supOver.on && decide (r.prot.supOver.offRun < 8)) ∧
      q.prot.hab = r.prot.hab)) ∧
    (∀ e : Fin 2304, ∃ t, exec (.packageOff e) s = .next t ∧ rowsNow s t (fun r q =>
      ((epAt r.caps e.val).off = false → 8 ≤ (epAt r.caps e.val).tripRun →
        epAt q.caps e.val = { epAt r.caps e.val with off := true, coolRun := 0 } ∧ (∀ j, j ≠ e.val → epAt q.caps j = epAt r.caps j) ∧
        q = { r with caps := { r.caps with ep := q.caps.ep }, irqs := q.irqs, events := r.events ++ [⟨4, 4, 0x60, e.val, 0, Ev.pkgOff, 0⟩] }) ∧
      ((epAt r.caps e.val).off = true ∨ (epAt r.caps e.val).tripRun < 8 → q = r))) ∧
    (∀ e : Fin 2304, ∃ t, exec (.packageOffClear e) s = .next t ∧ rowsNow s t (fun r q =>
      ((epAt r.caps e.val).off = true → 8192 ≤ (epAt r.caps e.val).coolRun →
        epAt q.caps e.val = { epAt r.caps e.val with off := false, tripRun := 0, coolRun := 0 } ∧ (∀ j, j ≠ e.val → epAt q.caps j = epAt r.caps j) ∧
        q = { r with caps := { r.caps with ep := q.caps.ep }, events := r.events ++ [⟨4, 4, 0x60, e.val, 0, Ev.pkgOffEnd, 0⟩] }) ∧
      ((epAt r.caps e.val).off = false ∨ (epAt r.caps e.val).coolRun < 8192 → q = r))) ∧
    (∃ t, exec .dewOverrideEnd s = .next t ∧ rowsNow s t (fun r q =>
      (r.prot.dewOn = true → 8192 < r.prot.dewAbs →
        q = { r with prot := { r.prot with dewOn := false, spOver := none }, events := r.events ++ [⟨0, 4, 0x18, 0xFFFF, 0, Ev.dewOver, 0⟩] }) ∧
      (r.prot.dewOn = false ∨ r.prot.dewAbs ≤ 8192 → q = r))) ∧
    (∃ t, exec .dewBreach s = .next t ∧ rowsNow s t (fun r q =>
      (r.prot.breach = false → 8 ≤ r.prot.breachRun →
        q = { r with prot := { r.prot with breach := true }, events := r.events ++ [⟨0, 4, 0x18, 0xFFFF, 0, Ev.dewBreach, 0⟩] }) ∧
      (r.prot.breach = true ∨ r.prot.breachRun < 8 → q = r)))

/-- Operator commands of protection and dry running (R269, R273, R275, R278, R280). An accepted HABOOB, HABOOB_END, RESTORE or STANDBY_RET is
handed to P5 of its apply tick, which decides the Haboob of the racks named, ends it, restores the rack unless a condition that names it or its
leak verdict stands, or returns the standby pump when every duty pump is in RUN; a complete dry-running run sets the pump's verdict, and a duty
pump's starts the standby at its applied duty; clearing the verdict resets the pump's runs. -/
def Obligations.ProtectionCommandsAndDryRunning : Prop :=
  ∀ (s : State),
    (∀ racks : BitVec 24, s.laneOk 0x18 false = true → ∃ t, exec (.protCmdHaboob racks) s = .next t ∧ rowsWritten s t (fun r q =>
      q.prot = { r.prot with cmd := some (1, 0) } ∧ q.f F.PROT_CMD_RACKS_RACKS = racks.toNat ∧ q.caps = r.caps)) ∧
    (s.laneOk 0x18 true = true →
      (∃ t, exec .protCmdHaboobEnd s = .next t ∧ rowsWritten s t (fun r q => q.prot = { r.prot with cmd := some (2, 0) } ∧ q.regs = r.regs)) ∧
      (∀ k : Fin 24, ∃ t, exec (.protCmdRestore k) s = .next t ∧ rowsWritten s t (fun r q =>
        q.prot = { r.prot with cmd := some (3, k.val) } ∧ q.regs = r.regs)) ∧
      (∃ t, exec .protCmdStandbyRet s = .next t ∧ rowsWritten s t (fun r q => q.prot = { r.prot with cmd := some (4, 0) } ∧ q.regs = r.regs))) ∧
    (∀ (st : List BState) (lane : LaneId), let r := (s.lane lane).row
      (r.prot.cmd = none → protCmd st r = r) ∧
      (∀ k, r.prot.cmd = some (1, k) → (protCmd st r).prot = {
        r.prot with
        cmd := none, res := 1, op := r.prot.op ||| r.f F.PROT_CMD_RACKS_RACKS, hab := r.prot.hab ++ [(r.f F.PROT_CMD_RACKS_RACKS, 5, false)] }) ∧
      (∀ k, r.prot.cmd = some (2, k) → (protCmd st r).prot = { r.prot with cmd := none, res := if r.prot.op = 0 then 3 else 1, op := 0 }) ∧
      (∀ k, r.prot.cmd = some (3, k) → (condOn r = true ∧ bitOf (confRacks r.caps) k = true ∨ bitOf (leakBits r.sens) k = true) →
        (protCmd st r).prot = { r.prot with cmd := none, res := 2 } ∧ (protCmd st r).caps = r.caps) ∧
      (∀ k, r.prot.cmd = some (3, k) → (condOn r = false ∨ bitOf (confRacks r.caps) k = false) → bitOf (leakBits r.sens) k = false →
        (protCmd st r).prot.res = 1 ∧ bitOf (protCmd st r).prot.roff k = false ∧ bitOf (protCmd st r).prot.leakHab k = false ∧
        (bitOf r.prot.iso k = true → bitOf (protCmd st r).prot.reopen k = true) ∧
        ∀ n, n < 96 → (epAt (protCmd st r).caps (96 * k + n)).off = false) ∧
      (∀ k, r.prot.cmd = some (4, k) →
        let ready := (dutyPumps r).all (fun n => lget .off st n == .run)
        let idle := !r.act.sbOn || lget .off st (r.f F.PUMP_CFG_STANDBY) != .run
        (protCmd st r).prot = { r.prot with cmd := none, res := if idle then 3 else if ready then 1 else 2 } ∧
        (protCmd st r).act.sbOn = (r.act.sbOn && (idle || !ready)))) ∧
    (∀ n : Fin 4, ∃ t, exec (.dryRunVerdict n) s = .next t ∧ rowsNow s t (fun r q =>
      (bitOf r.prot.dry n.val = false → (2048 ≤ lget 0 r.prot.dryAB n.val ∨ 8192 ≤ lget 0 r.prot.dryA n.val ∨ 8192 ≤ lget 0 r.prot.dryB n.val) →
        protOnly r q ∧ bitOf q.prot.dry n.val = true ∧ (∀ m, m ≠ n.val → bitOf q.prot.dry m = bitOf r.prot.dry m) ∧
        q.prot = { r.prot with dry := q.prot.dry } ∧
        (n.val = r.f F.PUMP_CFG_STANDBY → q.act = r.act) ∧
        (n.val ≠ r.f F.PUMP_CFG_STANDBY → standbyStarted r q false (pumpApplied r n.val))) ∧
      (bitOf r.prot.dry n.val = true ∨ lget 0 r.prot.dryAB n.val < 2048 ∧ lget 0 r.prot.dryA n.val < 8192 ∧ lget 0 r.prot.dryB n.val < 8192 → q = r))) ∧
    (∀ bits : BitVec 4, s.laneOk 0x48 true = true → ∃ t, exec (.pumpDryClr bits) s = .next t ∧ rowsWritten s t (fun r q =>
      (∀ n : Fin 4, bitOf q.prot.dry n.val = (!bitOf bits.toNat n.val && bitOf r.prot.dry n.val) ∧
        (bitOf bits.toNat n.val = true → lget 0 q.prot.dryAB n.val = 0 ∧ lget 0 q.prot.dryA n.val = 0 ∧ lget 0 q.prot.dryB n.val = 0) ∧
        (bitOf bits.toNat n.val = false → lget 0 q.prot.dryAB n.val = lget 0 r.prot.dryAB n.val ∧ lget 0 q.prot.dryA n.val = lget 0 r.prot.dryA n.val ∧
          lget 0 q.prot.dryB n.val = lget 0 r.prot.dryB n.val)) ∧
      q.act = r.act ∧ q.regs = r.regs))

/-- A valve channel's profile (R234, R235, R237, R243, R244). The head of a bank's queue starts when no channel is in BOOST or PEAK, the rail is
boost-ready, the bank runs, not in its safe state, and the holds leave room, for which a protective command ends HOLDs; it keeps the profile
values of that cycle; else it waits. BOOST ends in PEAK with its time-to-peak, or in FAULT when the peak came before TTP_MIN; a peak after the
latched BOOST_T is none; PEAK ends in HOLD, HOLD in IDLE; a cut before a verdict leaves the position UNKNOWN; a command that waited too long and
does not start in that cycle leaves the queue refused, for the rail where only the rail fails. -/
def Obligations.ValveProfilesRunThroughTheirPhases : Prop :=
  ∀ (s : State),
    (∀ (b : Fin 12) (rail : BitVec 10), ∀ m r, (s.bank b.val).queue = m :: r → ∀ n : Fin 8, m = n.val → bankActive s b.val = none →
      5 * fget s.leadRegs (F.VBANK_RAIL_CFG_BOOST_MIN b.val) ≤ rail.toNat → (blkGet s (0x30 + b.val)).state = .run →
      (blkGet s (0x30 + b.val)).safe = false →
      (valProt (s.vch (8 * b.val + n.val)).value = true ∨
        holdSum s b.val + effHold s (8 * b.val + n.val) (s.vch (8 * b.val + n.val)).value < 400) →
      ∃ t, exec (.profileStart b rail) s = .next t ∧
        t.vch (8 * b.val + n.val) = {
          s.vch (8 * b.val + n.val) with
          wait := false, phase := 1, result := 2, diag := 0, ttp := 0xFF, verdict := none,
          profile := valProfile (8 * b.val + n.val) (s.vch (8 * b.val + n.val)).value,
          boostI := profFld s b.val (F.VBANK_PROF_A_BOOST_I b.val (valProfile (8 * b.val + n.val) (s.vch (8 * b.val + n.val)).value)),
          boostT := profFld s b.val (F.VBANK_PROF_A_BOOST_T b.val (valProfile (8 * b.val + n.val) (s.vch (8 * b.val + n.val)).value)),
          peakI := effPeak s (8 * b.val + n.val) (s.vch (8 * b.val + n.val)).value,
          peakT := profFld s b.val (F.VBANK_PROF_C_PEAK_T b.val (valProfile (8 * b.val + n.val) (s.vch (8 * b.val + n.val)).value)),
          holdI := effHold s (8 * b.val + n.val) (s.vch (8 * b.val + n.val)).value,
          holdT := profFld s b.val (F.VBANK_PROF_C_HOLD_T b.val (valProfile (8 * b.val + n.val) (s.vch (8 * b.val + n.val)).value)) } ∧
        n.val ∉ (t.bank b.val).queue ∧ (t.bank b.val).rail = rail.toNat ∧
        (∀ j, j ≠ 8 * b.val + n.val → t.vch j = s.vch j ∨ (j / 8 = b.val ∧ (s.vch j).phase = 3 ∧
          t.vch j = { s.vch j with phase := 0, diag := (s.vch j).diag ||| 8 })) ∧
        (holdSum s b.val + effHold s (8 * b.val + n.val) (s.vch (8 * b.val + n.val)).value < 400 → ∀ j, j ≠ 8 * b.val + n.val → t.vch j = s.vch j) ∧
        t = { s with chip0 := t.chip0, chip1 := t.chip1 }) ∧
    (∀ (b : Fin 12) (rail : BitVec 10), ((s.bank b.val).queue = [] ∨ (bankActive s b.val).isSome = true ∨
        rail.toNat < 5 * fget s.leadRegs (F.VBANK_RAIL_CFG_BOOST_MIN b.val) ∨ (blkGet s (0x30 + b.val)).state ≠ .run ∨
        (blkGet s (0x30 + b.val)).safe = true) →
      exec (.profileStart b rail) s = .next (s.setBank b.val { s.bank b.val with rail := rail.toNat })) ∧
    (∀ (b : Fin 12) (rail : BitVec 10), ∀ m r, (s.bank b.val).queue = m :: r → ∀ n : Fin 8, m = n.val →
      valProt (s.vch (8 * b.val + n.val)).value = false →
      400 ≤ holdSum s b.val + effHold s (8 * b.val + n.val) (s.vch (8 * b.val + n.val)).value →
      exec (.profileStart b rail) s = .next (s.setBank b.val { s.bank b.val with rail := rail.toNat })) ∧
    (∀ (k : Fin 96) (ttp : BitVec 8), (s.vch k.val).phase = 1 → ttp.toNat ≤ (s.vch k.val).boostT →
      ∃ t, exec (.boostEnd k (some ttp)) s = .next t ∧ valveOnly s t k.val ∧ (t.vch k.val).ttp = ttp.toNat ∧ (t.vch k.val).pos = (s.vch k.val).pos ∧
        (ttp.toNat < vTtpMin s.leadCal k.val → (t.vch k.val).phase = 0 ∧ (t.vch k.val).fault = true ∧ (t.vch k.val).result = 12) ∧
        (vTtpMin s.leadCal k.val ≤ ttp.toNat → (t.vch k.val).phase = 2 ∧ (t.vch k.val).fault = (s.vch k.val).fault ∧
          (vTtpMax s.leadCal k.val < ttp.toNat → bitOf (t.vch k.val).diag 0 = true) ∧
          (valveClass (k.val % 8) = 0 → (s.vch k.val).verdict = none → (t.vch k.val).verdict = some false ∧ (t.vch k.val).result = 4) ∧
          (valveClass (k.val % 8) ≠ 0 ∨ (s.vch k.val).verdict ≠ none → (t.vch k.val).verdict = (s.vch k.val).verdict))) ∧
    (∀ (k : Fin 96) (late : Option (BitVec 8)), (s.vch k.val).phase = 1 → late.all (fun x => decide ((s.vch k.val).boostT < x.toNat)) = true →
      ∃ t, exec (.boostEnd k late) s = .next t ∧ valveOnly s t k.val ∧
      (t.vch k.val).phase = 2 ∧ (t.vch k.val).ttp = 0xFF ∧ bitOf (t.vch k.val).diag 1 = true ∧ (t.vch k.val).pos = (s.vch k.val).pos) ∧
    (∀ k : Fin 96, (s.vch k.val).phase = 2 → ∃ t, exec (.peakEnd k) s = .next t ∧ valveOnly s t k.val ∧ (t.vch k.val).phase = 3 ∧
      (t.vch k.val).holdSeq = (s.bank (k.val / 8)).holdNext ∧ (t.vch k.val).pos = (s.vch k.val).pos ∧
      ((s.vch k.val).verdict = none → (t.vch k.val).verdict = some false ∧ (t.vch k.val).result = 4) ∧
      ((s.vch k.val).verdict ≠ none → (t.vch k.val).verdict = (s.vch k.val).verdict ∧ (t.vch k.val).result = (s.vch k.val).result)) ∧
    (∀ k : Fin 96, (s.vch k.val).phase = 3 → ∃ t, exec (.holdEnd k) s = .next t ∧ valveOnly s t k.val ∧
      t.vch k.val = { s.vch k.val with phase := 0 }) ∧
    (∀ k : Fin 96, (s.vch k.val).phase ≠ 0 → ∃ t, exec (.profileCut k) s = .next t ∧ valveOnly s t k.val ∧
      t.vch k.val = { s.vch k.val with phase := 0, diag := (s.vch k.val).diag ||| 4, pos := if (s.vch k.val).verdict = none then 0 else (s.vch k.val).pos }) ∧
    (∀ k : Fin 96, (s.vch k.val).wait = true → profileStart (k.val / 8) s = s →
      ∃ t, exec (.commandWaitTimeout k) s = .next t ∧ valveOnly s t k.val ∧
      t.vch k.val = { s.vch k.val with wait := false, result :=
        if (bankActive s (k.val / 8)).isNone = true ∧ (holdSum s (k.val / 8) + effHold s k.val (s.vch k.val).value < 400 ∨ valProt (s.vch k.val).value = true) ∧
          (s.bank (k.val / 8)).rail < 5 * fget s.leadRegs (F.VBANK_RAIL_CFG_BOOST_MIN (k.val / 8)) then 7 else 6 } ∧
      k.val % 8 ∉ (t.bank (k.val / 8)).queue ∧ (t.bank (k.val / 8)).refused = satAdd 0xFFFF (s.bank (k.val / 8)).refused 1 ∧
      (t.bank (k.val / 8)).refCh = k.val % 8) ∧
    (∀ k : Fin 96, ((profileStart (k.val / 8) s).vch k.val).wait = false →
      exec (.commandWaitTimeout k) s = .next (profileStart (k.val / 8) s))

/-- Checks and verdicts of a running profile (R237, R246–R248). A coil with less than 0.20 A at 6 TU and a channel over 7.50 A go to FAULT, their
position kept; a sample that shows movement (0.50 A and a dip of DET_TH in BOOST for class I, a kink of DET_TH in a window from the third in PEAK
for class T) gives MOVED, toggles the position and counts a stroke, any other leaves the channel as it is; VBANK_POS_SET sets the position of a
channel with no profile running or waiting. — Valve banks (R234, R237, R238, R250, R252). A switch over 10.00 A and a rail over 69.0 V put the
bank in FAULT, cutting every running profile; a rail under 63.0 V in a bank in use asks the governor for a recharge, once; from 65.0 V the
converter stops and its cost leaves the ledger; 2 s of charging without 64.0 V is a fault; a lower current or another rail only shows the rail;
the clear takes a channel's FAULT away; an EN written reaches the bank only with a frame. -/
def Obligations.ValveVerdictsAndBankGuards : Prop :=
  (
    ∀ (s : State) (k : Fin 96),
      (∀ cur : BitVec 12, (s.vch k.val).phase = 1 → cur.toNat < 20 → ∃ t, exec (.openCoil k cur) s = .next t ∧ valveOnly s t k.val ∧
        t.vch k.val = { s.vch k.val with phase := 0, fault := true, result := 11 }) ∧
      (∀ cur : BitVec 12, 20 ≤ cur.toNat ∨ (s.vch k.val).phase ≠ 1 → exec (.openCoil k cur) s = .next s) ∧
      (∀ cur : BitVec 12, (s.vch k.val).phase ≠ 0 → 750 < cur.toNat → ∃ t, exec (.channelOvercurrent k cur) s = .next t ∧ valveOnly s t k.val ∧
        t.vch k.val = { s.vch k.val with phase := 0, fault := true, result := 12 }) ∧
      (∀ cur : BitVec 12, cur.toNat ≤ 750 ∨ (s.vch k.val).phase = 0 → exec (.channelOvercurrent k cur) s = .next s) ∧
      (∀ m x : Nat, detMoved (vDetTh s.leadCal k.val) k.val (.dip m x) =
        (decide (valveClass (k.val % 8) = 0) && decide (50 ≤ m ∧ vDetTh s.leadCal k.val ≤ m - x))) ∧
      (∀ (i : Nat) (v0 v1 v2 : Int), detMoved (vDetTh s.leadCal k.val) k.val (.kink i v0 v1 v2) =
        (decide (valveClass (k.val % 8) = 1) && decide (2 ≤ i ∧ vDetTh s.leadCal k.val ≤ (v2 - 2 * v1 + v0).natAbs))) ∧
      (∀ (d : DetSample) (tm : BitVec 16), (valveClass (k.val % 8) = 0 ∧ (s.vch k.val).phase = 1 ∨ valveClass (k.val % 8) ≠ 0 ∧ (s.vch k.val).phase = 2) →
        (s.vch k.val).verdict = none → detMoved (vDetTh s.leadCal k.val) k.val d = true →
        ∃ t, exec (.moveVerdict k d tm) s = .next t ∧ valveOnly s t k.val ∧ t.vch k.val = {
          s.vch k.val with
          verdict := some true, result := 3, moveT := tm.toNat, strokes := satAdd 0xFFFFFFFF (s.vch k.val).strokes 1,
          pos := if (s.vch k.val).pos = 1 then 2 else if (s.vch k.val).pos = 2 then 1 else 0 }) ∧
      (∀ (d : DetSample) (tm : BitVec 16), detMoved (vDetTh s.leadCal k.val) k.val d = false ∨ (s.vch k.val).verdict ≠ none →
        exec (.moveVerdict k d tm) s = .next s) ∧
      (∀ (b : Fin 12) (n : Fin 8) (pos : BitVec 2), k.val = 8 * b.val + n.val → s.laneOk (0x30 + b.val) true = true →
        ((s.vch k.val).phase = 0 → (s.vch k.val).wait = false → pos.toNat = 1 ∨ pos.toNat = 2 →
          ∃ t, exec (.vbankPosSet b n pos) s = .next t ∧ t.vch k.val = { s.vch k.val with pos := pos.toNat } ∧
            (∀ j, j ≠ k.val → t.vch j = s.vch j) ∧
            (∀ lane, (s.lane lane).votes = true → tget 0 (t.lane lane).row.act.tracked k.val = pos.toNat) ∧
            t = { s with chip0 := t.chip0, chip1 := t.chip1, laneA := t.laneA, laneB := t.laneB }) ∧
        (((s.vch k.val).phase ≠ 0 ∨ (s.vch k.val).wait = true ∨ pos.toNat = 0 ∨ pos.toNat = 3) → exec (.vbankPosSet b n pos) s = .next s))) ∧ (
    ∀ (b : Fin 12) (s : State),
      (∀ cur : BitVec 12, 1000 < cur.toNat → (blkGet s (0x30 + b.val)).state ≠ .fault → ∃ t, exec (.switchOvercurrent b cur) s = .next t ∧
        bankFaulted s t b.val (s.bank b.val).rail) ∧
      (∀ cur : BitVec 12, cur.toNat ≤ 1000 ∨ (blkGet s (0x30 + b.val)).state = .fault → exec (.switchOvercurrent b cur) s = .next s) ∧
      (∀ rail : BitVec 10, 690 < rail.toNat → (blkGet s (0x30 + b.val)).state ≠ .fault → ∃ t, exec (.railOvervoltage b rail) s = .next t ∧
        bankFaulted s t b.val rail.toNat) ∧
      (∀ rail : BitVec 10, rail.toNat ≤ 690 →
        exec (.railOvervoltage b rail) s = .next (s.setBank b.val { s.bank b.val with rail := rail.toNat })) ∧
      (∀ rail : BitVec 10, rail.toNat < 630 → ((blkGet s (0x30 + b.val)).state = .run ∨ (blkGet s (0x30 + b.val)).state = .starting) →
        (s.bank b.val).recharge = false → (s.bank b.val).request = false →
        ∃ t, exec (.boostRechargeRequest b rail) s = .next t ∧ t.bank b.val = { s.bank b.val with rail := rail.toNat, request := true } ∧
          t.gov = { s.gov with raised := s.gov.raised ++ [(⟨⟨.valve, b.val⟩, 0, false⟩ : GovReq)] } ∧
          t = { s with chip0 := t.chip0, chip1 := t.chip1, gov := t.gov }) ∧
      (∀ rail : BitVec 10, (630 ≤ rail.toNat ∨ (s.bank b.val).recharge = true ∨ (s.bank b.val).request = true ∨
          ((blkGet s (0x30 + b.val)).state ≠ .run ∧ (blkGet s (0x30 + b.val)).state ≠ .starting)) →
        exec (.boostRechargeRequest b rail) s = .next (s.setBank b.val { s.bank b.val with rail := rail.toNat })) ∧
      (∀ rail : BitVec 10, 650 ≤ rail.toNat → (s.bank b.val).recharge = true → ∃ t, exec (.boostRechargeEnd b rail) s = .next t ∧
        t.bank b.val = { s.bank b.val with rail := rail.toNat, recharge := false } ∧
        t.gov = { s.gov with ended := (⟨.valve, b.val⟩ : GovItem) :: s.gov.ended } ∧ t = { s with chip0 := t.chip0, chip1 := t.chip1, gov := t.gov }) ∧
      (∀ rail : BitVec 10, rail.toNat < 650 ∨ (s.bank b.val).recharge = false →
        exec (.boostRechargeEnd b rail) s = .next (s.setBank b.val { s.bank b.val with rail := rail.toNat })) ∧
      (∀ rail : BitVec 10, rail.toNat < 640 → (blkGet s (0x30 + b.val)).state = .starting → (s.bank b.val).recharge = true →
        ∃ t, exec (.bankStartTimeout b rail) s = .next t ∧ bankFaulted s t b.val rail.toNat) ∧
      (∀ rail : BitVec 10, 640 ≤ rail.toNat ∨ (blkGet s (0x30 + b.val)).state ≠ .starting ∨ (s.bank b.val).recharge = false →
        exec (.bankStartTimeout b rail) s = .next (s.setBank b.val { s.bank b.val with rail := rail.toNat })) ∧
      (∀ bits : BitVec 8, s.laneOk (0x30 + b.val) false = true → ∃ t, exec (.vbankChClr b bits) s = .next t ∧
        (∀ n : Fin 8, t.vch (8 * b.val + n.val) = { s.vch (8 * b.val + n.val) with fault := !bitOf bits.toNat n.val && (s.vch (8 * b.val + n.val)).fault }) ∧
        (∀ j, j / 8 ≠ b.val → t.vch j = s.vch j) ∧ t = { s with chip0 := t.chip0, chip1 := t.chip1 }) ∧
      (s.locked (0x30 + b.val) = false →
        exec (.blockEnable (.page (BitVec.ofNat 8 (0x30 + b.val))) .mailbox) s = .next (blkSet s (0x30 + b.val) { blkGet s (0x30 + b.val) with en := true })))

/-- Fan channels (R16, R254, R259–R261, R270). The applied duty reaches the compare register, rounded; an edge joins its tick; a start window or
4,096 ticks without the edges asked for (those of the present tick counted) lead to a kick at stall current and to TACH_LOST, an event,
otherwise, while the duty is at or above MIN_DUTY; a kick without 2 edges is repeated to the third and then BLOCKED, an event; 8,192 ticks of
regular edges or 16 ticks of stall current leave TACH_LOST; SLOW follows its runs; FAN_CLR starts a BLOCKED channel again, or leaves it OFF. In
every other case the state stays, and no other channel changes. -/
def Obligations.FansStartKickAndBlock : Prop :=
  ∀ (c : Fin 48) (s : State),
    let x := fanAt s c.val
    (∃ t, exec (.dutyLoad (.fan c)) s = .next t ∧ fanOnly s t c.val ∧
      fanAt t c.val = { x with compare := (2 * x.applied * 2048 + 10000) / 20000 }) ∧
    (∀ ts : Nat, ∃ t, exec (.tachEdge (.fan c) ts) s = .next t ∧ fanOnly s t c.val ∧
      fanAt t c.val = { x with tick := if x.tick.edges = 0 then ⟨1, ts, ts⟩ else ⟨x.tick.edges + 1, x.tick.tFirst, ts⟩ }) ∧
    (∃ t, exec (.fanStartWindowEnd c) s = .next t ∧ fanOnly s t c.val ∧
      (x.state = 1 → x.start + 16384 ≤ s.time.count → x.edges + x.tick.edges < 2 → fget s.leadRegs (F.FANG_CFG_MIN_DUTY (c.val / 16)) ≤ x.applied →
        (fanStall s.leadRegs c.val x = true → (fanAt t c.val).state = 2 ∧ (fanAt t c.val).kick = 1 ∧ (fanAt t c.val).start = s.time.count ∧
          (fanAt t c.val).edges = 0) ∧
        (fanStall s.leadRegs c.val x = false → (fanAt t c.val).state = 3 ∧
          playaEvent s t (c.val / 24) (0x40 + c.val / 16) (c.val % 16) Ev.fanTachLost 0)) ∧
      ((x.state ≠ 1 ∨ s.time.count < x.start + 16384 ∨ 2 ≤ x.edges + x.tick.edges ∨ x.applied < fget s.leadRegs (F.FANG_CFG_MIN_DUTY (c.val / 16))) →
        (fanAt t c.val).state = x.state ∧ (fanAt t c.val).kick = x.kick)) ∧
    (∃ t, exec (.fanEdgeTimeout c) s = .next t ∧ fanOnly s t c.val ∧
      (x.state = 0 → x.tick.edges = 0 → x.lastEdge + 4096 ≤ s.time.count → fget s.leadRegs (F.FANG_CFG_MIN_DUTY (c.val / 16)) ≤ x.applied →
        (fanStall s.leadRegs c.val x = true → (fanAt t c.val).state = 2 ∧ (fanAt t c.val).kick = 1 ∧ (fanAt t c.val).start = s.time.count) ∧
        (fanStall s.leadRegs c.val x = false → (fanAt t c.val).state = 3 ∧
          playaEvent s t (c.val / 24) (0x40 + c.val / 16) (c.val % 16) Ev.fanTachLost 0)) ∧
      ((x.state ≠ 0 ∨ x.tick.edges ≠ 0 ∨ s.time.count < x.lastEdge + 4096 ∨ x.applied < fget s.leadRegs (F.FANG_CFG_MIN_DUTY (c.val / 16))) →
        (fanAt t c.val).state = x.state ∧ (fanAt t c.val).kick = x.kick)) ∧
    (∃ t, exec (.fanKickEnd c) s = .next t ∧ fanOnly s t c.val ∧
      (x.state = 2 → x.start + 4096 ≤ s.time.count → x.edges + x.tick.edges < 2 →
        (x.kick < 3 → (fanAt t c.val).state = 2 ∧ (fanAt t c.val).kick = x.kick + 1 ∧ (fanAt t c.val).start = s.time.count) ∧
        (3 ≤ x.kick → (fanAt t c.val).state = 4 ∧ (fanAt t c.val).kick = 0 ∧ playaEvent s t (c.val / 24) (0x40 + c.val / 16) (c.val % 16) Ev.fanBlocked 0)) ∧
      ((x.state ≠ 2 ∨ s.time.count < x.start + 4096 ∨ 2 ≤ x.edges + x.tick.edges) → (fanAt t c.val).state = x.state ∧ (fanAt t c.val).kick = x.kick)) ∧
    (∃ t, exec (.fanTachRecovery c) s = .next t ∧ fanOnly s t c.val ∧
      (x.state = 3 → x.goodFrom.any (fun f => decide (f + 8192 ≤ s.time.count)) = true → (fanAt t c.val).state = 0) ∧
      ((x.state ≠ 3 ∨ x.goodFrom.any (fun f => decide (f + 8192 ≤ s.time.count)) = false) → (fanAt t c.val).state = x.state)) ∧
    (∃ t, exec (.fanStall c) s = .next t ∧ fanOnly s t c.val ∧
      (x.state = 3 → 16 ≤ x.stallRun → (fanAt t c.val).state = 2 ∧ (fanAt t c.val).kick = 1 ∧ (fanAt t c.val).start = s.time.count) ∧
      ((x.state ≠ 3 ∨ x.stallRun < 16) → (fanAt t c.val).state = x.state ∧ (fanAt t c.val).kick = x.kick)) ∧
    (∃ t, exec (.fanSlow c) s = .next t ∧ fanOnly s t c.val ∧ fanAt t c.val = (if 8192 ≤ x.slowRun then { x with slow := true } else x)) ∧
    (∃ t, exec (.fanSlowClear c) s = .next t ∧ fanOnly s t c.val ∧ fanAt t c.val = (if 8192 ≤ x.fastRun then { x with slow := false } else x)) ∧
    (∀ (g : Fin 3) (i : Fin 16) (bits : BitVec 16), s.laneOk (0x40 + g.val) false = true → c.val = 16 * g.val + i.val →
      ∃ t, exec (.fanClr g bits) s = .next t ∧ t = { s with chip0 := t.chip0, chip1 := t.chip1, regs := t.regs, inv := t.inv } ∧
        (∀ j, j / 16 ≠ g.val → fanAt t j = fanAt s j) ∧
        (bitOf bits.toNat i.val = true → x.state = 4 → (fanAt t c.val).state = (if fieldOff x.field then 5 else 1) ∧
          (fieldOff x.field = false → (fanAt t c.val).start = s.time.count ∧ (fanAt t c.val).edges = 0)) ∧
        (x.state ≠ 4 ∨ bitOf bits.toNat i.val = false → fanAt t c.val = x))

/-- Pump channels (R16, R254, R265, R268). The applied duty reaches the compare register; an edge joins its tick; a start that is not in RUN TIME
seconds after its grant is a fault and an event, a stop ends 30 s after the duty reached 0, and neither before nor under FORCE_SAFE; no edge for
8,192 ticks with the drive running is TACH_LOST; the loss configuration is checked, and a bad one is an event once; SET_LOSS and WRITE queue for
the pump's next slot. No other channel changes. — The pump bus (R266–R268). At a boundary whose chosen frame has SEQ mod 64 = 0 a free bus asks
the pump of its slot: a firmware command waiting for that pump, else the loss configuration on the first poll and every 3,600 s, else the status.
A good status reply gives the six registers, a good loss read is checked, a firmware command's outcome shows in RESULT; a reply with a bad CRC or
an exception, or none until its window has ended, is missing, and the third in a row sets MB_LOST, which the next good reply clears; within its
window the request stays out. -/
def Obligations.PumpsAndTheirBus : Prop :=
  (
    ∀ (n : Fin 4) (s : State),
      let x := pumpAt s n.val
      (∃ t, exec (.dutyLoad (.pump n)) s = .next t ∧ pumpOnly s t n.val ∧
        pumpAt t n.val = { x with compare := (2 * x.applied * 51200 + 10000) / 20000 }) ∧
      (∀ ts : Nat, ∃ t, exec (.tachEdge (.pump n) ts) s = .next t ∧ pumpOnly s t n.val ∧
        pumpAt t n.val = { x with tick := if x.tick.edges = 0 then ⟨1, ts, ts⟩ else ⟨x.tick.edges + 1, x.tick.tFirst, ts⟩ }) ∧
      (∀ g, lget none (s.lane s.lead).row.act.grantTick n.val = some g → ∃ t, exec (.pumpStartTimeout n) s = .next t ∧
        ((blkGet s 0x48).safe = false → (blkGet s (0x100 + n.val)).state = .starting → g + 8192 * fget s.leadRegs F.PUMP_START_TIME ≤ s.time.count →
          (blkGet t (0x100 + n.val)).state = .fault ∧ reportsOnly s t ∧ t.chip0 = s.chip0 ∧ t.chip1 = s.chip1 ∧ t.time = s.time ∧
          ∀ lane, (s.lane lane).votes = true →
            (t.lane lane).row.events = (s.lane lane).row.events ++ [⟨2, 4, 0x48, n.val, 0, Ev.pumpStartFail, 0⟩]) ∧
        ((blkGet s 0x48).safe = true ∨ (blkGet s (0x100 + n.val)).state ≠ .starting ∨ s.time.count < g + 8192 * fget s.leadRegs F.PUMP_START_TIME → t = s)) ∧
      (∀ z, lget none (s.lane s.lead).row.act.zeroTick n.val = some z → ∃ t, exec (.pumpStopTimeout n) s = .next t ∧
        ((blkGet s 0x48).safe = false → (blkGet s (0x100 + n.val)).state = .stopping → z + 245760 ≤ s.time.count →
          (blkGet t (0x100 + n.val)).state = .off ∧ t.laneA = s.laneA ∧ t.laneB = s.laneB ∧ t.time = s.time) ∧
        ((blkGet s 0x48).safe = true ∨ (blkGet s (0x100 + n.val)).state ≠ .stopping ∨ s.time.count < z + 245760 → t = s)) ∧
      (∃ t, exec (.pumpTachLost n) s = .next t ∧ pumpOnly s t n.val ∧ pumpAt t n.val =
        (if 8192 ≤ x.noEdge ∧ x.tick.edges = 0 then { x with tachLost := true } else x)) ∧
      (∀ act ms : BitVec 16, let bad := act.toNat != 2 || ms.toNat < 100 || 500 < ms.toNat
        ∃ t, exec (.lossConfigRead n act ms) s = .next t ∧ pumpOnly s t n.val ∧
        pumpAt t n.val = { x with lossBad := bad, lossRead := some s.time.count } ∧
        (bad = true → x.lossBad = false → playaEvent s t (n.val / 2) 0x48 n.val Ev.lossCfgBad act.toNat) ∧
        (bad = false ∨ x.lossBad = true → t.laneA = s.laneA ∧ t.laneB = s.laneB)) ∧
      (s.laneOk 0x48 true = true →
        (∀ lms : BitVec 9, ∃ t, exec (.pumpMbSetLoss n lms) s = .next t ∧
          (t.chip (n.val / 2)).mb = { (s.chip (n.val / 2)).mb with cmd := some ⟨n.val, .setLoss, 0x100, lms.toNat⟩, result := 0 } ∧ pumpOnly s t 4) ∧
        (∃ t, exec (.pumpMbWrite n) s = .next t ∧ (t.chip (n.val / 2)).mb = {
          (s.chip (n.val / 2)).mb with
          cmd := some ⟨n.val, .write, fget s.leadRegs F.PUMP_MB_WR_REG, fget s.leadRegs F.PUMP_MB_WR_VALUE⟩, result := 0 } ∧ pumpOnly s t 4))) ∧ (
    ∀ (chip : Fin 2) (s : State),
      (∀ cl seq, (s.chip chip.val).chosen = some (cl, seq) → seq % 64 = 0 → (s.chip chip.val).mb.out = none →
        let n := 2 * chip.val + seq / 64 % 2
        let due : Bool := (pumpAt s n).lossRead.all (fun l => decide (l + 29491200 ≤ s.time.count))
        let mine : Option MbKind := ((s.chip chip.val).mb.cmd.filter (fun m => m.pump % 2 == seq / 64 % 2)).map (fun m => m.kind)
        let kind : MbKind := if mine.getD .status = .status ∧ due = true then .lossRead else mine.getD .status
        ∃ t, exec (.pumpPoll chip) s = .next t ∧ pumpOnly s t n ∧
          pumpAt t n = { pumpAt s n with lossRead := if kind = .lossRead then some s.time.count else (pumpAt s n).lossRead } ∧
          (t.chip chip.val).mb = { (s.chip chip.val).mb with out := some (seq / 64 % 2, kind, 0) }) ∧
      (∀ cl seq, (s.chip chip.val).chosen = some (cl, seq) → (seq % 64 ≠ 0 ∨ (s.chip chip.val).mb.out.isSome = true) →
        exec (.pumpPoll chip) s = .next s) ∧
      ((s.chip chip.val).chosen = none → exec (.pumpPoll chip) s = .next s) ∧
      (∀ regs, (s.chip chip.val).mb.out = none → exec (.modbusReply chip true false regs) s = .next s) ∧
      (∀ i kind age, (s.chip chip.val).mb.out = some (i, kind, age) → i < 2 → ∀ regs, ∃ t, exec (.modbusReply chip true false regs) s = .next t ∧
        pumpOnly s t (2 * chip.val + i) ∧ (t.chip chip.val).mb.out = none ∧
        (pumpAt t (2 * chip.val + i)).missRun = 0 ∧ (pumpAt t (2 * chip.val + i)).mbLost = false ∧ (pumpAt t (2 * chip.val + i)).age = 0 ∧
        (kind = .status → (pumpAt t (2 * chip.val + i)).mb = (upto 6).map (fun j => lget 0 regs j)) ∧
        (kind ≠ .status → (pumpAt t (2 * chip.val + i)).mb = (pumpAt s (2 * chip.val + i)).mb) ∧
        (pumpAt t (2 * chip.val + i)).lossRead = (pumpAt s (2 * chip.val + i)).lossRead ∧
        (kind = .lossRead ∨ kind = .readBack →
          (pumpAt t (2 * chip.val + i)).lossBad = (lget 0 regs 0 != 2 || decide (lget 0 regs 1 < 100) || decide (500 < lget 0 regs 1))) ∧
        (kind = .write → (t.chip chip.val).mb.result = 1 ∧ (t.chip chip.val).mb.cmd = none) ∧
        (kind = .setLoss → (t.chip chip.val).mb.cmd = (s.chip chip.val).mb.cmd.map (fun m => { m with kind := .readBack })) ∧
        (kind = .readBack → ∀ m, (s.chip chip.val).mb.cmd = some m →
          (t.chip chip.val).mb.result = (if lget 0 regs 0 = 2 ∧ lget 0 regs 1 = m.value then 1 else 4) ∧ (t.chip chip.val).mb.cmd = none)) ∧
      (∀ i kind age, (s.chip chip.val).mb.out = some (i, kind, age) → i < 2 → ∀ crcOk exc regs, (crcOk = false ∨ exc = true) →
        ∃ t, exec (.modbusReply chip crcOk exc regs) s = .next t ∧ pollMissed s t chip.val i ∧
        (kind ≠ .status → kind ≠ .lossRead → (t.chip chip.val).mb.result = (if crcOk then 3 else 2) ∧ (t.chip chip.val).mb.cmd = none) ∧
        (kind = .status ∨ kind = .lossRead → (t.chip chip.val).mb.cmd = (s.chip chip.val).mb.cmd)) ∧
      (∀ i kind age, (s.chip chip.val).mb.out = some (i, kind, age) → i < 2 → mbWindow kind ≤ age → ∃ t, exec (.modbusReplyTimeout chip) s = .next t ∧
        pollMissed s t chip.val i ∧
        (kind ≠ .status → kind ≠ .lossRead → (t.chip chip.val).mb.result = 2 ∧ (t.chip chip.val).mb.cmd = none)) ∧
      (∀ i kind age, (s.chip chip.val).mb.out = some (i, kind, age) → age < mbWindow kind → exec (.modbusReplyTimeout chip) s = .next s) ∧
      ((s.chip chip.val).mb.out = none → exec (.modbusReplyTimeout chip) s = .next s))

/-- What reaches a Playa chip (R80, R124, R250, R255). A lane's good frame with a RANK is kept for the choice at the boundary; its duties act at
once when its claim is not below the one the chip follows, but for a duty above 10,000, which leaves its channel's field as it was; a bad frame
is only noted. A good loop output whose claim has a RANK and is not below the one followed gives its duty to its pump, which keeps URGENT, to its
fan or to the chip's fans of its group, where the channel's field has OFF = 0; a duty above 10,000 is discarded and counted with code 80h. A
powered chip's report reaches a lane as of that moment, in place of the one before. Whatever comes bad, or without a RANK, or below the claim
followed (a loop output), or to or from a chip without power, changes nothing else. — A Playa chip's boundary, silence and reset (R80, R241,
R263, R357). At a boundary the frame with the highest claim among those received is chosen and followed, its POS_LOAD clears POS_LOST, released
outputs come back, and the received frames are used up; without one the silence counts and the claim followed stays; at 16,384 silent boundaries
WDOG is set and every fan and pump output is released at full speed. A reset releases them too, forgets every position, profile and received
frame but no stroke count, leaves the chip's banks OFF and sets POS_LOST. A chip without power does none of it. -/
def Obligations.PlayaChipsReceiveChooseAndReset : Prop :=
  (
    ∀ (chip : Fin 2) (lane : LaneId) (s : State),
      ((s.chip chip.val).powered = true →
        (∀ f, (s.lane lane).actOut = some f →
          (bitsOf f.claim 1 7 ≠ 0 → ∃ t, exec (.actuatorFrame chip lane true) s = .next t ∧
            (t.chip chip.val).rxA = (if lane = .a then some f else (s.chip chip.val).rxA) ∧
            (t.chip chip.val).rxB = (if lane = .b then some f else (s.chip chip.val).rxB) ∧
            (t.chip chip.val).sawA = (decide (lane = .a) || (s.chip chip.val).sawA) ∧ (t.chip chip.val).sawB = (decide (lane = .b) || (s.chip chip.val).sawB) ∧
            (higherClaim (s.chip chip.val).auth f.claim = false → (t.chip chip.val).auth = f.claim ∧
              (∀ c : Fin 48, (fanAt t c.val).field =
                (if c.val / 24 = chip.val ∧ fieldDuty (lget 0x8000 f.fan c.val) ≤ 10000 then lget 0x8000 f.fan c.val else (fanAt s c.val).field)) ∧
              (∀ n : Fin 4, (pumpAt t n.val).field =
                (if n.val / 2 = chip.val ∧ fieldDuty (lget 0x8000 f.pump n.val) ≤ 10000 then lget 0x8000 f.pump n.val else (pumpAt s n.val).field))) ∧
            (higherClaim (s.chip chip.val).auth f.claim = true → (t.chip chip.val).auth = (s.chip chip.val).auth ∧
              (t.chip chip.val).fans = (s.chip chip.val).fans ∧ (t.chip chip.val).pumps = (s.chip chip.val).pumps) ∧
            (∀ k : Fin 96, t.vch k.val = s.vch k.val) ∧ reportsOnly s t ∧
            t = { s with chip0 := t.chip0, chip1 := t.chip1, regs := t.regs, laneA := t.laneA, laneB := t.laneB }) ∧
          (bitsOf f.claim 1 7 = 0 → exec (.actuatorFrame chip lane true) s = .next s) ∧
          exec (.actuatorFrame chip lane false) s = .next (s.modChip chip.val (fun c => { c with badCrc := true }))) ∧
        (∃ t, exec (.playaStatusReport chip lane true) s = .next t ∧ (chip.val, chipReport chip.val s) ∈ (t.lane lane).row.act.repIn ∧
          (∀ x ∈ (t.lane lane).row.act.repIn, x.1 = chip.val → x.2 = chipReport chip.val s) ∧
          (∀ x ∈ (s.lane lane).row.act.repIn, x.1 ≠ chip.val → x ∈ (t.lane lane).row.act.repIn) ∧
          t.lane (otherLane lane) = s.lane (otherLane lane) ∧ lanesOnly s t)) ∧
      (∀ (idx : BitVec 6) (m : LoopOutMsg), (s.lane lane).row.loops.outs[idx.toNat]? = some m →
        ((s.chip chip.val).powered = true → bitsOf m.claim 1 7 ≠ 0 → higherClaim (s.chip chip.val).auth m.claim = false →
          (∀ n : Fin 4, m.destType = 1 → m.dest = n.val → n.val / 2 = chip.val → fieldOff (pumpAt s n.val).field = false →
            (m.duty ≤ 10000 → ∃ t, exec (.loopOut chip lane idx true) s = .next t ∧ pumpOnly s t n.val ∧
              (pumpAt t n.val).field = m.duty + (if fieldUrgent (pumpAt s n.val).field then 16384 else 0)) ∧
            (10000 < m.duty → m.duty < 16384 → exec (.loopOut chip lane idx true) s = .next (s.err 0x48 0x80))) ∧
          (∀ c : Fin 48, m.destType = 2 → m.dest = c.val → c.val / 24 = chip.val → fieldOff (fanAt s c.val).field = false →
            (m.duty ≤ 10000 → ∃ t, exec (.loopOut chip lane idx true) s = .next t ∧ fanOnly s t c.val ∧ (fanAt t c.val).field = m.duty) ∧
            (10000 < m.duty → m.duty < 16384 → exec (.loopOut chip lane idx true) s = .next (s.err (0x40 + c.val / 16) 0x80))) ∧
          (∀ g : Fin 3, m.destType = 3 → m.dest = g.val → m.duty ≤ 10000 → ∃ t, exec (.loopOut chip lane idx true) s = .next t ∧
            (∀ c : Fin 48, (c.val / 16 = g.val ∧ c.val / 24 = chip.val ∧ fieldOff (fanAt s c.val).field = false → (fanAt t c.val).field = m.duty) ∧
              (¬ (c.val / 16 = g.val ∧ c.val / 24 = chip.val ∧ fieldOff (fanAt s c.val).field = false) → fanAt t c.val = fanAt s c.val)) ∧
            reportsOnly s t ∧ t = { s with chip0 := t.chip0, chip1 := t.chip1, regs := t.regs, inv := t.inv, laneA := t.laneA, laneB := t.laneB }) ∧
          (m.destType = 1 ∧ fieldOff (pumpAt s m.dest).field = true ∨ m.destType = 2 ∧ fieldOff (fanAt s m.dest).field = true →
            exec (.loopOut chip lane idx true) s = .next s)) ∧
        ((s.chip chip.val).powered = false ∨ bitsOf m.claim 1 7 = 0 ∨ higherClaim (s.chip chip.val).auth m.claim = true →
          exec (.loopOut chip lane idx true) s = .next s)) ∧
      (∀ idx : BitVec 6, exec (.loopOut chip lane idx false) s = .next s) ∧
      (∀ c, c = Instr.actuatorFrame chip lane true ∨ c = Instr.playaStatusReport chip lane true → (s.chip chip.val).powered = false → exec c s = .next s) ∧
      exec (.playaStatusReport chip lane false) s = .next s) ∧ (
    ∀ (chip : Fin 2) (s : State),
      (∀ cur rails, (s.chip chip.val).powered = true →
        (∀ f, chipChoose (s.chip chip.val) = some f → ∃ t, exec (.playaTickBoundary chip cur rails) s = .next t ∧
          (t.chip chip.val).chosen = some (f.claim, f.seq) ∧ (t.chip chip.val).auth = f.claim ∧ (t.chip chip.val).silent = 0 ∧
          (t.chip chip.val).posLost = (!f.posLoad && (s.chip chip.val).posLost) ∧
          (t.chip chip.val).wdog = false ∧ (t.chip chip.val).rxA = none ∧ (t.chip chip.val).rxB = none ∧
          (∀ c : Fin 48, c.val / 24 = chip.val → (fanAt t c.val).released = false) ∧
          (∀ n : Fin 4, n.val / 2 = chip.val → (pumpAt t n.val).released = false) ∧ t.time = s.time ∧ t.fuses = s.fuses) ∧
        (chipChoose (s.chip chip.val) = none → ∃ t, exec (.playaTickBoundary chip cur rails) s = .next t ∧
          (t.chip chip.val).chosen = none ∧ (t.chip chip.val).silent = (s.chip chip.val).silent + 1 ∧ (t.chip chip.val).auth = (s.chip chip.val).auth ∧
          (t.chip chip.val).posLost = (s.chip chip.val).posLost ∧
          (t.chip chip.val).wdog = ((s.chip chip.val).wdog || decide (16384 ≤ (s.chip chip.val).silent + 1)) ∧
          (16384 ≤ (s.chip chip.val).silent + 1 → (s.chip chip.val).wdog = false →
            (∀ c : Fin 48, c.val / 24 = chip.val → (fanAt t c.val).released = true ∧ (fanAt t c.val).applied = 10000) ∧
            (∀ n : Fin 4, n.val / 2 = chip.val → (pumpAt t n.val).released = true ∧ (pumpAt t n.val).applied = 10000)) ∧
          t.time = s.time ∧ t.fuses = s.fuses)) ∧
      (∀ cur rails, (s.chip chip.val).powered = false → exec (.playaTickBoundary chip cur rails) s = .next s) ∧
      (16384 ≤ (s.chip chip.val).silent → (s.chip chip.val).wdog = false → ∃ t, exec (.playaWatchdog chip) s = .next t ∧ (t.chip chip.val).wdog = true ∧
        (∀ c : Fin 48, c.val / 24 = chip.val → (fanAt t c.val).released = true ∧ (fanAt t c.val).applied = 10000) ∧
        (∀ n : Fin 4, n.val / 2 = chip.val → (pumpAt t n.val).released = true ∧ (pumpAt t n.val).applied = 10000) ∧
        (∀ k : Fin 96, t.vch k.val = s.vch k.val) ∧ t = { s with chip0 := t.chip0, chip1 := t.chip1, regs := t.regs }) ∧
      ((s.chip chip.val).silent < 16384 ∨ (s.chip chip.val).wdog = true → exec (.playaWatchdog chip) s = .next s) ∧
      ((s.chip chip.val).powered = true → ∃ t, exec (.playaReset chip) s = .next t ∧ (t.chip chip.val).posLost = true ∧ (t.chip chip.val).wdog = false ∧
        (t.chip chip.val).auth = 0 ∧ (t.chip chip.val).chosen = none ∧ (t.chip chip.val).rxA = none ∧ (t.chip chip.val).rxB = none ∧
        (∀ k : Fin 96, k.val / 48 = chip.val → (t.vch k.val).pos = 0 ∧ (t.vch k.val).phase = 0 ∧ (t.vch k.val).strokes = (s.vch k.val).strokes) ∧
        (∀ k : Fin 96, k.val / 48 ≠ chip.val → t.vch k.val = s.vch k.val) ∧
        (∀ c : Fin 48, (c.val / 24 = chip.val → (fanAt t c.val).released = true ∧ (fanAt t c.val).applied = 10000) ∧
          (c.val / 24 ≠ chip.val → fanAt t c.val = fanAt s c.val)) ∧
        (∀ n : Fin 4, (n.val / 2 = chip.val → (pumpAt t n.val).released = true ∧ (pumpAt t n.val).applied = 10000) ∧
          (n.val / 2 ≠ chip.val → pumpAt t n.val = pumpAt s n.val)) ∧
        (∀ b : Fin 12, b.val / 6 = chip.val → (blkGet t (0x30 + b.val)).state = .off ∧ (t.bank b.val).en = false ∧ (t.bank b.val).queue = []) ∧
        t = { s with chip0 := t.chip0, chip1 := t.chip1, regs := t.regs, sec := t.sec, inv := t.inv, blk := t.blk, gov := t.gov }) ∧
      ((s.chip chip.val).powered = false → exec (.playaReset chip) s = .next s))

/-- Caravan ports and links (R294, R297, R300). With both ports woken and one starting, a passed loopback check energises the relays unless
FORCE_SAFE holds and a failed one is a FAULT of each port that failed, cause 1; confirmed contacts insert the node, put its starting ports in RUN
and start the settle count; a contact that does not follow within 4,096 AON cycles, 32 ticks, (cause 2), or disagrees in RUN (cause 3), is a
FAULT of its port, with both relays off and the other port stopped if in RUN; a port that has waited 16 ticks says so once. A LINK frame in RUN
names the neighbour and keeps its LEAVING, a bad frame is counted in FCS and one of an unknown version or type in DROP; after four good ticks
LINK_UP is set; a port no longer in RUN, a lost lock, LEAVING or four ticks without LINK clear it, count in PORT_DOWN and take the neighbour
away; both start the settle count over. -/
def Obligations.CaravanPortsAndLinks : Prop :=
  ∀ (p : Fin 2) (s : State),
    (portWoke s 0 = true → portWoke s 1 = true → (portState s 0 = .starting ∨ portState s 1 = .starting) →
      (crvnSafe s = false → exec (.portLoopbackCheck true true) s = .next { s with crvn := { s.crvn with relay := true, relayAt := s.time.count } }) ∧
      (crvnSafe s = true → exec (.portLoopbackCheck true true) s = .next s) ∧
      (∀ e w, (e && w) = false → ∃ t, exec (.portLoopbackCheck e w) s = .next t ∧ t.crvn.relay = false ∧
        (e = false → portState t 0 = .fault ∧ t.fld (F.CRVN_PORT_STAT_CAUSE 0) = 1) ∧
        (w = false → portState t 1 = .fault ∧ t.fld (F.CRVN_PORT_STAT_CAUSE 1) = 1) ∧ t.laneA = s.laneA ∧ t.laneB = s.laneB ∧ t.time = s.time)) ∧
    (∀ e w, portWoke s 0 = false ∨ portWoke s 1 = false ∨ (portState s 0 ≠ .starting ∧ portState s 1 ≠ .starting) →
      exec (.portLoopbackCheck e w) s = .next s) ∧
    (s.crvn.relay = true → portWoke s 0 = true → portWoke s 1 = true → ∃ t, exec .relayConfirm s = .next t ∧ portState t 0 = .run ∧ portState t 1 = .run ∧
      t.crvn.p0.contact = true ∧ t.crvn.p1.contact = true ∧ t.crvn.settle = some 0 ∧ t.crvn.heard = false ∧ t.fld F.CRVN_STAT_INSERTED = 1 ∧
      t.laneA = s.laneA ∧ t.laneB = s.laneB ∧ t.time = s.time) ∧
    (s.crvn.relay = false ∨ portWoke s 0 = false ∨ portWoke s 1 = false → exec .relayConfirm s = .next s) ∧
    (s.time.count < s.crvn.relayAt + 32 → exec (.relayConfirmTimeout p) s = .next s) ∧
    (s.crvn.relayAt + 32 ≤ s.time.count →
      portState s p.val = .starting ∧ s.crvn.relay = true ∧ (s.cport p.val).contact = false ∨ portState s p.val = .stopping →
      ∃ t, exec (.relayConfirmTimeout p) s = .next t ∧ portState t p.val = .fault ∧ t.fld (F.CRVN_PORT_STAT_CAUSE p.val) = 2 ∧ t.crvn.relay = false ∧
        (portState s (1 - p.val) = .run → portState t (1 - p.val) = .stopping) ∧ t.laneA = s.laneA ∧ t.laneB = s.laneB ∧ t.time = s.time) ∧
    (portState s p.val = .run → ∃ t, exec (.relayDisagree p) s = .next t ∧ portState t p.val = .fault ∧ t.fld (F.CRVN_PORT_STAT_CAUSE p.val) = 3 ∧
      (portState s (1 - p.val) = .run → portState t (1 - p.val) = .stopping) ∧ t.crvn.relay = false ∧ t.laneA = s.laneA ∧ t.laneB = s.laneB ∧
      t.time = s.time) ∧
    (portState s p.val ≠ .run → exec (.relayDisagree p) s = .next s) ∧
    ((s.cport p.val).waiting = true → (s.cport p.val).waitTicks = 16 → ∃ t, exec (.waitPeerTimeout p) s = .next t ∧
      t.cport p.val = { s.cport p.val with waitTicks := 17 } ∧ t.cport (1 - p.val) = s.cport (1 - p.val) ∧ crvnOnly s t) ∧
    ((s.cport p.val).waiting = false ∨ (s.cport p.val).waitTicks ≠ 16 → exec (.waitPeerTimeout p) s = .next s) ∧
    (∀ (h : CHdr) (leaving held : Bool), portHears s p.val h → ∃ t, exec (.link p true h leaving held) s = .next t ∧
      t.cport p.val = {
        s.cport p.val with
        linkNow := true, leaving := (s.cport p.val).leaving || leaving, lock := true,
        lockAll := (if (s.cport p.val).lock then (s.cport p.val).lockAll else held) } ∧
      t.fld (F.CRVN_PORT_STAT_NEIGH p.val) = h.src.toNat ∧ t.fld (F.CRVN_PORT_STAT_NEIGH_VALID p.val) = 1 ∧
      t.cport (1 - p.val) = s.cport (1 - p.val) ∧ t = { s with crvn := t.crvn, regs := t.regs }) ∧
    (portState s p.val = .run → ∀ (h : CHdr) (leaving held : Bool),
      exec (.link p false h leaving held) s = .next (s.satFld (F.CRVN_PORT_ERR_FCS p.val) 1) ∧
      (h.version ≠ 1 ∨ knownType h.typ.toNat = false → exec (.link p true h leaving held) s = .next (s.satFld (F.CRVN_PORT_ERR_DROP p.val) 1))) ∧
    ((s.cport p.val).linkUp = false → portState s p.val = .run → 4 ≤ (s.cport p.val).goodRun → ∃ t, exec (.caravanLinkUp p) s = .next t ∧
      t.cport p.val = { s.cport p.val with linkUp := true } ∧ t.cport (1 - p.val) = s.cport (1 - p.val) ∧ t.crvn.settle = some 0 ∧
      t.crvn.heard = false ∧ t = { s with crvn := t.crvn }) ∧
    ((s.cport p.val).linkUp = true ∨ portState s p.val ≠ .run ∨ (s.cport p.val).goodRun < 4 → exec (.caravanLinkUp p) s = .next s) ∧
    ((s.cport p.val).linkUp = true → (portState s p.val ≠ .run ∨ (s.cport p.val).lockAll = false ∨ (s.cport p.val).leaving = true ∨ 4 ≤ (s.cport p.val).missRun) →
      ∃ t, exec (.caravanLinkDown p) s = .next t ∧ t.cport p.val = { s.cport p.val with linkUp := false, goodRun := 0 } ∧ t.crvn.settle = some 0 ∧
        t.crvn.heard = false ∧ t.cport (1 - p.val) = s.cport (1 - p.val) ∧ t.fld (F.CRVN_PORT_STAT_NEIGH_VALID p.val) = 0 ∧
        t.fld (F.CRVN_PORT_DOWN_COUNT p.val) =
          (if s.fld (F.CRVN_PORT_DOWN_COUNT p.val) = 0xFFFF then 0xFFFF else s.fld (F.CRVN_PORT_DOWN_COUNT p.val) + 1) ∧
        t = { s with crvn := t.crvn, regs := t.regs }) ∧
    ((s.cport p.val).linkUp = false ∨
        (portState s p.val = .run ∧ (s.cport p.val).lockAll = true ∧ (s.cport p.val).leaving = false ∧ (s.cport p.val).missRun < 4) →
      exec (.caravanLinkDown p) s = .next s) ∧
    (∃ t, exec (.blockLockLoss p) s = .next t ∧ t.cport p.val = { s.cport p.val with lock := false, lockAll := false } ∧
      t.cport (1 - p.val) = s.cport (1 - p.val) ∧ t = { s with crvn := t.crvn })

/-- Discovery and addressing (R297, R301–R305). When one is due a node starts a discovery, with a DISC of its UID, RGEN + 1 and its own entry out
of every port with LINK_UP and a free line, and otherwise does nothing. It discards a DISC of a greater INIT than one met within 4 ticks; else it
abandons its own discovery and passes the DISC on, with its entry, or, at the end of a line, sends the list back as DISC_END; it passes another's
DISC_END on as it is. The initiator completes the ring with the list of the DISC that comes back on the far port, and a line with its two lists
joined once every port it sent by has answered. An ASSIGN is adopted once, with its order, generation, ring and this node's address, and passed
on. After 4 ticks a discovery has failed and is tried again 8 ticks later, from the eighth failure in a row, with DISC_FAIL, 1,024 ticks later. A
bad frame is counted in FCS. -/
def Obligations.CaravanDiscoversAndAdopts : Prop :=
  ∀ (p : Fin 2) (s : State),
    (discDue s = true → ∃ t, exec .discoveryStart s = .next t ∧
      t.crvn.disc = some ⟨s.time.count, (s.cport 0).linkUp, (s.cport 1).linkUp, none, none⟩ ∧ t.crvn.settle = none ∧ t.crvn.retry = none ∧
      (∀ q : Fin 2, (s.cport q.val).linkUp = true → (s.cport q.val).line = none →
        (t.cport q.val).line.map (fun f => (f.body, f.ttl)) =
          some (.disc (ownUid s) ((s.fld F.CRVN_RGEN_RGEN + 1) % 65536) [ownEntry s false], 64)) ∧
      t.fld F.CRVN_STAT_DISC = 1 ∧ t.crvn.order = s.crvn.order ∧ t = { s with crvn := t.crvn, regs := t.regs }) ∧
    (discDue s = false → exec .discoveryStart s = .next s) ∧
    (∀ (h : CHdr) (init : BitVec 64) (rgen : BitVec 16) (list : List DiscEnt), portHears s p.val h → init.toNat ≠ ownUid s →
      (seenNow s).any (fun x => decide (x.1 < init.toNat)) = false → ∃ t, exec (.disc p true h init rgen list) s = .next t ∧ t.crvn.disc = none ∧
        t.fld F.CRVN_STAT_DISC = 0 ∧ t.crvn.seen.head? = some (init.toNat, s.time.count) ∧ t.crvn.heard = true ∧
        ((s.cport (1 - p.val)).linkUp = true → (s.cport (1 - p.val)).line = none →
          (t.cport (1 - p.val)).line.map (fun f => (f.body, f.ttl)) =
            some (.disc init.toNat rgen.toNat (list ++ [ownEntry s (p.val == 0)]), h.ttl.toNat - 1)) ∧
        ((s.cport (1 - p.val)).linkUp = false → (s.cport p.val).line = none →
          (t.cport p.val).line.map (fun f => f.body) = some (.discEnd init.toNat rgen.toNat (list ++ [ownEntry s (p.val == 0)]))) ∧
        t.crvn.order = s.crvn.order ∧ t = { s with crvn := t.crvn, regs := t.regs }) ∧
    (∀ (h : CHdr) (init : BitVec 64) (rgen : BitVec 16) (list : List DiscEnt), portHears s p.val h → init.toNat ≠ ownUid s →
      (seenNow s).any (fun x => decide (x.1 < init.toNat)) = true → ∃ t, exec (.disc p true h init rgen list) s = .next t ∧
        t.crvn.disc = s.crvn.disc ∧ t.crvn.p0 = s.crvn.p0 ∧ t.crvn.p1 = s.crvn.p1 ∧ t.crvn.order = s.crvn.order ∧
        t = { s with crvn := t.crvn, regs := t.regs }) ∧
    (∀ (h : CHdr) (rgen : BitVec 16) (list : List DiscEnt), portHears s p.val h → ownUid s < 2 ^ 64 → ∀ d, s.crvn.disc = some d →
      (if p.val = 0 then d.west else d.east) = true → ∃ t, exec (.disc p true h (BitVec.ofNat 64 (ownUid s)) rgen list) s = .next t ∧
        t.crvn.disc = none ∧ t.crvn.closed = true ∧
        t.crvn.order.map (fun x => x.1) = (if p.val = 1 then list else list.take 1 ++ (list.drop 1).reverse).map (fun e => e.uid) ∧
        t.fld F.CRVN_STAT_DISC = 0 ∧ t.fld F.CRVN_STAT_RING = 2 ∧ crvnOnly s t) ∧
    (∀ (h : CHdr) (init : BitVec 64) (rgen : BitVec 16) (list : List DiscEnt), portHears s p.val h → init.toNat ≠ ownUid s →
      ∃ t, exec (.discEnd p true h init rgen list) s = .next t ∧ t.crvn.disc = s.crvn.disc ∧ t.crvn.order = s.crvn.order ∧
        ((s.cport (1 - p.val)).linkUp = true → (s.cport (1 - p.val)).line = none →
          (t.cport (1 - p.val)).line.map (fun f => (f.body, f.ttl)) = some (.discEnd init.toNat rgen.toNat list, h.ttl.toNat - 1)) ∧
        t = { s with crvn := t.crvn, regs := t.regs }) ∧
    (∀ (h : CHdr) (rgen : BitVec 16) (list : List DiscEnt), portHears s p.val h → ownUid s < 2 ^ 64 → ∀ d, s.crvn.disc = some d → ∀ d',
      d' = (if p.val = 0 then { d with endE := some list } else { d with endW := some list } : DiscRun) →
      ∃ t, exec (.discEnd p true h (BitVec.ofNat 64 (ownUid s)) rgen list) s = .next t ∧
        (((!d'.east || d'.endE.isSome) && (!d'.west || d'.endW.isSome)) = true → t.crvn.disc = none ∧ t.crvn.closed = false ∧
          t.crvn.order.map (fun x => x.1) = (joinLists (ownEntry s false) (d'.endE.getD []) (d'.endW.getD [])).map (fun e => e.uid) ∧
          t.fld F.CRVN_STAT_DISC = 0 ∧ t.fld F.CRVN_STAT_RING = 1) ∧
        (((!d'.east || d'.endE.isSome) && (!d'.west || d'.endW.isSome)) = false → t.crvn.disc = some d' ∧ t.crvn.order = s.crvn.order) ∧ crvnOnly s t) ∧
    (∀ (h : CHdr) (init : BitVec 64) (rgen : BitVec 16) (line : Bool) (asg : List AsgEnt), portHears s p.val h → init.toNat ≠ ownUid s →
      ∃ t, exec (.assign p true h init rgen line asg) s = .next t ∧
        (s.crvn.lastAsg ≠ some (init.toNat, rgen.toNat) →
          t.crvn.order = asg.map (fun e => (e.uid, if e.assigned then some (e.addr % 64) else none)) ∧ t.crvn.closed = !line ∧
          t.crvn.lastAsg = some (init.toNat, rgen.toNat) ∧ t.crvn.fails = 0 ∧ t.fld F.CRVN_RGEN_RGEN = rgen.toNat ∧
          t.fld F.CRVN_STAT_RING = (if line then 1 else 2) ∧
          (∀ a, asg.find? (fun e => e.uid == ownUid s) = some a → a.assigned = true →
            t.fld F.CRVN_STAT_ADDR = a.addr % 64 ∧ t.fld F.CRVN_STAT_ADDR_VALID = 1 ∧ t.crvn.stored = some (a.addr % 64))) ∧
        (s.crvn.lastAsg = some (init.toNat, rgen.toNat) → t.crvn.order = s.crvn.order ∧ t.crvn.stored = s.crvn.stored ∧ t.crvn.closed = s.crvn.closed) ∧
        ((s.cport (1 - p.val)).linkUp = true → (s.cport (1 - p.val)).line = none →
          (t.cport (1 - p.val)).line.map (fun f => f.body) = some (.assign init.toNat rgen.toNat line asg)) ∧ crvnOnly s t) ∧
    (∀ d, s.crvn.disc = some d → d.tick + 4 ≤ s.time.count → ∃ t, exec .discoveryFail s = .next t ∧ t.crvn.disc = none ∧
      t.crvn.fails = s.crvn.fails + 1 ∧ t.crvn.retry = some (d.tick + 4 + (if 8 ≤ s.crvn.fails + 1 then 1024 else 8)) ∧ t.fld F.CRVN_STAT_DISC = 0 ∧
      (s.crvn.fails = 7 → t.fld F.CRVN_STAT_DISC_FAIL = 1) ∧ crvnOnly s t) ∧
    (∀ d, s.crvn.disc = some d → s.time.count < d.tick + 4 → exec .discoveryFail s = .next s) ∧
    (s.crvn.disc = none → exec .discoveryFail s = .next s) ∧
    (∀ (h : CHdr) (init : BitVec 64) (rgen : BitVec 16) (line : Bool) (list : List DiscEnt) (asg : List AsgEnt), portState s p.val = .run → ∀ c,
      c = Instr.disc p false h init rgen list ∨ c = Instr.discEnd p false h init rgen list ∨ c = Instr.assign p false h init rgen line asg →
      exec c s = .next (s.satFld (F.CRVN_PORT_ERR_FCS p.val) 1))

/-- Hall reports, DATA and ECHO (R297–R299, R304, R307). A node with HALL_EN broadcasts its report in the frames of its address, once each: its
32 bytes, out of the ways of a broadcast; otherwise it sends none. A report from another node is kept for its source and passed on with TTL − 1,
or counted in DROP when its TTL is used up; the node's own ends here. A DATA frame for this node is kept while fewer than 16 wait, else counted
in DROP; one for another node is passed on. A frame of an older generation is counted in DROP, a bad one in FCS. CRVN_RX_POP drops the head.
CRVN_TX_CMD sends the bytes of the buffer along the route, or as a broadcast, or answers NO_ADDR or NO_NODE; a length out of 1 to 512 is refused
with 80h and a LOCKED page with 04h. An echo asked for waits for its reply, or ends NO_NODE where it cannot be sent; its own reply gives the time
it took, any other ECHO is sent back, and after 4 ticks it has timed out. -/
def Obligations.CaravanCarriesReportsAndData : Prop :=
  ∀ (p : Fin 2) (s : State),
    (∀ a, ownAddr s = some a → s.fld F.CRVN_CFG_HALL_EN = 1 → s.time.tick = 0 → s.time.frame % 64 = a → s.crvn.hallSent ≠ some (s.time.count / 8) →
      ∃ t, exec .hallBroadcast s = .next t ∧ t.crvn.hallSent = some (s.time.count / 8) ∧
        (∀ q : Fin 2, q.val = 0 ∨ s.crvn.closed = false → s.crvn.order ≠ [] → portState s q.val = .run → (s.cport q.val).line = none →
          (t.cport q.val).line.map (fun f => (f.body, f.bcast, f.src)) = some (.hall (hallBytes s a), true, a)) ∧
        t = { s with crvn := t.crvn, regs := t.regs, freeCtr := t.freeCtr }) ∧
    ((ownAddr s = none ∨ s.time.tick ≠ 0 ∨ s.fld F.CRVN_CFG_HALL_EN ≠ 1 ∨ ownAddr s ≠ some (s.time.frame % 64) ∨
      s.crvn.hallSent = some (s.time.count / 8)) → exec .hallBroadcast s = .next s) ∧
    (∀ (h : CHdr) (bytes : List (BitVec 8)), portHears s p.val h → older16 h.rgen.toNat (s.fld F.CRVN_RGEN_RGEN) = false →
      h.bcast = true → ownAddr s ≠ some h.src.toNat → ∃ t, exec (.hall p true h bytes) s = .next t ∧
        tget none t.crvn.hall h.src.toNat = some (bytes.map BitVec.toNat, s.time.count / 8) ∧
        (∀ k, k ≠ h.src.toNat → tget none t.crvn.hall k = tget none s.crvn.hall k) ∧
        (2 ≤ h.ttl.toNat → (s.cport (1 - p.val)).linkUp = true → (s.cport (1 - p.val)).line = none →
          (t.cport (1 - p.val)).line.map (fun f => (f.body, f.ttl, f.src)) = some (.hall (bytes.map BitVec.toNat), h.ttl.toNat - 1, h.src.toNat)) ∧
        (h.ttl.toNat ≤ 1 → t.fld (F.CRVN_PORT_ERR_DROP p.val) =
          (if s.fld (F.CRVN_PORT_ERR_DROP p.val) = 0xFFFF then 0xFFFF else s.fld (F.CRVN_PORT_ERR_DROP p.val) + 1)) ∧
        t = { s with crvn := t.crvn, regs := t.regs }) ∧
    (∀ (h : CHdr) (bytes : List (BitVec 8)), portHears s p.val h → older16 h.rgen.toNat (s.fld F.CRVN_RGEN_RGEN) = false →
      h.bcast = true → ownAddr s = some h.src.toNat → exec (.hall p true h bytes) s = .next (txShow s)) ∧
    (∀ (h : CHdr) (bytes : List (BitVec 8)), portHears s p.val h → forThisNode s h → s.crvn.rx.length < 16 → ∃ t, exec (.data p true h bytes) s = .next t ∧
      t.crvn = { s.crvn with rx := s.crvn.rx ++ [(h.src.toNat, bytes.map BitVec.toNat)] } ∧ t.fld F.CRVN_RX_STAT_COUNT = s.crvn.rx.length + 1 ∧
      t = { s with crvn := t.crvn, regs := t.regs }) ∧
    (∀ (h : CHdr) (bytes : List (BitVec 8)), portHears s p.val h → forThisNode s h → 16 ≤ s.crvn.rx.length →
      exec (.data p true h bytes) s = .next (txShow (s.satFld (F.CRVN_PORT_ERR_DROP p.val) 1))) ∧
    (∀ (h : CHdr) (bytes : List (BitVec 8)), portHears s p.val h → older16 h.rgen.toNat (s.fld F.CRVN_RGEN_RGEN) = false → h.bcast = false →
      ownAddr s ≠ some h.dst.toNat → ownAddr s ≠ some h.src.toNat → 2 ≤ h.ttl.toNat → (s.cport (1 - p.val)).linkUp = true →
      (s.cport (1 - p.val)).line = none → ∃ t, exec (.data p true h bytes) s = .next t ∧
        (t.cport (1 - p.val)).line.map (fun f => (f.body, f.ttl, f.dst)) = some (.data (bytes.map BitVec.toNat), h.ttl.toNat - 1, h.dst.toNat) ∧
        t.crvn.rx = s.crvn.rx ∧ t = { s with crvn := t.crvn, regs := t.regs }) ∧
    (∀ (h : CHdr) (bytes : List (BitVec 8)) (ts now : BitVec 64),
      (portHears s p.val h → older16 h.rgen.toNat (s.fld F.CRVN_RGEN_RGEN) = true → ∀ c,
        c = Instr.hall p true h bytes ∨ c = Instr.data p true h bytes ∨ c = Instr.echo p true h ts now →
        exec c s = .next (txShow (s.satFld (F.CRVN_PORT_ERR_DROP p.val) 1))) ∧
      (portState s p.val = .run → ∀ c, c = Instr.hall p false h bytes ∨ c = Instr.data p false h bytes ∨ c = Instr.echo p false h ts now →
        exec c s = .next (s.satFld (F.CRVN_PORT_ERR_FCS p.val) 1))) ∧
    (s.locked 0x70 = false → ∃ t, exec .crvnRxPop s = .next t ∧ t.crvn = { s.crvn with rx := s.crvn.rx.drop 1 } ∧
      t.fld F.CRVN_RX_STAT_COUNT = (s.crvn.rx.length - 1) % 32 ∧ t = { s with crvn := t.crvn, regs := t.regs }) ∧
    (∀ (dst : BitVec 6) (bcast : Bool) (len : BitVec 10), s.locked 0x70 = false →
      ((len.toNat = 0 ∨ 512 < len.toNat) → exec (.crvnTxGo dst bcast len) s = .next (s.refuse 0x70 0x80)) ∧
      (1 ≤ len.toNat → len.toNat ≤ 512 →
        (ownAddr s = none → ∃ t, exec (.crvnTxGo dst bcast len) s = .next t ∧ t.fld F.CRVN_TX_STAT_RESULT = 3 ∧ t.crvn = s.crvn ∧
          t = { s with regs := t.regs }) ∧
        (ownAddr s ≠ none → bcast = false → route s dst.toNat = none → ∃ t, exec (.crvnTxGo dst bcast len) s = .next t ∧
          t.fld F.CRVN_TX_STAT_RESULT = 2 ∧ t.crvn = s.crvn ∧ t = { s with regs := t.regs }) ∧
        (ownAddr s ≠ none → bcast = false → ∀ w n, route s dst.toNat = some (w, n) → portState s (west2port w) = .run →
          (s.cport (west2port w)).line = none → ∃ t, exec (.crvnTxGo dst bcast len) s = .next t ∧ t.fld F.CRVN_TX_STAT_RESULT = 0 ∧
            t.fld F.CRVN_TX_STAT_BUSY = 1 ∧
            (t.cport (west2port w)).line.map (fun f => (f.body, f.own, f.dst, f.bcast)) = some (.data
              (((upto ((len.toNat + 3) / 4)).map (fun k => leBytes 4 (s.fld (F.CRVN_TX_BUF k)))).flatten.take len.toNat), true, dst.toNat, false) ∧
            t = { s with crvn := t.crvn, regs := t.regs }) ∧
        (ownAddr s ≠ none → bcast = true → s.crvn.order ≠ [] → ∃ t, exec (.crvnTxGo dst bcast len) s = .next t ∧
          (∀ q : Fin 2, q.val = 0 ∨ s.crvn.closed = false → portState s q.val = .run → (s.cport q.val).line = none →
            (t.cport q.val).line.map (fun f => (f.body, f.own, f.bcast)) = some (.data
              (((upto ((len.toNat + 3) / 4)).map (fun k => leBytes 4 (s.fld (F.CRVN_TX_BUF k)))).flatten.take len.toNat), true, true)) ∧
          t = { s with crvn := t.crvn, regs := t.regs }))) ∧
    (∀ (dst : BitVec 6) (now : BitVec 64), s.locked 0x70 = false →
      (∀ w n, ownAddr s ≠ none → route s dst.toNat = some (w, n) → ∃ t, exec (.crvnEchoGo dst now) s = .next t ∧
        t.crvn.echo = some (dst.toNat, now.toNat, s.time.count) ∧ t.fld F.CRVN_ECHO_DST = dst.toNat ∧ t.fld F.CRVN_ECHO_RESULT = 0 ∧
        (portState s (west2port w) = .run → (s.cport (west2port w)).line = none →
          (t.cport (west2port w)).line.map (fun f => (f.body, f.dst)) = some (.echo now.toNat, dst.toNat)) ∧
        t = { s with crvn := t.crvn, regs := t.regs }) ∧
      (ownAddr s = none ∨ route s dst.toNat = none → ∃ t, exec (.crvnEchoGo dst now) s = .next t ∧ t.fld F.CRVN_ECHO_RESULT = 3 ∧ t.crvn = s.crvn ∧
        t = { s with regs := t.regs })) ∧
    (∀ (dst : BitVec 6) (bcast : Bool) (len : BitVec 10) (now : BitVec 64), s.locked 0x70 = true → ∀ c,
      c = Instr.crvnRxPop ∨ c = Instr.crvnTxGo dst bcast len ∨ c = Instr.crvnEchoGo dst now → exec c s = .next (s.refuse 0x70 4)) ∧
    (∀ (h : CHdr) (ts now : BitVec 64), portHears s p.val h → forThisNode s h →
      (∀ k, s.crvn.echo = some (h.src.toNat, ts.toNat, k) → ∃ t, exec (.echo p true h ts now) s = .next t ∧ t.crvn = { s.crvn with echo := none } ∧
        t.fld F.CRVN_ECHO_RESULT = 1 ∧ t.fld F.CRVN_ECHO_RTT = min 0xFFFF (now.toNat - ts.toNat) ∧ t = { s with crvn := t.crvn, regs := t.regs }) ∧
      (s.crvn.echo.all (fun e => e.1 != h.src.toNat || e.2.1 != ts.toNat) = true → ∃ t, exec (.echo p true h ts now) s = .next t ∧
        t.crvn.echo = s.crvn.echo ∧ (∀ w n, route s h.src.toNat = some (w, n) → portState s (west2port w) = .run → (s.cport (west2port w)).line = none →
          (t.cport (west2port w)).line.map (fun f => (f.body, f.dst)) = some (.echo ts.toNat, h.src.toNat)) ∧
        t = { s with crvn := t.crvn, regs := t.regs })) ∧
    (∀ d ts k, s.crvn.echo = some (d, ts, k) →
      (k + 4 ≤ s.time.count → ∃ t, exec .echoTimeout s = .next t ∧ t.crvn = { s.crvn with echo := none } ∧
        t.fld F.CRVN_ECHO_RESULT = 2 ∧ t = { s with crvn := t.crvn, regs := t.regs }) ∧
      (s.time.count < k + 4 → exec .echoTimeout s = .next s)) ∧
    (s.crvn.echo = none → exec .echoTimeout s = .next s)

/-- Control instructions of a tile (R163): NOP holds the sequencer CNT + 1 cycles; JMP, and BRZ and LOOP when taken, go to the target in 3
cycles, and otherwise on in 1; SETR writes the sequencer register AUX names; END ends the tile's program; ACLR clears G accumulator rows; a BAR
that the other tiles of the job on the erg have not reached makes the tile wait, its transfers complete, and the last of them lets all go on 12
cycles after the latest. Nothing else of the tile, and no other tile, differs. A tile that may not issue does none of its instructions. -/
def Obligations.ControlInstructionsOfATile : Prop :=
  ∀ (t : Fin 576) (i : XIns) (s : State),
    (tileFetches s t.val 0 i → ∃ u, exec (.nop t) s = .next u ∧
      tileNow s u t.val { s.tile t.val with pc := ((s.tile t.val).pc + 1) % 2048, cyc := (s.tile t.val).cyc + (i.cnt + 1) }) ∧
    (tileFetches s t.val 1 i → ∃ u, exec (.jmp t) s = .next u ∧
      tileNow s u t.val { s.tile t.val with pc := i.aa % 2048, cyc := (s.tile t.val).cyc + 3 }) ∧
    (tileFetches s t.val 2 i → ((s.tile t.val).reg 8 = 0 → ∃ u, exec (.brz t) s = .next u ∧
        tileNow s u t.val { s.tile t.val with pc := i.aa % 2048, cyc := (s.tile t.val).cyc + 3 }) ∧
      ((s.tile t.val).reg 8 ≠ 0 → ∃ u, exec (.brz t) s = .next u ∧
        tileNow s u t.val { s.tile t.val with pc := ((s.tile t.val).pc + 1) % 2048, cyc := (s.tile t.val).cyc + 1 })) ∧
    (tileFetches s t.val 3 i → ∀ n, (s.tile t.val).reg (8 + i.aux % 8) = n + 1 → n < 2 ^ 30 →
      (n ≠ 0 → ∃ u, exec (.loop t) s = .next u ∧
        tileNow s u t.val { s.tile t.val with regs := lset (s.tile t.val).regs (8 + i.aux % 8) n, pc := i.aa % 2048, cyc := (s.tile t.val).cyc + 3 }) ∧
      (n = 0 → ∃ u, exec (.loop t) s = .next u ∧
        tileNow s u t.val { s.tile t.val with regs := lset (s.tile t.val).regs (8 + i.aux % 8) n, pc := ((s.tile t.val).pc + 1) % 2048, cyc := (s.tile t.val).cyc + 1 })) ∧
    (tileFetches s t.val 3 i → (s.tile t.val).reg (8 + i.aux % 8) = 0 → ∃ u, exec (.loop t) s = .next u ∧
      tileNow s u t.val { s.tile t.val with regs := lset (s.tile t.val).regs (8 + i.aux % 8) (2 ^ 30 - 1), pc := i.aa % 2048, cyc := (s.tile t.val).cyc + 3 }) ∧
    (tileFetches s t.val 4 i → ∃ u, exec (.setr t) s = .next u ∧
      tileNow s u t.val { s.tile t.val with regs := lset (s.tile t.val).regs i.aux (i.aa * 32768 + i.ab), pc := ((s.tile t.val).pc + 1) % 2048,
                                            cyc := (s.tile t.val).cyc + 1 }) ∧
    (tileFetches s t.val 5 i → (barTiles s t.val).all (fun v => v == t.val || (s.tile v).bar) = false →
      ∃ u, exec (.bar t) s = .next u ∧ tileNow s u t.val {
        s.tile t.val with
        bar := true, cyc := max (s.tile t.val).cyc (s.tile t.val).xferFree, pc := ((s.tile t.val).pc + 1) % 2048 }) ∧
    (tileFetches s t.val 5 i → (barTiles s t.val).all (fun v => v == t.val || (s.tile v).bar) = true →
      ∃ u, exec (.bar t) s = .next u ∧ u = { s with x := { s.x with tiles := u.x.tiles } } ∧
        (∀ v ∈ barTiles s t.val, u.tile v = {
          s.tile v with
          bar := false, pc := (if v = t.val then ((s.tile t.val).pc + 1) % 2048 else (s.tile v).pc),
          cyc := maxOfN ((barTiles s t.val).map (fun v =>
            if v = t.val then max (s.tile t.val).cyc (s.tile t.val).xferFree else (s.tile v).cyc)) + 12 }) ∧
        (∀ v, v ∉ barTiles s t.val → v ≠ t.val → u.tile v = s.tile v)) ∧
    (tileFetches s t.val 6 i → ∃ u, exec (.xEnd t) s = .next u ∧ otherTiles s u t.val ∧
      u.tile t.val = { s.tile t.val with pc := ((s.tile t.val).pc + 1) % 2048, cyc := (s.tile t.val).cyc + 1, running := false, ended := true } ∧
      u.fld (F.ERG_STAT_BUSY (t.val / 72)) = ((upto 72).filter (fun l => (u.tile (72 * (t.val / 72) + l)).running)).length ∧
      u = { s with x := { s.x with tiles := u.x.tiles }, regs := u.regs }) ∧
    (tileFetches s t.val 0x12 i → ∃ u, exec (.aclr t) s = .next u ∧ otherTiles s u t.val ∧
      u.tile t.val = {
        s.tile t.val with
        pc := ((s.tile t.val).pc + 1) % 2048, cyc := (s.tile t.val).cyc + 1, acc := (u.tile t.val).acc, accRdy := (u.tile t.val).accRdy } ∧
      (∀ row col, row < 128 → col < 16 → accGet (u.tile t.val) row col = (if row ∈ accRows i (i.cnt + 1) then 0 else accGet (s.tile t.val) row col)) ∧
      u = { s with x := { s.x with tiles := u.x.tiles } }) ∧
    (tileReady t.val s = false → ∀ c,
      c = Instr.nop t ∨ c = Instr.jmp t ∨ c = Instr.brz t ∨ c = Instr.loop t ∨ c = Instr.setr t ∨ c = Instr.bar t ∨ c = Instr.xEnd t ∨
      c = Instr.ldw t ∨ c = Instr.mm t ∨ c = Instr.aclr t ∨ c = Instr.vadd t ∨ c = Instr.vsub t ∨ c = Instr.vmul t ∨ c = Instr.vmulc t ∨
      c = Instr.vmax t ∨ c = Instr.vmin t ∨ c = Instr.vrelu t ∨ c = Instr.vclamp t ∨ c = Instr.vfma t ∨ c = Instr.vexp t ∨ c = Instr.vlog2 t ∨
      c = Instr.vrcp t ∨ c = Instr.vrsqrt t ∨ c = Instr.vsig t ∨ c = Instr.vtanh t ∨ c = Instr.vrmax t ∨ c = Instr.vrsum t ∨ c = Instr.cvt t ∨
      c = Instr.xld t ∨ c = Instr.xst t → exec c s = .next s)

/-- Array, vector and conversion instructions of a tile (R142–R152, R157, R163): with no interval out of order, LDW loads its weight buffer, MM
runs its pass into the accumulator, and a vector or CVT instruction writes its groups; each issues with the occupancy and the latency of R163 and
adds its flags to ERG_FLAGS. An MM waits while its weight buffer is not loaded. An interval out of order stops the tile with BOUND_ORDER, as a
residue mismatch of the instruction. Every other tile is as it was. -/
def Obligations.UnitsOfATileCompute : Prop :=
  ∀ (t : Fin 576) (i : XIns) (s : State),
    (tileFetches s t.val 0x10 i → ∃ u, exec (.ldw t) s = .next u ∧ unitDone s u t.val (s.tile t.val, 0) (issueLdw i {
      ({} : WBuf) with
      bytes := (upto (blockBytes i.bnd i.fb)).map (fun k => (s.tile t.val).byte (8 * addrA (s.tile t.val) i 0 + k)), alt := i.alt,
      scales := (if isMx i.fb then (upto 16).map (fun c => (s.tile t.val).byte (Config.mxWeightScale (addrA (s.tile t.val) i 0) c))
        else (wBuf (s.tile t.val) (i.aux % 2)).scales) })) ∧
    (tileFetches s t.val 0x11 i → (wBuf (s.tile t.val) (i.aux % 2)).bytes = [] → exec (.mm t) s = .next s) ∧
    (tileFetches s t.val 0x11 i → (wBuf (s.tile t.val) (i.aux % 2)).bytes ≠ [] → bitOf (mmPass i (s.tile t.val)).2 3 = false →
      ∃ u, exec (.mm t) s = .next u ∧ unitDone s u t.val (mmPass i (s.tile t.val)) (issueMM (s.tile t.val).pc i)) ∧
    (tileFetches s t.val 0x20 i → bitOf (vRun i (tileWord s t.val) .add (s.tile t.val)).2 3 = false →
      ∃ u, exec (.vadd t) s = .next u ∧ vecDone s u t.val i (vRun i (tileWord s t.val) .add (s.tile t.val)) 1 4) ∧
    (tileFetches s t.val 0x21 i → bitOf (vRun i (tileWord s t.val) .sub (s.tile t.val)).2 3 = false →
      ∃ u, exec (.vsub t) s = .next u ∧ vecDone s u t.val i (vRun i (tileWord s t.val) .sub (s.tile t.val)) 1 4) ∧
    (tileFetches s t.val 0x22 i → bitOf (vRun i (tileWord s t.val) .mul (s.tile t.val)).2 3 = false →
      ∃ u, exec (.vmul t) s = .next u ∧ vecDone s u t.val i (vRun i (tileWord s t.val) .mul (s.tile t.val)) (if i.bnd then 2 else 1) 4) ∧
    (tileFetches s t.val 0x23 i → bitOf (vRun i (tileWord s t.val) .mulc (s.tile t.val)).2 3 = false →
      ∃ u, exec (.vmulc t) s = .next u ∧ vecDone s u t.val i (vRun i (tileWord s t.val) .mulc (s.tile t.val)) 1 4) ∧
    (tileFetches s t.val 0x24 i → bitOf (vRun i (tileWord s t.val) .max (s.tile t.val)).2 3 = false →
      ∃ u, exec (.vmax t) s = .next u ∧ vecDone s u t.val i (vRun i (tileWord s t.val) .max (s.tile t.val)) 1 4) ∧
    (tileFetches s t.val 0x25 i → bitOf (vRun i (tileWord s t.val) .min (s.tile t.val)).2 3 = false →
      ∃ u, exec (.vmin t) s = .next u ∧ vecDone s u t.val i (vRun i (tileWord s t.val) .min (s.tile t.val)) 1 4) ∧
    (tileFetches s t.val 0x26 i → bitOf (vRun i (tileWord s t.val) .relu (s.tile t.val)).2 3 = false →
      ∃ u, exec (.vrelu t) s = .next u ∧ vecDone s u t.val i (vRun i (tileWord s t.val) .relu (s.tile t.val)) 1 4) ∧
    (tileFetches s t.val 0x27 i → bitOf (vRun i (tileWord s t.val) .clamp (s.tile t.val)).2 3 = false →
      ∃ u, exec (.vclamp t) s = .next u ∧ vecDone s u t.val i (vRun i (tileWord s t.val) .clamp (s.tile t.val)) 1 4) ∧
    (tileFetches s t.val 0x2A i → bitOf (vRun i (tileWord s t.val) .fma (s.tile t.val)).2 3 = false →
      ∃ u, exec (.vfma t) s = .next u ∧ vecDone s u t.val i (vRun i (tileWord s t.val) .fma (s.tile t.val)) 1 5) ∧
    (tileFetches s t.val 0x30 i → bitOf (tRun i .exp (s.tile t.val)).2 3 = false → ∃ u, exec (.vexp t) s = .next u ∧ vecDone s u t.val i (tRun i .exp (s.tile t.val)) 4 12) ∧
    (tileFetches s t.val 0x31 i → bitOf (tRun i .log2 (s.tile t.val)).2 3 = false → ∃ u, exec (.vlog2 t) s = .next u ∧ vecDone s u t.val i (tRun i .log2 (s.tile t.val)) 4 12) ∧
    (tileFetches s t.val 0x32 i → bitOf (tRun i .rcp (s.tile t.val)).2 3 = false → ∃ u, exec (.vrcp t) s = .next u ∧ vecDone s u t.val i (tRun i .rcp (s.tile t.val)) 4 12) ∧
    (tileFetches s t.val 0x33 i → bitOf (tRun i .rsqrt (s.tile t.val)).2 3 = false → ∃ u, exec (.vrsqrt t) s = .next u ∧ vecDone s u t.val i (tRun i .rsqrt (s.tile t.val)) 4 12) ∧
    (tileFetches s t.val 0x34 i → bitOf (tRun i .sig (s.tile t.val)).2 3 = false → ∃ u, exec (.vsig t) s = .next u ∧ vecDone s u t.val i (tRun i .sig (s.tile t.val)) 4 12) ∧
    (tileFetches s t.val 0x35 i → bitOf (tRun i .tanh (s.tile t.val)).2 3 = false → ∃ u, exec (.vtanh t) s = .next u ∧ vecDone s u t.val i (tRun i .tanh (s.tile t.val)) 4 12) ∧
    (tileFetches s t.val 0x38 i → bitOf (redRun false i (s.tile t.val)).2 3 = false → ∃ u, exec (.vrmax t) s = .next u ∧
      vecDone s u t.val i (redRun false i (s.tile t.val)) 1 8 true) ∧
    (tileFetches s t.val 0x39 i → bitOf (redRun true i (s.tile t.val)).2 3 = false → ∃ u, exec (.vrsum t) s = .next u ∧
      vecDone s u t.val i (redRun true i (s.tile t.val)) 1 8 true) ∧
    (tileFetches s t.val 0x3C i → bitOf (cvtRun i (s.tile t.val)).2 3 = false → ∃ u, exec (.cvt t) s = .next u ∧
      unitDone s u t.val (cvtRun i (s.tile t.val))
        (issueVec (s.tile t.val).pc 1 (if i.bnd then 8 else 6) false (if bitOf i.aux 1 then accRows i (i.cnt + 1) else []) i)) ∧
    (∀ c o y, (c, o, y) ∈ ([
        (Instr.mm t, 0x11, mmPass i (s.tile t.val)), (Instr.vadd t, 0x20, vRun i (tileWord s t.val) .add (s.tile t.val)),
        (Instr.vsub t, 0x21, vRun i (tileWord s t.val) .sub (s.tile t.val)), (Instr.vmul t, 0x22, vRun i (tileWord s t.val) .mul (s.tile t.val)),
        (Instr.vmulc t, 0x23, vRun i (tileWord s t.val) .mulc (s.tile t.val)), (Instr.vmax t, 0x24, vRun i (tileWord s t.val) .max (s.tile t.val)),
        (Instr.vmin t, 0x25, vRun i (tileWord s t.val) .min (s.tile t.val)), (Instr.vrelu t, 0x26, vRun i (tileWord s t.val) .relu (s.tile t.val)),
        (Instr.vclamp t, 0x27, vRun i (tileWord s t.val) .clamp (s.tile t.val)), (Instr.vexp t, 0x30, tRun i .exp (s.tile t.val)),
        (Instr.vlog2 t, 0x31, tRun i .log2 (s.tile t.val)), (Instr.vrcp t, 0x32, tRun i .rcp (s.tile t.val)),
        (Instr.vrsqrt t, 0x33, tRun i .rsqrt (s.tile t.val)), (Instr.vsig t, 0x34, tRun i .sig (s.tile t.val)),
        (Instr.vtanh t, 0x35, tRun i .tanh (s.tile t.val)), (Instr.vrmax t, 0x38, redRun false i (s.tile t.val)),
        (Instr.vrsum t, 0x39, redRun true i (s.tile t.val)), (Instr.cvt t, 0x3C, cvtRun i (s.tile t.val))] : List (Instr × Nat × Tile × Nat)) →
      tileFetches s t.val o i → (o = 0x11 → (wBuf (s.tile t.val) (i.aux % 2)).bytes ≠ []) → bitOf y.2 3 = true →
      ∃ u, exec c s = .next u ∧ otherTiles s u t.val ∧ (u.tile t.val).stopped = true ∧ (u.tile t.val).orderBad.map (fun h => h.2) = some (s.tile t.val).pc ∧
        u.fld (F.ERG_FLAGS_BOUND_ORDER (t.val / 72)) = 1 ∧ u.fld (F.ERG_FLAGS_RESIDUE (t.val / 72)) = 1 ∧
        u.fld (F.ERG_RESIDUE_TILE (t.val / 72)) = t.val % 72 ∧ (u.xjob (s.tile t.val).job).mism = (s.xjob (s.tile t.val).job).mism + 1)

/-- Illegal instructions, transfers, verdicts and replay (R147, R157, R158, R160, R161, R165, R179, R182, R183). An illegal instruction, and a
transfer to or from LPDDR6, stops the tile, is recorded with its tile and program address and ends the job's run with cause 3. XLD and XST copy
the words their descriptor names, a transfer that ends 32 bytes a cycle after the last verdict of the tile it carries data out of; they wait
while that tile has a verdict outstanding, and end the run with cause 4 where the far tile's erg is neither in RUN nor in STOPPING. A matching
verdict retires the oldest result of its half; a mismatch stops the tile, is counted and recorded, and the second of a run ends it with cause 1.
A replay re-issues in order what was outstanding, 8 cycles after the last verdict, and an interval out of order stops the tile again. -/
def Obligations.TransfersVerdictsAndReplay : Prop :=
  ∀ (t : Fin 576) (i : XIns) (s : State),
    (s.x.errs = [] → tileReady t.val s = true → i = xIns (tileWord s t.val) → ∀ c,
      (c = Instr.nop t ∧ xLegal i = false) ∨ (c = Instr.mm t ∧ xLegal i = false) ∨ (c = Instr.ldw t ∧ xLegal i = false) ∨
        (c = Instr.vadd t ∧ xLegal i = false) ∨ (c = Instr.vfma t ∧ xLegal i = false) ∨ (c = Instr.vexp t ∧ xLegal i = false) ∨
        (c = Instr.vrsum t ∧ xLegal i = false) ∨ (c = Instr.cvt t ∧ xLegal i = false) ∨
        (c = Instr.xld t ∧ (xLegal i = false ∨ i.opc = 0x3E ∧ xaMem ((xDesc (s.tile t.val) (addrA (s.tile t.val) i 0)).xa / 8) = .lpddr)) ∨
        (c = Instr.xst t ∧ (xLegal i = false ∨ i.opc = 0x3F ∧ xaMem ((xDesc (s.tile t.val) (addrA (s.tile t.val) i 0)).xa / 8) = .lpddr)) →
      ∃ u, exec c s = .next u ∧ u.tile t.val = { s.tile t.val with stopped := true } ∧ otherTiles s u t.val ∧
        u.fld (F.ERG_FLAGS_ILLEGAL (t.val / 72)) = 1 ∧ u.fld (F.ERG_ILLEGAL_PC (t.val / 72)) = (s.tile t.val).pc % 2048 ∧
        u.fld (F.ERG_ILLEGAL_TILE (t.val / 72)) = t.val % 72 ∧ (u.xjob (s.tile t.val).job).endCause = some 3 ∧
        u = { s with x := u.x, regs := u.regs, mrec := u.mrec }) ∧
    (∀ d, d = xDesc (s.tile t.val) (addrA (s.tile t.val) i 0) → xaMem (d.xa / 8) ≠ .lpddr → ∀ out : Bool, tileFetches s t.val (if out then 0x3F else 0x3E) i →
      ∀ c, (c = Instr.xld t ∧ out = false) ∨ (c = Instr.xst t ∧ out = true) →
      (xferHeld out t.val (d.xa / 8) s = true → exec c s = .next s) ∧
      (xferHeld out t.val (d.xa / 8) s = false → farOk s (d.xa / 8) = false → ∃ u, exec c s = .next u ∧ u.x.tiles = s.x.tiles ∧
        (u.xjob (s.tile t.val).job).endCause = some 4 ∧ u = { s with x := u.x }) ∧
      (xferHeld out t.val (d.xa / 8) s = false → farOk s (d.xa / 8) = true → ∀ src, src = (if out then xaTile + 32768 * t.val + d.loc else d.xa / 8) →
        ∀ dst, dst = (if out then d.xa / 8 else xaTile + 32768 * t.val + d.loc) → ∀ st, st = max (s.tile t.val).cyc ((xferSrc out t.val (d.xa / 8)).elim 0 (fun v => if (s.tile v).job = (s.tile t.val).job then (s.tile v).verd else 0)) →
        ∃ u, exec c s = .next u ∧ (u.tile t.val).pc = ((s.tile t.val).pc + 1) % 2048 ∧ (u.tile t.val).cyc = st + 1 ∧
          (u.tile t.val).xferFree = max (s.tile t.val).xferFree st + ceilDiv d.len 32 ∧ (u.tile t.val).acc = (s.tile t.val).acc ∧
          (u.tile t.val).regs = (s.tile t.val).regs ∧
          (∀ k, k < d.len / 8 → xaMem (dst + k) ≠ .none → xaGet s (src + k) < 2 ^ 64 → (src + d.len / 8 ≤ dst ∨ dst + d.len / 8 ≤ src) →
            xaGet u (dst + k) = xaGet s (src + k)) ∧
          (∀ w, w < dst ∨ dst + d.len / 8 ≤ w → xaGet u w = xaGet s w) ∧
          u = { s with x := u.x, regs := u.regs, ingest := u.ingest })) ∧
    (∀ (half : Fin 4) (o : OutRes), (s.tile t.val).outst.find? (fun o => o.half == half.val) = some o →
      exec (.residueVerdict t half true) s = .next (memServe (s.setTile t.val {
        s.tile t.val with outst := (s.tile t.val).outst.erase o, verd := max (s.tile t.val).verd o.due })) ∧
      (s.ucie.out = [] → ∃ u, exec (.residueVerdict t half false) s = .next u ∧ otherTiles s u t.val ∧ u.tile t.val = {
          s.tile t.val with
          stopped := true, outst := (s.tile t.val).outst.erase o, verd := max (s.tile t.val).verd o.due,
          replay := (if (s.tile t.val).replay.isEmpty then (s.tile t.val).outst else (s.tile t.val).replay) } ∧
        u.fld (F.ERG_FLAGS_RESIDUE (t.val / 72)) = 1 ∧
        u.fld (F.ERG_RESIDUE_COUNT (t.val / 72)) = (if s.fld (F.ERG_RESIDUE_COUNT (t.val / 72)) = 65535 then 65535 else s.fld (F.ERG_RESIDUE_COUNT (t.val / 72)) + 1) ∧
        u.fld (F.ERG_RESIDUE_TILE (t.val / 72)) = t.val % 72 ∧ u.fld (F.ERG_RESIDUE_HALF (t.val / 72)) = half.val ∧
        u.fld (F.ERG_RESIDUE_JOB_JOB (t.val / 72)) = (s.tile t.val).job % 65536 ∧
        (u.xjob (s.tile t.val).job).mism = (s.xjob (s.tile t.val).job).mism + 1 ∧
        (u.xjob (s.tile t.val).job).endCause =
          (if (s.xjob (s.tile t.val).job).endCause = none ∧ 1 ≤ (s.xjob (s.tile t.val).job).mism then some 1 else (s.xjob (s.tile t.val).job).endCause) ∧
        u = { s with x := u.x, regs := u.regs, mrec := u.mrec })) ∧
    (∀ (half : Fin 4) (ok : Bool), (s.tile t.val).outst.find? (fun o => o.half == half.val) = none → exec (.residueVerdict t half ok) s = .next s) ∧
    ((s.tile t.val).stopped = true → (s.tile t.val).outst = [] → (s.xjob (s.tile t.val).job).endCause = none →
      (∀ pcs, pcs = ((s.tile t.val).replay.map (fun o => o.pc)).eraseDups → (s.tile t.val).replay ≠ [] → (s.tile t.val).orderBad = none →
        ∃ u, exec (.replay t) s = .next u ∧ otherTiles s u t.val ∧ u.tile t.val = {
            s.tile t.val with
            stopped := false, replay := [], cyc := max (s.tile t.val).cyc (s.tile t.val).verd + 8 + pcs.length,
            outst := (s.tile t.val).replay.map (fun (o : OutRes) => {
              o with due := max (s.tile t.val).cyc (s.tile t.val).verd + 8 + (pcs.takeWhile (fun p => p != o.pc)).length + o.lat }) } ∧
          (u.xjob (s.tile t.val).job).replays = min 255 ((s.xjob (s.tile t.val).job).replays + 1) ∧
          u = { s with x := { s.x with tiles := u.x.tiles, jobs := u.x.jobs } }) ∧
      (∀ half pc, (s.tile t.val).orderBad = some (half, pc) → ∃ u, exec (.replay t) s = .next u ∧ otherTiles s u t.val ∧
        (u.tile t.val).stopped = true ∧ (u.tile t.val).orderBad = some (half, pc) ∧ u.fld (F.ERG_FLAGS_BOUND_ORDER (t.val / 72)) = 1 ∧
        (u.xjob (s.tile t.val).job).mism = (s.xjob (s.tile t.val).job).mism + 1 ∧ u = { s with x := u.x, regs := u.regs, mrec := u.mrec })) ∧
    ((s.tile t.val).stopped = false ∨ (s.tile t.val).outst ≠ [] ∨ (s.tile t.val).replay = [] ∧ (s.tile t.val).orderBad = none ∨
      (s.xjob (s.tile t.val).job).endCause ≠ none → exec (.replay t) s = .next s)

/-- A job in a frame (R177, R178, R182, R183, R186, R192). A job that may start runs its program from word 0 on its tiles, nothing outstanding,
and with its stage-in list read unless it was staged before; where one of its ergs cannot take it, it is NOT_PLACED with fail code 6. While every
quadrant is in RUN a job whose tiles have all ended is DONE, what it wrote is committed and the jobs after it that may start do; an ADAPT job
then counts a step of its head, and a CHECK job accepts the candidate, or rejects it, the sixteenth rejection in a row holding the head for
3,686,400 frames. After a first run that ended early the job runs again, with its tile images loaded again where a word of tile SRAM was
uncorrectable; after the second, or an illegal instruction, it is FAILED with the cause and what waits on it is NOT_PLACED with fail code 5.
Otherwise nothing happens. -/
def Obligations.JobsRunAndEnd : Prop :=
  ∀ (j : Fin 1024) (s : State) (e : JobEnt), e = jobEnt s j.val →
    (mayStart s j.val = true → (jobErgs e).any (ergBarred s) = false → ∃ u, exec (.jobStart j) s = .next u ∧ (u.xjob j.val).state = 2 ∧
      (u.xjob j.val).mism = 0 ∧ (u.xjob j.val).restarted = (s.xjob j.val).restarted ∧ (u.xjob j.val).staged = false ∧ (∀ k, k ≠ j.val → u.xjob k = s.xjob k) ∧
      (∀ t ∈ jobTiles e, (u.tile t).running = true ∧ (u.tile t).pc = 0 ∧ (u.tile t).job = j.val ∧ (u.tile t).outst = [] ∧ (u.tile t).cyc = 0 ∧
        (u.tile t).stopped = false ∧ (u.tile t).bar = false ∧ (u.tile t).ended = false) ∧
      (s.x.errs = [] → e.inList = 0 ∨ (s.xjob j.val).staged = true → (u.xjob j.val).endCause = none ∧
        (u.xjob j.val).energy = (if (s.xjob j.val).staged then (s.xjob j.val).energy else 0) ∧ (∀ t, t ∉ jobTiles e → u.tile t = s.tile t) ∧
        u = { s with x := { s.x with tiles := u.x.tiles, jobs := u.x.jobs }, regs := u.regs })) ∧
    (mayStart s j.val = true → (jobErgs e).any (ergBarred s) = true → ∃ u, exec (.jobStart j) s = .next u ∧ (u.xjob j.val).state = 5 ∧
      (u.xjob j.val).failCode = 6 ∧ u = { s with x := { s.x with jobs := u.x.jobs } }) ∧
    (mayStart s j.val = false → exec (.jobStart j) s = .next s) ∧
    (∀ (l m c : Bool), quadsRun s = true → (s.xjob j.val).state = 2 → (s.xjob j.val).endCause = none →
      (jobTiles e).all (fun t => (s.tile t).ended && (s.tile t).job == j.val) = true → s.x.errs = [] → e.outList = 0 →
      (jobList s).all (fun k => (jobEnt s k).inList == 0) = true →
      ∃ u, exec (.jobDone j l m c) s = .next u ∧ (u.xjob j.val).state = 3 ∧ (u.xjob j.val).copy = !(s.xjob j.val).copy ∧
        (∀ k ∈ jobList s, (jobEnt s k).after = j.val → (s.xjob k).state = 1 → jobMain (jobEnt s k) = true → s.x.frameOn = true →
          (jobErgs (jobEnt s k)).any (ergBarred s) = false → (u.xjob k).state = 2) ∧
        ((jobList s).all (fun k => (jobEnt s k).after != j.val) = true → (∀ k, k ≠ j.val → u.xjob k = s.xjob k) ∧
          (∀ t ∈ jobTiles e, (u.tile t).running = false ∧ (u.tile t).ended = true) ∧ (∀ t, t ∉ jobTiles e → u.tile t = s.tile t)) ∧
        (e.kind ≠ 3 → e.kind ≠ 4 → u.x.heads = s.x.heads) ∧
        (e.kind = 3 → (tget {} u.x.heads e.head).steps = (tget {} s.x.heads e.head).steps + 1) ∧
        (e.kind = 4 → (l && m && c) = true → tget {} u.x.heads e.head = { tget {} s.x.heads e.head with steps := 0, rejects := 0, accepted := true } ∧
          u.fld F.XJOB_ADAPT_STAT_ACCEPT = min 65535 (s.fld F.XJOB_ADAPT_STAT_ACCEPT + 1)) ∧
        (e.kind = 4 → (l && m && c) = false → u.fld F.XJOB_ADAPT_STAT_REJECT = min 65535 (s.fld F.XJOB_ADAPT_STAT_REJECT + 1) ∧
          tget {} u.x.heads e.head = (if (tget {} s.x.heads e.head).rejects < 15
            then { tget {} s.x.heads e.head with steps := 0, rejects := (tget {} s.x.heads e.head).rejects + 1 }
            else { tget {} s.x.heads e.head with steps := 0, rejects := 0, held := some (s.fld F.XJOB_FRAME_COUNT + 3686400) })) ∧
        (∀ p, p ≠ e.head → tget {} u.x.heads p = tget {} s.x.heads p) ∧
        u = { s with x := { s.x with tiles := u.x.tiles, jobs := u.x.jobs, heads := u.x.heads }, regs := u.regs }) ∧
    (∀ (l m c : Bool), (quadsRun s = false ∨ (s.xjob j.val).state ≠ 2 ∨ (s.xjob j.val).endCause ≠ none ∨
      (jobTiles e).all (fun t => (s.tile t).ended && (s.tile t).job == j.val) = false) → exec (.jobDone j l m c) s = .next s) ∧
    (∀ c, (s.xjob j.val).endCause = some c → (s.xjob j.val).state = 2 → c ≠ 3 → (s.xjob j.val).restarted = false →
      (quadsRun s = true → ∃ u, exec (.jobRunEnd j) s = .next u ∧
        (u.xjob j.val).state = 2 ∧ (u.xjob j.val).restarted = true ∧ (u.xjob j.val).mism = 0 ∧ (∀ k, k ≠ j.val → u.xjob k = s.xjob k) ∧
        (∀ t ∈ jobTiles e, (u.tile t).running = true ∧ (u.tile t).pc = 0 ∧ (u.tile t).stopped = false ∧ (u.tile t).outst = []) ∧
        (s.x.errs = [] → e.inList = 0 → (u.xjob j.val).endCause = none ∧
          (c ≠ 18 → ∀ t : Fin 576, (u.tile t.val).sram = (s.tile t.val).sram) ∧
          (c = 18 → ∀ m, s.x.active = some m →
            ∀ t ∈ jobTiles e, (u.tile t).sram = ((loadImages m (fun t => (jobTiles e).contains t) s).1.tile t).sram))) ∧
      (quadsRun s = false → exec (.jobRunEnd j) s = .next s)) ∧
    (∀ c, (s.xjob j.val).endCause = some c → (s.xjob j.val).state = 2 → (c = 3 ∨ (s.xjob j.val).restarted = true) → ∃ u, exec (.jobRunEnd j) s = .next u ∧
      (u.xjob j.val).state = 4 ∧ (u.xjob j.val).failCode = c % 16 ∧ (∀ t ∈ jobTiles e, (u.tile t).running = false ∧ (u.tile t).outst = []) ∧
      (∀ t, t ∉ jobTiles e → u.tile t = s.tile t) ∧
      (∀ k ∈ jobList s, (jobEnt s k).after = j.val → (s.xjob k).state = 1 → (u.xjob k).state = 5 ∧ (u.xjob k).failCode = 5) ∧
      u = { s with x := { s.x with tiles := u.x.tiles, jobs := u.x.jobs }, regs := u.regs, mrec := u.mrec }) ∧
    ((s.xjob j.val).endCause = none ∨ (s.xjob j.val).state ≠ 2 → exec (.jobRunEnd j) s = .next s)

/-- Model sets and adaptation (R181, R185, R191, R192, R194). While Xoide is up and page 088 is not LOCKED: LOAD begins fitting, with the row
configuration in force, against the inactive table and leaves the active set and its table; while a set is fitted or armed it is turned away with
RESULT 2. Fitting ends ACCEPTED, or REFUSED with the first code that fails and its job. ARM takes a frame 2 to 2³¹ − 1 on, CANCEL takes it back
unless its frame is the next one, and each other case has its RESULT. In the frame before F, the advisory posted or no set active, the swap
window copies the new images once; a copy that is complete, with every erg of the images in RUN, is marked, and in the frame after an abandoned
swap the old images are copied back. A swap whose copy is not complete, or with a quadrant out of RUN, is abandoned with RESULT 5 and leaves the
active set. Adaptation starts, where it is allowed, the ADAPT jobs of the package in turn, or its CHECK jobs once the candidate has had its
steps; it can be stopped, and its running jobs are abandoned. -/
def Obligations.SetsAreFittedArmedAndAdapted : Prop :=
  ∀ (s : State),
    (s.x.up = true → s.locked 0x88 = false →
      (∀ (m : Manifest),
        (s.x.fitting = none → s.x.armed = none → ∃ u, exec (.xjobLoad m) s = .next u ∧ u.x.fitting = some m ∧ u.x.fitted = none ∧
          u.x.fitRow = rowEndpoints s ∧ u.fld F.XJOB_FIT_STATUS = 1 ∧ u.fld F.XJOB_CMD_RESULT = 1 ∧ (∀ j, j < 1024 → jobEnt u j = jobEnt s j) ∧
          u.x.active = s.x.active ∧ u.x.tableB = s.x.tableB ∧ u.x.jobs = s.x.jobs ∧ u.x.tiles = s.x.tiles ∧ u = { s with x := u.x, regs := u.regs }) ∧
        ((s.x.fitting ≠ none ∨ s.x.armed ≠ none) → ∃ u, exec (.xjobLoad m) s = .next u ∧ u.fld F.XJOB_CMD_RESULT = 2 ∧ u = { s with regs := u.regs })) ∧
      ((s.x.fitting ≠ none ∨ s.x.armed ≠ none) → ∃ u, exec .xjobArm s = .next u ∧ u.fld F.XJOB_CMD_RESULT = 2 ∧ u = { s with regs := u.regs }) ∧
      (s.x.fitting = none → s.x.armed = none →
        (s.x.fitted = none → ∃ u, exec .xjobArm s = .next u ∧ u.fld F.XJOB_CMD_RESULT = 4 ∧ u = { s with regs := u.regs }) ∧
        (s.x.fitted ≠ none → ∀ d, d = (s.fld F.XJOB_ARM_FRAME_FRAME + 2 ^ 32 - s.fld F.XJOB_FRAME_COUNT) % 2 ^ 32 →
          (d < 2 ∨ 2 ^ 31 ≤ d → ∃ u, exec .xjobArm s = .next u ∧ u.fld F.XJOB_CMD_RESULT = 3 ∧ u = { s with regs := u.regs }) ∧
          (2 ≤ d → d < 2 ^ 31 → ∃ u, exec .xjobArm s = .next u ∧ u.fld F.XJOB_CMD_RESULT = 1 ∧
            u = { s with x := { s.x with armed := some (s.fld F.XJOB_ARM_FRAME_FRAME), copying := false, copied := false }, regs := u.regs })) ∧
        (∃ u, exec .xjobCancel s = .next u ∧ u.fld F.XJOB_CMD_RESULT = 1 ∧ u = { s with regs := u.regs })) ∧
      (∀ f, s.x.armed = some f →
        ((s.fld F.XJOB_FRAME_COUNT + 1) % 2 ^ 32 ≠ f → ∃ u, exec .xjobCancel s = .next u ∧ u.fld F.XJOB_CMD_RESULT = 1 ∧
          u = { s with x := { s.x with armed := none }, regs := u.regs }) ∧
        ((s.fld F.XJOB_FRAME_COUNT + 1) % 2 ^ 32 = f → ∃ u, exec .xjobCancel s = .next u ∧ u.fld F.XJOB_CMD_RESULT = 3 ∧ u = { s with regs := u.regs }))) ∧
    (∀ (m : Manifest) c, c = Instr.xjobLoad m ∨ c = Instr.xjobArm ∨ c = Instr.xjobCancel →
      (s.x.up = false → exec c s = .next s) ∧ (s.x.up = true → s.locked 0x88 = true → exec c s = .next (s.refuse 0x88 4))) ∧
    (∀ (m : Manifest), s.x.fitting = some m → ∀ r, r = (eccTouches none (m.images.flatMap (fun g => (imgProg g).map (fun p => p.1))) s).1 →
      ∃ u, exec .fittingComplete s = .next u ∧ u.x.fitting = none ∧
        u.fld F.XJOB_FIT_CODE = (fitCheck m r).1 % 256 ∧ u.fld F.XJOB_FIT_JOB = (fitCheck m r).2 % 1024 ∧
        ((fitCheck m r).1 = 0 → u.x.fitted = some m ∧ u.fld F.XJOB_FIT_STATUS = 2) ∧ ((fitCheck m r).1 ≠ 0 → u.x.fitted = none ∧ u.fld F.XJOB_FIT_STATUS = 3) ∧
        (imgOk r 0x20 m.img = false → u.fld F.XJOB_FIT_CODE = 1) ∧
        u = { s with x := { r.x with fitting := none, fitted := u.x.fitted }, regs := u.regs, mrec := u.mrec }) ∧
    (s.x.fitting = none → exec .fittingComplete s = .next s) ∧
    (∀ m, s.x.fitted = some m → swapDueNext s = true → s.x.copyBack ≠ some (s.fld F.XJOB_FRAME_COUNT) → (s.x.posted = true ∨ s.x.active = none) →
      quadsRun s = true → s.x.copying = false → ∀ r, r = loadImages m (fun _ => true) { s with x := { s.x with copying := true } } →
      ∃ u, exec .swapWindow s = .next u ∧ u.x.copying = true ∧ u.x.armed = s.x.armed ∧ u.x.active = s.x.active ∧
        u.x.copied = (s.x.copied || (r.2 && m.images.all (fun g => (blkGet s (0x80 + g.tile / 72)).state == .run))) ∧
        (∀ t : Fin 576, u.tile t.val = r.1.tile t.val) ∧ u = { r.1 with x := u.x }) ∧
    (∀ m, s.x.active = some m → s.x.copyBack = some (s.fld F.XJOB_FRAME_COUNT) → exec .swapWindow s = .next (loadImages m (fun _ => true) s).1) ∧
    (swapDueNext s = false → (s.x.copyBack ≠ some (s.fld F.XJOB_FRAME_COUNT) → exec .swapWindow s = .next s) ∧ exec .swapAbandon s = .next s) ∧
    (swapDueNext s = true → s.x.copied = true → quadsRun s = true → exec .swapAbandon s = .next s) ∧
    (swapDueNext s = true → (s.x.copied = false ∨ quadsRun s = false) → ∃ u, exec .swapAbandon s = .next u ∧
      u.x = { s.x with armed := none, copyBack := some ((s.fld F.XJOB_FRAME_COUNT + 1) % 2 ^ 32), copying := false, copied := false } ∧
      u.fld F.XJOB_CMD_RESULT = 5 ∧ u = { s with x := u.x, regs := u.regs, mrec := u.mrec }) ∧
    (adaptAllowed s = true → ∀ p, nextPackage s = some p → ∀ m, s.x.active = some m → ∃ u, exec .adaptationStart s = .next u ∧ u.x.adapting = true ∧
      u.x.adaptDone = true ∧ u.x.lastAdapt = some (s.fld F.XJOB_FRAME_COUNT) ∧ u.x.nextPkg = p + 1 ∧ u.x.heads = s.x.heads ∧ u.x.active = some m ∧
      (quadsRun s = true → (jobList s).all (fun k => (jobEnt s k).inList == 0) = true → ∀ k ∈ jobList s, (jobEnt s k).head = p →
        (jobEnt s k).kind = (if headSteps m p ≤ (tget {} s.x.heads p).steps then 4 else 3) → (s.xjob k).state = 1 → (jobEnt s k).after = 0xFFFF →
        (jobErgs (jobEnt s k)).any (ergBarred s) = false → (u.xjob k).state = 2)) ∧
    (adaptAllowed s = false → exec .adaptationStart s = .next s) ∧
    (s.x.adapting = true → ∃ u, exec .adaptationStop s = .next u ∧ u.x.adapting = false ∧
      (∀ j ∈ jobList s, jobAdapt (jobEnt s j) = true → (s.xjob j).state = 2 → (u.xjob j).state = 6 ∧
        ∀ t ∈ jobTiles (jobEnt s j), (u.tile t).running = false) ∧
      (∀ j, ¬(j ∈ jobList s ∧ jobAdapt (jobEnt s j) = true ∧ (s.xjob j).state = 2) → u.xjob j = s.xjob j) ∧
      u = { s with x := { s.x with tiles := u.x.tiles, jobs := u.x.jobs, adapting := false }, regs := u.regs }) ∧
    (s.x.adapting = false → exec .adaptationStop s = .next s)

/-- Ergs, codewords and resets of Xoide (R58, R165, R169–R171, R312, R359). A started erg runs, awake unless FORCE_SAFE holds, or is in FAULT
with cause 2 and the tile that failed; an erg that is awake and loses its PLL is in FAULT with cause 1 and stops. While enabled the scrub reads
on, counts its passes, corrects, counts and writes back one or two wrong bits, and counts and records three as uncorrectable. An injection is
armed in the presence window for the next write of its word. A reset of Xoide loses everything but LPDDR6, whose running quadrants are held in
self-refresh, and the set to load again, and what Hervi had asked for will time out; over a link that is down it is a bus error. With the package
rail Xoide and Hervi lose all that no store holds. -/
def Obligations.ErgsCodewordsAndResets : Prop :=
  ∀ (s : State),
    (∀ (n : Fin 8), (blkGet s (0x80 + n.val)).state = .starting → (blkGet s (0x80 + n.val)).granted = true →
      (∃ u, exec (.ergStartComplete n none) s = .next u ∧ (blkGet u (0x80 + n.val)).state = .run ∧
        u.fld (F.ERG_STAT_AWAKE n.val) = (if (blkGet s (0x80 + n.val)).safe then 0 else 1) ∧
        u.fld (F.ERG_STAT_START_FAIL n.val) = s.fld (F.ERG_STAT_START_FAIL n.val) ∧ u.laneA = s.laneA ∧ u.laneB = s.laneB ∧ u.time = s.time ∧
        u.x.tiles = s.x.tiles) ∧
      (∀ (l : Fin 72), ∃ u, exec (.ergStartComplete n (some l)) s = .next u ∧ (blkGet u (0x80 + n.val)).state = .fault ∧ u.fld (F.ERG_STAT_START_FAIL n.val) = 1 ∧
        u.fld (F.ERG_STAT_BAD_TILE n.val) = l.val ∧ u.fld (F.ERG_STAT_FAULT_CAUSE n.val) = 2 ∧ u.fld (F.ERG_STAT_AWAKE n.val) = 0 ∧
        u.laneA = s.laneA ∧ u.laneB = s.laneB ∧ u.time = s.time)) ∧
    (∀ (n : Fin 8) (bad : Option (Fin 72)), ((blkGet s (0x80 + n.val)).state ≠ .starting ∨ (blkGet s (0x80 + n.val)).granted = false) →
      exec (.ergStartComplete n bad) s = .next s) ∧
    (∀ (n : Fin 8), s.fld (F.ERG_STAT_AWAKE n.val) = 1 → (blkGet s (0x80 + n.val)).state ≠ .fault → ∃ u, exec (.ergPllUnlock n) s = .next u ∧
      (blkGet u (0x80 + n.val)).state = .fault ∧ u.fld (F.ERG_STAT_FAULT_CAUSE n.val) = 1 ∧ u.fld (F.ERG_STAT_AWAKE n.val) = 0 ∧
      u.laneA = s.laneA ∧ u.laneB = s.laneB ∧ u.time = s.time) ∧
    (∀ (n : Fin 8), s.fld (F.ERG_STAT_AWAKE n.val) = 0 → exec (.ergPllUnlock n) s = .next s) ∧
    (s.x.up = true → s.fld F.XECC_SCRUB_EN = 1 →
      (s.x.errs = [] → ∃ u, exec .scrub s = .next u ∧
        u.x = { s.x with scrub := (s.x.scrub + 1) % 67108860, eInt := u.x.eInt, eFrame := u.x.eFrame } ∧
        u.fld F.XECC_SCRUB_PASSES = (if s.x.scrub = 67108859 then min 65535 (s.fld F.XECC_SCRUB_PASSES + 1) else s.fld F.XECC_SCRUB_PASSES) ∧
        u = { s with x := u.x, regs := u.regs }) ∧
      (∀ r, s.x.errs = [r] → scrubHits s s.x.scrub r.1 = true → ∃ u, exec .scrub s = .next u ∧ u.x.scrub = (s.x.scrub + 1) % 67108860 ∧
        (r.2 = 1 ∨ r.2 = 2 → u.x.errs = [] ∧
          (xaMem r.1 = .tile → u.fld F.XECC_TSRAM_CE = min 65535 (s.fld F.XECC_TSRAM_CE + 1)) ∧
          (xaMem r.1 = .shared → u.fld F.XECC_SHARED_CE = min 65535 (s.fld F.XECC_SHARED_CE + 1)) ∧
          (xaMem r.1 = .lpddr → u.fld F.XECC_LPDDR6_CE = min 65535 (s.fld F.XECC_LPDDR6_CE + 1))) ∧
        (r.2 = 3 → u.x.errs = [r] ∧ u.fld F.XECC_UE_ADDR_LO_XA = 8 * r.1 % 2 ^ 32 ∧ u.fld F.XECC_UE_ADDR_HI_KIND = 1 ∧ u.fld F.XECC_UE_ADDR_HI_BY_JOB = 0 ∧
          (xaMem r.1 = .tile → u.fld F.XECC_TSRAM_UE = min 65535 (s.fld F.XECC_TSRAM_UE + 1)) ∧
          (xaMem r.1 = .shared → u.fld F.XECC_SHARED_UE = min 65535 (s.fld F.XECC_SHARED_UE + 1)) ∧
          (xaMem r.1 = .lpddr → u.fld F.XECC_LPDDR6_UE = min 65535 (s.fld F.XECC_LPDDR6_UE + 1))) ∧
        u.x = { s.x with errs := u.x.errs, scrub := u.x.scrub, eInt := u.x.eInt, eFrame := u.x.eFrame } ∧
        u = { s with x := u.x, regs := u.regs, mrec := u.mrec })) ∧
    ((s.x.up = false ∨ s.fld F.XECC_SCRUB_EN = 0) → exec .scrub s = .next s) ∧
    (∀ (hi : BitVec 8),
      (s.locked 0x8F = true → exec (.xeccInjectArm hi) s = .next (s.refuse 0x8F 4)) ∧
      (s.locked 0x8F = false → s.presence = false → exec (.xeccInjectArm hi) s = .next (s.refuse 0x8F 2)) ∧
      (s.locked 0x8F = false → s.presence = true → ∃ u, exec (.xeccInjectArm hi) s = .next u ∧
        u.x = { s.x with inject := some ((s.fld F.XECC_INJECT_XA_LO_XA + 2 ^ 32 * hi.toNat) / 8, s.fld F.XECC_INJECT_MEM,
          s.fld F.XECC_INJECT_BITS, s.fld F.XECC_INJECT_AF == 1) } ∧ u.fld F.XECC_INJECT_XA_HI_XA = hi.toNat ∧ u = { s with x := u.x, regs := u.regs })) ∧
    (reachable s 0x88 = true → s.locked 0x88 = false → ∃ u, exec .xoideReset s = .next u ∧
      u.x = { XoideSt.init with lp := s.x.lp, hist := s.x.hist, dhist := s.x.dhist, errs := s.x.errs.filter (fun e => xaMem e.1 == .lpddr) } ∧
      (∀ k : Fin 16, blkGet u (0x80 + k.val) = {}) ∧
      (∀ q : Fin 5, (blkGet s (0x8A + q.val)).state = .run → u.fld (F.XMEM_STAT_SR q.val) = 1) ∧
      u.herv = { s.herv with xset := (if s.x.active.isSome then s.x.active else s.herv.xset) } ∧ u.ucie.memCpl = [] ∧
      (∀ m ∈ s.ucie.out, u.ucie.out.any (fun x => x.tag == m.tag && x.xa == xaLost) = true) ∧
      u.laneA = s.laneA ∧ u.laneB = s.laneB ∧ u.mrec = s.mrec ∧ u.time = s.time) ∧
    (reachable s 0x88 = true → s.locked 0x88 = true → exec .xoideReset s = .next (s.refuse 0x88 4)) ∧
    (reachable s 0x88 = false → exec .xoideReset s = .next (busErr s 0x88008 true)) ∧
    (∃ u, exec .packageRailLoss s = .next u ∧ u.pwr.pkgRail = false ∧ u.x = XoideSt.init ∧ u.herv.up = false ∧ u.herv.redfish = false ∧ u.herv.sram = [] ∧
      u.herv.img0 = s.herv.img0 ∧ u.herv.img1 = s.herv.img1 ∧ u.mrec.entries = [] ∧ u.mrec.running = false ∧ u.laneA = s.laneA ∧ u.laneB = s.laneB ∧ u.time = s.time ∧
      u.pwr.laneRail = s.pwr.laneRail ∧ (∀ a ∈ u.gov.admitted, a.item.cls ≠ .erg ∧ a.item.cls ≠ .lpddr))

/-- Feeds, hold-up and the lane rail (R63, R291–R293, R353, R355). Feed voltages are shown, SUPPLY_LOW limits Xoide to OPP4, and a single feed
outside its range is told to the lanes that compute; nothing else changes. Below 30 V on both feeds HOLDUP stops the package and the boost
converters. A lane at tick H + 384 writes its configuration, positions, epoch and closed events to flash and emits nothing more. A feed that
comes back in time ends HOLDUP and powers the package; later the lane rail goes. The loss of the lane rail leaves what flash, stores and fuses
hold. A feed gives the sequencer supply, and LANE_RAIL_UP, which needs it, is tick 0 and decides which module of a pair owns the field. -/
def Obligations.FeedsHoldupAndTheLaneRail : Prop :=
  ∀ (a b : BitVec 12) (s : State),
    (∃ u, exec (.oneFeed a b) s = .next u ∧ u.pwr.vinA = a.toNat ∧ u.pwr.vinB = b.toNat ∧ u.fld F.PWR_VIN_A = a.toNat ∧ u.fld F.PWR_VIN_B = b.toNat ∧ u.fld F.PWR_VIN_A_OK = b2n (feedOk a.toNat) ∧
      u.fld F.PWR_VIN_B_OK = b2n (feedOk b.toNat) ∧ u.fld F.PWR_STAT_ONE_FEED = b2n (feedOk a.toNat != feedOk b.toNat) ∧
      u.fld F.PWR_STAT_SUPPLY_LOW = b2n (decide (max a.toNat b.toNat < s.fld F.PWR_SUPPLY_CFG_LOW_TH)) ∧
      (∀ lane, (s.lane lane).votes = false → u.lane lane = s.lane lane) ∧
      u.pwr.oneFeed = (feedOk a.toNat != feedOk b.toNat) ∧ (∀ lane, (s.lane lane).votes = true → (u.lane lane).row.prot.oneFeed = (feedOk a.toNat != feedOk b.toNat)) ∧
      u.pwr.supplyLow = decide (max a.toNat b.toNat < s.fld F.PWR_SUPPLY_CFG_LOW_TH) ∧
      u.xopp.supplyLim = (if max a.toNat b.toNat < s.fld F.PWR_SUPPLY_CFG_LOW_TH then 4 else 0) ∧
      u = { s with pwr := u.pwr, regs := u.regs, xopp := u.xopp, hopp := u.hopp, laneA := u.laneA, laneB := u.laneB, mrec := u.mrec }) ∧
    (a.toNat < 1500 → b.toNat < 1500 → s.pwr.laneRail = true → s.pwr.holdup = false → ∃ u, exec (.holdup a b) s = .next u ∧ u.pwr.holdup = true ∧
      u.pwr.pkgRail = false ∧ u.pwr.laneRail = true ∧ u.x = XoideSt.init ∧ u.herv.up = false ∧ u.time = s.time ∧ (∀ c, c < 12 → (u.bank c).recharge = false) ∧
      ∀ lane, u.lane lane = (s.lane lane).onRow (rowOneFeed false)) ∧
    ((1500 ≤ a.toNat ∨ 1500 ≤ b.toNat ∨ s.pwr.laneRail = false ∨ s.pwr.holdup = true) → exec (.holdup a b) s = exec (.oneFeed a b) s) ∧
    (∃ u, exec .holdupFlashWrite s = .next u ∧ (∀ lane, pastHoldup s.time.count (s.lane lane) = true → (u.lane lane).actOut = none ∧ (u.lane lane).ethOut = none ∧
        (u.lane lane).flash.gen = (s.lane lane).core.gen ∧ (u.lane lane).flash.regs = (s.lane lane).row.regs ∧
        (u.lane lane).flash.epoch = (s.lane lane).row.slip.epochNow ∧ (u.lane lane).recd.flashNum = (s.lane lane).recd.ownNum ∧
        (u.lane lane).recd.flashLog = ((s.lane lane).recd.entries.filter (fun e => !e.opened)).drop (((s.lane lane).recd.entries.filter (fun e => !e.opened)).length - 1024) ∧
        (u.lane lane).row = (s.lane lane).row ∧ (u.lane lane).core = (s.lane lane).core) ∧
      (∀ lane, pastHoldup s.time.count (s.lane lane) = false → u.lane lane = s.lane lane) ∧ lanesOnly s u) ∧
    (s.pwr.holdup = true → (feedOk a.toNat = true ∨ feedOk b.toNat = true) →
      ((pastHoldup s.time.count s.laneA = false ∧ pastHoldup s.time.count s.laneB = false) → ∃ u, exec (.holdupClear a b) s = .next u ∧ u.pwr.holdup = false ∧
        u.pwr.pkgRail = true ∧ u.pwr.laneRail = s.pwr.laneRail ∧ u.time = s.time ∧ u.laneA.core = s.laneA.core ∧ u.laneB.core = s.laneB.core) ∧
      ((pastHoldup s.time.count s.laneA = true ∨ pastHoldup s.time.count s.laneB = true) → ∃ u, exec (.holdupClear a b) s = .next u ∧ u.pwr.holdup = false ∧
        u.pwr.laneRail = false ∧ u.laneA.core.mode = .boot ∧ u.laneB.core.mode = .boot)) ∧
    ((s.pwr.holdup = false ∨ (feedOk a.toNat = false ∧ feedOk b.toNat = false)) → exec (.holdupClear a b) s = exec (.oneFeed a b) s) ∧
    (∃ u, exec .laneRailLoss s = .next u ∧ u.pwr.laneRail = false ∧ u.pwr.holdup = false ∧ u.crvn = { CrvnSt.init with stored := s.crvn.stored } ∧
      (∀ lane, (u.lane lane).core = { LaneCore.init with gen := (s.lane lane).flash.gen } ∧ (u.lane lane).flash = (s.lane lane).flash ∧ (u.lane lane).actOut = none) ∧
      (∀ k, 0x10 ≤ k → k < 0x80 → blkGet u k = {}) ∧ blkGet u 0x110 = { en := true } ∧ blkGet u 0x111 = { en := true } ∧ u.chip0.powered = false ∧ u.chip1.powered = false ∧
      u.x = s.x ∧ u.herv = s.herv ∧ u.fuses = s.fuses ∧ u.mrec = s.mrec ∧ u.time = s.time) ∧
    ((feedOk a.toNat = true ∨ feedOk b.toNat = true) → ∃ v, exec (.oneFeed a b) s = .next v ∧
      exec (.feedUp a b) s = .next { v with pwr := { v.pwr with seqSupply := true } }) ∧
    (feedOk a.toNat = false → feedOk b.toNat = false → exec (.feedUp a b) s = exec (.oneFeed a b) s) ∧
    (∀ (slot peerLow present : Bool), s.pwr.seqSupply = true → s.pwr.laneRail = false → (feedOk s.pwr.vinA = true ∨ feedOk s.pwr.vinB = true) → ∃ u, exec (.laneRailUp slot peerLow present) s = .next u ∧ u.pwr.laneRail = true ∧ u.pwr.pkgRail = true ∧
      u.time.count = 0 ∧ u.time.tick = 0 ∧ u.time.frame = 0 ∧ u.laneA.core.mode = .boot ∧ u.laneB.core.mode = .boot ∧
      u.laneA.flash = s.laneA.flash ∧ u.laneB.flash = s.laneB.flash ∧ u.twin.slot = slot ∧ u.twin.peerOwn = peerLow ∧ u.fld F.PRES_STAT_IN_SLOT = b2n present ∧ (peerLow = true → u.twin.passive = true ∧ u.twin.owner = s.twin.owner) ∧
      (peerLow = false → slot = true → u.twin.waiting = true ∧ u.twin.passive = false) ∧
      (peerLow = false → slot = false → u.twin.owner = true ∧ u.chip0.powered = true ∧ u.chip1.powered = true) ∧ u.x = s.x) ∧
    (∀ (slot peerLow present : Bool), (s.pwr.seqSupply = false ∨ s.pwr.laneRail = true ∨ (feedOk s.pwr.vinA = false ∧ feedOk s.pwr.vinB = false)) → exec (.laneRailUp slot peerLow present) s = .next s)

/-- The frames of a pair (R306, R367, R368). The running module answers a REQ with ACCEPT while its AUTHORITY lane is well and neither lane is in
MERGE or LINK_DOWN. The twin takes one ACCEPT, which brings its booted lanes to RESYNC; then the 192 chunks in order, a LOG for its next tick,
the agreement of an INPUT's readings with its own, and the RHASH, GEN and SEQ of a STATUS; while it waits for its handover it latches the B of a
B_SET. The running module latches one HANDOVER for the next tick. A PAIR frame from any other source, of an older ring generation or of another
version is discarded and counted in DROP, one with a wrong check sequence in FCS; one for another node is passed on. -/
def Obligations.PairFramesCarryPairing : Prop :=
  ∀ (p : Fin 2) (h : CHdr) (lane : LaneId) (s : State),
    (pairHears s p.val h →
      (∀ (g : BitVec 8),
        (∀ id, authLane s = some id →
          (s.twin.owner = true → (s.lane id).core.stFail = false → s.laneA.core.merge = false → s.laneB.core.merge = false →
            s.laneA.core.linkDown = false → s.laneB.core.linkDown = false → ∃ u, exec (.pairReq p true h lane g) s = .next u ∧
            twinNow s u { s.twin with serving := true, served := 0, peerNode := h.src.toNat } ∧
            (∀ w n, route s h.src.toNat = some (w, n) → portState s (west2port w) = .run → (s.cport (west2port w)).line = none →
              (u.cport (west2port w)).line.map (fun f => (f.body, f.dst, f.bcast)) = some (.pair (laneNum id) (.accept (s.lane id).core.gen), h.src.toNat, false))) ∧
          ((s.twin.owner = false ∨ (s.lane id).core.stFail = true ∨ s.laneA.core.merge = true ∨ s.laneB.core.merge = true ∨
            s.laneA.core.linkDown = true ∨ s.laneB.core.linkDown = true) → exec (.pairReq p true h lane g) s = .next (txShow s))) ∧
        (authLane s = none → exec (.pairReq p true h lane g) s = .next (txShow s))) ∧
      (∀ (g : BitVec 8),
        (s.twin.passive = true → s.twin.accepted = false → ∃ u, exec (.pairAccept p true h lane g) s = .next u ∧
          u.twin = { s.twin with accepted := true, chunks := 0, missRun := 0, peerNode := h.src.toNat, peerGen := g.toNat } ∧
          (∀ id, (s.lane id).core.mode = .boot → (s.lane id).core.bootDone = true → u.lane id = goResync id (s.lane id)) ∧
          (∀ id, ((s.lane id).core.mode ≠ .boot ∨ (s.lane id).core.bootDone = false) → u.lane id = s.lane id) ∧
          u = { s with twin := u.twin, laneA := u.laneA, laneB := u.laneB, regs := u.regs }) ∧
        ((s.twin.passive = false ∨ s.twin.accepted = true) → exec (.pairAccept p true h lane g) s = .next (txShow s))) ∧
      (s.twin.passive = true → s.twin.accepted = true →
        (∀ (k : BitVec 16), k.toNat = s.twin.chunks → k.toNat < 192 → ∃ u, exec (.pairSnap p true h lane k) s = .next u ∧ twinNow s u { s.twin with chunks := k.toNat + 1 }) ∧
        (∀ (k : BitVec 16), (k.toNat ≠ s.twin.chunks ∨ 192 ≤ k.toNat) → exec (.pairSnap p true h lane k) s = .next (txShow s)) ∧
        (∃ u, exec (.pairLog p true h lane) s = .next u ∧ twinNow s u { s.twin with logs := s.twin.mirror + 1 }) ∧
        (∀ (e : List (Nat × Int)), e.all (pathAgrees (s.lane lane) lane) = true → ∃ u, exec (.pairInput p true h lane e) s = .next u ∧
          twinNow s u { s.twin with pathRun := min 2048 (s.twin.pathRun + 1), pathOk := s.twin.pathOk || decide (2048 ≤ s.twin.pathRun + 1) }) ∧
        (∀ (e : List (Nat × Int)), e.all (pathAgrees (s.lane lane) lane) = false → ∃ u, exec (.pairInput p true h lane e) s = .next u ∧
          twinNow s u { s.twin with pathRun := 0, pathOk := false }) ∧
        (∀ (claim : BitVec 16) (rhash : BitVec 64) (seq : Word), ∃ u, exec (.pairStatus p true h lane claim rhash seq) s = .next u ∧
          u.twin = { s.twin with statusIn := true, rhash := rhash.toNat, peerSeq := seq.toNat, peerGen := if claim.toNat = 0 then s.twin.peerGen else claim.toNat / 256 } ∧
          u.seqNow = seq.toNat ∧ u.time = { s.time with seqBase := u.time.seqBase } ∧ u = { s with twin := u.twin, time := u.time, regs := u.regs }) ∧
        (∀ (seq : Word) (fin : Bool),
          (s.twin.handing = true → ∃ u, exec (.pairBSet p true h lane seq fin) s = .next u ∧ twinNow s u { s.twin with bSeq := seq.toNat, bFinal := fin }) ∧
          (s.twin.handing = false → exec (.pairBSet p true h lane seq fin) s = .next (txShow s)))) ∧
      ((s.twin.passive = false ∨ s.twin.accepted = false) → ∀ (k : BitVec 16) (e : List (Nat × Int)) (claim : BitVec 16) (rhash : BitVec 64) (seq : Word) (fin : Bool), ∀ c,
        c = Instr.pairSnap p true h lane k ∨ c = Instr.pairLog p true h lane ∨ c = Instr.pairInput p true h lane e ∨
        c = Instr.pairStatus p true h lane claim rhash seq ∨ c = Instr.pairBSet p true h lane seq fin → exec c s = .next (txShow s)) ∧
      (∀ (g : BitVec 8),
        (s.twin.owner = true → s.twin.serving = true → s.twin.hand = none → ∃ u, exec (.pairHandover p true h lane g) s = .next u ∧
          twinNow s u { s.twin with hand := some (g.toNat, s.time.count + 1), bTick := none, sentFinal := false }) ∧
        ((s.twin.owner = false ∨ s.twin.serving = false ∨ s.twin.hand ≠ none) → exec (.pairHandover p true h lane g) s = .next (txShow s)))) ∧
    (∀ (ok : Bool) (g : BitVec 8) (k : BitVec 16) (e : List (Nat × Int)) (claim : BitVec 16) (rhash : BitVec 64) (seq : Word) (fin : Bool), ∀ c,
      c = Instr.pairReq p ok h lane g ∨ c = Instr.pairAccept p ok h lane g ∨ c = Instr.pairSnap p ok h lane k ∨ c = Instr.pairLog p ok h lane ∨
      c = Instr.pairInput p ok h lane e ∨ c = Instr.pairStatus p ok h lane claim rhash seq ∨ c = Instr.pairHandover p ok h lane g ∨
      c = Instr.pairBSet p ok h lane seq fin →
      (portState s p.val ≠ .run → exec c s = .next s) ∧
      (portState s p.val = .run → ok = false → exec c s = .next (s.satFld (F.CRVN_PORT_ERR_FCS p.val) 1)) ∧
      (portState s p.val = .run → ok = true → (h.version ≠ 1 ∨ knownType h.typ.toNat = false) → exec c s = .next (s.satFld (F.CRVN_PORT_ERR_DROP p.val) 1)) ∧
      (portHears s p.val h → ok = true →
        (older16 h.rgen.toNat (s.fld F.CRVN_RGEN_RGEN) = true → exec c s = .next (txShow (s.satFld (F.CRVN_PORT_ERR_DROP p.val) 1))) ∧
        (forThisNode s h → pairFrom s h.src.toNat = false → exec c s = .next (txShow (s.satFld (F.CRVN_PORT_ERR_DROP p.val) 1))) ∧
        (older16 h.rgen.toNat (s.fld F.CRVN_RGEN_RGEN) = false → h.bcast = false → ownAddr s ≠ some h.dst.toNat → ownAddr s ≠ some h.src.toNat → 2 ≤ h.ttl.toNat →
          (s.cport (1 - p.val)).linkUp = true → (s.cport (1 - p.val)).line = none → ∃ u, exec c s = .next u ∧
            (u.cport (1 - p.val)).line.map (fun f => (f.body.typ, f.ttl, f.dst)) = some (0x54, h.ttl.toNat - 1, h.dst.toNat) ∧
            u = { s with crvn := u.crvn, regs := u.regs })))

/-- The field and the twin (R366–R369, R388–R390). An accepted TWIN_CMD HANDOVER is refused with REFUSED_STATE unless the twin is paired and with
REFUSED_NET unless both ports run and PTP is locked; else it sends a HANDOVER that names GEN + 1. CANCEL ends the wait. A module in the second
slot takes the field after 16,384 ticks of a high PEER_OWN_N. Pairing needs both lanes in STANDBY and 2,048 ticks of path agreement; without PAIR
STATUS for 16 ticks the twin's lanes go to OUT, then BOOT, and pairing starts over. PEER_OWN_N is followed as at power-on by a module that
neither owns the field nor is paired. At B the running module releases the field and the twin takes it, lane A to take authority. An owner that
sees another owner in 8 ticks records it once, and in the second slot it releases the field unless it took it within 16 ticks. A module drawn
from its slot shows and records it. -/
def Obligations.TheFieldHasOneOwner : Prop :=
  ∀ (s : State),
    (s.laneOk 0x1C true = true → (s.laneA.votes = true ∨ s.laneB.votes = true) →
      ((s.twin.paired = false ∨ s.twin.handing = true) → exec .twinHandover s = .next { s with twin := { s.twin with result := 2 } }) ∧
      (s.twin.paired = true → s.twin.handing = false → ((blkGet s 0x78).state ≠ .run ∨ (blkGet s 0x79).state ≠ .run ∨ s.fld F.PTP_STAT_LOCKED ≠ 1) →
        exec .twinHandover s = .next { s with twin := { s.twin with result := 3 } }) ∧
      (s.twin.paired = true → s.twin.handing = false → (blkGet s 0x78).state = .run → (blkGet s 0x79).state = .run → s.fld F.PTP_STAT_LOCKED = 1 → ∃ u, exec .twinHandover s = .next u ∧
        twinNow s u { s.twin with handing := true, bSeq := 0, bFinal := false, result := 0 } ∧
        (∀ w n, route s s.twin.peerNode = some (w, n) → portState s (west2port w) = .run → (s.cport (west2port w)).line = none →
          (u.cport (west2port w)).line.map (fun f => (f.body, f.dst)) = some (.pair 0 (.handover ((s.laneA.core.gen + 1) % 256)), s.twin.peerNode)))) ∧
    ((s.laneOk 0x1C true = false ∨ (s.laneA.votes = false ∧ s.laneB.votes = false)) → exec .twinHandover s = .next s) ∧
    (s.laneOk 0x1C false = true → (s.laneA.votes = true ∨ s.laneB.votes = true) →
      (s.twin.handing = true → exec .twinCancel s = .next { s with twin := { s.twin with handing := false, bSeq := 0, bFinal := false, result := 1 } }) ∧
      (s.twin.handing = false → exec .twinCancel s = .next { s with twin := { s.twin with result := 1 } })) ∧
    ((s.laneOk 0x1C false = false ∨ (s.laneA.votes = false ∧ s.laneB.votes = false)) → exec .twinCancel s = .next s) ∧
    (s.twin.waiting = true → s.twin.peerOwn = false → 16384 ≤ s.twin.highRun → ∃ u, exec .secondSlotWait s = .next u ∧ u.twin = { s.twin with owner := true, passive := false, waiting := false } ∧
      u.chip0.powered = true ∧ u.chip1.powered = true ∧ u.laneA = s.laneA ∧ u.laneB = s.laneB ∧ u.time = s.time ∧ u.x = s.x ∧ u.herv = s.herv) ∧
    ((s.twin.waiting = false ∨ s.twin.peerOwn = true ∨ s.twin.highRun < 16384) → exec .secondSlotWait s = .next s) ∧
    (s.twin.passive = true → s.laneA.core.mode = .standby → s.laneB.core.mode = .standby → 2048 ≤ s.twin.pathRun →
      exec .paired s = .next { s with twin := { s.twin with paired := true, pathOk := true } }) ∧
    ((s.twin.passive = false ∨ s.laneA.core.mode ≠ .standby ∨ s.laneB.core.mode ≠ .standby ∨ s.twin.pathRun < 2048) → exec .paired s = .next s) ∧
    (s.twin.passive = true → s.twin.accepted = true → s.twin.peerOwn = true → 16 ≤ s.twin.missRun → ∃ u, exec .pairStatusLoss s = .next u ∧
      (∀ id, u.lane id = goBoot id (goOut id 3 (s.lane id))) ∧
      u.twin = pairReset { s.twin with result := if s.twin.handing then 4 else s.twin.result } ∧ u.twin.accepted = false ∧ u.twin.paired = false ∧ u.twin.handing = false ∧
      u = { s with twin := u.twin, laneA := u.laneA, laneB := u.laneB, gov := u.gov }) ∧
    ((s.twin.passive = false ∨ s.twin.accepted = false ∨ s.twin.peerOwn = false ∨ s.twin.missRun < 16) → exec .pairStatusLoss s = .next s) ∧
    (∀ (low : Bool), (s.twin.owner = true ∨ s.twin.released = true ∨ s.twin.paired = true) → exec (.peerOwnChange low) s = .next { s with twin := { s.twin with peerOwn := low } }) ∧
    (s.twin.owner = false → s.twin.released = false → s.twin.paired = false →
      (s.twin.waiting = true → exec (.peerOwnChange true) s = .next { s with twin := { s.twin with peerOwn := true, passive := true, waiting := false } }) ∧
      (s.twin.waiting = false → exec (.peerOwnChange true) s = .next { s with twin := { s.twin with peerOwn := true } }) ∧
      (s.twin.passive = false → exec (.peerOwnChange false) s = .next { s with twin := { s.twin with peerOwn := false } }) ∧
      (s.twin.passive = true → ∃ u, exec (.peerOwnChange false) s = .next u ∧ u.twin.peerOwn = false ∧
        u.twin.passive = false ∧ u.twin.accepted = false ∧ u.laneA.core.mode = .boot ∧ u.laneB.core.mode = .boot ∧
        (s.twin.slot = true → u.twin.waiting = true ∧ u.twin.highRun = 0 ∧ u.twin.owner = false) ∧
        (s.twin.slot = false → u.twin.owner = true ∧ u.chip0.powered = true ∧ u.chip1.powered = true) ∧ u.time = s.time ∧ u.x = s.x)) ∧
    (s.twin.owner = true → s.twin.sentFinal = true → ∀ b, s.twin.bTick = some b → b ≤ s.time.count → ∃ u, exec .handoverBoundary s = .next u ∧
      u.twin = { s.twin with owner := false, released := true, serving := false, hand := none, bTick := none, sentFinal := false } ∧
      (∀ id, (s.lane id).core.mode ≠ .out → u.lane id = goOut id 3 (s.lane id)) ∧ (∀ id, (s.lane id).core.mode = .out → u.lane id = s.lane id) ∧
      u.chip0.powered = false ∧ u.chip1.powered = false ∧ u.time = s.time ∧ u.x = s.x ∧ u.herv = s.herv) ∧
    (s.twin.owner = false → s.twin.passive = true → s.twin.paired = true → s.twin.handing = true → s.twin.bFinal = true → (s.seqNow = s.twin.bSeq ∨ seqNewer s.seqNow s.twin.bSeq = true) → ∃ u, exec .handoverBoundary s = .next u ∧
      u.twin.owner = true ∧ u.twin.passive = false ∧ u.twin.paired = false ∧ u.twin.result = 1 ∧ u.twin.bSeq = s.twin.bSeq ∧ u.twin.tookAt = some s.time.count ∧
      u.laneA = { s.laneA with core := { s.laneA.core with takeoverCmd := true } } ∧ u.laneB = s.laneB ∧
      u.chip0.powered = true ∧ u.chip1.powered = true ∧ u.time = s.time ∧ u.x = s.x ∧ u.herv = s.herv) ∧
    ((s.twin.owner = false ∨ s.twin.sentFinal = false ∨ s.twin.bTick.all (fun b => decide (s.time.count < b)) = true) →
      (s.twin.passive = false ∨ s.twin.paired = false ∨ s.twin.handing = false ∨ s.twin.bFinal = false ∨ (s.seqNow ≠ s.twin.bSeq ∧ seqNewer s.seqNow s.twin.bSeq = false)) →
      exec .handoverBoundary s = .next s) ∧
    (s.twin.owner = true → s.twin.lowRun = 8 →
      (s.twin.slot = false ∨ s.twin.tookAt.any (fun t => decide (s.time.count ≤ t + 16)) = true →
        exec .peerOwnConflict s = .next ({ s with twin := { s.twin with lowRun := 9 } }.note 7 6 0xA1 0xFFFF Ev.peerOwn 0)) ∧
      (s.twin.slot = true → s.twin.tookAt.any (fun t => decide (s.time.count ≤ t + 16)) = false → ∃ u, exec .peerOwnConflict s = .next u ∧ u.twin.owner = false ∧ u.twin.released = true ∧
        u.twin.lowRun = 9 ∧ u.mrec = (s.note 7 6 0xA1 0xFFFF Ev.peerOwn 0).mrec ∧ u.chip0.powered = false ∧ u.chip1.powered = false ∧ u.laneA.core.mode = .out ∧ u.laneB.core.mode = .out ∧ u.time = s.time)) ∧
    ((s.twin.owner = false ∨ s.twin.lowRun ≠ 8) → exec .peerOwnConflict s = .next s) ∧
    (s.fld F.PRES_STAT_IN_SLOT = 1 → exec .slotRemoval s = .next ((s.setFld F.PRES_STAT_IN_SLOT 0).note 7 6 0xA1 0 Ev.slotRemoved 0) ∧
      (s.setFld F.PRES_STAT_IN_SLOT 0).fld F.PRES_STAT_IN_SLOT = 0) ∧
    (s.fld F.PRES_STAT_IN_SLOT = 0 → exec .slotRemoval s = .next s)

/-- Flits of the UCIe link (R312–R316). A flit on the module its sender puts it on, next in sequence, is taken: its number is acknowledged and
what it acknowledges is dropped. One whose CRC fails is counted and not taken, and eight such within 1,024 flit times retrain the module; one out
of sequence is not taken. REG_RD and REG_WR reach Xoide's pages alone; MEM_RD and MEM_WR of a legal LEN are accesses, at most 256 outstanding,
performed at once on shared SRAM, and a quadrant in self-refresh is asked for; completions bring Hervi the STATUS and up to 224 bytes; IRQ
carries a page's request; an unknown KIND is counted; a replay drops what is acknowledged. -/
def Obligations.FlitsAreTakenInSequence : Prop :=
  ∀ (h : FlitHdr) (s : State),
    (∀ (toHervi : Bool) (kind : BitVec 8),
      (flitTaken s toHervi h.mod.val h →
        (kind.toNat ≤ 7 → exec (.idle h toHervi kind) s = .next (afterFlit toHervi h s)) ∧
        (7 < kind.toNat → exec (.idle h toHervi kind) s = .next ((afterFlit toHervi h s).satFld F.UCIE_ERR_BAD 1)) ∧
        (if toHervi then ((afterFlit toHervi h s).umod h.mod.val).ackX else ((afterFlit toHervi h s).umod h.mod.val).ackH) = h.fseq.toNat) ∧
      ((s.umod h.mod.val).up = false → exec (.idle h toHervi kind) s = .next s) ∧
      ((s.umod h.mod.val).up = true → h.crcOk = false → ∃ u, exec (.idle h toHervi kind) s = .next u ∧
        u.fld F.UCIE_ERR_CRC = min 65535 (s.fld F.UCIE_ERR_CRC + 1) ∧
        (u.umod h.mod.val).ackX = (s.umod h.mod.val).ackX ∧ (u.umod h.mod.val).ackH = (s.umod h.mod.val).ackH ∧ u.ucie.regCpl = s.ucie.regCpl ∧
        u.ucie.memCpl = s.ucie.memCpl ∧ u.ucie.out = s.ucie.out ∧ u.x = s.x ∧
        (((s.umod h.mod.val).naks.filter (fun t => decide ((s.umod h.mod.val).flits + 1 < t + 1024))).length < 7 →
          (u.umod h.mod.val).up = true ∧ u = { s with ucie := u.ucie, regs := u.regs }) ∧
        (7 ≤ ((s.umod h.mod.val).naks.filter (fun t => decide ((s.umod h.mod.val).flits + 1 < t + 1024))).length →
          (u.umod h.mod.val).up = false ∧ u.fld F.UCIE_STAT_RETRAINS = min 65535 (s.fld F.UCIE_STAT_RETRAINS + 1))) ∧
      ((s.umod h.mod.val).up = true → h.crcOk = true →
        h.fseq.toNat ≠ ((if toHervi then (s.umod h.mod.val).ackX else (s.umod h.mod.val).ackH) + 1) % 4096 → exec (.idle h toHervi kind) s =
        .next (s.setUmod h.mod.val (flitAck toHervi h (flitSent toHervi h.fseq.toNat { s.umod h.mod.val with flits := (s.umod h.mod.val).flits + 1 }))))) ∧
    (∀ (a : BitVec 20) (d : Word), ∀ c, c = Instr.regRd h a ∨ c = Instr.regWr h a d →
      (h.mod.val ≠ flitPlace s none → exec c s = .next s) ∧
      ((h.crcOk = false ∨ h.fseq.toNat ≠ ((s.umod h.mod.val).ackH + 1) % 4096) → h.mod.val = flitPlace s none → exec c s = exec (.idle h false 0) s)) ∧
    (∀ (xa : BitVec 40) (len : BitVec 16) (b : List (BitVec 8)), ∀ c, c = Instr.memRd h xa len ∨ c = Instr.memWr h xa b →
      (h.mod.val ≠ flitPlace s (some xa.toNat) → exec c s = .next s) ∧
      ((h.crcOk = false ∨ h.fseq.toNat ≠ ((s.umod h.mod.val).ackH + 1) % 4096) → h.mod.val = flitPlace s (some xa.toNat) → exec c s = exec (.idle h false 0) s)) ∧
    (∀ (page : BitVec 8), ∀ c, c = Instr.regCpl h ∨ c = Instr.irq h page →
      (h.mod.val ≠ flitPlace s none → exec c s = .next s) ∧
      ((h.crcOk = false ∨ h.fseq.toNat ≠ ((s.umod h.mod.val).ackX + 1) % 4096) → h.mod.val = flitPlace s none → exec c s = exec (.idle h true 0) s)) ∧
    (flitTaken s false (flitPlace s none) h →
      (∀ (a : BitVec 20), isXPage a.toNat = true → ∃ u, exec (.regRd h a) s = .next u ∧
        u.ucie = { (afterFlit false h s).ucie with regCpl := s.ucie.regCpl ++
          [⟨h.tag.toNat, 0, leBytes 4 (readWide (afterFlit false h s) (a.toNat / 0x1000 % 256) (a.toNat / 4 * 4 % 0x1000)).1, false, 0⟩] } ∧
        u = { s with ucie := u.ucie, hilo := u.hilo }) ∧
      (∀ (a : BitVec 20), isXPage a.toNat = false →
        exec (.regRd h a) s = .next (regCplPut ⟨h.tag.toNat, 2, [0, 0, 0, 0], false, 0⟩ (afterFlit false h s))) ∧
      (∀ (a : BitVec 20) (d : Word),
        (isXPage a.toNat = true → exec (.regWr h a d) s = .next (regCplPut ⟨h.tag.toNat, 0, [], false, 0⟩ (write32 (a.toNat / 4 * 4) d.toNat (afterFlit false h s)))) ∧
        (isXPage a.toNat = false → exec (.regWr h a d) s = .next (regCplPut ⟨h.tag.toNat, 2, [], false, 0⟩ (afterFlit false h s))))) ∧
    (∀ (xa : BitVec 40), flitTaken s false (flitPlace s (some xa.toNat)) h →
      (∀ (len : BitVec 16),
        ((len.toNat % 32 ≠ 0 ∨ len.toNat = 0 ∨ 4096 < len.toNat) → exec (.memRd h xa len) s = .next (afterFlit false h s)) ∧
        (len.toNat % 32 = 0 → len.toNat ≠ 0 → len.toNat ≤ 4096 →
          exec (.memRd h xa len) s = .next (memAccess ⟨h.tag.toNat, xa.toNat, false, [], len.toNat⟩ (afterFlit false h s)) ∧
          (256 ≤ s.ucie.out.length + s.ucie.memCpl.length → exec (.memRd h xa len) s = .next (afterFlit false h s)) ∧
          (sharedAccess s xa.toNat len.toNat → ∃ u, exec (.memRd h xa len) s = .next u ∧
            u.ucie = { (afterFlit false h s).ucie with memCpl := s.ucie.memCpl ++ [⟨h.tag.toNat, 0, leBytes len.toNat (xaBytes s xa.toNat len.toNat), false, xa.toNat⟩] } ∧
            u = { s with ucie := u.ucie }))) ∧
      (∀ (q : Fin 5), xaMem (xa.toNat / 8) = .lpddr → xaQuad (xa.toNat / 8) = q.val → xa.toNat % 32 = 0 → (blkGet s (0x8A + q.val)).state = .run →
        s.fld (F.XMEM_STAT_SR q.val) = 1 → s.ucie.out = [] → s.ucie.memCpl.length < 256 → s.gov.raised = [] → s.gov.queue = [] → ∃ u, exec (.memRd h xa 32) s = .next u ∧
        u.ucie.out = [⟨h.tag.toNat, xa.toNat, false, [], 32⟩] ∧ u.ucie.memCpl = s.ucie.memCpl ∧ bitOf u.ucie.awake q.val = true ∧
        u.gov = { s.gov with raised := [⟨⟨.lpddr, q.val⟩, 0, false⟩] } ∧ u = { s with ucie := u.ucie, gov := u.gov, blk := u.blk }) ∧
      (∀ (b : List (BitVec 8)),
        ((b.length % 32 ≠ 0 ∨ b.length = 0 ∨ 224 < b.length) → exec (.memWr h xa b) s = .next (afterFlit false h s)) ∧
        (b.length % 32 = 0 → b.length ≠ 0 → b.length ≤ 224 →
          exec (.memWr h xa b) s = .next (memAccess ⟨h.tag.toNat, xa.toNat, true, b.map BitVec.toNat, 0⟩ (afterFlit false h s)) ∧
          (256 ≤ s.ucie.out.length + s.ucie.memCpl.length → exec (.memWr h xa b) s = .next (afterFlit false h s)) ∧
          (sharedAccess s xa.toNat b.length → ∃ u, exec (.memWr h xa b) s = .next u ∧
            u.ucie = { (afterFlit false h s).ucie with memCpl := s.ucie.memCpl ++ [⟨h.tag.toNat, 0, [], false, xa.toNat⟩] } ∧
            (∀ k, k < b.length / 8 → xaGet u (xa.toNat / 8 + k) = leAt (b.map BitVec.toNat) (8 * k) 8) ∧
            (∀ w, xaShared ≤ w → w < xaSharedEnd → (w < xa.toNat / 8 ∨ xa.toNat / 8 + b.length / 8 ≤ w) → xaGet u w = xaGet s w) ∧
            u = { s with ucie := u.ucie, x := { s.x with shared := u.x.shared }, ingest := u.ingest })))) ∧
    (flitTaken s true (flitPlace s none) h →
      (s.ucie.regCpl.find? (fun c => c.tag == h.tag.toNat) = none → exec (.regCpl h) s = .next (afterFlit true h s)) ∧
      (∀ c, s.ucie.regCpl.find? (fun c => c.tag == h.tag.toNat) = some c → ∃ u, exec (.regCpl h) s = .next u ∧
        u.rdData = (if c.data = [] then s.rdData else leNum c.data) ∧
        u.ucie = { (afterFlit true h s).ucie with regCpl := s.ucie.regCpl.filter (fun x => x != c), status := c.status } ∧
        u = { s with ucie := u.ucie, rdData := u.rdData }) ∧
      (∀ (page : BitVec 8),
        (0x80 ≤ page.toNat → page.toNat ≤ 0x8F → ∃ u, exec (.irq h page) s = .next u ∧ bitOf u.ucie.irqs (page.toNat - 0x80) = s.irqReq page.toNat ∧
          u.ucie = { (afterFlit true h s).ucie with irqs := u.ucie.irqs } ∧ u = { s with ucie := u.ucie }) ∧
        ((page.toNat < 0x80 ∨ 0x8F < page.toNat) → exec (.irq h page) s = .next (afterFlit true h s)))) ∧
    (flitTaken s true (flitPlace s (cplXa s h.tag.toNat)) h →
      (s.ucie.memCpl.find? (fun c => c.tag == h.tag.toNat) = none → exec (.memCpl h) s = .next (afterFlit true h s)) ∧
      (∀ c, s.ucie.memCpl.find? (fun c => c.tag == h.tag.toNat) = some c →
        (c.data.length ≤ 224 → exec (.memCpl h) s = .next { s with ucie := { (afterFlit true h s).ucie with
          memData := (if c.data = [] then s.ucie.memData else if c.begun then s.ucie.memData ++ c.data else c.data),
          memCpl := s.ucie.memCpl.filter (fun x => x != c), status := c.status } }) ∧
        (224 < c.data.length → exec (.memCpl h) s = .next { s with ucie := { (afterFlit true h s).ucie with
          memData := (if c.begun then s.ucie.memData else []) ++ c.data.take 224,
          memCpl := s.ucie.memCpl.map (fun x => if x = c then { c with data := c.data.drop 224, begun := true, xa := c.xa + 224 } else x), status := c.status } }))) ∧
    (h.mod.val ≠ flitPlace s (cplXa s h.tag.toNat) → exec (.memCpl h) s = .next s) ∧
    (h.mod.val = flitPlace s (cplXa s h.tag.toNat) → (h.crcOk = false ∨ h.fseq.toNat ≠ ((s.umod h.mod.val).ackX + 1) % 4096) → exec (.memCpl h) s = exec (.idle h true 0) s) ∧
    (∀ (mod : Fin 2) (toHervi : Bool) (ack : BitVec 12),
      ((s.umod mod.val).up = true → ∃ u, exec (.flitReplay mod toHervi ack) s = .next u ∧
        (toHervi = true → u.umod mod.val = { s.umod mod.val with keptX := (s.umod mod.val).keptX.filter (seqAfter ack.toNat) }) ∧
        (toHervi = false → u.umod mod.val = { s.umod mod.val with keptH := (s.umod mod.val).keptH.filter (seqAfter ack.toNat) }) ∧
        u.umod (1 - mod.val) = s.umod (1 - mod.val) ∧
        u.fld F.UCIE_ERR_REPLAY = min 255 (s.fld F.UCIE_ERR_REPLAY + 1) ∧ u = { s with ucie := { s.ucie with m0 := u.ucie.m0, m1 := u.ucie.m1 }, regs := u.regs }) ∧
      ((s.umod mod.val).up = false → exec (.flitReplay mod toHervi ack) s = .next s))

/-- The link's modules and timeouts, the clock and the ports (R13, R91, R312–R314, R316, R322, R324). A module retrains alone while the other
carries the link, and with both down the link is in FAULT. A memory access that does not complete returns zeros, or its write is discarded, with
STATUS 03h and is counted. A quadrant no access of Hervi needs goes back to self-refresh once the ergs sleep. PTP locks on 16 consecutive Syncs
within 50 ns and unlocks on 4 beyond 500 ns or 32,768 ticks of silence, and a LOCKED follower's seconds are the grandmaster's; the grandmaster is
LOCKED and takes no Sync. A port that loses its link, or 4 ticks of frames, loses PATH_OK; a port without link hears nothing until it runs again.
-/
def Obligations.TheLinkTheClockAndThePorts : Prop :=
  ∀ (s : State),
    (∀ (m : Fin 2), (s.umod m.val).up = true → ∃ u, exec (.ucieRetrain m) s = .next u ∧
      u.umod m.val = { s.umod m.val with up := false, keptX := [], keptH := [], naks := [] } ∧
      u.umod (1 - m.val) = s.umod (1 - m.val) ∧ u.fld F.UCIE_STAT_RETRAINS = min 65535 (s.fld F.UCIE_STAT_RETRAINS + 1) ∧
      u.fld F.UCIE_STAT_DEGRADED = b2n (s.umod (1 - m.val)).up ∧
      ((s.umod (1 - m.val)).up = true → u = { s with ucie := u.ucie, regs := u.regs }) ∧
      ((s.umod (1 - m.val)).up = false → (blkGet u 0x90).state = .fault) ∧ u.x = s.x ∧ u.laneA = s.laneA ∧ u.laneB = s.laneB ∧ u.time = s.time) ∧
    (∀ (m : Fin 2), (s.umod m.val).up = false →
      ((blkGet s 0x90).state = .off → exec (.ucieRetrain m) s = .next s) ∧
      ((blkGet s 0x90).state ≠ .off → ∃ u, exec (.ucieRetrain m) s = .next u ∧ u.fld F.UCIE_STAT_RETRAINS = min 65535 (s.fld F.UCIE_STAT_RETRAINS + 1) ∧
        u = { s with regs := u.regs })) ∧
    (∀ (m : Fin 2), (blkGet s 0x90).state ≠ .off → ∃ u, exec (.ucieRetrainComplete m true) s = .next u ∧ u.umod m.val = { s.umod m.val with up := true } ∧
      u.umod (1 - m.val) = s.umod (1 - m.val) ∧ u.fld F.UCIE_STAT_DEGRADED = b2n (!(s.umod (1 - m.val)).up) ∧ u = { s with ucie := u.ucie, regs := u.regs }) ∧
    (∀ (m : Fin 2) (ok : Bool), (ok = false ∨ (blkGet s 0x90).state = .off) → exec (.ucieRetrainComplete m ok) s = .next s) ∧
    (∀ (tag : BitVec 8),
      (∀ m, s.ucie.out.find? (fun m => m.tag == tag.toNat) = some m → ∃ u, exec (.ucieMemoryTimeout tag) s = .next u ∧
        u.ucie = { s.ucie with out := s.ucie.out.filter (fun x => x != m), memData := if m.write then s.ucie.memData else List.replicate m.len 0, status := 3 } ∧
        u.fld F.UCIE_TIMEOUT_COUNT = min 65535 (s.fld F.UCIE_TIMEOUT_COUNT + 1) ∧ u = { s with ucie := u.ucie, regs := u.regs }) ∧
      (s.ucie.out.find? (fun m => m.tag == tag.toNat) = none → ∀ c, s.ucie.memCpl.find? (fun c => c.tag == tag.toNat) = some c → ∃ u, exec (.ucieMemoryTimeout tag) s = .next u ∧
        u.ucie = { s.ucie with memCpl := s.ucie.memCpl.filter (fun x => x != c), memData := if c.data = [] then s.ucie.memData else List.replicate c.data.length 0, status := 3 } ∧
        u.fld F.UCIE_TIMEOUT_COUNT = min 65535 (s.fld F.UCIE_TIMEOUT_COUNT + 1) ∧ u = { s with ucie := u.ucie, regs := u.regs }) ∧
      (s.ucie.out.find? (fun m => m.tag == tag.toNat) = none → s.ucie.memCpl.find? (fun c => c.tag == tag.toNat) = none → exec (.ucieMemoryTimeout tag) s = .next s)) ∧
    (∀ (q : Fin 5), bitOf s.ucie.awake q.val = true → s.ucie.out.any (fun m => (accWords m).any (fun w => xaMem w == .lpddr && xaQuad w == q.val)) = false →
      (ergsAsleep s = true → (blkGet s (0x8A + q.val)).state = .run → s.fld (F.XMEM_STAT_SR q.val) = 0 → ∃ u, exec (.quadrantIdleTimeout q) s = .next u ∧
        u.fld (F.XMEM_STAT_SR q.val) = 1 ∧ (blkGet u (0x8A + q.val)).state = .run ∧ (blkGet u (0x8A + q.val)).granted = false ∧
        u.ucie = { s.ucie with awake := u.ucie.awake } ∧ bitOf u.ucie.awake q.val = false ∧ u.x = s.x ∧ u.time = s.time ∧ u.laneA = s.laneA ∧ u.laneB = s.laneB) ∧
      ((ergsAsleep s = false ∨ (blkGet s (0x8A + q.val)).state ≠ .run ∨ s.fld (F.XMEM_STAT_SR q.val) ≠ 0) → exec (.quadrantIdleTimeout q) s =
        .next { s with ucie := { s.ucie with awake := clrBitN s.ucie.awake q.val } })) ∧
    (∀ (q : Fin 5), (bitOf s.ucie.awake q.val = false ∨ s.ucie.out.any (fun m => (accWords m).any (fun w => xaMem w == .lpddr && xaQuad w == q.val)) = true) →
      exec (.quadrantIdleTimeout q) s = .next s) ∧
    (∀ (p : Fin 2) (o : Int) (path : Nat) (sec : BitVec 48), (s.eth p.val).link = true → s.fld F.PTP_STAT_GM = 0 → ∃ u, exec (.ptpSync p o ⟨path, sec⟩) s = .next u ∧
      u.ptp.goodRun = (if -50 ≤ o ∧ o ≤ 50 then s.ptp.goodRun + 1 else 0) ∧ u.ptp.badRun = (if o < -500 ∨ 500 < o then s.ptp.badRun + 1 else 0) ∧ u.ptp.since = 0 ∧
      (15 ≤ s.ptp.goodRun → -50 ≤ o → o ≤ 50 → u.fld F.PTP_STAT_LOCKED = 1 ∧ u.fld F.CLK_AON_PTP_LOCK = 1 ∧ u.fld F.CLK_AON_XTAL_ONLY = 0) ∧
      (3 ≤ s.ptp.badRun → (o < -500 ∨ 500 < o) → u.fld F.PTP_STAT_LOCKED = 0 ∧ u.fld F.CLK_AON_PTP_LOCK = 0 ∧ u.fld F.CLK_AON_XTAL_ONLY = 1) ∧
      ((s.ptp.goodRun < 15 ∨ o < -50 ∨ 50 < o) → (s.ptp.badRun < 3 ∨ (-500 ≤ o ∧ o ≤ 500)) → u.fld F.PTP_STAT_LOCKED = s.fld F.PTP_STAT_LOCKED) ∧
      u.fld F.PTP_PATH_NS = min path 0xFFFFFFFF ∧ u.time = { s.time with sec := if u.fld F.PTP_STAT_LOCKED = 1 then sec.toNat else s.time.sec } ∧
      u = { s with ptp := u.ptp, regs := u.regs, time := u.time }) ∧
    (∀ (p : Fin 2) (o : Int) (path : Nat) (sec : BitVec 48), (s.eth p.val).link = true → s.fld F.PTP_STAT_GM = 1 → exec (.ptpSync p o ⟨path, sec⟩) s = .next s) ∧
    (s.fld F.PTP_STAT_GM = 0 → 32768 ≤ s.ptp.since → ∃ u, exec .ptpSyncTimeout s = .next u ∧ u.fld F.PTP_STAT_LOCKED = 0 ∧ u.fld F.CLK_AON_PTP_LOCK = 0 ∧
      u.fld F.CLK_AON_XTAL_ONLY = 1 ∧ u = { s with regs := u.regs }) ∧
    ((s.fld F.PTP_STAT_GM ≠ 0 ∨ s.ptp.since < 32768) → exec .ptpSyncTimeout s = .next s) ∧
    (∀ (p : Fin 2) (gm : Bool) (s0 s1 : BitVec 4) (d : Option Nat), (s.eth p.val).link = true → ∃ u, exec (.ptpMessage p gm s0 s1 d) s = .next u ∧
      u.fld F.PTP_STAT_PORT0 = s0.toNat ∧ u.fld F.PTP_STAT_PORT1 = s1.toNat ∧
      u.fld F.PTP_PATH_NS = (match d with | some n => min n 0xFFFFFFFF | none => s.fld F.PTP_PATH_NS) ∧
      ((s.fld F.PTP_CFG_ROLE = 1 ∨ (s.fld F.PTP_CFG_ROLE = 2 ∧ gm = true)) → u.fld F.PTP_STAT_GM = 1 ∧ u.fld F.PTP_STAT_LOCKED = 1 ∧ u.ptp = s.ptp) ∧
      ((s.fld F.PTP_CFG_ROLE ≠ 1 ∧ (s.fld F.PTP_CFG_ROLE ≠ 2 ∨ gm = false)) → u.fld F.PTP_STAT_GM = 0 ∧
        (s.fld F.PTP_STAT_GM = 1 → u.fld F.PTP_STAT_LOCKED = 0 ∧ u.ptp = ⟨0, 0, 0⟩) ∧
        (s.fld F.PTP_STAT_GM = 0 → u.fld F.PTP_STAT_LOCKED = s.fld F.PTP_STAT_LOCKED ∧ u.ptp = s.ptp)) ∧
      u = { s with ptp := u.ptp, regs := u.regs }) ∧
    (∀ (p : Fin 2) (o : Int) (path : Nat) (sec : BitVec 48) (gm : Bool) (s0 s1 : BitVec 4) (d : Option Nat), (s.eth p.val).link = false → ∀ c,
      c = Instr.ptpSync p o ⟨path, sec⟩ ∨ c = Instr.ptpMessage p gm s0 s1 d →
      ((blkGet s (0x78 + p.val)).state ≠ .run → exec c s = .next s) ∧
      ((blkGet s (0x78 + p.val)).state = .run → exec c s = exec c ((s.setEth p.val { s.eth p.val with link := true }).setFld (F.ETH_STAT_LINK p.val) 1))) ∧
    (∀ (p : Fin 2),
      (∃ u, exec (.ethLinkLoss p true) s = .next u ∧ u.eth p.val = { s.eth p.val with link := false } ∧ u.eth (1 - p.val) = s.eth (1 - p.val) ∧
        u.fld (F.ETH_STAT_LINK p.val) = 0 ∧ u.fld (F.ETH_STAT_PATH_OK p.val) = 0 ∧ u = { s with eth0 := u.eth0, eth1 := u.eth1, regs := u.regs }) ∧
      (4 ≤ (s.eth p.val).missRun → ∃ u, exec (.ethLinkLoss p false) s = .next u ∧ u.fld (F.ETH_STAT_PATH_OK p.val) = 0 ∧ u = { s with regs := u.regs }) ∧
      ((s.eth p.val).missRun < 4 → exec (.ethLinkLoss p false) s = .next s))

/-- Hervi's services (R216, R290, R318, R320). A GET answers what the resource holds, or 404; a PATCH of a configured rack or slot queues its
lane-write batches behind every earlier request and, with nothing before it, sends the first into the mailbox, and any other is answered 404;
subscriptions come and go; a shutdown request goes to every subscriber of a rack new in CAPC_OFF; an update puts a Hervi image beside the running
one and restarts, an Xoide image behind a LOCK and a reset of Xoide, and takes a policy image that verifies; without Redfish nothing is answered.
-/
def Obligations.RedfishAnswersAndAsksTheLanes : Prop :=
  ∀ (s : State),
    (∀ (res : RedRes), s.herv.redfish = true →
      (∀ b, redBody s res = some b → exec (.redfishGet res) s = .next { s with herv := { s.herv with status := 200, answer := b } }) ∧
      (redBody s res = none → exec (.redfishGet res) s = .next { s with herv := { s.herv with status := 404, answer := [] } })) ∧
    (∀ (rack : Fin 24) (share : Option (BitVec 16)), s.herv.redfish = true → rackConf s rack.val = true →
      exec (.redfishBudgetPatch rack share) s =
        .next (hervPump { s with herv := { s.herv with reqs := s.herv.reqs ++ [⟨0, budgetBatches rack.val (setPoint share), false⟩], status := 0, answer := [] } }) ∧
      (s.herv.up = true → s.herv.reqs = [] → s.fld F.SYS_MBOX_STAT_BUSY = 0 →
        ∃ u, exec (.redfishBudgetPatch rack share) s = .next u ∧ u.fld F.SYS_MBOX_STAT_BUSY = 1 ∧ u.fld F.SYS_MBOX_STAT_DONE = 0 ∧
          u.herv.reqs = [⟨0, budgetBatches rack.val (setPoint share), true⟩] ∧
          u.mbox.flight = some ⟨u.herv.tag, gatherEntry true :: ptrEntry (96 * rack.val) :: shareEntries (setPoint share) 6⟩ ∧
          u = { s with herv := { s.herv with reqs := u.herv.reqs, tag := u.herv.tag, status := 0, answer := [] }, mbox := { s.mbox with flight := u.mbox.flight }, regs := u.regs }) ∧
      ((s.herv.up = false ∨ s.fld F.SYS_MBOX_STAT_BUSY = 1) → exec (.redfishBudgetPatch rack share) s =
        .next { s with herv := { s.herv with reqs := s.herv.reqs ++ [⟨0, budgetBatches rack.val (setPoint share), false⟩], status := 0, answer := [] } })) ∧
    (∀ (rack : Fin 24) (share : Option (BitVec 16)), s.herv.redfish = true → rackConf s rack.val = false →
      exec (.redfishBudgetPatch rack share) s = .next { s with herv := { s.herv with status := 404, answer := [] } }) ∧
    (∀ (rack : Fin 24) (slot : Fin 96) (share : Option (BitVec 16)), s.herv.redfish = true → slotConf s rack.val slot.val = true →
      exec (.redfishPkgPatch rack slot share) s =
        .next (hervPump { s with herv := { s.herv with reqs := s.herv.reqs ++ [⟨0, pkgBatches (96 * rack.val + slot.val) (setPoint share), false⟩], status := 0, answer := [] } }) ∧
      (s.herv.up = true → s.herv.reqs = [] → s.fld F.SYS_MBOX_STAT_BUSY = 0 → ∃ u, exec (.redfishPkgPatch rack slot share) s = .next u ∧ u.fld F.SYS_MBOX_STAT_BUSY = 1 ∧ u.fld F.SYS_MBOX_STAT_DONE = 0 ∧
        u.mbox.flight = some ⟨u.herv.tag, [gatherEntry true, ptrEntry (96 * rack.val + slot.val), shareEntry (setPoint share) 0, gatherEntry false]⟩ ∧
        u.herv.reqs = [⟨0, pkgBatches (96 * rack.val + slot.val) (setPoint share), true⟩] ∧
        u = { s with herv := { s.herv with reqs := u.herv.reqs, tag := u.herv.tag, status := 0, answer := [] }, mbox := { s.mbox with flight := u.mbox.flight }, regs := u.regs }) ∧
      ((s.herv.up = false ∨ s.fld F.SYS_MBOX_STAT_BUSY = 1) → exec (.redfishPkgPatch rack slot share) s =
        .next { s with herv := { s.herv with reqs := s.herv.reqs ++ [⟨0, pkgBatches (96 * rack.val + slot.val) (setPoint share), false⟩], status := 0, answer := [] } })) ∧
    (∀ (rack : Fin 24) (slot : Fin 96) (share : Option (BitVec 16)), s.herv.redfish = true → slotConf s rack.val slot.val = false →
      exec (.redfishPkgPatch rack slot share) s = .next { s with herv := { s.herv with status := 404, answer := [] } }) ∧
    (∀ (kinds : BitVec 3) (racks : BitVec 24), s.herv.redfish = true → exec (.redfishSubscribe kinds racks) s = .next { s with herv := {
      s.herv with
      subs := s.herv.subs ++ [⟨s.herv.nextSub, kinds.toNat, racks.toNat⟩]
      nextSub := s.herv.nextSub + 1
      status := 200
      answer := [s.herv.nextSub] } }) ∧
    (∀ (id : Nat), s.herv.redfish = true →
      (s.herv.subs.any (fun x => x.id == id) = true → exec (.redfishUnsubscribe id) s = .next { s with herv := {
        s.herv with
        subs := s.herv.subs.filter (fun x => x.id != id)
        status := 200
        answer := [] } }) ∧
      (s.herv.subs.any (fun x => x.id == id) = false → exec (.redfishUnsubscribe id) s = .next { s with herv := { s.herv with status := 404, answer := [] } })) ∧
    (s.herv.redfish = true → ∃ u, exec .shutdownRelay s = .next u ∧ u.herv.relayed = fget (s.lane s.lead).pub F.CAPC_OFF_RACKS ∧
      (∀ x ∈ s.herv.subs, ∀ (k : Fin 24), bitOf x.kinds 0 = true → bitOf x.racks k.val = true →
        bitOf (clrBits (fget (s.lane s.lead).pub F.CAPC_OFF_RACKS) s.herv.relayed) k.val = true → (x.id, 0, k.val) ∈ u.herv.sent) ∧
      (∀ e ∈ s.herv.sent, e ∈ u.herv.sent) ∧
      (∀ e ∈ u.herv.sent, e ∉ s.herv.sent → e.2.1 = 0 ∧ bitOf (clrBits (fget (s.lane s.lead).pub F.CAPC_OFF_RACKS) s.herv.relayed) e.2.2 = true ∧
        s.herv.subs.any (fun x => x.id == e.1 && bitOf x.kinds 0 && bitOf x.racks e.2.2) = true) ∧
      u = { s with herv := { s.herv with sent := u.herv.sent, relayed := u.herv.relayed } }) ∧
    (∀ (img : List (BitVec 8)) (i : List Nat), i = img.map BitVec.toNat → s.herv.redfish = true →
      (imgKind i = 0 → s.herv.bank = 0 → ∃ u, exec (.redfishSimpleUpdate img) s = .next u ∧ u.herv.img1 = some i ∧ u.herv.img0 = s.herv.img0 ∧
        u.herv.bank = 1 ∧ u.herv.trial = some s.time.count ∧ u.herv.up = false ∧ u.herv.redfish = false ∧ u.herv.reqs = [] ∧ u.x = s.x ∧ u.laneA = s.laneA ∧ u.laneB = s.laneB ∧ u.mrec = s.mrec ∧ u.time = s.time) ∧
      (imgKind i = 0 → s.herv.bank ≠ 0 → ∃ u, exec (.redfishSimpleUpdate img) s = .next u ∧ u.herv.img0 = some i ∧ u.herv.img1 = s.herv.img1 ∧
        u.herv.bank = 0 ∧ u.herv.trial = some s.time.count ∧ u.herv.up = false ∧ u.herv.redfish = false ∧ u.herv.reqs = [] ∧ u.x = s.x ∧ u.laneA = s.laneA ∧ u.laneB = s.laneB ∧ u.mrec = s.mrec ∧ u.time = s.time) ∧
      (imgKind i = 1 → ∃ u, exec (.redfishSimpleUpdate img) s = .next u ∧ u.herv.xNew = some i ∧ u.herv.xOld = s.herv.xOld ∧ u.x.up = false ∧
        u.herv.xUpdate = some (match s.x.active with | some m => m.setId | none => 0) ∧
        (∀ p : Fin 16, u.locked (0x80 + p.val) = true) ∧ u.herv.status = 200 ∧ u.x.lp = s.x.lp ∧ u.laneA = s.laneA ∧ u.laneB = s.laneB ∧ u.time = s.time) ∧
      (imgKind i = 0x10 → (imgOk s 0x10 i = true → exec (.redfishSimpleUpdate img) s =
            .next { s with herv := { s.herv with policy := some i, status := 200, answer := [] } }) ∧
          (imgOk s 0x10 i = false → exec (.redfishSimpleUpdate img) s = .next { s with herv := { s.herv with status := 400, answer := [] } })) ∧
      ((imgKind i = 2 ∨ imgKind i = 0x20) → exec (.redfishSimpleUpdate img) s = .next { s with herv := { s.herv with status := 200, answer := [] } }) ∧
      (imgKind i ≠ 0 → imgKind i ≠ 1 → imgKind i ≠ 2 → imgKind i ≠ 0x10 → imgKind i ≠ 0x20 →
        exec (.redfishSimpleUpdate img) s = .next { s with herv := { s.herv with status := 400, answer := [] } })) ∧
    (s.herv.redfish = false → ∀ (res : RedRes) (rack : Fin 24) (slot : Fin 96) (share : Option (BitVec 16)) (kinds : BitVec 3) (racks : BitVec 24) (id : Nat) (img : List (BitVec 8)), ∀ c,
      c = Instr.redfishGet res ∨ c = Instr.redfishBudgetPatch rack share ∨ c = Instr.redfishPkgPatch rack slot share ∨ c = Instr.redfishSubscribe kinds racks ∨
      c = Instr.redfishUnsubscribe id ∨ c = Instr.redfishSimpleUpdate img ∨ c = Instr.shutdownRelay → exec c s = .next s)

/-- Hervi and Xoide boot (R44, R328, R358, R359, R363). A restart stops Hervi's cores and its request queue, not the lanes, Xoide or the
recorder; a powered Hervi boots the bank its image verifies in, the running bank first, measures it and starts its services and the recorder, and
halts with neither; a trial bank without Redfish for 491,520 ticks is left; Xoide boots its new image, or while there is none the old one,
measures it and starts its quadrants and ergs, and a refused image leaves it in reset with the refusal shown. -/
def Obligations.HerviAndXoideBoot : Prop :=
  ∀ (s : State),
    (∃ u, exec .herviRestart s = .next u ∧
      u.herv = { s.herv with up := false, redfish := false, reqs := [], status := 0, answer := [], sent := [] } ∧
      u.fld F.SYS_MBOX_STAT_BUSY = 0 ∧ u.fld F.SEC_STAT_ATT_BUSY = 0 ∧ u = { s with herv := u.herv, sec := { s.sec with att := none }, regs := u.regs }) ∧
    (s.herv.up = false → (s.pwr.pkgRail = true ∨ (s.pwr.laneRail = true ∧ s.pwr.holdup = false)) →
      (∀ i, hervImg s.herv s.herv.bank = some i → imgOk s 0 i = true → ∃ u, exec .herviBootComplete s = .next u ∧
        u.herv = { s.herv with up := true, redfish := true, halted := false, trial := none, relayed := 0, binds := [], verdicts := 0 } ∧
        u.mrec.running = true ∧ (0 < s.sec.meas.length → lget 0 u.sec.meas 0 = imgDigest i) ∧ u.fld F.SEC_STAT_HERVI_BANK = s.herv.bank % 2 ∧
        u.fld F.CRVN_CFG_CDU_ID = (tget {} s.inv.live 1536).aux % 65536 ∧ u.pwr.pkgRail = true ∧ u.x = s.x ∧ u.time = s.time ∧ u.laneA.core = s.laneA.core ∧ u.laneB.core = s.laneB.core) ∧
      (imgTaken s 0 (hervImg s.herv s.herv.bank) = false →
        (∀ i, hervImg s.herv (1 - s.herv.bank) = some i → imgOk s 0 i = true → ∃ u, exec .herviBootComplete s = .next u ∧
          u.herv = { s.herv with up := true, redfish := true, halted := false, bank := 1 - s.herv.bank, trial := none, relayed := 0, binds := [], verdicts := 0 } ∧
          u.mrec.running = true ∧ (0 < s.sec.meas.length → lget 0 u.sec.meas 0 = imgDigest i) ∧ u.fld F.SEC_STAT_HERVI_BANK = 1 - s.herv.bank ∧
          u.x = s.x ∧ u.time = s.time ∧ u.laneA.core = s.laneA.core ∧ u.laneB.core = s.laneB.core) ∧
        (imgTaken s 0 (hervImg s.herv (1 - s.herv.bank)) = false →
          exec .herviBootComplete s = .next { s with herv := { s.herv with halted := true, trial := none } }))) ∧
    ((s.herv.up = true ∨ (s.pwr.pkgRail = false ∧ (s.pwr.laneRail = false ∨ s.pwr.holdup = true))) → exec .herviBootComplete s = .next s) ∧
    (∀ t, s.herv.trial = some t →
      (t + 491520 ≤ s.time.count → s.herv.redfish = false → ∃ u, exec .herviTrialTimeout s = .next u ∧
        u.herv = { s.herv with up := false, redfish := false, reqs := [], status := 0, answer := [], sent := [], bank := 1 - s.herv.bank, trial := none } ∧
        u.x = s.x ∧ u.laneA = s.laneA ∧ u.laneB = s.laneB ∧ u.time = s.time) ∧
      ((s.time.count < t + 491520 ∨ s.herv.redfish = true) → exec .herviTrialTimeout s = .next s)) ∧
    (s.herv.trial = none → exec .herviTrialTimeout s = .next s) ∧
    (s.x.up = false → s.herv.up = true →
      (∀ i, s.herv.xNew.or s.herv.xOld = some i → imgOk s 1 i = true → ∃ u, exec .xoideBootComplete s = .next u ∧ u.x.up = true ∧
        u.herv = { s.herv with xOld := some i, xNew := none } ∧ u.fld F.SEC_STAT_XOIDE_BOOT = 0 ∧ (1 < s.sec.meas.length → lget 0 u.sec.meas 1 = imgDigest i) ∧
        (∀ q : Fin 5, (blkGet s (0x8A + q.val)).state = .off → (blkGet u (0x8A + q.val)).state = .starting) ∧
        (∀ n : Fin 8, (blkGet s (0x80 + n.val)).state = .off → (blkGet u (0x80 + n.val)).state = .starting) ∧
        u.x.lp = s.x.lp ∧ u.laneA = s.laneA ∧ u.laneB = s.laneB ∧ u.time = s.time) ∧
      (imgTaken s 1 (s.herv.xNew.or s.herv.xOld) = false → ∃ u, exec .xoideBootComplete s = .next u ∧
        u.herv = { s.herv with xNew := none } ∧ u.fld F.SEC_STAT_XOIDE_BOOT = 1 ∧ u = { s with herv := u.herv, regs := u.regs })) ∧
    ((s.x.up = true ∨ s.herv.up = false) → exec .xoideBootComplete s = .next s)

/-- SEC_CMD (R325, R329–R331, R333, R339, R340). A locked page refuses all, and outside the presence window each command but ATTEST answers 2h
and does nothing. ENROLL takes a free slot, the first without a token, and REVOKE blows the revocation of an enrolled slot; both refuse a latched
tamper, and they refuse a token that does not verify with the owner's key, which uses up its challenge all the same; a full table takes no owner.
TAMPER_CLR with a token asks the lanes; RAISE_SVN raises the floor of a kind to what runs; ATTEST is BUSY until every lane and Playa has signed
and the report stands in SRAM; debug opens unless the die is killed, and a kill is permanent once its fuse is blown, which needs the supply. -/
def Obligations.SecurityCommandsNeedTheirProofs : Prop :=
  ∀ (s : State),
    (∀ (key : BitVec 3072) (d : Fin 2),
      (s.locked 0xA0 = true → ∀ c, c = Instr.secEnroll key ∨ c = Instr.secRevoke key ∨ c = Instr.secTamperClr key ∨ c = Instr.secDbgOpen d ∨
        c = Instr.secDbgKill d ∨ c = Instr.secRaiseSvn ∨ c = Instr.secAttest → exec c s = .next (s.refuse 0xA0 4)) ∧
      (s.locked 0xA0 = false → s.presence = false → ∀ c, c = Instr.secEnroll key ∨ c = Instr.secRevoke key ∨ c = Instr.secTamperClr key ∨ c = Instr.secDbgOpen d ∨
        c = Instr.secDbgKill d ∨ c = Instr.secRaiseSvn → ∃ u, exec c s = .next u ∧ u.fld F.SEC_CMD_RESULT = 2 ∧ u = { s with regs := u.regs, freeCtr := u.freeCtr }) ∧
      (s.locked 0xA0 = false → s.presence = true → (s.sec.tamper = true ∨ s.panS.tamper = true) → ∀ c, c = Instr.secEnroll key ∨ c = Instr.secRevoke key →
        ∃ u, exec c s = .next u ∧ u.fld F.SEC_CMD_RESULT = 5 ∧ u = { s with regs := u.regs, freeCtr := u.freeCtr })) ∧
    (s.locked 0xA0 = false → s.presence = true → s.sec.tamper = false → s.panS.tamper = false → ∀ (key : BitVec 3072),
      (s.fuse F.FUSE_OWNER_STAT_ENROLLED = 0 → ∃ u, exec (.secEnroll key) s = .next u ∧ u.fld F.SEC_CMD_RESULT = 1 ∧
        u.fuse F.FUSE_OWNER_STAT_ENROLLED = 1 ∧ (∀ j : Fin 8, u.fuse (F.FUSE_OWNER_HASH_HASH 0 j.val) = s.fld (F.SEC_ARG j.val)) ∧
        u.fuse F.FUSE_OWNER_STAT_REVOKED = s.fuse F.FUSE_OWNER_STAT_REVOKED ∧ u.fld F.SEC_CHAL_CNT_COUNT = s.fld F.SEC_CHAL_CNT_COUNT ∧
        u = { s with fuses := u.fuses, regs := u.regs, mrec := u.mrec }) ∧
      (s.fuse F.FUSE_OWNER_STAT_ENROLLED = 15 → ∃ u, exec (.secEnroll key) s = .next u ∧ u.fld F.SEC_CMD_RESULT = 4 ∧
        u = { s with regs := u.regs, freeCtr := u.freeCtr }) ∧
      (s.fuse F.FUSE_OWNER_STAT_ENROLLED ≠ 0 → s.fuse F.FUSE_OWNER_STAT_ENROLLED ≠ 15 →
        (((activeOwner s).isSome && tokenOk 1 (secArg s) key.toNat s) = true → ∀ k, (upto 4).find? (fun k => !bitOf (s.fuse F.FUSE_OWNER_STAT_ENROLLED) k) = some k →
          ∃ u, exec (.secEnroll key) s = .next u ∧ u.fld F.SEC_CMD_RESULT = 1 ∧ u.fuse F.FUSE_OWNER_STAT_ENROLLED = setBitN (s.fuse F.FUSE_OWNER_STAT_ENROLLED) k ∧
            (∀ j : Fin 8, u.fuse (F.FUSE_OWNER_HASH_HASH k j.val) = s.fld (F.SEC_ARG j.val)) ∧
            u.fuse F.FUSE_OWNER_STAT_REVOKED = s.fuse F.FUSE_OWNER_STAT_REVOKED ∧ u.fld F.SEC_CHAL_CNT_COUNT = (s.fld F.SEC_CHAL_CNT_COUNT + 1) % 2 ^ 32 ∧
            u = { s with fuses := u.fuses, regs := u.regs, mrec := u.mrec, freeCtr := u.freeCtr }) ∧
        (((activeOwner s).isSome && tokenOk 1 (secArg s) key.toNat s) = false → ∃ u, exec (.secEnroll key) s = .next u ∧
          u.fld F.SEC_CMD_RESULT = 3 ∧ u.fld F.SEC_CHAL_CNT_COUNT = (s.fld F.SEC_CHAL_CNT_COUNT + 1) % 2 ^ 32 ∧ u = { s with regs := u.regs, freeCtr := u.freeCtr })) ∧
      (∀ k, k = s.fld (F.SEC_ARG 0) % 256 →
        (((activeOwner s).isSome && tokenOk 2 (k :: List.replicate 31 0) key.toNat s) = true → k < 4 → bitOf (s.fuse F.FUSE_OWNER_STAT_ENROLLED) k = true →
          ∃ u, exec (.secRevoke key) s = .next u ∧ u.fld F.SEC_CMD_RESULT = 1 ∧ bitOf (u.fuse F.FUSE_OWNER_STAT_REVOKED) k = true ∧
            (∀ j : Fin 4, j.val ≠ k → bitOf (u.fuse F.FUSE_OWNER_STAT_REVOKED) j.val = bitOf (s.fuse F.FUSE_OWNER_STAT_REVOKED) j.val) ∧
            u.fuse F.FUSE_OWNER_STAT_ENROLLED = s.fuse F.FUSE_OWNER_STAT_ENROLLED ∧ u.fld F.SEC_CHAL_CNT_COUNT = (s.fld F.SEC_CHAL_CNT_COUNT + 1) % 2 ^ 32 ∧
            u = { s with fuses := u.fuses, regs := u.regs, mrec := u.mrec, freeCtr := u.freeCtr }) ∧
        (((activeOwner s).isSome && tokenOk 2 (k :: List.replicate 31 0) key.toNat s) = true → (4 ≤ k ∨ bitOf (s.fuse F.FUSE_OWNER_STAT_ENROLLED) k = false) →
          ∃ u, exec (.secRevoke key) s = .next u ∧ u.fld F.SEC_CMD_RESULT = 7 ∧ u = { s with regs := u.regs, freeCtr := u.freeCtr }) ∧
        (((activeOwner s).isSome && tokenOk 2 (k :: List.replicate 31 0) key.toNat s) = false → ∃ u, exec (.secRevoke key) s = .next u ∧
          u.fld F.SEC_CMD_RESULT = 3 ∧ u.fld F.SEC_CHAL_CNT_COUNT = (s.fld F.SEC_CHAL_CNT_COUNT + 1) % 2 ^ 32 ∧ u = { s with regs := u.regs, freeCtr := u.freeCtr }))) ∧
    (s.locked 0xA0 = false → s.presence = true →
      (∀ (key : BitVec 3072),
        (tokenOk 3 (List.replicate 32 0) key.toNat s = true → ∃ u, exec (.secTamperClr key) s = .next u ∧ u.herv.reqs = s.herv.reqs ++ [⟨1, [[lsecEntry 1]], false⟩] ∧
          u.fld F.SEC_CHAL_CNT_COUNT = (s.fld F.SEC_CHAL_CNT_COUNT + 1) % 2 ^ 32 ∧
          u = { s with herv := { s.herv with reqs := u.herv.reqs }, regs := u.regs, freeCtr := u.freeCtr }) ∧
        (tokenOk 3 (List.replicate 32 0) key.toNat s = false → ∃ u, exec (.secTamperClr key) s = .next u ∧ u.fld F.SEC_CMD_RESULT = 3 ∧
          u.fld F.SEC_CHAL_CNT_COUNT = (s.fld F.SEC_CHAL_CNT_COUNT + 1) % 2 ^ 32 ∧ u = { s with regs := u.regs, freeCtr := u.freeCtr })) ∧
      (∀ kind, kind = s.fld (F.SEC_ARG 0) % 256 →
        (∀ v, svnRunning s kind = some v → (kind ≠ 2 ∨ s.laneA.votes = true ∨ s.laneB.votes = true) → ∃ u, exec .secRaiseSvn s = .next u ∧ u.fld F.SEC_CMD_RESULT = 1 ∧
          svnFloor u kind = max v (svnFloor s kind) % 128 ∧ (∀ j ∈ [0, 1, 2, 0x10, 0x20], j ≠ kind → svnFloor u j = svnFloor s j) ∧
          u = { s with fuses := u.fuses, regs := u.regs, mrec := u.mrec }) ∧
        (svnRunning s kind = none → ∃ u, exec .secRaiseSvn s = .next u ∧ u.fld F.SEC_CMD_RESULT = 7 ∧ u = { s with regs := u.regs }) ∧
        (kind = 2 → s.laneA.votes = false → s.laneB.votes = false → ∃ u, exec .secRaiseSvn s = .next u ∧ u.fld F.SEC_CMD_RESULT = 9 ∧ u = { s with regs := u.regs })) ∧
      (∀ (d : Fin 2),
        (killed s d.val = false → ∃ u, exec (.secDbgOpen d) s = .next u ∧ u.fld F.SEC_CMD_RESULT = 1 ∧ bitOf u.sec.dbg d.val = true ∧
          u = { s with sec := { s.sec with dbg := setBitN s.sec.dbg d.val }, regs := u.regs, mrec := u.mrec }) ∧
        (killed s d.val = true → ∃ u, exec (.secDbgOpen d) s = .next u ∧ u.fld F.SEC_CMD_RESULT = 7 ∧ u = { s with regs := u.regs }) ∧
        (s.pwr.supplyLow = true → ∃ u, exec (.secDbgKill d) s = .next u ∧ u.fld F.SEC_CMD_RESULT = 8 ∧ u = { s with regs := u.regs }) ∧
        (s.pwr.supplyLow = false → ∃ u, exec (.secDbgKill d) s = .next u ∧ u.fld F.SEC_CMD_RESULT = 0 ∧
          u = { s with sec := { s.sec with blows := s.sec.blows ++ [(d.val, s.time.count)] }, regs := u.regs }))) ∧
    (s.locked 0xA0 = false →
      (s.sec.att ≠ none → ∃ u, exec .secAttest s = .next u ∧ u.fld F.SEC_CMD_RESULT = 6 ∧ u = { s with regs := u.regs }) ∧
      (s.sec.att = none → ∃ u, exec .secAttest s = .next u ∧ u.sec = { s.sec with att := some ⟨(upto 8).map (fun k => s.fld (F.SEC_ARG k)), s.fld F.SEC_ATT_ADDR_ADDR⟩ } ∧ u.fld F.SEC_STAT_ATT_BUSY = 1 ∧
        u.fld F.SEC_CMD_RESULT = 0 ∧ u.herv = { s.herv with reqs := s.herv.reqs ++ [⟨2, [nonceEntries ((upto 8).map (fun k => s.fld (F.SEC_ARG k))), [lsecEntry 4]], false⟩] } ∧
        u.lsecA = { s.lsecA with sig := none, psig := none } ∧ u.lsecB = { s.lsecB with sig := none, psig := none } ∧
        u = { s with sec := u.sec, herv := u.herv, regs := u.regs, lsecA := u.lsecA, lsecB := u.lsecB })) ∧
    (∀ a, s.sec.att = some a →
      (s.lsecA.signLeft = 0 → s.lsecB.signLeft = 0 → s.lsecA.playaLeft = 0 → s.lsecB.playaLeft = 0 → s.herv.reqs.all (fun r => r.src != 2) = true → a.nonce.length = 8 →
        ∃ u, exec .attestationComplete s = .next u ∧ u.sec = { s.sec with att := none } ∧ u.fld F.SEC_STAT_ATT_BUSY = 0 ∧ u.fld F.SEC_CMD_RESULT = 1 ∧
          (∀ k : Fin 592, tget 0 u.herv.sram ((a.addr + k.val) % 0x4000000) = lget 0 (reportHead s a) k.val % 256) ∧
          u = { s with sec := u.sec, herv := { s.herv with sram := u.herv.sram }, regs := u.regs, freeCtr := u.freeCtr }) ∧
      ((s.lsecA.playaLeft ≠ 0 ∨ s.lsecB.playaLeft ≠ 0 ∨ (s.lsecA.signLeft ≠ 0 ∧ laneSigns s.laneA = true) ∨ (s.lsecB.signLeft ≠ 0 ∧ laneSigns s.laneB = true) ∨
        s.herv.reqs.any (fun r => r.src == 2) = true) → exec .attestationComplete s = .next s)) ∧
    (s.sec.att = none → exec .attestationComplete s = .next s) ∧
    (∀ (d : Fin 6),
      (s.sec.blows.any (fun x => x.1 == d.val && x.2 + 64 ≤ s.time.count) = true → (if d.val < 2 then s.pwr.pkgRail else s.pwr.laneRail) = true → ∃ u, exec (.fuseBlowComplete d) s = .next u ∧
        bitOf (u.fuse F.FUSE_DBG_KILL_BLOWN) d.val = true ∧ (∀ j : Fin 6, j ≠ d → bitOf (u.fuse F.FUSE_DBG_KILL_BLOWN) j.val = bitOf (s.fuse F.FUSE_DBG_KILL_BLOWN) j.val) ∧
        bitOf u.sec.dbg d.val = false ∧ u.sec = { s.sec with blows := s.sec.blows.filter (fun x => x.1 != d.val), dbg := clrBitN s.sec.dbg d.val } ∧
        (d.val < 2 → u.fld F.SEC_CMD_RESULT = 1 ∧ u.laneA = s.laneA ∧ u.laneB = s.laneB) ∧
        (2 ≤ d.val → (u.lane (if d.val = 2 ∨ d.val = 4 then .a else .b)).core.secResult = 1) ∧
        u = { s with sec := u.sec, fuses := u.fuses, regs := u.regs, mrec := u.mrec, laneA := u.laneA, laneB := u.laneB }) ∧
      ((s.sec.blows.any (fun x => x.1 == d.val && x.2 + 64 ≤ s.time.count) = false ∨ (if d.val < 2 then s.pwr.pkgRail else s.pwr.laneRail) = false) → exec (.fuseBlowComplete d) s = .next s))

/-- LSEC_CMD at the lanes (R93, R333, R339–R341). The lanes that compute take it unless the page is locked, and all but ATTEST only in the
presence window. With its seal loop closed such a lane clears its tamper latch and stores the new seal; debug of a Playa chip opens only while
what it serves is OFF and it is not killed, and a running lane's own never; a kill needs the supply and waits for its blow; the command for the
target of a lane that does not compute is sent to it over the link; an ATTEST starts 3,000 signing ticks of each lane that can sign, and 4,096 of
its powered Playa. -/
def Obligations.LaneSecurityCommands : Prop :=
  ∀ (s : State),
    (s.laneOk 0x19 true = true → (s.laneA.votes = true ∨ s.laneB.votes = true) →
      (∃ u, exec .lsecTamperClr s = .next u ∧
        (s.laneA.votes = true → u.laneA = { s.laneA with core := { s.laneA.core with secResult := if s.panA.closed then 1 else 7 } } ∧
          u.panA = (if s.panA.closed then { s.panA with tamper := false, cause := 0, stored := s.panA.now, mute := 0 } else s.panA)) ∧
        (s.laneA.votes = false → u.laneA = s.laneA ∧ u.panA = s.panA) ∧
        (s.laneB.votes = true → u.laneB = { s.laneB with core := { s.laneB.core with secResult := if s.panB.closed then 1 else 7 } } ∧
          u.panB = (if s.panB.closed then { s.panB with tamper := false, cause := 0, stored := s.panB.now, mute := 0 } else s.panB)) ∧
        (s.laneB.votes = false → u.laneB = s.laneB ∧ u.panB = s.panB) ∧
        u = { s with panA := u.panA, panB := u.panB, laneA := u.laneA, laneB := u.laneB, regs := u.regs }) ∧
      (∀ (t : Fin 4) (id : LaneId), id = (if t.val % 2 = 0 then .a else .b) → (s.lane id).votes = true →
        ((t.val < 2 ∨ killed s (2 + t.val) = true ∨ chipIdle s (t.val - 2) = false) →
          exec (.lsecDbgOpen t) s = .next (s.modLane id (fun l => { l with core := { l.core with secResult := 7 } }))) ∧
        (2 ≤ t.val → killed s (2 + t.val) = false → chipIdle s (t.val - 2) = true →
          ∃ u, exec (.lsecDbgOpen t) s = .next u ∧ bitOf u.sec.dbg (2 + t.val) = true ∧
            u.lane id = { s.lane id with core := { (s.lane id).core with secResult := 1 } } ∧ u.lane (otherLane id) = s.lane (otherLane id) ∧
            u = { s with sec := { s.sec with dbg := setBitN s.sec.dbg (2 + t.val) }, laneA := u.laneA, laneB := u.laneB, regs := u.regs, mrec := u.mrec }) ∧
        (s.pwr.supplyLow = true → exec (.lsecDbgKill t) s = .next (s.modLane id (fun l => { l with core := { l.core with secResult := 8 } }))) ∧
        (s.pwr.supplyLow = false → exec (.lsecDbgKill t) s =
          .next ({ s with sec := { s.sec with blows := s.sec.blows ++ [(2 + t.val, s.time.count)] } }.modLane id (fun l => { l with core := { l.core with secResult := 0 } })))) ∧
      (∀ (t : Fin 4) (id : LaneId), id = (if t.val % 2 = 0 then .a else .b) → (s.lane id).votes = false →
        exec (.lsecDbgOpen t) s = .next (s.modLane (otherLane id) (fun l => { l with core := { l.core with cmdWait := some ⟨true, 2, t.val, s.time.count + 1⟩ } })) ∧
        exec (.lsecDbgKill t) s = .next (s.modLane (otherLane id) (fun l => { l with core := { l.core with cmdWait := some ⟨true, 3, t.val, s.time.count + 1⟩ } })))) ∧
    (s.laneOk 0x19 false = true → (s.laneA.votes = true ∨ s.laneB.votes = true) → ∃ u, exec .lsecAttest s = .next u ∧
      (laneSigns s.laneA = true → u.lsecA = { s.lsecA with signLeft := 3000, sig := none, psig := none, playaLeft := if s.chip0.powered then 4096 else 0 } ∧
        u.laneA = { s.laneA with core := { s.laneA.core with secResult := 1 } }) ∧
      (laneSigns s.laneB = true → u.lsecB = { s.lsecB with signLeft := 3000, sig := none, psig := none, playaLeft := if s.chip1.powered then 4096 else 0 } ∧
        u.laneB = { s.laneB with core := { s.laneB.core with secResult := 1 } }) ∧
      (laneSigns s.laneA = false → u.lsecA = s.lsecA ∧ u.laneA = s.laneA) ∧ (laneSigns s.laneB = false → u.lsecB = s.lsecB ∧ u.laneB = s.laneB) ∧
      u = { s with lsecA := u.lsecA, lsecB := u.lsecB, laneA := u.laneA, laneB := u.laneB }) ∧
    ((s.laneOk 0x19 true = false ∨ (s.laneA.votes = false ∧ s.laneB.votes = false)) → ∀ (t : Fin 4), ∀ c,
      c = Instr.lsecTamperClr ∨ c = Instr.lsecDbgOpen t ∨ c = Instr.lsecDbgKill t → exec c s = .next s) ∧
    ((s.laneOk 0x19 false = false ∨ (s.laneA.votes = false ∧ s.laneB.votes = false)) → exec .lsecAttest s = .next s)

/-- The service panel (R335–R339). Sequencer and lanes, the three holders, sample the panel for themselves. A press of 24,576 ticks opens the
window, one of 262,144 is stuck and closes it, one of 8 to 8,191 that ends closes it at the next boundary; a stuck button counts again after
8,192 released ticks. A jumper is fitted after eight samples and removed after eight; fitted, it is accepted unless the seal is closed over the
stored serial in the slot or a tamper is latched, and refused when not accepted. Eight samples with the loop open, a seal of another serial or
three reads without answer latch the tamper event with its cause, which Hervi takes over while it runs; PRES_CTRL.CLOSE closes at the next
boundary. -/
def Obligations.TheServicePanel : Prop :=
  ∀ (s : State),
    (∀ (x a b : PanelIn), ∃ u, exec (.panelSample x a b) s = .next u ∧ panelsOnly s u ∧ u.sec.tamper = (s.sec.tamper || (u.panS.tamper && s.herv.up)) ∧
      ∀ p q y, (p, q, y) ∈ ([(s.panS, u.panS, x), (s.panA, u.panA, a), (s.panB, u.panB, b)] : List (PanelSt × PanelSt × PanelIn)) →
        q.button = y.button ∧ q.closed = y.closed ∧ q.w = p.w ∧ q.stored = p.stored ∧ q.now = p.now ∧ q.mute = p.mute ∧
        (p.stuck = true → q.press = p.press ∧ q.opened = p.opened ∧ q.left = p.left ∧ q.closing = p.closing ∧
          q.stuck = (y.button || decide (p.relRun < 8191)) ∧ q.relRun = (if y.button ∨ 8191 ≤ p.relRun then 0 else p.relRun + 1)) ∧
        (p.stuck = false → y.button = true →
          (p.press + 1 < 24576 → q.press = p.press + 1 ∧ q.opened = p.opened ∧ q.left = p.left ∧ q.closing = p.closing ∧ q.stuck = false) ∧
          (24576 ≤ p.press + 1 → p.press + 1 < 262144 → q.press = p.press + 1 ∧ q.opened = true ∧ q.left = (if p.opened then p.left else 983041) ∧ q.closing = p.closing ∧ q.stuck = false) ∧
          (262144 ≤ p.press + 1 → q.stuck = true ∧ q.closing = true ∧ q.press = 0 ∧ q.opened = false)) ∧
        (p.stuck = false → y.button = false → q.press = 0 ∧ q.opened = false ∧ q.left = p.left ∧ q.stuck = false ∧
          q.closing = (p.closing || decide (8 ≤ p.press ∧ p.press ≤ 8191))) ∧
        q.openRun = (if y.closed then 0 else min 8 p.openRun + 1) ∧ q.jIn = (if y.jumper then min 8 p.jIn + 1 else 0) ∧ q.jOut = (if y.jumper then 0 else min 8 p.jOut + 1) ∧
        (y.closed = false → 7 ≤ p.openRun → q.tamper = true ∧ (p.tamper = false → q.cause = 1 ∧ q.ttick = s.time.count % 2 ^ 24)) ∧
        ((y.closed = true ∨ p.openRun < 7 ∨ p.tamper = true) → q.tamper = p.tamper ∧ q.cause = p.cause ∧ q.ttick = p.ttick) ∧
        (y.jumper = true → q.fitted = (p.fitted || decide (7 ≤ p.jIn))) ∧ (y.jumper = false → q.fitted = (p.fitted && decide (p.jOut < 7))) ∧
        q.accepted = (q.fitted && !q.tamper && !(q.closed && q.now == q.stored && inSlot s)) ∧ q.refused = (q.fitted && !q.accepted)) ∧
    (∃ u, exec .presenceOpen s = .next u ∧ holdersNow s u (fun p => if 24576 ≤ p.press ∧ p.opened = false then { p with opened := true, left := 983041 } else p)) ∧
    (∃ u, exec .presenceWindowExpiry s = .next u ∧ holdersNow s u (fun p => if p.byPress = true ∧ p.left = 0 then { p with byPress := false, w := p.accepted } else p)) ∧
    (∃ u, exec .buttonRelease s = .next u ∧ holdersNow s u (fun p => if p.button = false then {
      p with
      closing := p.closing || decide (8 ≤ p.press ∧ p.press ≤ 8191)
      press := 0
      opened := false } else p)) ∧
    (∃ u, exec .buttonStuck s = .next u ∧ holdersNow s u (fun p => if 262144 ≤ p.press then {
      p with
      stuck := true
      relRun := 0
      press := 0
      opened := false
      closing := true } else p)) ∧
    (∃ u, exec .jumperFitted s = .next u ∧ holdersNow s u (fun p => {
      p with
      fitted := p.fitted || decide (8 ≤ p.jIn)
      accepted := (p.fitted || decide (8 ≤ p.jIn)) && !p.tamper && !(p.closed && p.now == p.stored && inSlot s)
      refused := (p.fitted || decide (8 ≤ p.jIn)) && (p.tamper || (p.closed && p.now == p.stored && inSlot s)) })) ∧
    (∃ u, exec .jumperRemoved s = .next u ∧ holdersNow s u (fun p => if 8 ≤ p.jOut then { p with fitted := false, accepted := false, refused := false } else p)) ∧
    (s.locked 0xA1 = true → exec .presCtrlClose s = .next (s.refuse 0xA1 4)) ∧
    (s.locked 0xA1 = false → ∃ u, exec .presCtrlClose s = .next u ∧ holdersNow s u (fun p => { p with closing := true })) ∧
    (∃ u, exec .sealOpen s = .next u ∧ holdersNow s u (fun p => if 8 ≤ p.openRun ∧ p.tamper = false then {
      p with
      tamper := true
      cause := 1
      ttick := s.time.count % 2 ^ 24 } else p)) ∧
    (∀ (i j k : Option Word), ∃ u, exec (.sealRead i j k) s = .next u ∧ panelsOnly s u ∧ u.sec.tamper = (s.sec.tamper || (u.panS.tamper && s.herv.up)) ∧
      ∀ p q r, (p, q, r) ∈ ([(s.panS, u.panS, i), (s.panA, u.panA, j), (s.panB, u.panB, k)] : List (PanelSt × PanelSt × Option Word)) →
        (∀ v, r = some v →
          (v.toNat = p.stored → q = { p with now := v.toNat, mute := 0 }) ∧
          (v.toNat ≠ p.stored → p.tamper = true → q = { p with now := v.toNat, mute := 0 }) ∧
          (v.toNat ≠ p.stored → p.tamper = false → q = { p with now := v.toNat, mute := 0, tamper := true, cause := 2, ttick := s.time.count % 2 ^ 24 })) ∧
        (r = none →
          ((p.mute < 2 ∨ p.tamper = true) → q = { p with mute := min 3 (p.mute + 1) }) ∧
          (2 ≤ p.mute → p.tamper = false → q = { p with mute := 3, tamper := true, cause := 3, ttick := s.time.count % 2 ^ 24 })))

/-- The event recorder (R342–R350). An occurrence is counted in its class and waits, and with 512 waiting it is counted lost; a running recorder
adds it to the open entry of the same key, or opens an entry for it, the oldest of 256 open ones closing and the oldest of 32,768 held going;
entries close after 8,192 quiet ticks; a start has each lane deliver all it holds; the cursor copies the entry it names into the window, and with
AUTO the read of the last word takes the next; the peak can be cleared; a lane's flash log holds its 1,024 latest closed entries and its series.
-/
def Obligations.TheEventRecorder : Prop :=
  ∀ (s : State),
    (∀ (o : EvIn) (c : Occ), c = ⟨o.cls % 8, o.origin % 8, o.unit % 256, o.sub % 65536, o.op % 65536, 0x10000 + o.code, o.arg % 2 ^ 64⟩ →
      (∃ u, exec (.eventOccurrence o) s = .next u ∧ u.mrec.events = lset s.mrec.events c.cls ((lget 0 s.mrec.events c.cls + 1) % 2 ^ 64) ∧
        u = { s with mrec := u.mrec, regs := u.regs }) ∧
      (512 ≤ s.mrec.queue.length → s.mrec.running = false → ∃ u, exec (.eventOccurrence o) s = .next u ∧
        u.mrec = { s.mrec with events := u.mrec.events, lost := lset s.mrec.lost c.cls ((lget 0 s.mrec.lost c.cls + 1) % 2 ^ 64) } ∧
        u = { s with mrec := u.mrec, regs := u.regs }) ∧
      (s.mrec.queue.length < 512 → s.mrec.running = false → ∃ u, exec (.eventOccurrence o) s = .next u ∧
        u.mrec = { s.mrec with events := u.mrec.events, queue := s.mrec.queue ++ [(c, s.time)], peak := max s.mrec.peak (s.mrec.queue.length + 1) } ∧
        u = { s with mrec := u.mrec, regs := u.regs }) ∧
      (s.mrec.running = true → s.mrec.queue = [] →
        (∀ e, s.mrec.entries.find? (fun e => e.lseq == 0 && entryKey c e) = some e →
          (e.count < 0xFFFF → ∃ u, exec (.eventOccurrence o) s = .next u ∧ u.mrec.queue = [] ∧ u.mrec.head = s.mrec.head ∧
            u.mrec.entries = s.mrec.entries.map (fun x => if x.lseq = 0 ∧ entryKey c x = true then
              { x with count := x.count + 1, lastSec := (tickInst s.time 0).1, lastNs := (tickInst s.time 0).2, lastTick := s.time.count, lastAon := Config.occAon s.time.count % 128 } else x)) ∧
          (0xFFFF ≤ e.count → s.mrec.entries.length < 32768 → ∃ u, exec (.eventOccurrence o) s = .next u ∧ u.mrec.queue = [] ∧ u.mrec.head = nextSeq s.mrec.head ∧
            u.mrec.entries = s.mrec.entries.map (fun x => if x.lseq = 0 ∧ entryKey c x = true then { x with opened := false } else x) ++
              [newEntry s.mrec.head 0 c s.time (s.fld F.PTP_STAT_LOCKED == 1) (max s.pwr.vinA s.pwr.vinB)])) ∧
        (s.mrec.entries.find? (fun e => e.lseq == 0 && entryKey c e) = none →
          ((s.mrec.entries.filter (fun e => e.opened && e.lseq == 0)).length < 256 → ∃ u, exec (.eventOccurrence o) s = .next u ∧ u.mrec.queue = [] ∧
            u.mrec.head = nextSeq s.mrec.head ∧ u.mrec.entries = (if 32768 ≤ s.mrec.entries.length then s.mrec.entries.drop 1 else s.mrec.entries) ++
              [newEntry s.mrec.head 0 c s.time (s.fld F.PTP_STAT_LOCKED == 1) (max s.pwr.vinA s.pwr.vinB)]) ∧
          (256 ≤ (s.mrec.entries.filter (fun e => e.opened && e.lseq == 0)).length → s.mrec.entries.length < 32768 → ∃ u, exec (.eventOccurrence o) s = .next u ∧ u.mrec.queue = [] ∧
            u.mrec.head = nextSeq s.mrec.head ∧ u.mrec.entries = closeOldest ownOpen s.mrec.entries ++
              [newEntry s.mrec.head 0 c s.time (s.fld F.PTP_STAT_LOCKED == 1) (max s.pwr.vinA s.pwr.vinB)]))) ∧
      (∀ e, e = newEntry s.mrec.head 0 c s.time (s.fld F.PTP_STAT_LOCKED == 1) (max s.pwr.vinA s.pwr.vinB) →
        e.seq = s.mrec.head ∧ e.lseq = 0 ∧ e.cls = o.cls % 8 ∧ e.origin = o.origin % 8 ∧ e.unit = o.unit % 256 ∧ e.sub = o.sub % 65536 ∧ e.count = 1 ∧ e.opened = true ∧
        e.arg = o.arg % 2 ^ 64 ∧ e.firstTick = s.time.count ∧ e.lastTick = s.time.count ∧ e.ptpLocked = (s.fld F.PTP_STAT_LOCKED == 1) ∧ e.vin = max s.pwr.vinA s.pwr.vinB)) ∧
    (∃ u, exec .entryClose s = .next u ∧
      u.mrec = { s.mrec with entries := s.mrec.entries.map (fun e => if e.opened = true ∧ e.lseq = 0 ∧ e.lastTick + 8192 ≤ s.time.count then { e with opened := false } else e) } ∧
      (∀ lane, (u.lane lane).recd.entries = (s.lane lane).recd.entries.map (fun e => if e.opened = true ∧ e.lastTick + 8192 ≤ s.time.count then { e with opened := false } else e) ∧
        (u.lane lane).recd = { (s.lane lane).recd with entries := (u.lane lane).recd.entries, undeliv := (u.lane lane).recd.undeliv } ∧
        u.lane lane = { s.lane lane with recd := (u.lane lane).recd }) ∧
      u = { s with mrec := u.mrec, laneA := u.laneA, laneB := u.laneB, regs := u.regs }) ∧
    (s.pwr.pkgRail = true → ∃ u, exec .recorderStartRedelivery s = .next u ∧ u.mrec.running = true ∧ u.mrec.queue = [] ∧ (s.mrec.queue = [] → u.mrec = { s.mrec with running := true }) ∧
      (∀ lane, u.lane lane = { s.lane lane with recd := { (s.lane lane).recd with undeliv := (s.lane lane).recd.entries.map (fun e => (e.lseq, s.time.count)), sent := [] } }) ∧
      u = { s with mrec := u.mrec, laneA := u.laneA, laneB := u.laneB, regs := u.regs }) ∧
    (s.pwr.pkgRail = false → exec .recorderStartRedelivery s = .next s) ∧
    (∀ (n : Word), s.locked 0xB0 = false →
      (∀ e, s.mrec.entries.find? (fun e => e.seq == n.toNat) = some e → ∃ u, exec (.recCursor n) s = .next u ∧ u.fld F.REC_CURSOR_SEQ = n.toNat ∧
        u.fld F.REC_WIN_STAT_RESULT = 0 ∧ u.fld F.REC_WIN_STAT_OPEN = b2n e.opened ∧ (∀ k : Fin 16, u.fld (F.REC_WIN k.val) = leAt (entryBytes e) (4 * k.val) 4) ∧
        u.mrec = { s.mrec with lastCursor := n.toNat } ∧ u = { s with mrec := u.mrec, regs := u.regs }) ∧
      (s.mrec.entries.find? (fun e => e.seq == n.toNat) = none → ∃ u, exec (.recCursor n) s = .next u ∧ u.fld F.REC_CURSOR_SEQ = n.toNat ∧
        u.fld F.REC_WIN_STAT_RESULT = (if n.toNat < (match s.mrec.entries with | [] => s.mrec.head | e :: _ => e.seq) then 1 else 2) ∧ u.fld F.REC_WIN_STAT_OPEN = 0 ∧
        u.mrec = { s.mrec with lastCursor := n.toNat } ∧ u = { s with mrec := u.mrec, regs := u.regs })) ∧
    (∀ (n : Word), s.locked 0xB0 = true → ∀ c, c = Instr.recCursor n ∨ c = Instr.recFifoPeakClr → exec c s = .next (s.refuse 0xB0 4)) ∧
    (s.fld F.REC_CTRL_AUTO ≠ 1 → exec .recWinAutoRead s = .next { s with rdData := s.fld (F.REC_WIN 15) }) ∧
    (s.fld F.REC_CTRL_AUTO = 1 → ∃ u, exec .recWinAutoRead s = .next u ∧ u.rdData = s.fld (F.REC_WIN 15) ∧ u.fld F.REC_CURSOR_SEQ = (s.fld F.REC_CURSOR_SEQ + 1) % 2 ^ 32 ∧
      (s.locked 0xB0 = false → exec (.recCursor (BitVec.ofNat 32 (s.fld F.REC_CURSOR_SEQ + 1))) { s with rdData := s.fld (F.REC_WIN 15) } = .next u) ∧
      u = { s with rdData := u.rdData, mrec := { s.mrec with lastCursor := (s.fld F.REC_CURSOR_SEQ + 1) % 2 ^ 32 }, regs := u.regs }) ∧
    (s.locked 0xB0 = false → ∃ u, exec .recFifoPeakClr s = .next u ∧ u.mrec = { s.mrec with peak := s.mrec.queue.length } ∧ u.fld F.REC_FIFO_PEAK = s.mrec.queue.length % 1024 ∧
      u = { s with mrec := u.mrec, regs := u.regs }) ∧
    (∀ (lane : LaneId), ∃ u, exec (.laneFlashLog lane) s = .next u ∧
      (u.lane lane).recd = { (s.lane lane).recd with
        flashLog := ((s.lane lane).recd.entries.filter (fun e => !e.opened)).drop (((s.lane lane).recd.entries.filter (fun e => !e.opened)).length - 1024), flashNum := (s.lane lane).recd.ownNum, flashOwn := (s.lane lane).recd.ownCounts,
        flashLost := (s.lane lane).recd.lost, flashSh := (s.lane lane).row.recSh } ∧
      u.lane lane = { s.lane lane with recd := (u.lane lane).recd } ∧ u.lane (otherLane lane) = s.lane (otherLane lane) ∧ lanesOnly s u)

/-- The inventory (R351, R352) and a lane's firmware update (R327, R360–R362). A flush stores every count; INV_CMD.SET in the window puts the
serial of INV_SET into the selected record of kinds 3 to 6 and starts its counts, and counts an error for any other. Where the lanes take
LUPD_CMD: STAGE erases the bank that does not run, words go into it, VERIFY names the first check that fails, ACTIVATE boots a verified image on
a STANDBY lane beside a well AUTHORITY lane under a LOCK, ROLLBACK boots the other bank if it verifies, ABORT drops what is staged, each refused
in another phase; a trial that is not in step after 3,600 s is left. -/
def Obligations.InventoryAndLaneUpdates : Prop :=
  ∀ (s : State),
    (∃ u, exec .inventoryFlush s = .next u ∧ (∀ k ∈ invKeys, tget {} u.inv.stored (256 * k.1 + k.2) = invAt s k.1 k.2) ∧ u = { s with inv := { s.inv with stored := u.inv.stored } }) ∧
    (s.locked 0xB1 = true → exec .invSet s = .next (s.refuse 0xB1 4)) ∧
    (s.locked 0xB1 = false → s.presence = false → exec .invSet s = .next (s.refuse 0xB1 2)) ∧
    (s.locked 0xB1 = false → s.presence = true → (s.fld F.INV_SEL_KIND < 3 ∨ invCount (s.fld F.INV_SEL_KIND) ≤ s.fld F.INV_SEL_INDEX) → exec .invSet s = .next (s.err 0xB1 0x80)) ∧
    (s.locked 0xB1 = false → s.presence = true → 3 ≤ s.fld F.INV_SEL_KIND → s.fld F.INV_SEL_INDEX < invCount (s.fld F.INV_SEL_KIND) → ∀ k, k = s.fld F.INV_SEL_KIND → ∀ i, i = s.fld F.INV_SEL_INDEX →
      ∃ u, exec .invSet s = .next u ∧
        (invAt u k i).serial = ((upto 4).map (fun j => leBytes 4 (s.fld (F.INV_SET j)))).flatten ∧ (invAt u k i).seconds = 0 ∧ invCycles u k i = 0 ∧ (invAt u k i).aux = (invAt s k i).aux ∧
        (invAt u k i).installed = (tickInst s.time 0).1 % 2 ^ 32 ∧
        (∀ q ∈ invKeys, q ≠ (k, i) → invAt u q.1 q.2 = invAt s q.1 q.2) ∧ u = { s with inv := { s.inv with live := u.inv.live }, mrec := u.mrec, regs := u.regs }) ∧
    (∀ (id : LaneId), s.laneOk (lupdPage id) false = true → (s.laneA.votes = true ∨ s.laneB.votes = true) →
      ((s.fw id).phase ≠ 2 → (s.fw id).phase ≠ 5 → ∃ u, exec (.lupdStage id) s = .next u ∧
        (u.fw id).phase = 1 ∧ (u.fw id).result = 1 ∧ (u.fw id).fail = 0 ∧ (u.fw id).verify = none ∧ (u.fw id).run = (s.fw id).run ∧ fwOther (u.fw id) = .init ∧
        fwBank (u.fw id) (s.fw id).run = fwBank (s.fw id) (s.fw id).run ∧ u.fw (otherLane id) = s.fw (otherLane id) ∧ u = { s with fwA := u.fwA, fwB := u.fwB }) ∧
      (((s.fw id).phase = 2 ∨ (s.fw id).phase = 5) → exec (.lupdStage id) s = .next (lupdResult id 3 s)) ∧
      (∀ (k : Fin 7) (d : Word) (a : Nat), a = fget s.leadRegs (lupdFld F.LUPD_OFF_OFF id) + k.val →
        (a ≤ 0x2FFFFC / 4 → (s.fw id).phase = 1 → ∃ u, exec (.lupdWdata id k d) s = .next u ∧
          tget 0 (fwOther (u.fw id)).words a = d.toNat ∧ (∀ j, j ≠ a → tget 0 (fwOther (u.fw id)).words j = tget 0 (fwOther (s.fw id)).words j) ∧
          fwBank (u.fw id) (s.fw id).run = fwBank (s.fw id) (s.fw id).run ∧ u.fw (otherLane id) = s.fw (otherLane id) ∧ (u.fw id).phase = 1 ∧ u = { s with fwA := u.fwA, fwB := u.fwB }) ∧
        (a ≤ 0x2FFFFC / 4 → (s.fw id).phase ≠ 1 → exec (.lupdWdata id k d) s = .next (s.err (lupdPage id) 0x80)) ∧
        (0x2FFFFC / 4 < a → exec (.lupdWdata id k d) s = .next s)) ∧
      ((s.fw id).phase = 1 → exec (.lupdVerify id) s = .next (s.setFw id { s.fw id with phase := 2, result := 1, verify := some s.time.count })) ∧
      ((s.fw id).phase ≠ 1 → exec (.lupdVerify id) s = .next (lupdResult id 3 s)) ∧
      (((s.fw id).phase ≠ 3 ∨ (s.lane id).core.mode ≠ .standby) → exec (.lupdActivate id) s = .next (lupdResult id 3 s)) ∧
      ((s.fw id).phase = 3 → (s.lane id).core.mode = .standby → ((s.lane (otherLane id)).core.mode ≠ .authority ∨ (s.lane (otherLane id)).core.rot.clear = false) →
        exec (.lupdActivate id) s = .next (lupdResult id 4 s)) ∧
      ((s.fw id).phase = 3 → (s.lane id).core.mode = .standby → (s.lane (otherLane id)).core.mode = .authority → (s.lane (otherLane id)).core.rot.clear = true →
        ∃ u, exec (.lupdActivate id) s = .next u ∧ u.fw id = { s.fw id with phase := 5, run := 1 - (s.fw id).run, trial := some s.time.count, lock := true, result := 1 } ∧
          u.fw (otherLane id) = s.fw (otherLane id) ∧ u.lane id = goBoot id (s.lane id) ∧ u.lane (otherLane id) = s.lane (otherLane id) ∧ (∀ p ∈ lockPages, u.locked p = true) ∧
          u = { s with fwA := u.fwA, fwB := u.fwB, laneA := u.laneA, laneB := u.laneB, regs := u.regs, gov := u.gov }) ∧
      (((s.lane id).core.mode = .standby ∨ (s.lane id).core.mode = .out) →
        (imgOk s 2 (bankImage (fwOther (s.fw id))) = true → ∃ u, exec (.lupdRollback id) s = .next u ∧
          u.fw id = { s.fw id with run := 1 - (s.fw id).run, phase := 0, trial := none, result := 1 } ∧ u.fw (otherLane id) = s.fw (otherLane id) ∧
          u.lane id = goBoot id (s.lane id) ∧ u.lane (otherLane id) = s.lane (otherLane id) ∧ u = { s with fwA := u.fwA, fwB := u.fwB, laneA := u.laneA, laneB := u.laneB, gov := u.gov }) ∧
        (imgOk s 2 (bankImage (fwOther (s.fw id))) = false → exec (.lupdRollback id) s = .next (lupdResult id 2 s))) ∧
      ((s.lane id).core.mode ≠ .standby → (s.lane id).core.mode ≠ .out → exec (.lupdRollback id) s = .next (lupdResult id 3 s)) ∧
      ((s.fw id).phase ≠ 5 → ∃ u, exec (.lupdAbort id) s = .next u ∧ (u.fw id).phase = 0 ∧ (u.fw id).result = 1 ∧ (u.fw id).fail = 0 ∧ (u.fw id).verify = none ∧ (fwOther (u.fw id)).words = [] ∧
        fwBank (u.fw id) (s.fw id).run = fwBank (s.fw id) (s.fw id).run ∧ u.fw (otherLane id) = s.fw (otherLane id) ∧ u = { s with fwA := u.fwA, fwB := u.fwB }) ∧
      ((s.fw id).phase = 5 → exec (.lupdAbort id) s = .next (lupdResult id 3 s))) ∧
    (∀ (id : LaneId), (s.laneOk (lupdPage id) false = false ∨ (s.laneA.votes = false ∧ s.laneB.votes = false)) → ∀ (k : Fin 7) (d : Word), ∀ c,
      c = Instr.lupdStage id ∨ c = Instr.lupdWdata id k d ∨ c = Instr.lupdVerify id ∨ c = Instr.lupdActivate id ∨ c = Instr.lupdRollback id ∨ c = Instr.lupdAbort id → exec c s = .next s) ∧
    (∀ (id : LaneId) (e f : Bool), (s.fw id).phase = 2 → ∀ img, img = bankImage (fwOther (s.fw id)) → ∃ u, exec (.lupdVerifyComplete id e f) s = .next u ∧
      (u.fw id).phase = (if (u.fw id).fail = 0 then 3 else 4) ∧ (u.fw id).verify = none ∧ (u.fw id).result = (if (u.fw id).fail = 0 then (s.fw id).result else 2) ∧
      (imgForm 2 img = false → (u.fw id).fail = 1) ∧ (imgForm 2 img = true → imgSigned s img = false → (u.fw id).fail = 2) ∧
      (imgForm 2 img = true → imgSigned s img = true → imgDigestOk img = false → (u.fw id).fail = 3) ∧
      (imgForm 2 img = true → imgSigned s img = true → imgDigestOk img = true → (imgSvn img < svnFloor s 2 ∨ 64 < imgSvn img) → (u.fw id).fail = 4) ∧
      (imgOk s 2 img = true →
        (u.fw id).fail = (if imgLayout img ≠ imgLayout (bankImage (fwBank (s.fw id) (s.fw id).run)) then 5 else if e && f then 0 else 6)) ∧
      (u.fw id).b0 = (s.fw id).b0 ∧ (u.fw id).b1 = (s.fw id).b1 ∧ (u.fw id).run = (s.fw id).run ∧ u.fw (otherLane id) = s.fw (otherLane id) ∧ u = { s with fwA := u.fwA, fwB := u.fwB }) ∧
    (∀ (id : LaneId) (e f : Bool), (s.fw id).phase ≠ 2 → exec (.lupdVerifyComplete id e f) s = .next s) ∧
    (∀ (id : LaneId) (t : Nat), (s.fw id).trial = some t →
      (t + 29491200 ≤ s.time.count → (s.lane id).core.mode.decides = false → ∃ u, exec (.trialTimeout id) s = .next u ∧
        u.fw id = { s.fw id with phase := 4, fail := 7, run := 1 - (s.fw id).run, trial := none } ∧ u.fw (otherLane id) = s.fw (otherLane id) ∧
        u.lane id = goBoot id (s.lane id) ∧ u.lane (otherLane id) = s.lane (otherLane id) ∧ u = { s with fwA := u.fwA, fwB := u.fwB, laneA := u.laneA, laneB := u.laneB, gov := u.gov }) ∧
      ((s.time.count < t + 29491200 ∨ (s.lane id).core.mode.decides = true) → exec (.trialTimeout id) s = .next s)) ∧
    (∀ (id : LaneId), (s.fw id).trial = none → exec (.trialTimeout id) s = .next s)

/-- One step (log entry 8): a step of a state with a command at the front of its queue is that command's effect on the state with the queue's
rest. With an empty queue the step is the model's choice: each Caravan port sends on, and the step still answers. -/
def Obligations.StepRunsTheFrontCommand : Prop :=
  (∀ (c : Instr) (rest : List Instr) (s : State), s.pending = c :: rest → step s = exec c { s with pending := rest }) ∧
  (∀ s : State, s.pending = [] → step s = .next (ringIdle s))

/-- Every command completes, and only the step takes commands from the queue: a step of a state with a command waiting answers a next state,
whose queue is the old one without its front; so a queue is worked off in order, one command a step. -/
def Obligations.EveryWaitingCommandCompletes : Prop :=
  ∀ (s : State) (c : Instr) (rest : List Instr), s.pending = c :: rest → ∃ t, step s = .next t ∧ t.pending = rest

/-- The row clock's invariant (R12): ticks within a frame are numbered 0–7 and frames within a second 0–1023, each as the tick count gives it.
Every step keeps it, whatever command it runs. -/
def Obligations.EveryStepKeepsTheRowClock : Prop :=
  ∀ s t : State, clockOk s → step s = .next t → clockOk t

/-- After reset (R12, R33, R38): the row clock's invariant holds, the tick count is 0 and nothing waits; every block is OFF without a pending
enable, and EN reads 0 but on the two Caravan ports; no rail is up, and neither Xoide nor Hervi runs; both lanes are in BOOT and neither votes
(computes in step); both Playa chips are unpowered, and no receiver holds anything; the inrush governor has nothing queued and nothing admitted.
(What a part keeps without power, and the spec gives no value for, is the model's choice: log entries 4 to 6; this statement names none of it.)
-/
def Obligations.ResetState : Prop :=
  clockOk State.reset ∧ State.reset.time.count = 0 ∧ State.reset.pending = [] ∧
  (∀ k, (blkGet State.reset k).state = .off ∧ (blkGet State.reset k).pend = false ∧ ((blkGet State.reset k).en = true ↔ k = 0x110 ∨ k = 0x111)) ∧
  State.reset.pwr.laneRail = false ∧ State.reset.pwr.pkgRail = false ∧ State.reset.x.up = false ∧ State.reset.herv.up = false ∧
  (∀ lane, (State.reset.lane lane).core.mode = .boot ∧ (State.reset.lane lane).votes = false) ∧
  State.reset.chip0.powered = false ∧ State.reset.chip1.powered = false ∧ State.reset.recv = [] ∧
  State.reset.gov.queue = [] ∧ State.reset.gov.raised = [] ∧ State.reset.gov.admitted = [] ∧ govLedger State.reset.gov = 300

/-- Xoide's memories (R166–R168): a word of LPDDR6, of the shared SRAM or of a tile's SRAM that is written reads back as its 64 bits, and every
other word of every memory reads as before; a write to an unassigned word changes no word. -/
def Obligations.MemoryWordsReadBack : Prop :=
  ∀ (w v : Nat) (s : State),
    (xaMem w ≠ .none → xaGet (xaWrite w v s) w = v % 2 ^ 64) ∧
    (∀ j, j ≠ w → xaGet (xaWrite w v s) j = xaGet s j) ∧
    (xaMem w = .none → ∀ j, xaGet (xaWrite w v s) j = xaGet s j) ∧
    (∀ j, j ≠ w → tget 0 (xaWrite w v s).x.errs j = tget 0 s.x.errs j) ∧ (s.x.inject = none → xaMem w ≠ .none → tget 0 (xaWrite w v s).x.errs w = 0)

/-- R52. The ledger is the base cost and, for every admitted item, its steady cost and, within its surge window, its surge cost. In a cycle of
the governor every item that joins the ledger without a bypass leaves it within the budget of 12.00 A, whatever it was before; an item raised as
a bypass joins in that cycle, whatever the budget. -/
def Obligations.TheLedgerBoundsEveryAdmission : Prop :=
  (∀ g : GovSt, g.admitted = [] → govLedger g = 300) ∧
  (∀ (g : GovSt) (a : GovAdm), govLedger { g with admitted := a :: g.admitted } =
    govLedger g + govSteady a.item.cls + (if a.surgeLeft = 0 then 0 else govSurge a.item.cls)) ∧
  ∀ (iin : BitVec 12) (s : State), ∃ t, exec (.governorCycle iin) s = .next t ∧
    (∀ a ∈ t.gov.admitted, s.gov.admitted.all (fun b => b.item != a.item) = true → s.gov.raised.all (fun r => !r.bypass || r.item != a.item) = true →
      govLedger t.gov ≤ 1200) ∧
    (∀ r ∈ s.gov.raised, r.bypass = true → t.gov.admitted.any (fun a => a.item == r.item) = true)

/-- R57. The governor counts the consecutive sequencer cycles in which PWR_IIN is above the budget of 12.00 A, and those in which it is at or
below 11.50 A; 16 of the first set HOLD and 16 of the second clear it, and nothing else in the cycle changes it; in a cycle with HOLD only a lane
joins the ledger (a bypass aside, R56). -/
def Obligations.HoldFollowsTheMeasuredCurrent : Prop :=
  ∀ (iin : BitVec 12) (s : State), ∃ t, exec (.governorCycle iin) s = .next t ∧
    t.gov.overRun = (if 1200 < iin.toNat then s.gov.overRun + 1 else 0) ∧ t.gov.underRun = (if iin.toNat ≤ 1150 then s.gov.underRun + 1 else 0) ∧
    t.gov.hold = (if 16 ≤ t.gov.overRun then true else if 16 ≤ t.gov.underRun then false else s.gov.hold) ∧
    t.fld F.INRUSH_BLOCK_HOLD = b2n t.gov.hold ∧
    (t.gov.hold = true → ∀ a ∈ t.gov.admitted, s.gov.admitted.all (fun b => b.item != a.item) = true →
      s.gov.raised.all (fun r => !r.bypass || r.item != a.item) = true → a.item.cls = .lane)

/-- R58. When the package rail is lost, alone or with HOLDUP, the governor drops every request of an erg or a quadrant, queued, raised or granted
and on its way, and every ledger entry of one, in that one command; lost alone, the requests and entries of every other item stay. -/
def Obligations.RailLossDropsXoidesRequests : Prop :=
  ∀ (s : State),
    (∀ (a b : BitVec 12), ∀ c, c = Instr.packageRailLoss ∨
      (c = Instr.holdup a b ∧ a.toNat < 1500 ∧ b.toNat < 1500 ∧ s.pwr.laneRail = true ∧ s.pwr.holdup = false) →
      ∃ t, exec c s = .next t ∧ t.pwr.pkgRail = false ∧
        t.gov.queue.all (fun r => r.item.cls != .erg && r.item.cls != .lpddr) = true ∧ t.gov.raised.all (fun r => r.item.cls != .erg && r.item.cls != .lpddr) = true ∧
        t.gov.granting.all (fun x => x.1.cls != .erg && x.1.cls != .lpddr) = true ∧ t.gov.admitted.all (fun x => x.item.cls != .erg && x.item.cls != .lpddr) = true) ∧
    (∃ t, exec .packageRailLoss s = .next t ∧
      t.gov.queue = s.gov.queue.filter (fun r => r.item.cls != .erg && r.item.cls != .lpddr) ∧ t.gov.raised = s.gov.raised.filter (fun r => r.item.cls != .erg && r.item.cls != .lpddr) ∧
      t.gov.granting = s.gov.granting.filter (fun x => x.1.cls != .erg && x.1.cls != .lpddr) ∧ t.gov.admitted = s.gov.admitted.filter (fun x => x.item.cls != .erg && x.item.cls != .lpddr))
end

