-- ==== Sys2Proof/Laws/Table.lean ====
section
/-! SUPPORT. What reading a sparse table answers after a write, and that every write keeps the canonical form. -/
namespace Sys2Proof.Machine

section
variable {α : Type}

@[simp] theorem tget_nil (d : α) (j : Nat) : tget d [] j = d := rfl

theorem tget_tdel_same (d : α) (t : Tbl α) (j : Nat) : tget d (tdel t j) j = d := by
  induction t with
  | nil => rfl
  | cons e r ih => obtain ⟨k, v⟩ := e; by_cases h : k = j <;> simp [tdel, tget, h, ih]

theorem tget_tdel_other (d : α) (t : Tbl α) {j k : Nat} (h : k ≠ j) : tget d (tdel t j) k = tget d t k := by
  induction t with
  | nil => rfl
  | cons e r ih =>
    obtain ⟨m, v⟩ := e
    by_cases hm : m = j
    · subst hm; simp [tdel, tget, ih, Ne.symm h]
    · simp only [tdel, hm, if_false, tget, ih]

theorem tget_tput_same (d : α) (t : Tbl α) (j : Nat) (x : α) : tget d (tput t j x) j = x := by
  induction t with
  | nil => simp [tput, tget]
  | cons e r ih =>
    obtain ⟨k, v⟩ := e
    by_cases h : j < k
    · simp [tput, tget, h]
    · by_cases hk : k = j <;> simp [tput, tget, h, hk, ih]

theorem tget_tput_other (d : α) (t : Tbl α) {j k : Nat} (x : α) (h : k ≠ j) : tget d (tput t j x) k = tget d t k := by
  induction t with
  | nil => simp [tput, tget, Ne.symm h]
  | cons e r ih =>
    obtain ⟨m, v⟩ := e
    by_cases hj : j < m
    · simp [tput, tget, hj, Ne.symm h]
    · by_cases hm : m = j
      · subst hm; simp [tput, tget, Ne.symm h]
      · simp only [tput, hj, hm, if_false, tget, ih]

variable [DecidableEq α]

/-- A read after a write to the same key gives the value written. -/
@[simp] theorem tget_tset_same (d : α) (t : Tbl α) (j : Nat) (x : α) : tget d (tset d t j x) j = x := by
  by_cases h : x = d
  · subst h; simp [tset, tget_tdel_same]
  · simp [tset, h, tget_tput_same]

/-- A write leaves every other key alone. -/
theorem tget_tset_other (d : α) (t : Tbl α) {j k : Nat} (x : α) (h : k ≠ j) : tget d (tset d t j x) k = tget d t k := by
  by_cases hx : x = d
  · simp [tset, hx, tget_tdel_other d t h]
  · simp [tset, hx, tget_tput_other d t x h]

theorem tget_tset (d : α) (t : Tbl α) (j k : Nat) (x : α) : tget d (tset d t j x) k = if k = j then x else tget d t k := by
  by_cases h : k = j
  · subst h; simp
  · simp [h, tget_tset_other]

theorem tget_tmod (d : α) (t : Tbl α) (j k : Nat) (f : α → α) :
    tget d (tmod d t j f) k = if k = j then f (tget d t j) else tget d t k := tget_tset d t j k _

/-- Canonical form, written over the whole list. -/
theorem tblWf_iff (d : α) (t : Tbl α) : tblWf d t = true ↔ (∀ e ∈ t, e.2 ≠ d) ∧ t.Pairwise (fun a b => a.1 < b.1) := by
  induction t with
  | nil => simp [tblWf]
  | cons e r ih =>
    obtain ⟨k, v⟩ := e
    cases r with
    | nil => simp [tblWf]
    | cons e' r =>
      obtain ⟨j, w⟩ := e'
      simp only [tblWf, Bool.and_eq_true, bne_iff_ne, decide_eq_true_eq, ih]
      constructor
      · rintro ⟨⟨hv, hk⟩, hd, hp⟩
        refine ⟨?_, ?_⟩
        · intro e he
          rcases List.mem_cons.1 he with rfl | he
          · exact hv
          · exact hd e he
        · refine List.pairwise_cons.2 ⟨?_, hp⟩
          intro a ha
          rcases List.mem_cons.1 ha with rfl | ha
          · exact hk
          · have := (List.pairwise_cons.1 hp).1 a ha
            omega
      · rintro ⟨hd, hp⟩
        have hp' := List.pairwise_cons.1 hp
        exact ⟨⟨hd _ (List.mem_cons_self ..), hp'.1 _ (List.mem_cons_self ..)⟩, fun e he => hd e (List.mem_cons_of_mem _ he), hp'.2⟩

omit [DecidableEq α] in
theorem mem_tdel (t : Tbl α) (j : Nat) (e : Nat × α) (h : e ∈ tdel t j) : e ∈ t := by
  induction t with
  | nil => simp [tdel] at h
  | cons x r ih =>
    obtain ⟨k, v⟩ := x
    by_cases hk : k = j
    · simp [tdel, hk] at h; exact List.mem_cons_of_mem _ (ih h)
    · simp [tdel, hk] at h
      rcases h with rfl | h
      · exact List.mem_cons_self ..
      · exact List.mem_cons_of_mem _ (ih h)

omit [DecidableEq α] in
theorem mem_tput (t : Tbl α) (j : Nat) (x : α) (e : Nat × α) (h : e ∈ tput t j x) : e = (j, x) ∨ e ∈ t := by
  induction t with
  | nil => simp [tput] at h; exact Or.inl h
  | cons y r ih =>
    obtain ⟨k, v⟩ := y
    by_cases hj : j < k
    · simp only [tput, hj, if_true] at h
      rcases List.mem_cons.1 h with h | h
      · exact Or.inl h
      · exact Or.inr h
    · by_cases hk : k = j
      · subst hk
        simp only [tput, Nat.lt_irrefl, if_false, if_true] at h
        rcases List.mem_cons.1 h with h | h
        · exact Or.inl h
        · exact Or.inr (List.mem_cons_of_mem _ h)
      · simp only [tput, hj, hk, if_false] at h
        rcases List.mem_cons.1 h with h | h
        · exact Or.inr (h ▸ List.mem_cons_self ..)
        · rcases ih h with h | h
          · exact Or.inl h
          · exact Or.inr (List.mem_cons_of_mem _ h)

omit [DecidableEq α] in
theorem tdel_sorted (t : Tbl α) (j : Nat) (h : t.Pairwise (fun a b => a.1 < b.1)) : (tdel t j).Pairwise (fun a b => a.1 < b.1) := by
  induction t with
  | nil => exact h
  | cons x r ih =>
    obtain ⟨k, v⟩ := x
    have hp := List.pairwise_cons.1 h
    by_cases hk : k = j
    · simpa [tdel, hk] using ih hp.2
    · simp only [tdel, hk, if_false]
      exact List.pairwise_cons.2 ⟨fun a ha => hp.1 a (mem_tdel r j a ha), ih hp.2⟩

omit [DecidableEq α] in
theorem tput_sorted (t : Tbl α) (j : Nat) (x : α) (h : t.Pairwise (fun a b => a.1 < b.1)) :
    (tput t j x).Pairwise (fun a b => a.1 < b.1) := by
  induction t with
  | nil => simp [tput]
  | cons y r ih =>
    obtain ⟨k, v⟩ := y
    have hp := List.pairwise_cons.1 h
    by_cases hj : j < k
    · simp only [tput, hj, if_true]
      refine List.pairwise_cons.2 ⟨?_, h⟩
      intro a ha
      rcases List.mem_cons.1 ha with rfl | ha
      · exact hj
      · exact Nat.lt_trans hj (hp.1 a ha)
    · by_cases hk : k = j
      · subst hk
        simp only [tput, hj, if_false, if_true]
        exact List.pairwise_cons.2 ⟨hp.1, hp.2⟩
      · simp only [tput, hj, hk, if_false]
        refine List.pairwise_cons.2 ⟨?_, ih hp.2⟩
        intro a ha
        rcases mem_tput r j x a ha with rfl | ha
        · show k < j; omega
        · exact hp.1 a ha

/-- Writing keeps the canonical form. -/
theorem tset_wf (d : α) (t : Tbl α) (j : Nat) (x : α) (h : tblWf d t = true) : tblWf d (tset d t j x) = true := by
  rw [tblWf_iff] at h ⊢
  by_cases hx : x = d
  · simp only [tset, hx, if_true]
    exact ⟨fun e he => h.1 e (mem_tdel t j e he), tdel_sorted t j h.2⟩
  · simp only [tset, hx, if_false]
    refine ⟨?_, tput_sorted t j x h.2⟩
    intro e he
    rcases mem_tput t j x e he with rfl | he
    · exact hx
    · exact h.1 e he

theorem tmod_wf (d : α) (t : Tbl α) (j : Nat) (f : α → α) (h : tblWf d t = true) : tblWf d (tmod d t j f) = true := tset_wf d t j _ h

/-- Clearing a range of keys keeps the canonical form. -/
theorem tclear_wf (d : α) (t : Tbl α) (lo hi : Nat) (h : tblWf d t = true) : tblWf d (tclear t lo hi) = true := by
  rw [tblWf_iff] at h ⊢
  exact ⟨fun e he => h.1 e ((List.mem_filter.1 he).1), h.2.filter _⟩

end
end Sys2Proof.Machine
end

