-- ==== Sys2Proof/Laws/Regs.lean ====
section
/-! SUPPORT. What reading a register or a field answers after a write of a register or a field. -/
namespace Sys2Proof.Machine
open Sys2Proof

@[simp] theorem rget_rset_same (rf : RegFile) (off : Nat) (v : Word) : rget (rset rf off v) off = v := by
  simp [rget, rset]

theorem rget_rset_other (rf : RegFile) {off off' : Nat} (v : Word) (h : off' ≠ off) : rget (rset rf off v) off' = rget rf off' := by
  unfold rget rset
  by_cases hd : v = resetWord off
  · simp [tset, hd, tget_tdel_other _ _ h]
  · simp [tset, hd, tget_tput_other _ _ _ h]

/-- A word in three parts: below, in and above a field. -/
theorem bits_split (x lo w : Nat) : x = x / 2 ^ (lo + w) * 2 ^ (lo + w) + bitsOf x lo w * 2 ^ lo + x % 2 ^ lo := by
  have h1 := Nat.div_add_mod x (2 ^ lo)
  have h2 := Nat.div_add_mod (x / 2 ^ lo) (2 ^ w)
  have h3 : x / 2 ^ (lo + w) = x / 2 ^ lo / 2 ^ w := by rw [Nat.pow_add, Nat.div_div_eq_div_mul]
  have hb : bitsOf x lo w = x / 2 ^ lo % 2 ^ w := rfl
  have e : (2 ^ w * (x / 2 ^ lo / 2 ^ w) + x / 2 ^ lo % 2 ^ w) * 2 ^ lo =
      x / 2 ^ (lo + w) * 2 ^ (lo + w) + bitsOf x lo w * 2 ^ lo := by
    rw [Nat.add_mul, h3, hb, Nat.pow_add, Nat.mul_comm (2 ^ w), Nat.mul_assoc, Nat.mul_comm (2 ^ w)]
  rw [← e, h2]
  calc x = 2 ^ lo * (x / 2 ^ lo) + x % 2 ^ lo := h1.symm
    _ = x / 2 ^ lo * 2 ^ lo + x % 2 ^ lo := by rw [Nat.mul_comm]

theorem putBits_eq (x lo w v : Nat) :
    putBits x lo w v = x / 2 ^ (lo + w) * 2 ^ (lo + w) + v % 2 ^ w * 2 ^ lo + x % 2 ^ lo := by
  have h := bits_split x lo w
  unfold putBits
  omega

theorem putBits_div (x lo w v : Nat) : putBits x lo w v / 2 ^ lo = x / 2 ^ (lo + w) * 2 ^ w + v % 2 ^ w := by
  rw [putBits_eq, Nat.pow_add, Nat.mul_comm (2 ^ lo) (2 ^ w), ← Nat.mul_assoc, ← Nat.add_mul, Nat.add_comm, Nat.add_mul_div_right _ _ (Nat.two_pow_pos lo),
    Nat.div_eq_of_lt (Nat.mod_lt _ (Nat.two_pow_pos lo)), Nat.zero_add, ← Nat.pow_add, Nat.add_comm w lo]

@[simp] theorem bitsOf_putBits_same (x lo w v : Nat) : bitsOf (putBits x lo w v) lo w = v % 2 ^ w := by
  unfold bitsOf
  rw [putBits_div, Nat.add_comm, Nat.add_mul_mod_self_right, Nat.mod_mod]

theorem putBits_high (x lo w v : Nat) : putBits x lo w v / 2 ^ (lo + w) = x / 2 ^ (lo + w) := by
  rw [Nat.pow_add, ← Nat.div_div_eq_div_mul, putBits_div, Nat.add_comm, Nat.add_mul_div_right _ _ (Nat.two_pow_pos w),
    Nat.div_eq_of_lt (Nat.mod_lt _ (Nat.two_pow_pos w)), Nat.zero_add, Nat.pow_add]

theorem putBits_low (x lo w v : Nat) : putBits x lo w v % 2 ^ lo = x % 2 ^ lo := by
  rw [putBits_eq, Nat.pow_add, Nat.mul_comm (2 ^ lo) (2 ^ w), ← Nat.mul_assoc, ← Nat.add_mul, Nat.add_comm, Nat.add_mul_mod_self_right, Nat.mod_mod]

/-- A field above the one written. -/
theorem bitsOf_putBits_above (x lo w v lo' w' : Nat) (h : lo + w ≤ lo') : bitsOf (putBits x lo w v) lo' w' = bitsOf x lo' w' := by
  unfold bitsOf
  have e : 2 ^ lo' = 2 ^ (lo + w) * 2 ^ (lo' - (lo + w)) := by rw [← Nat.pow_add]; congr 1; omega
  rw [e, ← Nat.div_div_eq_div_mul, putBits_high, Nat.div_div_eq_div_mul]

/-- A field below the one written. -/
theorem bitsOf_putBits_below (x lo w v lo' w' : Nat) (h : lo' + w' ≤ lo) : bitsOf (putBits x lo w v) lo' w' = bitsOf x lo' w' := by
  have key : ∀ y, bitsOf y lo' w' = y % 2 ^ lo / 2 ^ lo' % 2 ^ w' := by
    intro y
    unfold bitsOf
    have e : 2 ^ lo = 2 ^ lo' * 2 ^ (lo - lo') := by rw [← Nat.pow_add]; congr 1; omega
    have e2 : 2 ^ (lo - lo') = 2 ^ w' * 2 ^ (lo - lo' - w') := by rw [← Nat.pow_add]; congr 1; omega
    rw [e, Nat.mod_mul_right_div_self, e2, Nat.mod_mul_right_mod]
  rw [key, key, putBits_low]

theorem putBits_lt (x lo w v n : Nat) (hx : x < 2 ^ n) (h : lo + w ≤ n) : putBits x lo w v < 2 ^ n := by
  have e : n = (n - (lo + w)) + (lo + w) := by omega
  have : putBits x lo w v / 2 ^ (lo + w) < 2 ^ (n - (lo + w)) := by
    rw [putBits_high]
    rw [e, Nat.pow_add] at hx
    exact Nat.div_lt_of_lt_mul (by rw [Nat.mul_comm]; exact hx)
  rw [e, Nat.pow_add]
  rw [Nat.div_lt_iff_lt_mul (Nat.two_pow_pos _)] at this
  exact this

theorem rget_fset_same (rf : RegFile) (f : Fld) (v : Nat) (h : f.lo + f.w ≤ 32) :
    (rget (fset rf f v) f.off).toNat = putBits (rget rf f.off).toNat f.lo f.w v := by
  unfold fset
  rw [rget_rset_same, BitVec.toNat_ofNat, Nat.mod_eq_of_lt (putBits_lt _ _ _ _ 32 (rget rf f.off).isLt h)]

theorem rget_fset_other (rf : RegFile) (f : Fld) (v : Nat) {off : Nat} (h : off ≠ f.off) : rget (fset rf f v) off = rget rf off :=
  rget_rset_other rf _ h

/-- A field reads what was written to it. -/
theorem fget_fset_same (rf : RegFile) (f : Fld) (v : Nat) (h : f.lo + f.w ≤ 32) : fget (fset rf f v) f = v % 2 ^ f.w := by
  unfold fget
  rw [rget_fset_same rf f v h, bitsOf_putBits_same]

/-- A field of another register keeps its value. -/
theorem fget_fset_other (rf : RegFile) (f g : Fld) (v : Nat) (h : g.off ≠ f.off) : fget (fset rf f v) g = fget rf g := by
  unfold fget
  rw [rget_fset_other rf f v h]

/-- Another field of the same register keeps its value. -/
theorem fget_fset_beside (rf : RegFile) (f g : Fld) (v : Nat) (ho : g.off = f.off) (hf : f.lo + f.w ≤ 32)
    (h : f.lo + f.w ≤ g.lo ∨ g.lo + g.w ≤ f.lo) : fget (fset rf f v) g = fget rf g := by
  unfold fget
  rw [ho, rget_fset_same rf f v hf]
  rcases h with h | h
  · exact bitsOf_putBits_above _ _ _ _ _ _ h
  · exact bitsOf_putBits_below _ _ _ _ _ _ h

/-- Setting an interrupt bit touches one header word. -/
theorem rget_regIrq_other (rf : RegFile) (p b : Nat) {off : Nat} (h : off ≠ hdrIrq p) : rget (regIrq rf p b) off = rget rf off :=
  rget_rset_other rf _ h
theorem rget_regIrq_same (rf : RegFile) (p b : Nat) : rget (regIrq rf p b) (hdrIrq p) = rget rf (hdrIrq p) ||| BitVec.ofNat 32 (2 ^ b) :=
  rget_rset_same rf _ _
/-- Counting an error touches the page's ERR_CNT and IRQ words. -/
theorem rget_regErr_other (rf : RegFile) (p c : Nat) {off : Nat} (h1 : off ≠ hdrIrq p) (h2 : off ≠ hdrErr p) :
    rget (regErr rf p c) off = rget rf off := by
  unfold regErr
  rw [rget_regIrq_other _ _ _ h1, rget_rset_other _ _ h2]
theorem rget_regErr_cnt (rf : RegFile) (p c : Nat) : rget (regErr rf p c) (hdrErr p) =
    BitVec.ofNat 32 (satAdd 0xFFFF ((rget rf (hdrErr p)).toNat % 65536) 1 + 65536 * (c % 256)) := by
  unfold regErr
  rw [rget_regIrq_other _ _ _ (by unfold hdrErr hdrIrq; omega), rget_rset_same]

end Sys2Proof.Machine
end

