-- ==== Sys2Proof/Laws/State.lean ====
section
/-! SUPPORT. What each named update of the state leaves alone: one lemma per field per update. -/
set_option Elab.async false
namespace Sys2Proof.Machine
open Sys2Proof

theorem foldl_keeps {α β : Type} (v : State → β) (g : State → α → State) (h : ∀ s a, v (g s a) = v s) (l : List α) (s : State) :
    v (l.foldl g s) = v s := by
  induction l generalizing s with
  | nil => rfl
  | cons a l ih => rw [List.foldl_cons, ih, h]
theorem recShow_keeps {β : Type} (v : State → β) (h : ∀ (s : State) rf, v { s with regs := rf } = v s) (s : State) : v (recShow s) = v s := by
  unfold recShow
  dsimp only
  rw [foldl_keeps v]
  · simp only [State.setFld, h]
  · intro s c
    simp only [State.setFld, h]
theorem mainProcess_keeps {β : Type} (v : State → β) (h : ∀ (s : State) rf m, v { s with regs := rf, mrec := m } = v s) (o : Occ) (t : TimeSt)
    (s : State) : v (mainProcess o t s) = v s := by
  have e : mainProcess o t s = { s with regs := (mainProcess o t s).regs, mrec := (mainProcess o t s).mrec } := by
    unfold mainProcess; dsimp only; split <;> (try split) <;> (try split) <;> rfl
  rw [e, h]
theorem mainDrain_keeps {β : Type} (v : State → β) (h : ∀ (s : State) rf m, v { s with regs := rf, mrec := m } = v s) (s : State) :
    v (mainDrain s) = v s := by
  unfold mainDrain
  split
  · exact (foldl_keeps v (fun s (x : Occ × TimeSt) => mainProcess x.1 x.2 s) (fun s x => mainProcess_keeps v h x.1 x.2 s) s.mrec.queue
      { s with mrec := { s.mrec with queue := [] } }).trans (h s s.regs { s.mrec with queue := [] })
  · rfl
/-- An occurrence reaches the recorder and its registers, and nothing else. -/
theorem occ_keeps {β : Type} (v : State → β) (h : ∀ (s : State) rf m, v { s with regs := rf, mrec := m } = v s) (s : State) (o : Occ) :
    v (s.occ o) = v s := by
  unfold State.occ
  rw [recShow_keeps v (fun s rf => h s rf s.mrec), mainDrain_keeps v h]
  have e : mainTake o s = { s with regs := (mainTake o s).regs, mrec := (mainTake o s).mrec } := by
    unfold mainTake; dsimp only; split <;> rfl
  rw [e, h]
theorem frame_of_rec {t s : State} (h : { t with regs := [], mrec := MainRec.init } = { s with regs := [], mrec := MainRec.init }) :
    t = { s with regs := t.regs, mrec := t.mrec } := by
  cases t; cases s; simp only [State.mk.injEq] at h; simp only [State.mk.injEq]; simp_all
theorem State.occ_frame (s : State) (o : Occ) : s.occ o = { s with regs := (s.occ o).regs, mrec := (s.occ o).mrec } :=
  frame_of_rec (occ_keeps (fun t => { t with regs := [], mrec := MainRec.init }) (fun _ _ _ => rfl) s o)
theorem State.note_frame (s : State) (og cls u sub code arg : Nat) :
    s.note og cls u sub code arg = { s with regs := (s.note og cls u sub code arg).regs, mrec := (s.note og cls u sub code arg).mrec } :=
  State.occ_frame s _

@[simp] theorem State.setFld_time (s : State) (f : Fld) (v : Nat) : (State.setFld s f v).time = s.time := rfl
@[simp] theorem State.setFld_fuses (s : State) (f : Fld) (v : Nat) : (State.setFld s f v).fuses = s.fuses := rfl
@[simp] theorem State.setFld_blk (s : State) (f : Fld) (v : Nat) : (State.setFld s f v).blk = s.blk := rfl
@[simp] theorem State.setFld_mbox (s : State) (f : Fld) (v : Nat) : (State.setFld s f v).mbox = s.mbox := rfl
@[simp] theorem State.setFld_hilo (s : State) (f : Fld) (v : Nat) : (State.setFld s f v).hilo = s.hilo := rfl
@[simp] theorem State.setFld_gov (s : State) (f : Fld) (v : Nat) : (State.setFld s f v).gov = s.gov := rfl
@[simp] theorem State.setFld_pwr (s : State) (f : Fld) (v : Nat) : (State.setFld s f v).pwr = s.pwr := rfl
@[simp] theorem State.setFld_xopp (s : State) (f : Fld) (v : Nat) : (State.setFld s f v).xopp = s.xopp := rfl
@[simp] theorem State.setFld_hopp (s : State) (f : Fld) (v : Nat) : (State.setFld s f v).hopp = s.hopp := rfl
@[simp] theorem State.setFld_x (s : State) (f : Fld) (v : Nat) : (State.setFld s f v).x = s.x := rfl
@[simp] theorem State.setFld_crvn (s : State) (f : Fld) (v : Nat) : (State.setFld s f v).crvn = s.crvn := rfl
@[simp] theorem State.setFld_herv (s : State) (f : Fld) (v : Nat) : (State.setFld s f v).herv = s.herv := rfl
@[simp] theorem State.setFld_ucie (s : State) (f : Fld) (v : Nat) : (State.setFld s f v).ucie = s.ucie := rfl
@[simp] theorem State.setFld_ptp (s : State) (f : Fld) (v : Nat) : (State.setFld s f v).ptp = s.ptp := rfl
@[simp] theorem State.setFld_eth0 (s : State) (f : Fld) (v : Nat) : (State.setFld s f v).eth0 = s.eth0 := rfl
@[simp] theorem State.setFld_eth1 (s : State) (f : Fld) (v : Nat) : (State.setFld s f v).eth1 = s.eth1 := rfl
@[simp] theorem State.setFld_panS (s : State) (f : Fld) (v : Nat) : (State.setFld s f v).panS = s.panS := rfl
@[simp] theorem State.setFld_panA (s : State) (f : Fld) (v : Nat) : (State.setFld s f v).panA = s.panA := rfl
@[simp] theorem State.setFld_panB (s : State) (f : Fld) (v : Nat) : (State.setFld s f v).panB = s.panB := rfl
@[simp] theorem State.setFld_sec (s : State) (f : Fld) (v : Nat) : (State.setFld s f v).sec = s.sec := rfl
@[simp] theorem State.setFld_lsecA (s : State) (f : Fld) (v : Nat) : (State.setFld s f v).lsecA = s.lsecA := rfl
@[simp] theorem State.setFld_lsecB (s : State) (f : Fld) (v : Nat) : (State.setFld s f v).lsecB = s.lsecB := rfl
@[simp] theorem State.setFld_fwA (s : State) (f : Fld) (v : Nat) : (State.setFld s f v).fwA = s.fwA := rfl
@[simp] theorem State.setFld_fwB (s : State) (f : Fld) (v : Nat) : (State.setFld s f v).fwB = s.fwB := rfl
@[simp] theorem State.setFld_twin (s : State) (f : Fld) (v : Nat) : (State.setFld s f v).twin = s.twin := rfl
@[simp] theorem State.setFld_chip0 (s : State) (f : Fld) (v : Nat) : (State.setFld s f v).chip0 = s.chip0 := rfl
@[simp] theorem State.setFld_chip1 (s : State) (f : Fld) (v : Nat) : (State.setFld s f v).chip1 = s.chip1 := rfl
@[simp] theorem State.setFld_recv (s : State) (f : Fld) (v : Nat) : (State.setFld s f v).recv = s.recv := rfl
@[simp] theorem State.setFld_laneA (s : State) (f : Fld) (v : Nat) : (State.setFld s f v).laneA = s.laneA := rfl
@[simp] theorem State.setFld_laneB (s : State) (f : Fld) (v : Nat) : (State.setFld s f v).laneB = s.laneB := rfl
@[simp] theorem State.setFld_ingest (s : State) (f : Fld) (v : Nat) : (State.setFld s f v).ingest = s.ingest := rfl
@[simp] theorem State.setFld_fwd (s : State) (f : Fld) (v : Nat) : (State.setFld s f v).fwd = s.fwd := rfl
@[simp] theorem State.setFld_agents (s : State) (f : Fld) (v : Nat) : (State.setFld s f v).agents = s.agents := rfl
@[simp] theorem State.setFld_mrec (s : State) (f : Fld) (v : Nat) : (State.setFld s f v).mrec = s.mrec := rfl
@[simp] theorem State.setFld_inv (s : State) (f : Fld) (v : Nat) : (State.setFld s f v).inv = s.inv := rfl
@[simp] theorem State.setFld_rdData (s : State) (f : Fld) (v : Nat) : (State.setFld s f v).rdData = s.rdData := rfl
@[simp] theorem State.setFld_freeCtr (s : State) (f : Fld) (v : Nat) : (State.setFld s f v).freeCtr = s.freeCtr := rfl
@[simp] theorem State.setFld_pending (s : State) (f : Fld) (v : Nat) : (State.setFld s f v).pending = s.pending := rfl
@[simp] theorem State.irq_time (s : State) (p b : Nat) : (State.irq s p b).time = s.time := rfl
@[simp] theorem State.irq_fuses (s : State) (p b : Nat) : (State.irq s p b).fuses = s.fuses := rfl
@[simp] theorem State.irq_blk (s : State) (p b : Nat) : (State.irq s p b).blk = s.blk := rfl
@[simp] theorem State.irq_mbox (s : State) (p b : Nat) : (State.irq s p b).mbox = s.mbox := rfl
@[simp] theorem State.irq_hilo (s : State) (p b : Nat) : (State.irq s p b).hilo = s.hilo := rfl
@[simp] theorem State.irq_gov (s : State) (p b : Nat) : (State.irq s p b).gov = s.gov := rfl
@[simp] theorem State.irq_pwr (s : State) (p b : Nat) : (State.irq s p b).pwr = s.pwr := rfl
@[simp] theorem State.irq_xopp (s : State) (p b : Nat) : (State.irq s p b).xopp = s.xopp := rfl
@[simp] theorem State.irq_hopp (s : State) (p b : Nat) : (State.irq s p b).hopp = s.hopp := rfl
@[simp] theorem State.irq_x (s : State) (p b : Nat) : (State.irq s p b).x = s.x := rfl
@[simp] theorem State.irq_crvn (s : State) (p b : Nat) : (State.irq s p b).crvn = s.crvn := rfl
@[simp] theorem State.irq_herv (s : State) (p b : Nat) : (State.irq s p b).herv = s.herv := rfl
@[simp] theorem State.irq_ucie (s : State) (p b : Nat) : (State.irq s p b).ucie = s.ucie := rfl
@[simp] theorem State.irq_ptp (s : State) (p b : Nat) : (State.irq s p b).ptp = s.ptp := rfl
@[simp] theorem State.irq_eth0 (s : State) (p b : Nat) : (State.irq s p b).eth0 = s.eth0 := rfl
@[simp] theorem State.irq_eth1 (s : State) (p b : Nat) : (State.irq s p b).eth1 = s.eth1 := rfl
@[simp] theorem State.irq_panS (s : State) (p b : Nat) : (State.irq s p b).panS = s.panS := rfl
@[simp] theorem State.irq_panA (s : State) (p b : Nat) : (State.irq s p b).panA = s.panA := rfl
@[simp] theorem State.irq_panB (s : State) (p b : Nat) : (State.irq s p b).panB = s.panB := rfl
@[simp] theorem State.irq_sec (s : State) (p b : Nat) : (State.irq s p b).sec = s.sec := rfl
@[simp] theorem State.irq_lsecA (s : State) (p b : Nat) : (State.irq s p b).lsecA = s.lsecA := rfl
@[simp] theorem State.irq_lsecB (s : State) (p b : Nat) : (State.irq s p b).lsecB = s.lsecB := rfl
@[simp] theorem State.irq_fwA (s : State) (p b : Nat) : (State.irq s p b).fwA = s.fwA := rfl
@[simp] theorem State.irq_fwB (s : State) (p b : Nat) : (State.irq s p b).fwB = s.fwB := rfl
@[simp] theorem State.irq_twin (s : State) (p b : Nat) : (State.irq s p b).twin = s.twin := rfl
@[simp] theorem State.irq_chip0 (s : State) (p b : Nat) : (State.irq s p b).chip0 = s.chip0 := rfl
@[simp] theorem State.irq_chip1 (s : State) (p b : Nat) : (State.irq s p b).chip1 = s.chip1 := rfl
@[simp] theorem State.irq_recv (s : State) (p b : Nat) : (State.irq s p b).recv = s.recv := rfl
@[simp] theorem State.irq_laneA (s : State) (p b : Nat) : (State.irq s p b).laneA = s.laneA := rfl
@[simp] theorem State.irq_laneB (s : State) (p b : Nat) : (State.irq s p b).laneB = s.laneB := rfl
@[simp] theorem State.irq_ingest (s : State) (p b : Nat) : (State.irq s p b).ingest = s.ingest := rfl
@[simp] theorem State.irq_fwd (s : State) (p b : Nat) : (State.irq s p b).fwd = s.fwd := rfl
@[simp] theorem State.irq_agents (s : State) (p b : Nat) : (State.irq s p b).agents = s.agents := rfl
@[simp] theorem State.irq_mrec (s : State) (p b : Nat) : (State.irq s p b).mrec = s.mrec := rfl
@[simp] theorem State.irq_inv (s : State) (p b : Nat) : (State.irq s p b).inv = s.inv := rfl
@[simp] theorem State.irq_rdData (s : State) (p b : Nat) : (State.irq s p b).rdData = s.rdData := rfl
@[simp] theorem State.irq_freeCtr (s : State) (p b : Nat) : (State.irq s p b).freeCtr = s.freeCtr := rfl
@[simp] theorem State.irq_pending (s : State) (p b : Nat) : (State.irq s p b).pending = s.pending := rfl
@[simp] theorem State.err_time (s : State) (p c : Nat) : (State.err s p c).time = s.time := rfl
@[simp] theorem State.err_fuses (s : State) (p c : Nat) : (State.err s p c).fuses = s.fuses := rfl
@[simp] theorem State.err_blk (s : State) (p c : Nat) : (State.err s p c).blk = s.blk := rfl
@[simp] theorem State.err_mbox (s : State) (p c : Nat) : (State.err s p c).mbox = s.mbox := rfl
@[simp] theorem State.err_hilo (s : State) (p c : Nat) : (State.err s p c).hilo = s.hilo := rfl
@[simp] theorem State.err_gov (s : State) (p c : Nat) : (State.err s p c).gov = s.gov := rfl
@[simp] theorem State.err_pwr (s : State) (p c : Nat) : (State.err s p c).pwr = s.pwr := rfl
@[simp] theorem State.err_xopp (s : State) (p c : Nat) : (State.err s p c).xopp = s.xopp := rfl
@[simp] theorem State.err_hopp (s : State) (p c : Nat) : (State.err s p c).hopp = s.hopp := rfl
@[simp] theorem State.err_x (s : State) (p c : Nat) : (State.err s p c).x = s.x := rfl
@[simp] theorem State.err_crvn (s : State) (p c : Nat) : (State.err s p c).crvn = s.crvn := rfl
@[simp] theorem State.err_herv (s : State) (p c : Nat) : (State.err s p c).herv = s.herv := rfl
@[simp] theorem State.err_ucie (s : State) (p c : Nat) : (State.err s p c).ucie = s.ucie := rfl
@[simp] theorem State.err_ptp (s : State) (p c : Nat) : (State.err s p c).ptp = s.ptp := rfl
@[simp] theorem State.err_eth0 (s : State) (p c : Nat) : (State.err s p c).eth0 = s.eth0 := rfl
@[simp] theorem State.err_eth1 (s : State) (p c : Nat) : (State.err s p c).eth1 = s.eth1 := rfl
@[simp] theorem State.err_panS (s : State) (p c : Nat) : (State.err s p c).panS = s.panS := rfl
@[simp] theorem State.err_panA (s : State) (p c : Nat) : (State.err s p c).panA = s.panA := rfl
@[simp] theorem State.err_panB (s : State) (p c : Nat) : (State.err s p c).panB = s.panB := rfl
@[simp] theorem State.err_sec (s : State) (p c : Nat) : (State.err s p c).sec = s.sec := rfl
@[simp] theorem State.err_lsecA (s : State) (p c : Nat) : (State.err s p c).lsecA = s.lsecA := rfl
@[simp] theorem State.err_lsecB (s : State) (p c : Nat) : (State.err s p c).lsecB = s.lsecB := rfl
@[simp] theorem State.err_fwA (s : State) (p c : Nat) : (State.err s p c).fwA = s.fwA := rfl
@[simp] theorem State.err_fwB (s : State) (p c : Nat) : (State.err s p c).fwB = s.fwB := rfl
@[simp] theorem State.err_twin (s : State) (p c : Nat) : (State.err s p c).twin = s.twin := rfl
@[simp] theorem State.err_chip0 (s : State) (p c : Nat) : (State.err s p c).chip0 = s.chip0 := rfl
@[simp] theorem State.err_chip1 (s : State) (p c : Nat) : (State.err s p c).chip1 = s.chip1 := rfl
@[simp] theorem State.err_recv (s : State) (p c : Nat) : (State.err s p c).recv = s.recv := rfl
@[simp] theorem State.err_laneA (s : State) (p c : Nat) : (State.err s p c).laneA = s.laneA := rfl
@[simp] theorem State.err_laneB (s : State) (p c : Nat) : (State.err s p c).laneB = s.laneB := rfl
@[simp] theorem State.err_ingest (s : State) (p c : Nat) : (State.err s p c).ingest = s.ingest := rfl
@[simp] theorem State.err_fwd (s : State) (p c : Nat) : (State.err s p c).fwd = s.fwd := rfl
@[simp] theorem State.err_agents (s : State) (p c : Nat) : (State.err s p c).agents = s.agents := rfl
@[simp] theorem State.err_mrec (s : State) (p c : Nat) : (State.err s p c).mrec = s.mrec := rfl
@[simp] theorem State.err_inv (s : State) (p c : Nat) : (State.err s p c).inv = s.inv := rfl
@[simp] theorem State.err_rdData (s : State) (p c : Nat) : (State.err s p c).rdData = s.rdData := rfl
@[simp] theorem State.err_freeCtr (s : State) (p c : Nat) : (State.err s p c).freeCtr = s.freeCtr := rfl
@[simp] theorem State.err_pending (s : State) (p c : Nat) : (State.err s p c).pending = s.pending := rfl
@[simp] theorem State.refuse_time (s : State) (p c : Nat) : (State.refuse s p c).time = s.time := rfl
@[simp] theorem State.refuse_fuses (s : State) (p c : Nat) : (State.refuse s p c).fuses = s.fuses := rfl
@[simp] theorem State.refuse_blk (s : State) (p c : Nat) : (State.refuse s p c).blk = s.blk := rfl
@[simp] theorem State.refuse_mbox (s : State) (p c : Nat) : (State.refuse s p c).mbox = s.mbox := rfl
@[simp] theorem State.refuse_hilo (s : State) (p c : Nat) : (State.refuse s p c).hilo = s.hilo := rfl
@[simp] theorem State.refuse_gov (s : State) (p c : Nat) : (State.refuse s p c).gov = s.gov := rfl
@[simp] theorem State.refuse_pwr (s : State) (p c : Nat) : (State.refuse s p c).pwr = s.pwr := rfl
@[simp] theorem State.refuse_xopp (s : State) (p c : Nat) : (State.refuse s p c).xopp = s.xopp := rfl
@[simp] theorem State.refuse_hopp (s : State) (p c : Nat) : (State.refuse s p c).hopp = s.hopp := rfl
@[simp] theorem State.refuse_x (s : State) (p c : Nat) : (State.refuse s p c).x = s.x := rfl
@[simp] theorem State.refuse_crvn (s : State) (p c : Nat) : (State.refuse s p c).crvn = s.crvn := rfl
@[simp] theorem State.refuse_herv (s : State) (p c : Nat) : (State.refuse s p c).herv = s.herv := rfl
@[simp] theorem State.refuse_ucie (s : State) (p c : Nat) : (State.refuse s p c).ucie = s.ucie := rfl
@[simp] theorem State.refuse_ptp (s : State) (p c : Nat) : (State.refuse s p c).ptp = s.ptp := rfl
@[simp] theorem State.refuse_eth0 (s : State) (p c : Nat) : (State.refuse s p c).eth0 = s.eth0 := rfl
@[simp] theorem State.refuse_eth1 (s : State) (p c : Nat) : (State.refuse s p c).eth1 = s.eth1 := rfl
@[simp] theorem State.refuse_panS (s : State) (p c : Nat) : (State.refuse s p c).panS = s.panS := rfl
@[simp] theorem State.refuse_panA (s : State) (p c : Nat) : (State.refuse s p c).panA = s.panA := rfl
@[simp] theorem State.refuse_panB (s : State) (p c : Nat) : (State.refuse s p c).panB = s.panB := rfl
@[simp] theorem State.refuse_sec (s : State) (p c : Nat) : (State.refuse s p c).sec = s.sec := rfl
@[simp] theorem State.refuse_lsecA (s : State) (p c : Nat) : (State.refuse s p c).lsecA = s.lsecA := rfl
@[simp] theorem State.refuse_lsecB (s : State) (p c : Nat) : (State.refuse s p c).lsecB = s.lsecB := rfl
@[simp] theorem State.refuse_fwA (s : State) (p c : Nat) : (State.refuse s p c).fwA = s.fwA := rfl
@[simp] theorem State.refuse_fwB (s : State) (p c : Nat) : (State.refuse s p c).fwB = s.fwB := rfl
@[simp] theorem State.refuse_twin (s : State) (p c : Nat) : (State.refuse s p c).twin = s.twin := rfl
@[simp] theorem State.refuse_chip0 (s : State) (p c : Nat) : (State.refuse s p c).chip0 = s.chip0 := rfl
@[simp] theorem State.refuse_chip1 (s : State) (p c : Nat) : (State.refuse s p c).chip1 = s.chip1 := rfl
@[simp] theorem State.refuse_recv (s : State) (p c : Nat) : (State.refuse s p c).recv = s.recv := rfl
@[simp] theorem State.refuse_laneA (s : State) (p c : Nat) : (State.refuse s p c).laneA = s.laneA := rfl
@[simp] theorem State.refuse_laneB (s : State) (p c : Nat) : (State.refuse s p c).laneB = s.laneB := rfl
@[simp] theorem State.refuse_ingest (s : State) (p c : Nat) : (State.refuse s p c).ingest = s.ingest := rfl
@[simp] theorem State.refuse_fwd (s : State) (p c : Nat) : (State.refuse s p c).fwd = s.fwd := rfl
@[simp] theorem State.refuse_agents (s : State) (p c : Nat) : (State.refuse s p c).agents = s.agents := rfl
@[simp] theorem State.refuse_mrec (s : State) (p c : Nat) : (State.refuse s p c).mrec = s.mrec := rfl
@[simp] theorem State.refuse_inv (s : State) (p c : Nat) : (State.refuse s p c).inv = s.inv := rfl
@[simp] theorem State.refuse_rdData (s : State) (p c : Nat) : (State.refuse s p c).rdData = s.rdData := rfl
@[simp] theorem State.refuse_freeCtr (s : State) (p c : Nat) : (State.refuse s p c).freeCtr = s.freeCtr := rfl
@[simp] theorem State.refuse_pending (s : State) (p c : Nat) : (State.refuse s p c).pending = s.pending := rfl
@[simp] theorem blkSet_time (s : State) (k : Nat) (b : Blk) : (blkSet s k b).time = s.time := rfl
@[simp] theorem blkSet_regs (s : State) (k : Nat) (b : Blk) : (blkSet s k b).regs = s.regs := rfl
@[simp] theorem blkSet_fuses (s : State) (k : Nat) (b : Blk) : (blkSet s k b).fuses = s.fuses := rfl
@[simp] theorem blkSet_mbox (s : State) (k : Nat) (b : Blk) : (blkSet s k b).mbox = s.mbox := rfl
@[simp] theorem blkSet_hilo (s : State) (k : Nat) (b : Blk) : (blkSet s k b).hilo = s.hilo := rfl
@[simp] theorem blkSet_gov (s : State) (k : Nat) (b : Blk) : (blkSet s k b).gov = s.gov := rfl
@[simp] theorem blkSet_pwr (s : State) (k : Nat) (b : Blk) : (blkSet s k b).pwr = s.pwr := rfl
@[simp] theorem blkSet_xopp (s : State) (k : Nat) (b : Blk) : (blkSet s k b).xopp = s.xopp := rfl
@[simp] theorem blkSet_hopp (s : State) (k : Nat) (b : Blk) : (blkSet s k b).hopp = s.hopp := rfl
@[simp] theorem blkSet_x (s : State) (k : Nat) (b : Blk) : (blkSet s k b).x = s.x := rfl
@[simp] theorem blkSet_crvn (s : State) (k : Nat) (b : Blk) : (blkSet s k b).crvn = s.crvn := rfl
@[simp] theorem blkSet_herv (s : State) (k : Nat) (b : Blk) : (blkSet s k b).herv = s.herv := rfl
@[simp] theorem blkSet_ucie (s : State) (k : Nat) (b : Blk) : (blkSet s k b).ucie = s.ucie := rfl
@[simp] theorem blkSet_ptp (s : State) (k : Nat) (b : Blk) : (blkSet s k b).ptp = s.ptp := rfl
@[simp] theorem blkSet_eth0 (s : State) (k : Nat) (b : Blk) : (blkSet s k b).eth0 = s.eth0 := rfl
@[simp] theorem blkSet_eth1 (s : State) (k : Nat) (b : Blk) : (blkSet s k b).eth1 = s.eth1 := rfl
@[simp] theorem blkSet_panS (s : State) (k : Nat) (b : Blk) : (blkSet s k b).panS = s.panS := rfl
@[simp] theorem blkSet_panA (s : State) (k : Nat) (b : Blk) : (blkSet s k b).panA = s.panA := rfl
@[simp] theorem blkSet_panB (s : State) (k : Nat) (b : Blk) : (blkSet s k b).panB = s.panB := rfl
@[simp] theorem blkSet_sec (s : State) (k : Nat) (b : Blk) : (blkSet s k b).sec = s.sec := rfl
@[simp] theorem blkSet_lsecA (s : State) (k : Nat) (b : Blk) : (blkSet s k b).lsecA = s.lsecA := rfl
@[simp] theorem blkSet_lsecB (s : State) (k : Nat) (b : Blk) : (blkSet s k b).lsecB = s.lsecB := rfl
@[simp] theorem blkSet_fwA (s : State) (k : Nat) (b : Blk) : (blkSet s k b).fwA = s.fwA := rfl
@[simp] theorem blkSet_fwB (s : State) (k : Nat) (b : Blk) : (blkSet s k b).fwB = s.fwB := rfl
@[simp] theorem blkSet_twin (s : State) (k : Nat) (b : Blk) : (blkSet s k b).twin = s.twin := rfl
@[simp] theorem blkSet_chip0 (s : State) (k : Nat) (b : Blk) : (blkSet s k b).chip0 = s.chip0 := rfl
@[simp] theorem blkSet_chip1 (s : State) (k : Nat) (b : Blk) : (blkSet s k b).chip1 = s.chip1 := rfl
@[simp] theorem blkSet_recv (s : State) (k : Nat) (b : Blk) : (blkSet s k b).recv = s.recv := rfl
@[simp] theorem blkSet_laneA (s : State) (k : Nat) (b : Blk) : (blkSet s k b).laneA = s.laneA := rfl
@[simp] theorem blkSet_laneB (s : State) (k : Nat) (b : Blk) : (blkSet s k b).laneB = s.laneB := rfl
@[simp] theorem blkSet_ingest (s : State) (k : Nat) (b : Blk) : (blkSet s k b).ingest = s.ingest := rfl
@[simp] theorem blkSet_fwd (s : State) (k : Nat) (b : Blk) : (blkSet s k b).fwd = s.fwd := rfl
@[simp] theorem blkSet_agents (s : State) (k : Nat) (b : Blk) : (blkSet s k b).agents = s.agents := rfl
@[simp] theorem blkSet_mrec (s : State) (k : Nat) (b : Blk) : (blkSet s k b).mrec = s.mrec := rfl
@[simp] theorem blkSet_inv (s : State) (k : Nat) (b : Blk) : (blkSet s k b).inv = s.inv := rfl
@[simp] theorem blkSet_rdData (s : State) (k : Nat) (b : Blk) : (blkSet s k b).rdData = s.rdData := rfl
@[simp] theorem blkSet_freeCtr (s : State) (k : Nat) (b : Blk) : (blkSet s k b).freeCtr = s.freeCtr := rfl
@[simp] theorem blkSet_pending (s : State) (k : Nat) (b : Blk) : (blkSet s k b).pending = s.pending := rfl
@[simp] theorem State.setChip_time (s : State) (c : Nat) (x : Chip) : (State.setChip s c x).time = s.time := by unfold State.setChip; split <;> rfl
@[simp] theorem State.setChip_regs (s : State) (c : Nat) (x : Chip) : (State.setChip s c x).regs = s.regs := by unfold State.setChip; split <;> rfl
@[simp] theorem State.setChip_fuses (s : State) (c : Nat) (x : Chip) : (State.setChip s c x).fuses = s.fuses := by unfold State.setChip; split <;> rfl
@[simp] theorem State.setChip_blk (s : State) (c : Nat) (x : Chip) : (State.setChip s c x).blk = s.blk := by unfold State.setChip; split <;> rfl
@[simp] theorem State.setChip_mbox (s : State) (c : Nat) (x : Chip) : (State.setChip s c x).mbox = s.mbox := by unfold State.setChip; split <;> rfl
@[simp] theorem State.setChip_hilo (s : State) (c : Nat) (x : Chip) : (State.setChip s c x).hilo = s.hilo := by unfold State.setChip; split <;> rfl
@[simp] theorem State.setChip_gov (s : State) (c : Nat) (x : Chip) : (State.setChip s c x).gov = s.gov := by unfold State.setChip; split <;> rfl
@[simp] theorem State.setChip_pwr (s : State) (c : Nat) (x : Chip) : (State.setChip s c x).pwr = s.pwr := by unfold State.setChip; split <;> rfl
@[simp] theorem State.setChip_xopp (s : State) (c : Nat) (x : Chip) : (State.setChip s c x).xopp = s.xopp := by unfold State.setChip; split <;> rfl
@[simp] theorem State.setChip_hopp (s : State) (c : Nat) (x : Chip) : (State.setChip s c x).hopp = s.hopp := by unfold State.setChip; split <;> rfl
@[simp] theorem State.setChip_x (s : State) (c : Nat) (x : Chip) : (State.setChip s c x).x = s.x := by unfold State.setChip; split <;> rfl
@[simp] theorem State.setChip_crvn (s : State) (c : Nat) (x : Chip) : (State.setChip s c x).crvn = s.crvn := by unfold State.setChip; split <;> rfl
@[simp] theorem State.setChip_herv (s : State) (c : Nat) (x : Chip) : (State.setChip s c x).herv = s.herv := by unfold State.setChip; split <;> rfl
@[simp] theorem State.setChip_ucie (s : State) (c : Nat) (x : Chip) : (State.setChip s c x).ucie = s.ucie := by unfold State.setChip; split <;> rfl
@[simp] theorem State.setChip_ptp (s : State) (c : Nat) (x : Chip) : (State.setChip s c x).ptp = s.ptp := by unfold State.setChip; split <;> rfl
@[simp] theorem State.setChip_eth0 (s : State) (c : Nat) (x : Chip) : (State.setChip s c x).eth0 = s.eth0 := by unfold State.setChip; split <;> rfl
@[simp] theorem State.setChip_eth1 (s : State) (c : Nat) (x : Chip) : (State.setChip s c x).eth1 = s.eth1 := by unfold State.setChip; split <;> rfl
@[simp] theorem State.setChip_panS (s : State) (c : Nat) (x : Chip) : (State.setChip s c x).panS = s.panS := by unfold State.setChip; split <;> rfl
@[simp] theorem State.setChip_panA (s : State) (c : Nat) (x : Chip) : (State.setChip s c x).panA = s.panA := by unfold State.setChip; split <;> rfl
@[simp] theorem State.setChip_panB (s : State) (c : Nat) (x : Chip) : (State.setChip s c x).panB = s.panB := by unfold State.setChip; split <;> rfl
@[simp] theorem State.setChip_sec (s : State) (c : Nat) (x : Chip) : (State.setChip s c x).sec = s.sec := by unfold State.setChip; split <;> rfl
@[simp] theorem State.setChip_lsecA (s : State) (c : Nat) (x : Chip) : (State.setChip s c x).lsecA = s.lsecA := by unfold State.setChip; split <;> rfl
@[simp] theorem State.setChip_lsecB (s : State) (c : Nat) (x : Chip) : (State.setChip s c x).lsecB = s.lsecB := by unfold State.setChip; split <;> rfl
@[simp] theorem State.setChip_fwA (s : State) (c : Nat) (x : Chip) : (State.setChip s c x).fwA = s.fwA := by unfold State.setChip; split <;> rfl
@[simp] theorem State.setChip_fwB (s : State) (c : Nat) (x : Chip) : (State.setChip s c x).fwB = s.fwB := by unfold State.setChip; split <;> rfl
@[simp] theorem State.setChip_twin (s : State) (c : Nat) (x : Chip) : (State.setChip s c x).twin = s.twin := by unfold State.setChip; split <;> rfl
@[simp] theorem State.setChip_recv (s : State) (c : Nat) (x : Chip) : (State.setChip s c x).recv = s.recv := by unfold State.setChip; split <;> rfl
@[simp] theorem State.setChip_laneA (s : State) (c : Nat) (x : Chip) : (State.setChip s c x).laneA = s.laneA := by unfold State.setChip; split <;> rfl
@[simp] theorem State.setChip_laneB (s : State) (c : Nat) (x : Chip) : (State.setChip s c x).laneB = s.laneB := by unfold State.setChip; split <;> rfl
@[simp] theorem State.setChip_ingest (s : State) (c : Nat) (x : Chip) : (State.setChip s c x).ingest = s.ingest := by unfold State.setChip; split <;> rfl
@[simp] theorem State.setChip_fwd (s : State) (c : Nat) (x : Chip) : (State.setChip s c x).fwd = s.fwd := by unfold State.setChip; split <;> rfl
@[simp] theorem State.setChip_agents (s : State) (c : Nat) (x : Chip) : (State.setChip s c x).agents = s.agents := by unfold State.setChip; split <;> rfl
@[simp] theorem State.setChip_mrec (s : State) (c : Nat) (x : Chip) : (State.setChip s c x).mrec = s.mrec := by unfold State.setChip; split <;> rfl
@[simp] theorem State.setChip_inv (s : State) (c : Nat) (x : Chip) : (State.setChip s c x).inv = s.inv := by unfold State.setChip; split <;> rfl
@[simp] theorem State.setChip_rdData (s : State) (c : Nat) (x : Chip) : (State.setChip s c x).rdData = s.rdData := by unfold State.setChip; split <;> rfl
@[simp] theorem State.setChip_freeCtr (s : State) (c : Nat) (x : Chip) : (State.setChip s c x).freeCtr = s.freeCtr := by unfold State.setChip; split <;> rfl
@[simp] theorem State.setChip_pending (s : State) (c : Nat) (x : Chip) : (State.setChip s c x).pending = s.pending := by unfold State.setChip; split <;> rfl
@[simp] theorem State.modChip_time (s : State) (c : Nat) (f : Chip → Chip) : (State.modChip s c f).time = s.time := by simp [State.modChip]
@[simp] theorem State.modChip_regs (s : State) (c : Nat) (f : Chip → Chip) : (State.modChip s c f).regs = s.regs := by simp [State.modChip]
@[simp] theorem State.modChip_fuses (s : State) (c : Nat) (f : Chip → Chip) : (State.modChip s c f).fuses = s.fuses := by simp [State.modChip]
@[simp] theorem State.modChip_blk (s : State) (c : Nat) (f : Chip → Chip) : (State.modChip s c f).blk = s.blk := by simp [State.modChip]
@[simp] theorem State.modChip_mbox (s : State) (c : Nat) (f : Chip → Chip) : (State.modChip s c f).mbox = s.mbox := by simp [State.modChip]
@[simp] theorem State.modChip_hilo (s : State) (c : Nat) (f : Chip → Chip) : (State.modChip s c f).hilo = s.hilo := by simp [State.modChip]
@[simp] theorem State.modChip_gov (s : State) (c : Nat) (f : Chip → Chip) : (State.modChip s c f).gov = s.gov := by simp [State.modChip]
@[simp] theorem State.modChip_pwr (s : State) (c : Nat) (f : Chip → Chip) : (State.modChip s c f).pwr = s.pwr := by simp [State.modChip]
@[simp] theorem State.modChip_xopp (s : State) (c : Nat) (f : Chip → Chip) : (State.modChip s c f).xopp = s.xopp := by simp [State.modChip]
@[simp] theorem State.modChip_hopp (s : State) (c : Nat) (f : Chip → Chip) : (State.modChip s c f).hopp = s.hopp := by simp [State.modChip]
@[simp] theorem State.modChip_x (s : State) (c : Nat) (f : Chip → Chip) : (State.modChip s c f).x = s.x := by simp [State.modChip]
@[simp] theorem State.modChip_crvn (s : State) (c : Nat) (f : Chip → Chip) : (State.modChip s c f).crvn = s.crvn := by simp [State.modChip]
@[simp] theorem State.modChip_herv (s : State) (c : Nat) (f : Chip → Chip) : (State.modChip s c f).herv = s.herv := by simp [State.modChip]
@[simp] theorem State.modChip_ucie (s : State) (c : Nat) (f : Chip → Chip) : (State.modChip s c f).ucie = s.ucie := by simp [State.modChip]
@[simp] theorem State.modChip_ptp (s : State) (c : Nat) (f : Chip → Chip) : (State.modChip s c f).ptp = s.ptp := by simp [State.modChip]
@[simp] theorem State.modChip_eth0 (s : State) (c : Nat) (f : Chip → Chip) : (State.modChip s c f).eth0 = s.eth0 := by simp [State.modChip]
@[simp] theorem State.modChip_eth1 (s : State) (c : Nat) (f : Chip → Chip) : (State.modChip s c f).eth1 = s.eth1 := by simp [State.modChip]
@[simp] theorem State.modChip_panS (s : State) (c : Nat) (f : Chip → Chip) : (State.modChip s c f).panS = s.panS := by simp [State.modChip]
@[simp] theorem State.modChip_panA (s : State) (c : Nat) (f : Chip → Chip) : (State.modChip s c f).panA = s.panA := by simp [State.modChip]
@[simp] theorem State.modChip_panB (s : State) (c : Nat) (f : Chip → Chip) : (State.modChip s c f).panB = s.panB := by simp [State.modChip]
@[simp] theorem State.modChip_sec (s : State) (c : Nat) (f : Chip → Chip) : (State.modChip s c f).sec = s.sec := by simp [State.modChip]
@[simp] theorem State.modChip_lsecA (s : State) (c : Nat) (f : Chip → Chip) : (State.modChip s c f).lsecA = s.lsecA := by simp [State.modChip]
@[simp] theorem State.modChip_lsecB (s : State) (c : Nat) (f : Chip → Chip) : (State.modChip s c f).lsecB = s.lsecB := by simp [State.modChip]
@[simp] theorem State.modChip_fwA (s : State) (c : Nat) (f : Chip → Chip) : (State.modChip s c f).fwA = s.fwA := by simp [State.modChip]
@[simp] theorem State.modChip_fwB (s : State) (c : Nat) (f : Chip → Chip) : (State.modChip s c f).fwB = s.fwB := by simp [State.modChip]
@[simp] theorem State.modChip_twin (s : State) (c : Nat) (f : Chip → Chip) : (State.modChip s c f).twin = s.twin := by simp [State.modChip]
@[simp] theorem State.modChip_recv (s : State) (c : Nat) (f : Chip → Chip) : (State.modChip s c f).recv = s.recv := by simp [State.modChip]
@[simp] theorem State.modChip_laneA (s : State) (c : Nat) (f : Chip → Chip) : (State.modChip s c f).laneA = s.laneA := by simp [State.modChip]
@[simp] theorem State.modChip_laneB (s : State) (c : Nat) (f : Chip → Chip) : (State.modChip s c f).laneB = s.laneB := by simp [State.modChip]
@[simp] theorem State.modChip_ingest (s : State) (c : Nat) (f : Chip → Chip) : (State.modChip s c f).ingest = s.ingest := by simp [State.modChip]
@[simp] theorem State.modChip_fwd (s : State) (c : Nat) (f : Chip → Chip) : (State.modChip s c f).fwd = s.fwd := by simp [State.modChip]
@[simp] theorem State.modChip_agents (s : State) (c : Nat) (f : Chip → Chip) : (State.modChip s c f).agents = s.agents := by simp [State.modChip]
@[simp] theorem State.modChip_mrec (s : State) (c : Nat) (f : Chip → Chip) : (State.modChip s c f).mrec = s.mrec := by simp [State.modChip]
@[simp] theorem State.modChip_inv (s : State) (c : Nat) (f : Chip → Chip) : (State.modChip s c f).inv = s.inv := by simp [State.modChip]
@[simp] theorem State.modChip_rdData (s : State) (c : Nat) (f : Chip → Chip) : (State.modChip s c f).rdData = s.rdData := by simp [State.modChip]
@[simp] theorem State.modChip_freeCtr (s : State) (c : Nat) (f : Chip → Chip) : (State.modChip s c f).freeCtr = s.freeCtr := by simp [State.modChip]
@[simp] theorem State.modChip_pending (s : State) (c : Nat) (f : Chip → Chip) : (State.modChip s c f).pending = s.pending := by simp [State.modChip]
@[simp] theorem State.setBank_time (s : State) (b : Nat) (x : VBank) : (State.setBank s b x).time = s.time := by simp [State.setBank]
@[simp] theorem State.setBank_regs (s : State) (b : Nat) (x : VBank) : (State.setBank s b x).regs = s.regs := by simp [State.setBank]
@[simp] theorem State.setBank_fuses (s : State) (b : Nat) (x : VBank) : (State.setBank s b x).fuses = s.fuses := by simp [State.setBank]
@[simp] theorem State.setBank_blk (s : State) (b : Nat) (x : VBank) : (State.setBank s b x).blk = s.blk := by simp [State.setBank]
@[simp] theorem State.setBank_mbox (s : State) (b : Nat) (x : VBank) : (State.setBank s b x).mbox = s.mbox := by simp [State.setBank]
@[simp] theorem State.setBank_hilo (s : State) (b : Nat) (x : VBank) : (State.setBank s b x).hilo = s.hilo := by simp [State.setBank]
@[simp] theorem State.setBank_gov (s : State) (b : Nat) (x : VBank) : (State.setBank s b x).gov = s.gov := by simp [State.setBank]
@[simp] theorem State.setBank_pwr (s : State) (b : Nat) (x : VBank) : (State.setBank s b x).pwr = s.pwr := by simp [State.setBank]
@[simp] theorem State.setBank_xopp (s : State) (b : Nat) (x : VBank) : (State.setBank s b x).xopp = s.xopp := by simp [State.setBank]
@[simp] theorem State.setBank_hopp (s : State) (b : Nat) (x : VBank) : (State.setBank s b x).hopp = s.hopp := by simp [State.setBank]
@[simp] theorem State.setBank_x (s : State) (b : Nat) (x : VBank) : (State.setBank s b x).x = s.x := by simp [State.setBank]
@[simp] theorem State.setBank_crvn (s : State) (b : Nat) (x : VBank) : (State.setBank s b x).crvn = s.crvn := by simp [State.setBank]
@[simp] theorem State.setBank_herv (s : State) (b : Nat) (x : VBank) : (State.setBank s b x).herv = s.herv := by simp [State.setBank]
@[simp] theorem State.setBank_ucie (s : State) (b : Nat) (x : VBank) : (State.setBank s b x).ucie = s.ucie := by simp [State.setBank]
@[simp] theorem State.setBank_ptp (s : State) (b : Nat) (x : VBank) : (State.setBank s b x).ptp = s.ptp := by simp [State.setBank]
@[simp] theorem State.setBank_eth0 (s : State) (b : Nat) (x : VBank) : (State.setBank s b x).eth0 = s.eth0 := by simp [State.setBank]
@[simp] theorem State.setBank_eth1 (s : State) (b : Nat) (x : VBank) : (State.setBank s b x).eth1 = s.eth1 := by simp [State.setBank]
@[simp] theorem State.setBank_panS (s : State) (b : Nat) (x : VBank) : (State.setBank s b x).panS = s.panS := by simp [State.setBank]
@[simp] theorem State.setBank_panA (s : State) (b : Nat) (x : VBank) : (State.setBank s b x).panA = s.panA := by simp [State.setBank]
@[simp] theorem State.setBank_panB (s : State) (b : Nat) (x : VBank) : (State.setBank s b x).panB = s.panB := by simp [State.setBank]
@[simp] theorem State.setBank_sec (s : State) (b : Nat) (x : VBank) : (State.setBank s b x).sec = s.sec := by simp [State.setBank]
@[simp] theorem State.setBank_lsecA (s : State) (b : Nat) (x : VBank) : (State.setBank s b x).lsecA = s.lsecA := by simp [State.setBank]
@[simp] theorem State.setBank_lsecB (s : State) (b : Nat) (x : VBank) : (State.setBank s b x).lsecB = s.lsecB := by simp [State.setBank]
@[simp] theorem State.setBank_fwA (s : State) (b : Nat) (x : VBank) : (State.setBank s b x).fwA = s.fwA := by simp [State.setBank]
@[simp] theorem State.setBank_fwB (s : State) (b : Nat) (x : VBank) : (State.setBank s b x).fwB = s.fwB := by simp [State.setBank]
@[simp] theorem State.setBank_twin (s : State) (b : Nat) (x : VBank) : (State.setBank s b x).twin = s.twin := by simp [State.setBank]
@[simp] theorem State.setBank_recv (s : State) (b : Nat) (x : VBank) : (State.setBank s b x).recv = s.recv := by simp [State.setBank]
@[simp] theorem State.setBank_laneA (s : State) (b : Nat) (x : VBank) : (State.setBank s b x).laneA = s.laneA := by simp [State.setBank]
@[simp] theorem State.setBank_laneB (s : State) (b : Nat) (x : VBank) : (State.setBank s b x).laneB = s.laneB := by simp [State.setBank]
@[simp] theorem State.setBank_ingest (s : State) (b : Nat) (x : VBank) : (State.setBank s b x).ingest = s.ingest := by simp [State.setBank]
@[simp] theorem State.setBank_fwd (s : State) (b : Nat) (x : VBank) : (State.setBank s b x).fwd = s.fwd := by simp [State.setBank]
@[simp] theorem State.setBank_agents (s : State) (b : Nat) (x : VBank) : (State.setBank s b x).agents = s.agents := by simp [State.setBank]
@[simp] theorem State.setBank_mrec (s : State) (b : Nat) (x : VBank) : (State.setBank s b x).mrec = s.mrec := by simp [State.setBank]
@[simp] theorem State.setBank_inv (s : State) (b : Nat) (x : VBank) : (State.setBank s b x).inv = s.inv := by simp [State.setBank]
@[simp] theorem State.setBank_rdData (s : State) (b : Nat) (x : VBank) : (State.setBank s b x).rdData = s.rdData := by simp [State.setBank]
@[simp] theorem State.setBank_freeCtr (s : State) (b : Nat) (x : VBank) : (State.setBank s b x).freeCtr = s.freeCtr := by simp [State.setBank]
@[simp] theorem State.setBank_pending (s : State) (b : Nat) (x : VBank) : (State.setBank s b x).pending = s.pending := by simp [State.setBank]
@[simp] theorem State.setVch_time (s : State) (k : Nat) (x : VCh) : (State.setVch s k x).time = s.time := by simp [State.setVch]
@[simp] theorem State.setVch_regs (s : State) (k : Nat) (x : VCh) : (State.setVch s k x).regs = s.regs := by simp [State.setVch]
@[simp] theorem State.setVch_fuses (s : State) (k : Nat) (x : VCh) : (State.setVch s k x).fuses = s.fuses := by simp [State.setVch]
@[simp] theorem State.setVch_blk (s : State) (k : Nat) (x : VCh) : (State.setVch s k x).blk = s.blk := by simp [State.setVch]
@[simp] theorem State.setVch_mbox (s : State) (k : Nat) (x : VCh) : (State.setVch s k x).mbox = s.mbox := by simp [State.setVch]
@[simp] theorem State.setVch_hilo (s : State) (k : Nat) (x : VCh) : (State.setVch s k x).hilo = s.hilo := by simp [State.setVch]
@[simp] theorem State.setVch_gov (s : State) (k : Nat) (x : VCh) : (State.setVch s k x).gov = s.gov := by simp [State.setVch]
@[simp] theorem State.setVch_pwr (s : State) (k : Nat) (x : VCh) : (State.setVch s k x).pwr = s.pwr := by simp [State.setVch]
@[simp] theorem State.setVch_xopp (s : State) (k : Nat) (x : VCh) : (State.setVch s k x).xopp = s.xopp := by simp [State.setVch]
@[simp] theorem State.setVch_hopp (s : State) (k : Nat) (x : VCh) : (State.setVch s k x).hopp = s.hopp := by simp [State.setVch]
@[simp] theorem State.setVch_x (s : State) (k : Nat) (x : VCh) : (State.setVch s k x).x = s.x := by simp [State.setVch]
@[simp] theorem State.setVch_crvn (s : State) (k : Nat) (x : VCh) : (State.setVch s k x).crvn = s.crvn := by simp [State.setVch]
@[simp] theorem State.setVch_herv (s : State) (k : Nat) (x : VCh) : (State.setVch s k x).herv = s.herv := by simp [State.setVch]
@[simp] theorem State.setVch_ucie (s : State) (k : Nat) (x : VCh) : (State.setVch s k x).ucie = s.ucie := by simp [State.setVch]
@[simp] theorem State.setVch_ptp (s : State) (k : Nat) (x : VCh) : (State.setVch s k x).ptp = s.ptp := by simp [State.setVch]
@[simp] theorem State.setVch_eth0 (s : State) (k : Nat) (x : VCh) : (State.setVch s k x).eth0 = s.eth0 := by simp [State.setVch]
@[simp] theorem State.setVch_eth1 (s : State) (k : Nat) (x : VCh) : (State.setVch s k x).eth1 = s.eth1 := by simp [State.setVch]
@[simp] theorem State.setVch_panS (s : State) (k : Nat) (x : VCh) : (State.setVch s k x).panS = s.panS := by simp [State.setVch]
@[simp] theorem State.setVch_panA (s : State) (k : Nat) (x : VCh) : (State.setVch s k x).panA = s.panA := by simp [State.setVch]
@[simp] theorem State.setVch_panB (s : State) (k : Nat) (x : VCh) : (State.setVch s k x).panB = s.panB := by simp [State.setVch]
@[simp] theorem State.setVch_sec (s : State) (k : Nat) (x : VCh) : (State.setVch s k x).sec = s.sec := by simp [State.setVch]
@[simp] theorem State.setVch_lsecA (s : State) (k : Nat) (x : VCh) : (State.setVch s k x).lsecA = s.lsecA := by simp [State.setVch]
@[simp] theorem State.setVch_lsecB (s : State) (k : Nat) (x : VCh) : (State.setVch s k x).lsecB = s.lsecB := by simp [State.setVch]
@[simp] theorem State.setVch_fwA (s : State) (k : Nat) (x : VCh) : (State.setVch s k x).fwA = s.fwA := by simp [State.setVch]
@[simp] theorem State.setVch_fwB (s : State) (k : Nat) (x : VCh) : (State.setVch s k x).fwB = s.fwB := by simp [State.setVch]
@[simp] theorem State.setVch_twin (s : State) (k : Nat) (x : VCh) : (State.setVch s k x).twin = s.twin := by simp [State.setVch]
@[simp] theorem State.setVch_recv (s : State) (k : Nat) (x : VCh) : (State.setVch s k x).recv = s.recv := by simp [State.setVch]
@[simp] theorem State.setVch_laneA (s : State) (k : Nat) (x : VCh) : (State.setVch s k x).laneA = s.laneA := by simp [State.setVch]
@[simp] theorem State.setVch_laneB (s : State) (k : Nat) (x : VCh) : (State.setVch s k x).laneB = s.laneB := by simp [State.setVch]
@[simp] theorem State.setVch_ingest (s : State) (k : Nat) (x : VCh) : (State.setVch s k x).ingest = s.ingest := by simp [State.setVch]
@[simp] theorem State.setVch_fwd (s : State) (k : Nat) (x : VCh) : (State.setVch s k x).fwd = s.fwd := by simp [State.setVch]
@[simp] theorem State.setVch_agents (s : State) (k : Nat) (x : VCh) : (State.setVch s k x).agents = s.agents := by simp [State.setVch]
@[simp] theorem State.setVch_mrec (s : State) (k : Nat) (x : VCh) : (State.setVch s k x).mrec = s.mrec := by simp [State.setVch]
@[simp] theorem State.setVch_inv (s : State) (k : Nat) (x : VCh) : (State.setVch s k x).inv = s.inv := by simp [State.setVch]
@[simp] theorem State.setVch_rdData (s : State) (k : Nat) (x : VCh) : (State.setVch s k x).rdData = s.rdData := by simp [State.setVch]
@[simp] theorem State.setVch_freeCtr (s : State) (k : Nat) (x : VCh) : (State.setVch s k x).freeCtr = s.freeCtr := by simp [State.setVch]
@[simp] theorem State.setVch_pending (s : State) (k : Nat) (x : VCh) : (State.setVch s k x).pending = s.pending := by simp [State.setVch]
@[simp] theorem setPump_time (s : State) (n : Nat) (x : PumpCh) : (setPump s n x).time = s.time := by simp [setPump]
@[simp] theorem setPump_regs (s : State) (n : Nat) (x : PumpCh) : (setPump s n x).regs = s.regs := by simp [setPump]
@[simp] theorem setPump_fuses (s : State) (n : Nat) (x : PumpCh) : (setPump s n x).fuses = s.fuses := by simp [setPump]
@[simp] theorem setPump_blk (s : State) (n : Nat) (x : PumpCh) : (setPump s n x).blk = s.blk := by simp [setPump]
@[simp] theorem setPump_mbox (s : State) (n : Nat) (x : PumpCh) : (setPump s n x).mbox = s.mbox := by simp [setPump]
@[simp] theorem setPump_hilo (s : State) (n : Nat) (x : PumpCh) : (setPump s n x).hilo = s.hilo := by simp [setPump]
@[simp] theorem setPump_gov (s : State) (n : Nat) (x : PumpCh) : (setPump s n x).gov = s.gov := by simp [setPump]
@[simp] theorem setPump_pwr (s : State) (n : Nat) (x : PumpCh) : (setPump s n x).pwr = s.pwr := by simp [setPump]
@[simp] theorem setPump_xopp (s : State) (n : Nat) (x : PumpCh) : (setPump s n x).xopp = s.xopp := by simp [setPump]
@[simp] theorem setPump_hopp (s : State) (n : Nat) (x : PumpCh) : (setPump s n x).hopp = s.hopp := by simp [setPump]
@[simp] theorem setPump_x (s : State) (n : Nat) (x : PumpCh) : (setPump s n x).x = s.x := by simp [setPump]
@[simp] theorem setPump_crvn (s : State) (n : Nat) (x : PumpCh) : (setPump s n x).crvn = s.crvn := by simp [setPump]
@[simp] theorem setPump_herv (s : State) (n : Nat) (x : PumpCh) : (setPump s n x).herv = s.herv := by simp [setPump]
@[simp] theorem setPump_ucie (s : State) (n : Nat) (x : PumpCh) : (setPump s n x).ucie = s.ucie := by simp [setPump]
@[simp] theorem setPump_ptp (s : State) (n : Nat) (x : PumpCh) : (setPump s n x).ptp = s.ptp := by simp [setPump]
@[simp] theorem setPump_eth0 (s : State) (n : Nat) (x : PumpCh) : (setPump s n x).eth0 = s.eth0 := by simp [setPump]
@[simp] theorem setPump_eth1 (s : State) (n : Nat) (x : PumpCh) : (setPump s n x).eth1 = s.eth1 := by simp [setPump]
@[simp] theorem setPump_panS (s : State) (n : Nat) (x : PumpCh) : (setPump s n x).panS = s.panS := by simp [setPump]
@[simp] theorem setPump_panA (s : State) (n : Nat) (x : PumpCh) : (setPump s n x).panA = s.panA := by simp [setPump]
@[simp] theorem setPump_panB (s : State) (n : Nat) (x : PumpCh) : (setPump s n x).panB = s.panB := by simp [setPump]
@[simp] theorem setPump_sec (s : State) (n : Nat) (x : PumpCh) : (setPump s n x).sec = s.sec := by simp [setPump]
@[simp] theorem setPump_lsecA (s : State) (n : Nat) (x : PumpCh) : (setPump s n x).lsecA = s.lsecA := by simp [setPump]
@[simp] theorem setPump_lsecB (s : State) (n : Nat) (x : PumpCh) : (setPump s n x).lsecB = s.lsecB := by simp [setPump]
@[simp] theorem setPump_fwA (s : State) (n : Nat) (x : PumpCh) : (setPump s n x).fwA = s.fwA := by simp [setPump]
@[simp] theorem setPump_fwB (s : State) (n : Nat) (x : PumpCh) : (setPump s n x).fwB = s.fwB := by simp [setPump]
@[simp] theorem setPump_twin (s : State) (n : Nat) (x : PumpCh) : (setPump s n x).twin = s.twin := by simp [setPump]
@[simp] theorem setPump_recv (s : State) (n : Nat) (x : PumpCh) : (setPump s n x).recv = s.recv := by simp [setPump]
@[simp] theorem setPump_laneA (s : State) (n : Nat) (x : PumpCh) : (setPump s n x).laneA = s.laneA := by simp [setPump]
@[simp] theorem setPump_laneB (s : State) (n : Nat) (x : PumpCh) : (setPump s n x).laneB = s.laneB := by simp [setPump]
@[simp] theorem setPump_ingest (s : State) (n : Nat) (x : PumpCh) : (setPump s n x).ingest = s.ingest := by simp [setPump]
@[simp] theorem setPump_fwd (s : State) (n : Nat) (x : PumpCh) : (setPump s n x).fwd = s.fwd := by simp [setPump]
@[simp] theorem setPump_agents (s : State) (n : Nat) (x : PumpCh) : (setPump s n x).agents = s.agents := by simp [setPump]
@[simp] theorem setPump_mrec (s : State) (n : Nat) (x : PumpCh) : (setPump s n x).mrec = s.mrec := by simp [setPump]
@[simp] theorem setPump_inv (s : State) (n : Nat) (x : PumpCh) : (setPump s n x).inv = s.inv := by simp [setPump]
@[simp] theorem setPump_rdData (s : State) (n : Nat) (x : PumpCh) : (setPump s n x).rdData = s.rdData := by simp [setPump]
@[simp] theorem setPump_freeCtr (s : State) (n : Nat) (x : PumpCh) : (setPump s n x).freeCtr = s.freeCtr := by simp [setPump]
@[simp] theorem setPump_pending (s : State) (n : Nat) (x : PumpCh) : (setPump s n x).pending = s.pending := by simp [setPump]
@[simp] theorem State.onX_time (s : State) (f : XoideSt → XoideSt) : (State.onX s f).time = s.time := rfl
@[simp] theorem State.onX_regs (s : State) (f : XoideSt → XoideSt) : (State.onX s f).regs = s.regs := rfl
@[simp] theorem State.onX_fuses (s : State) (f : XoideSt → XoideSt) : (State.onX s f).fuses = s.fuses := rfl
@[simp] theorem State.onX_blk (s : State) (f : XoideSt → XoideSt) : (State.onX s f).blk = s.blk := rfl
@[simp] theorem State.onX_mbox (s : State) (f : XoideSt → XoideSt) : (State.onX s f).mbox = s.mbox := rfl
@[simp] theorem State.onX_hilo (s : State) (f : XoideSt → XoideSt) : (State.onX s f).hilo = s.hilo := rfl
@[simp] theorem State.onX_gov (s : State) (f : XoideSt → XoideSt) : (State.onX s f).gov = s.gov := rfl
@[simp] theorem State.onX_pwr (s : State) (f : XoideSt → XoideSt) : (State.onX s f).pwr = s.pwr := rfl
@[simp] theorem State.onX_xopp (s : State) (f : XoideSt → XoideSt) : (State.onX s f).xopp = s.xopp := rfl
@[simp] theorem State.onX_hopp (s : State) (f : XoideSt → XoideSt) : (State.onX s f).hopp = s.hopp := rfl
@[simp] theorem State.onX_crvn (s : State) (f : XoideSt → XoideSt) : (State.onX s f).crvn = s.crvn := rfl
@[simp] theorem State.onX_herv (s : State) (f : XoideSt → XoideSt) : (State.onX s f).herv = s.herv := rfl
@[simp] theorem State.onX_ucie (s : State) (f : XoideSt → XoideSt) : (State.onX s f).ucie = s.ucie := rfl
@[simp] theorem State.onX_ptp (s : State) (f : XoideSt → XoideSt) : (State.onX s f).ptp = s.ptp := rfl
@[simp] theorem State.onX_eth0 (s : State) (f : XoideSt → XoideSt) : (State.onX s f).eth0 = s.eth0 := rfl
@[simp] theorem State.onX_eth1 (s : State) (f : XoideSt → XoideSt) : (State.onX s f).eth1 = s.eth1 := rfl
@[simp] theorem State.onX_panS (s : State) (f : XoideSt → XoideSt) : (State.onX s f).panS = s.panS := rfl
@[simp] theorem State.onX_panA (s : State) (f : XoideSt → XoideSt) : (State.onX s f).panA = s.panA := rfl
@[simp] theorem State.onX_panB (s : State) (f : XoideSt → XoideSt) : (State.onX s f).panB = s.panB := rfl
@[simp] theorem State.onX_sec (s : State) (f : XoideSt → XoideSt) : (State.onX s f).sec = s.sec := rfl
@[simp] theorem State.onX_lsecA (s : State) (f : XoideSt → XoideSt) : (State.onX s f).lsecA = s.lsecA := rfl
@[simp] theorem State.onX_lsecB (s : State) (f : XoideSt → XoideSt) : (State.onX s f).lsecB = s.lsecB := rfl
@[simp] theorem State.onX_fwA (s : State) (f : XoideSt → XoideSt) : (State.onX s f).fwA = s.fwA := rfl
@[simp] theorem State.onX_fwB (s : State) (f : XoideSt → XoideSt) : (State.onX s f).fwB = s.fwB := rfl
@[simp] theorem State.onX_twin (s : State) (f : XoideSt → XoideSt) : (State.onX s f).twin = s.twin := rfl
@[simp] theorem State.onX_chip0 (s : State) (f : XoideSt → XoideSt) : (State.onX s f).chip0 = s.chip0 := rfl
@[simp] theorem State.onX_chip1 (s : State) (f : XoideSt → XoideSt) : (State.onX s f).chip1 = s.chip1 := rfl
@[simp] theorem State.onX_recv (s : State) (f : XoideSt → XoideSt) : (State.onX s f).recv = s.recv := rfl
@[simp] theorem State.onX_laneA (s : State) (f : XoideSt → XoideSt) : (State.onX s f).laneA = s.laneA := rfl
@[simp] theorem State.onX_laneB (s : State) (f : XoideSt → XoideSt) : (State.onX s f).laneB = s.laneB := rfl
@[simp] theorem State.onX_ingest (s : State) (f : XoideSt → XoideSt) : (State.onX s f).ingest = s.ingest := rfl
@[simp] theorem State.onX_fwd (s : State) (f : XoideSt → XoideSt) : (State.onX s f).fwd = s.fwd := rfl
@[simp] theorem State.onX_agents (s : State) (f : XoideSt → XoideSt) : (State.onX s f).agents = s.agents := rfl
@[simp] theorem State.onX_mrec (s : State) (f : XoideSt → XoideSt) : (State.onX s f).mrec = s.mrec := rfl
@[simp] theorem State.onX_inv (s : State) (f : XoideSt → XoideSt) : (State.onX s f).inv = s.inv := rfl
@[simp] theorem State.onX_rdData (s : State) (f : XoideSt → XoideSt) : (State.onX s f).rdData = s.rdData := rfl
@[simp] theorem State.onX_freeCtr (s : State) (f : XoideSt → XoideSt) : (State.onX s f).freeCtr = s.freeCtr := rfl
@[simp] theorem State.onX_pending (s : State) (f : XoideSt → XoideSt) : (State.onX s f).pending = s.pending := rfl
@[simp] theorem State.setTile_time (s : State) (t : Nat) (x : Tile) : (State.setTile s t x).time = s.time := rfl
@[simp] theorem State.setTile_regs (s : State) (t : Nat) (x : Tile) : (State.setTile s t x).regs = s.regs := rfl
@[simp] theorem State.setTile_fuses (s : State) (t : Nat) (x : Tile) : (State.setTile s t x).fuses = s.fuses := rfl
@[simp] theorem State.setTile_blk (s : State) (t : Nat) (x : Tile) : (State.setTile s t x).blk = s.blk := rfl
@[simp] theorem State.setTile_mbox (s : State) (t : Nat) (x : Tile) : (State.setTile s t x).mbox = s.mbox := rfl
@[simp] theorem State.setTile_hilo (s : State) (t : Nat) (x : Tile) : (State.setTile s t x).hilo = s.hilo := rfl
@[simp] theorem State.setTile_gov (s : State) (t : Nat) (x : Tile) : (State.setTile s t x).gov = s.gov := rfl
@[simp] theorem State.setTile_pwr (s : State) (t : Nat) (x : Tile) : (State.setTile s t x).pwr = s.pwr := rfl
@[simp] theorem State.setTile_xopp (s : State) (t : Nat) (x : Tile) : (State.setTile s t x).xopp = s.xopp := rfl
@[simp] theorem State.setTile_hopp (s : State) (t : Nat) (x : Tile) : (State.setTile s t x).hopp = s.hopp := rfl
@[simp] theorem State.setTile_crvn (s : State) (t : Nat) (x : Tile) : (State.setTile s t x).crvn = s.crvn := rfl
@[simp] theorem State.setTile_herv (s : State) (t : Nat) (x : Tile) : (State.setTile s t x).herv = s.herv := rfl
@[simp] theorem State.setTile_ucie (s : State) (t : Nat) (x : Tile) : (State.setTile s t x).ucie = s.ucie := rfl
@[simp] theorem State.setTile_ptp (s : State) (t : Nat) (x : Tile) : (State.setTile s t x).ptp = s.ptp := rfl
@[simp] theorem State.setTile_eth0 (s : State) (t : Nat) (x : Tile) : (State.setTile s t x).eth0 = s.eth0 := rfl
@[simp] theorem State.setTile_eth1 (s : State) (t : Nat) (x : Tile) : (State.setTile s t x).eth1 = s.eth1 := rfl
@[simp] theorem State.setTile_panS (s : State) (t : Nat) (x : Tile) : (State.setTile s t x).panS = s.panS := rfl
@[simp] theorem State.setTile_panA (s : State) (t : Nat) (x : Tile) : (State.setTile s t x).panA = s.panA := rfl
@[simp] theorem State.setTile_panB (s : State) (t : Nat) (x : Tile) : (State.setTile s t x).panB = s.panB := rfl
@[simp] theorem State.setTile_sec (s : State) (t : Nat) (x : Tile) : (State.setTile s t x).sec = s.sec := rfl
@[simp] theorem State.setTile_lsecA (s : State) (t : Nat) (x : Tile) : (State.setTile s t x).lsecA = s.lsecA := rfl
@[simp] theorem State.setTile_lsecB (s : State) (t : Nat) (x : Tile) : (State.setTile s t x).lsecB = s.lsecB := rfl
@[simp] theorem State.setTile_fwA (s : State) (t : Nat) (x : Tile) : (State.setTile s t x).fwA = s.fwA := rfl
@[simp] theorem State.setTile_fwB (s : State) (t : Nat) (x : Tile) : (State.setTile s t x).fwB = s.fwB := rfl
@[simp] theorem State.setTile_twin (s : State) (t : Nat) (x : Tile) : (State.setTile s t x).twin = s.twin := rfl
@[simp] theorem State.setTile_chip0 (s : State) (t : Nat) (x : Tile) : (State.setTile s t x).chip0 = s.chip0 := rfl
@[simp] theorem State.setTile_chip1 (s : State) (t : Nat) (x : Tile) : (State.setTile s t x).chip1 = s.chip1 := rfl
@[simp] theorem State.setTile_recv (s : State) (t : Nat) (x : Tile) : (State.setTile s t x).recv = s.recv := rfl
@[simp] theorem State.setTile_laneA (s : State) (t : Nat) (x : Tile) : (State.setTile s t x).laneA = s.laneA := rfl
@[simp] theorem State.setTile_laneB (s : State) (t : Nat) (x : Tile) : (State.setTile s t x).laneB = s.laneB := rfl
@[simp] theorem State.setTile_ingest (s : State) (t : Nat) (x : Tile) : (State.setTile s t x).ingest = s.ingest := rfl
@[simp] theorem State.setTile_fwd (s : State) (t : Nat) (x : Tile) : (State.setTile s t x).fwd = s.fwd := rfl
@[simp] theorem State.setTile_agents (s : State) (t : Nat) (x : Tile) : (State.setTile s t x).agents = s.agents := rfl
@[simp] theorem State.setTile_mrec (s : State) (t : Nat) (x : Tile) : (State.setTile s t x).mrec = s.mrec := rfl
@[simp] theorem State.setTile_inv (s : State) (t : Nat) (x : Tile) : (State.setTile s t x).inv = s.inv := rfl
@[simp] theorem State.setTile_rdData (s : State) (t : Nat) (x : Tile) : (State.setTile s t x).rdData = s.rdData := rfl
@[simp] theorem State.setTile_freeCtr (s : State) (t : Nat) (x : Tile) : (State.setTile s t x).freeCtr = s.freeCtr := rfl
@[simp] theorem State.setTile_pending (s : State) (t : Nat) (x : Tile) : (State.setTile s t x).pending = s.pending := rfl
@[simp] theorem State.modJob_time (s : State) (j : Nat) (f : JobRun → JobRun) : (State.modJob s j f).time = s.time := rfl
@[simp] theorem State.modJob_regs (s : State) (j : Nat) (f : JobRun → JobRun) : (State.modJob s j f).regs = s.regs := rfl
@[simp] theorem State.modJob_fuses (s : State) (j : Nat) (f : JobRun → JobRun) : (State.modJob s j f).fuses = s.fuses := rfl
@[simp] theorem State.modJob_blk (s : State) (j : Nat) (f : JobRun → JobRun) : (State.modJob s j f).blk = s.blk := rfl
@[simp] theorem State.modJob_mbox (s : State) (j : Nat) (f : JobRun → JobRun) : (State.modJob s j f).mbox = s.mbox := rfl
@[simp] theorem State.modJob_hilo (s : State) (j : Nat) (f : JobRun → JobRun) : (State.modJob s j f).hilo = s.hilo := rfl
@[simp] theorem State.modJob_gov (s : State) (j : Nat) (f : JobRun → JobRun) : (State.modJob s j f).gov = s.gov := rfl
@[simp] theorem State.modJob_pwr (s : State) (j : Nat) (f : JobRun → JobRun) : (State.modJob s j f).pwr = s.pwr := rfl
@[simp] theorem State.modJob_xopp (s : State) (j : Nat) (f : JobRun → JobRun) : (State.modJob s j f).xopp = s.xopp := rfl
@[simp] theorem State.modJob_hopp (s : State) (j : Nat) (f : JobRun → JobRun) : (State.modJob s j f).hopp = s.hopp := rfl
@[simp] theorem State.modJob_crvn (s : State) (j : Nat) (f : JobRun → JobRun) : (State.modJob s j f).crvn = s.crvn := rfl
@[simp] theorem State.modJob_herv (s : State) (j : Nat) (f : JobRun → JobRun) : (State.modJob s j f).herv = s.herv := rfl
@[simp] theorem State.modJob_ucie (s : State) (j : Nat) (f : JobRun → JobRun) : (State.modJob s j f).ucie = s.ucie := rfl
@[simp] theorem State.modJob_ptp (s : State) (j : Nat) (f : JobRun → JobRun) : (State.modJob s j f).ptp = s.ptp := rfl
@[simp] theorem State.modJob_eth0 (s : State) (j : Nat) (f : JobRun → JobRun) : (State.modJob s j f).eth0 = s.eth0 := rfl
@[simp] theorem State.modJob_eth1 (s : State) (j : Nat) (f : JobRun → JobRun) : (State.modJob s j f).eth1 = s.eth1 := rfl
@[simp] theorem State.modJob_panS (s : State) (j : Nat) (f : JobRun → JobRun) : (State.modJob s j f).panS = s.panS := rfl
@[simp] theorem State.modJob_panA (s : State) (j : Nat) (f : JobRun → JobRun) : (State.modJob s j f).panA = s.panA := rfl
@[simp] theorem State.modJob_panB (s : State) (j : Nat) (f : JobRun → JobRun) : (State.modJob s j f).panB = s.panB := rfl
@[simp] theorem State.modJob_sec (s : State) (j : Nat) (f : JobRun → JobRun) : (State.modJob s j f).sec = s.sec := rfl
@[simp] theorem State.modJob_lsecA (s : State) (j : Nat) (f : JobRun → JobRun) : (State.modJob s j f).lsecA = s.lsecA := rfl
@[simp] theorem State.modJob_lsecB (s : State) (j : Nat) (f : JobRun → JobRun) : (State.modJob s j f).lsecB = s.lsecB := rfl
@[simp] theorem State.modJob_fwA (s : State) (j : Nat) (f : JobRun → JobRun) : (State.modJob s j f).fwA = s.fwA := rfl
@[simp] theorem State.modJob_fwB (s : State) (j : Nat) (f : JobRun → JobRun) : (State.modJob s j f).fwB = s.fwB := rfl
@[simp] theorem State.modJob_twin (s : State) (j : Nat) (f : JobRun → JobRun) : (State.modJob s j f).twin = s.twin := rfl
@[simp] theorem State.modJob_chip0 (s : State) (j : Nat) (f : JobRun → JobRun) : (State.modJob s j f).chip0 = s.chip0 := rfl
@[simp] theorem State.modJob_chip1 (s : State) (j : Nat) (f : JobRun → JobRun) : (State.modJob s j f).chip1 = s.chip1 := rfl
@[simp] theorem State.modJob_recv (s : State) (j : Nat) (f : JobRun → JobRun) : (State.modJob s j f).recv = s.recv := rfl
@[simp] theorem State.modJob_laneA (s : State) (j : Nat) (f : JobRun → JobRun) : (State.modJob s j f).laneA = s.laneA := rfl
@[simp] theorem State.modJob_laneB (s : State) (j : Nat) (f : JobRun → JobRun) : (State.modJob s j f).laneB = s.laneB := rfl
@[simp] theorem State.modJob_ingest (s : State) (j : Nat) (f : JobRun → JobRun) : (State.modJob s j f).ingest = s.ingest := rfl
@[simp] theorem State.modJob_fwd (s : State) (j : Nat) (f : JobRun → JobRun) : (State.modJob s j f).fwd = s.fwd := rfl
@[simp] theorem State.modJob_agents (s : State) (j : Nat) (f : JobRun → JobRun) : (State.modJob s j f).agents = s.agents := rfl
@[simp] theorem State.modJob_mrec (s : State) (j : Nat) (f : JobRun → JobRun) : (State.modJob s j f).mrec = s.mrec := rfl
@[simp] theorem State.modJob_inv (s : State) (j : Nat) (f : JobRun → JobRun) : (State.modJob s j f).inv = s.inv := rfl
@[simp] theorem State.modJob_rdData (s : State) (j : Nat) (f : JobRun → JobRun) : (State.modJob s j f).rdData = s.rdData := rfl
@[simp] theorem State.modJob_freeCtr (s : State) (j : Nat) (f : JobRun → JobRun) : (State.modJob s j f).freeCtr = s.freeCtr := rfl
@[simp] theorem State.modJob_pending (s : State) (j : Nat) (f : JobRun → JobRun) : (State.modJob s j f).pending = s.pending := rfl
@[simp] theorem domRun_time (n : Nat) (on : Bool) (s : State) : (domRun n on s).time = s.time := by unfold domRun; (repeat' split) <;> rfl
@[simp] theorem domRun_fuses (n : Nat) (on : Bool) (s : State) : (domRun n on s).fuses = s.fuses := by unfold domRun; (repeat' split) <;> rfl
@[simp] theorem domRun_blk (n : Nat) (on : Bool) (s : State) : (domRun n on s).blk = s.blk := by unfold domRun; (repeat' split) <;> rfl
@[simp] theorem domRun_mbox (n : Nat) (on : Bool) (s : State) : (domRun n on s).mbox = s.mbox := by unfold domRun; (repeat' split) <;> rfl
@[simp] theorem domRun_hilo (n : Nat) (on : Bool) (s : State) : (domRun n on s).hilo = s.hilo := by unfold domRun; (repeat' split) <;> rfl
@[simp] theorem domRun_gov (n : Nat) (on : Bool) (s : State) : (domRun n on s).gov = s.gov := by unfold domRun; (repeat' split) <;> rfl
@[simp] theorem domRun_pwr (n : Nat) (on : Bool) (s : State) : (domRun n on s).pwr = s.pwr := by unfold domRun; (repeat' split) <;> rfl
@[simp] theorem domRun_xopp (n : Nat) (on : Bool) (s : State) : (domRun n on s).xopp = s.xopp := by unfold domRun; (repeat' split) <;> rfl
@[simp] theorem domRun_hopp (n : Nat) (on : Bool) (s : State) : (domRun n on s).hopp = s.hopp := by unfold domRun; (repeat' split) <;> rfl
@[simp] theorem domRun_x (n : Nat) (on : Bool) (s : State) : (domRun n on s).x = s.x := by unfold domRun; (repeat' split) <;> rfl
@[simp] theorem domRun_crvn (n : Nat) (on : Bool) (s : State) : (domRun n on s).crvn = s.crvn := by unfold domRun; (repeat' split) <;> rfl
@[simp] theorem domRun_herv (n : Nat) (on : Bool) (s : State) : (domRun n on s).herv = s.herv := by unfold domRun; (repeat' split) <;> rfl
@[simp] theorem domRun_ucie (n : Nat) (on : Bool) (s : State) : (domRun n on s).ucie = s.ucie := by unfold domRun; (repeat' split) <;> rfl
@[simp] theorem domRun_ptp (n : Nat) (on : Bool) (s : State) : (domRun n on s).ptp = s.ptp := by unfold domRun; (repeat' split) <;> rfl
@[simp] theorem domRun_eth0 (n : Nat) (on : Bool) (s : State) : (domRun n on s).eth0 = s.eth0 := by unfold domRun; (repeat' split) <;> rfl
@[simp] theorem domRun_eth1 (n : Nat) (on : Bool) (s : State) : (domRun n on s).eth1 = s.eth1 := by unfold domRun; (repeat' split) <;> rfl
@[simp] theorem domRun_panS (n : Nat) (on : Bool) (s : State) : (domRun n on s).panS = s.panS := by unfold domRun; (repeat' split) <;> rfl
@[simp] theorem domRun_panA (n : Nat) (on : Bool) (s : State) : (domRun n on s).panA = s.panA := by unfold domRun; (repeat' split) <;> rfl
@[simp] theorem domRun_panB (n : Nat) (on : Bool) (s : State) : (domRun n on s).panB = s.panB := by unfold domRun; (repeat' split) <;> rfl
@[simp] theorem domRun_sec (n : Nat) (on : Bool) (s : State) : (domRun n on s).sec = s.sec := by unfold domRun; (repeat' split) <;> rfl
@[simp] theorem domRun_lsecA (n : Nat) (on : Bool) (s : State) : (domRun n on s).lsecA = s.lsecA := by unfold domRun; (repeat' split) <;> rfl
@[simp] theorem domRun_lsecB (n : Nat) (on : Bool) (s : State) : (domRun n on s).lsecB = s.lsecB := by unfold domRun; (repeat' split) <;> rfl
@[simp] theorem domRun_fwA (n : Nat) (on : Bool) (s : State) : (domRun n on s).fwA = s.fwA := by unfold domRun; (repeat' split) <;> rfl
@[simp] theorem domRun_fwB (n : Nat) (on : Bool) (s : State) : (domRun n on s).fwB = s.fwB := by unfold domRun; (repeat' split) <;> rfl
@[simp] theorem domRun_twin (n : Nat) (on : Bool) (s : State) : (domRun n on s).twin = s.twin := by unfold domRun; (repeat' split) <;> rfl
@[simp] theorem domRun_chip0 (n : Nat) (on : Bool) (s : State) : (domRun n on s).chip0 = s.chip0 := by unfold domRun; (repeat' split) <;> rfl
@[simp] theorem domRun_chip1 (n : Nat) (on : Bool) (s : State) : (domRun n on s).chip1 = s.chip1 := by unfold domRun; (repeat' split) <;> rfl
@[simp] theorem domRun_recv (n : Nat) (on : Bool) (s : State) : (domRun n on s).recv = s.recv := by unfold domRun; (repeat' split) <;> rfl
@[simp] theorem domRun_laneA (n : Nat) (on : Bool) (s : State) : (domRun n on s).laneA = s.laneA := by unfold domRun; (repeat' split) <;> rfl
@[simp] theorem domRun_laneB (n : Nat) (on : Bool) (s : State) : (domRun n on s).laneB = s.laneB := by unfold domRun; (repeat' split) <;> rfl
@[simp] theorem domRun_ingest (n : Nat) (on : Bool) (s : State) : (domRun n on s).ingest = s.ingest := by unfold domRun; (repeat' split) <;> rfl
@[simp] theorem domRun_fwd (n : Nat) (on : Bool) (s : State) : (domRun n on s).fwd = s.fwd := by unfold domRun; (repeat' split) <;> rfl
@[simp] theorem domRun_agents (n : Nat) (on : Bool) (s : State) : (domRun n on s).agents = s.agents := by unfold domRun; (repeat' split) <;> rfl
@[simp] theorem domRun_mrec (n : Nat) (on : Bool) (s : State) : (domRun n on s).mrec = s.mrec := by unfold domRun; (repeat' split) <;> rfl
@[simp] theorem domRun_inv (n : Nat) (on : Bool) (s : State) : (domRun n on s).inv = s.inv := by unfold domRun; (repeat' split) <;> rfl
@[simp] theorem domRun_rdData (n : Nat) (on : Bool) (s : State) : (domRun n on s).rdData = s.rdData := by unfold domRun; (repeat' split) <;> rfl
@[simp] theorem domRun_freeCtr (n : Nat) (on : Bool) (s : State) : (domRun n on s).freeCtr = s.freeCtr := by unfold domRun; (repeat' split) <;> rfl
@[simp] theorem domRun_pending (n : Nat) (on : Bool) (s : State) : (domRun n on s).pending = s.pending := by unfold domRun; (repeat' split) <;> rfl
@[simp] theorem State.setCport_time (s : State) (p : Nat) (x : CPort) : (State.setCport s p x).time = s.time := rfl
@[simp] theorem State.setCport_regs (s : State) (p : Nat) (x : CPort) : (State.setCport s p x).regs = s.regs := rfl
@[simp] theorem State.setCport_fuses (s : State) (p : Nat) (x : CPort) : (State.setCport s p x).fuses = s.fuses := rfl
@[simp] theorem State.setCport_blk (s : State) (p : Nat) (x : CPort) : (State.setCport s p x).blk = s.blk := rfl
@[simp] theorem State.setCport_mbox (s : State) (p : Nat) (x : CPort) : (State.setCport s p x).mbox = s.mbox := rfl
@[simp] theorem State.setCport_hilo (s : State) (p : Nat) (x : CPort) : (State.setCport s p x).hilo = s.hilo := rfl
@[simp] theorem State.setCport_gov (s : State) (p : Nat) (x : CPort) : (State.setCport s p x).gov = s.gov := rfl
@[simp] theorem State.setCport_pwr (s : State) (p : Nat) (x : CPort) : (State.setCport s p x).pwr = s.pwr := rfl
@[simp] theorem State.setCport_xopp (s : State) (p : Nat) (x : CPort) : (State.setCport s p x).xopp = s.xopp := rfl
@[simp] theorem State.setCport_hopp (s : State) (p : Nat) (x : CPort) : (State.setCport s p x).hopp = s.hopp := rfl
@[simp] theorem State.setCport_x (s : State) (p : Nat) (x : CPort) : (State.setCport s p x).x = s.x := rfl
@[simp] theorem State.setCport_herv (s : State) (p : Nat) (x : CPort) : (State.setCport s p x).herv = s.herv := rfl
@[simp] theorem State.setCport_ucie (s : State) (p : Nat) (x : CPort) : (State.setCport s p x).ucie = s.ucie := rfl
@[simp] theorem State.setCport_ptp (s : State) (p : Nat) (x : CPort) : (State.setCport s p x).ptp = s.ptp := rfl
@[simp] theorem State.setCport_eth0 (s : State) (p : Nat) (x : CPort) : (State.setCport s p x).eth0 = s.eth0 := rfl
@[simp] theorem State.setCport_eth1 (s : State) (p : Nat) (x : CPort) : (State.setCport s p x).eth1 = s.eth1 := rfl
@[simp] theorem State.setCport_panS (s : State) (p : Nat) (x : CPort) : (State.setCport s p x).panS = s.panS := rfl
@[simp] theorem State.setCport_panA (s : State) (p : Nat) (x : CPort) : (State.setCport s p x).panA = s.panA := rfl
@[simp] theorem State.setCport_panB (s : State) (p : Nat) (x : CPort) : (State.setCport s p x).panB = s.panB := rfl
@[simp] theorem State.setCport_sec (s : State) (p : Nat) (x : CPort) : (State.setCport s p x).sec = s.sec := rfl
@[simp] theorem State.setCport_lsecA (s : State) (p : Nat) (x : CPort) : (State.setCport s p x).lsecA = s.lsecA := rfl
@[simp] theorem State.setCport_lsecB (s : State) (p : Nat) (x : CPort) : (State.setCport s p x).lsecB = s.lsecB := rfl
@[simp] theorem State.setCport_fwA (s : State) (p : Nat) (x : CPort) : (State.setCport s p x).fwA = s.fwA := rfl
@[simp] theorem State.setCport_fwB (s : State) (p : Nat) (x : CPort) : (State.setCport s p x).fwB = s.fwB := rfl
@[simp] theorem State.setCport_twin (s : State) (p : Nat) (x : CPort) : (State.setCport s p x).twin = s.twin := rfl
@[simp] theorem State.setCport_chip0 (s : State) (p : Nat) (x : CPort) : (State.setCport s p x).chip0 = s.chip0 := rfl
@[simp] theorem State.setCport_chip1 (s : State) (p : Nat) (x : CPort) : (State.setCport s p x).chip1 = s.chip1 := rfl
@[simp] theorem State.setCport_recv (s : State) (p : Nat) (x : CPort) : (State.setCport s p x).recv = s.recv := rfl
@[simp] theorem State.setCport_laneA (s : State) (p : Nat) (x : CPort) : (State.setCport s p x).laneA = s.laneA := rfl
@[simp] theorem State.setCport_laneB (s : State) (p : Nat) (x : CPort) : (State.setCport s p x).laneB = s.laneB := rfl
@[simp] theorem State.setCport_ingest (s : State) (p : Nat) (x : CPort) : (State.setCport s p x).ingest = s.ingest := rfl
@[simp] theorem State.setCport_fwd (s : State) (p : Nat) (x : CPort) : (State.setCport s p x).fwd = s.fwd := rfl
@[simp] theorem State.setCport_agents (s : State) (p : Nat) (x : CPort) : (State.setCport s p x).agents = s.agents := rfl
@[simp] theorem State.setCport_mrec (s : State) (p : Nat) (x : CPort) : (State.setCport s p x).mrec = s.mrec := rfl
@[simp] theorem State.setCport_inv (s : State) (p : Nat) (x : CPort) : (State.setCport s p x).inv = s.inv := rfl
@[simp] theorem State.setCport_rdData (s : State) (p : Nat) (x : CPort) : (State.setCport s p x).rdData = s.rdData := rfl
@[simp] theorem State.setCport_freeCtr (s : State) (p : Nat) (x : CPort) : (State.setCport s p x).freeCtr = s.freeCtr := rfl
@[simp] theorem State.setCport_pending (s : State) (p : Nat) (x : CPort) : (State.setCport s p x).pending = s.pending := rfl
@[simp] theorem State.modCport_time (s : State) (p : Nat) (f : CPort → CPort) : (State.modCport s p f).time = s.time := rfl
@[simp] theorem State.modCport_regs (s : State) (p : Nat) (f : CPort → CPort) : (State.modCport s p f).regs = s.regs := rfl
@[simp] theorem State.modCport_fuses (s : State) (p : Nat) (f : CPort → CPort) : (State.modCport s p f).fuses = s.fuses := rfl
@[simp] theorem State.modCport_blk (s : State) (p : Nat) (f : CPort → CPort) : (State.modCport s p f).blk = s.blk := rfl
@[simp] theorem State.modCport_mbox (s : State) (p : Nat) (f : CPort → CPort) : (State.modCport s p f).mbox = s.mbox := rfl
@[simp] theorem State.modCport_hilo (s : State) (p : Nat) (f : CPort → CPort) : (State.modCport s p f).hilo = s.hilo := rfl
@[simp] theorem State.modCport_gov (s : State) (p : Nat) (f : CPort → CPort) : (State.modCport s p f).gov = s.gov := rfl
@[simp] theorem State.modCport_pwr (s : State) (p : Nat) (f : CPort → CPort) : (State.modCport s p f).pwr = s.pwr := rfl
@[simp] theorem State.modCport_xopp (s : State) (p : Nat) (f : CPort → CPort) : (State.modCport s p f).xopp = s.xopp := rfl
@[simp] theorem State.modCport_hopp (s : State) (p : Nat) (f : CPort → CPort) : (State.modCport s p f).hopp = s.hopp := rfl
@[simp] theorem State.modCport_x (s : State) (p : Nat) (f : CPort → CPort) : (State.modCport s p f).x = s.x := rfl
@[simp] theorem State.modCport_herv (s : State) (p : Nat) (f : CPort → CPort) : (State.modCport s p f).herv = s.herv := rfl
@[simp] theorem State.modCport_ucie (s : State) (p : Nat) (f : CPort → CPort) : (State.modCport s p f).ucie = s.ucie := rfl
@[simp] theorem State.modCport_ptp (s : State) (p : Nat) (f : CPort → CPort) : (State.modCport s p f).ptp = s.ptp := rfl
@[simp] theorem State.modCport_eth0 (s : State) (p : Nat) (f : CPort → CPort) : (State.modCport s p f).eth0 = s.eth0 := rfl
@[simp] theorem State.modCport_eth1 (s : State) (p : Nat) (f : CPort → CPort) : (State.modCport s p f).eth1 = s.eth1 := rfl
@[simp] theorem State.modCport_panS (s : State) (p : Nat) (f : CPort → CPort) : (State.modCport s p f).panS = s.panS := rfl
@[simp] theorem State.modCport_panA (s : State) (p : Nat) (f : CPort → CPort) : (State.modCport s p f).panA = s.panA := rfl
@[simp] theorem State.modCport_panB (s : State) (p : Nat) (f : CPort → CPort) : (State.modCport s p f).panB = s.panB := rfl
@[simp] theorem State.modCport_sec (s : State) (p : Nat) (f : CPort → CPort) : (State.modCport s p f).sec = s.sec := rfl
@[simp] theorem State.modCport_lsecA (s : State) (p : Nat) (f : CPort → CPort) : (State.modCport s p f).lsecA = s.lsecA := rfl
@[simp] theorem State.modCport_lsecB (s : State) (p : Nat) (f : CPort → CPort) : (State.modCport s p f).lsecB = s.lsecB := rfl
@[simp] theorem State.modCport_fwA (s : State) (p : Nat) (f : CPort → CPort) : (State.modCport s p f).fwA = s.fwA := rfl
@[simp] theorem State.modCport_fwB (s : State) (p : Nat) (f : CPort → CPort) : (State.modCport s p f).fwB = s.fwB := rfl
@[simp] theorem State.modCport_twin (s : State) (p : Nat) (f : CPort → CPort) : (State.modCport s p f).twin = s.twin := rfl
@[simp] theorem State.modCport_chip0 (s : State) (p : Nat) (f : CPort → CPort) : (State.modCport s p f).chip0 = s.chip0 := rfl
@[simp] theorem State.modCport_chip1 (s : State) (p : Nat) (f : CPort → CPort) : (State.modCport s p f).chip1 = s.chip1 := rfl
@[simp] theorem State.modCport_recv (s : State) (p : Nat) (f : CPort → CPort) : (State.modCport s p f).recv = s.recv := rfl
@[simp] theorem State.modCport_laneA (s : State) (p : Nat) (f : CPort → CPort) : (State.modCport s p f).laneA = s.laneA := rfl
@[simp] theorem State.modCport_laneB (s : State) (p : Nat) (f : CPort → CPort) : (State.modCport s p f).laneB = s.laneB := rfl
@[simp] theorem State.modCport_ingest (s : State) (p : Nat) (f : CPort → CPort) : (State.modCport s p f).ingest = s.ingest := rfl
@[simp] theorem State.modCport_fwd (s : State) (p : Nat) (f : CPort → CPort) : (State.modCport s p f).fwd = s.fwd := rfl
@[simp] theorem State.modCport_agents (s : State) (p : Nat) (f : CPort → CPort) : (State.modCport s p f).agents = s.agents := rfl
@[simp] theorem State.modCport_mrec (s : State) (p : Nat) (f : CPort → CPort) : (State.modCport s p f).mrec = s.mrec := rfl
@[simp] theorem State.modCport_inv (s : State) (p : Nat) (f : CPort → CPort) : (State.modCport s p f).inv = s.inv := rfl
@[simp] theorem State.modCport_rdData (s : State) (p : Nat) (f : CPort → CPort) : (State.modCport s p f).rdData = s.rdData := rfl
@[simp] theorem State.modCport_freeCtr (s : State) (p : Nat) (f : CPort → CPort) : (State.modCport s p f).freeCtr = s.freeCtr := rfl
@[simp] theorem State.modCport_pending (s : State) (p : Nat) (f : CPort → CPort) : (State.modCport s p f).pending = s.pending := rfl
@[simp] theorem State.onCrvn_time (s : State) (f : CrvnSt → CrvnSt) : (State.onCrvn s f).time = s.time := rfl
@[simp] theorem State.onCrvn_regs (s : State) (f : CrvnSt → CrvnSt) : (State.onCrvn s f).regs = s.regs := rfl
@[simp] theorem State.onCrvn_fuses (s : State) (f : CrvnSt → CrvnSt) : (State.onCrvn s f).fuses = s.fuses := rfl
@[simp] theorem State.onCrvn_blk (s : State) (f : CrvnSt → CrvnSt) : (State.onCrvn s f).blk = s.blk := rfl
@[simp] theorem State.onCrvn_mbox (s : State) (f : CrvnSt → CrvnSt) : (State.onCrvn s f).mbox = s.mbox := rfl
@[simp] theorem State.onCrvn_hilo (s : State) (f : CrvnSt → CrvnSt) : (State.onCrvn s f).hilo = s.hilo := rfl
@[simp] theorem State.onCrvn_gov (s : State) (f : CrvnSt → CrvnSt) : (State.onCrvn s f).gov = s.gov := rfl
@[simp] theorem State.onCrvn_pwr (s : State) (f : CrvnSt → CrvnSt) : (State.onCrvn s f).pwr = s.pwr := rfl
@[simp] theorem State.onCrvn_xopp (s : State) (f : CrvnSt → CrvnSt) : (State.onCrvn s f).xopp = s.xopp := rfl
@[simp] theorem State.onCrvn_hopp (s : State) (f : CrvnSt → CrvnSt) : (State.onCrvn s f).hopp = s.hopp := rfl
@[simp] theorem State.onCrvn_x (s : State) (f : CrvnSt → CrvnSt) : (State.onCrvn s f).x = s.x := rfl
@[simp] theorem State.onCrvn_herv (s : State) (f : CrvnSt → CrvnSt) : (State.onCrvn s f).herv = s.herv := rfl
@[simp] theorem State.onCrvn_ucie (s : State) (f : CrvnSt → CrvnSt) : (State.onCrvn s f).ucie = s.ucie := rfl
@[simp] theorem State.onCrvn_ptp (s : State) (f : CrvnSt → CrvnSt) : (State.onCrvn s f).ptp = s.ptp := rfl
@[simp] theorem State.onCrvn_eth0 (s : State) (f : CrvnSt → CrvnSt) : (State.onCrvn s f).eth0 = s.eth0 := rfl
@[simp] theorem State.onCrvn_eth1 (s : State) (f : CrvnSt → CrvnSt) : (State.onCrvn s f).eth1 = s.eth1 := rfl
@[simp] theorem State.onCrvn_panS (s : State) (f : CrvnSt → CrvnSt) : (State.onCrvn s f).panS = s.panS := rfl
@[simp] theorem State.onCrvn_panA (s : State) (f : CrvnSt → CrvnSt) : (State.onCrvn s f).panA = s.panA := rfl
@[simp] theorem State.onCrvn_panB (s : State) (f : CrvnSt → CrvnSt) : (State.onCrvn s f).panB = s.panB := rfl
@[simp] theorem State.onCrvn_sec (s : State) (f : CrvnSt → CrvnSt) : (State.onCrvn s f).sec = s.sec := rfl
@[simp] theorem State.onCrvn_lsecA (s : State) (f : CrvnSt → CrvnSt) : (State.onCrvn s f).lsecA = s.lsecA := rfl
@[simp] theorem State.onCrvn_lsecB (s : State) (f : CrvnSt → CrvnSt) : (State.onCrvn s f).lsecB = s.lsecB := rfl
@[simp] theorem State.onCrvn_fwA (s : State) (f : CrvnSt → CrvnSt) : (State.onCrvn s f).fwA = s.fwA := rfl
@[simp] theorem State.onCrvn_fwB (s : State) (f : CrvnSt → CrvnSt) : (State.onCrvn s f).fwB = s.fwB := rfl
@[simp] theorem State.onCrvn_twin (s : State) (f : CrvnSt → CrvnSt) : (State.onCrvn s f).twin = s.twin := rfl
@[simp] theorem State.onCrvn_chip0 (s : State) (f : CrvnSt → CrvnSt) : (State.onCrvn s f).chip0 = s.chip0 := rfl
@[simp] theorem State.onCrvn_chip1 (s : State) (f : CrvnSt → CrvnSt) : (State.onCrvn s f).chip1 = s.chip1 := rfl
@[simp] theorem State.onCrvn_recv (s : State) (f : CrvnSt → CrvnSt) : (State.onCrvn s f).recv = s.recv := rfl
@[simp] theorem State.onCrvn_laneA (s : State) (f : CrvnSt → CrvnSt) : (State.onCrvn s f).laneA = s.laneA := rfl
@[simp] theorem State.onCrvn_laneB (s : State) (f : CrvnSt → CrvnSt) : (State.onCrvn s f).laneB = s.laneB := rfl
@[simp] theorem State.onCrvn_ingest (s : State) (f : CrvnSt → CrvnSt) : (State.onCrvn s f).ingest = s.ingest := rfl
@[simp] theorem State.onCrvn_fwd (s : State) (f : CrvnSt → CrvnSt) : (State.onCrvn s f).fwd = s.fwd := rfl
@[simp] theorem State.onCrvn_agents (s : State) (f : CrvnSt → CrvnSt) : (State.onCrvn s f).agents = s.agents := rfl
@[simp] theorem State.onCrvn_mrec (s : State) (f : CrvnSt → CrvnSt) : (State.onCrvn s f).mrec = s.mrec := rfl
@[simp] theorem State.onCrvn_inv (s : State) (f : CrvnSt → CrvnSt) : (State.onCrvn s f).inv = s.inv := rfl
@[simp] theorem State.onCrvn_rdData (s : State) (f : CrvnSt → CrvnSt) : (State.onCrvn s f).rdData = s.rdData := rfl
@[simp] theorem State.onCrvn_freeCtr (s : State) (f : CrvnSt → CrvnSt) : (State.onCrvn s f).freeCtr = s.freeCtr := rfl
@[simp] theorem State.onCrvn_pending (s : State) (f : CrvnSt → CrvnSt) : (State.onCrvn s f).pending = s.pending := rfl
@[simp] theorem State.setEth_time (s : State) (p : Nat) (x : EthSt) : (State.setEth s p x).time = s.time := by unfold State.setEth; split <;> rfl
@[simp] theorem State.setEth_regs (s : State) (p : Nat) (x : EthSt) : (State.setEth s p x).regs = s.regs := by unfold State.setEth; split <;> rfl
@[simp] theorem State.setEth_fuses (s : State) (p : Nat) (x : EthSt) : (State.setEth s p x).fuses = s.fuses := by unfold State.setEth; split <;> rfl
@[simp] theorem State.setEth_blk (s : State) (p : Nat) (x : EthSt) : (State.setEth s p x).blk = s.blk := by unfold State.setEth; split <;> rfl
@[simp] theorem State.setEth_mbox (s : State) (p : Nat) (x : EthSt) : (State.setEth s p x).mbox = s.mbox := by unfold State.setEth; split <;> rfl
@[simp] theorem State.setEth_hilo (s : State) (p : Nat) (x : EthSt) : (State.setEth s p x).hilo = s.hilo := by unfold State.setEth; split <;> rfl
@[simp] theorem State.setEth_gov (s : State) (p : Nat) (x : EthSt) : (State.setEth s p x).gov = s.gov := by unfold State.setEth; split <;> rfl
@[simp] theorem State.setEth_pwr (s : State) (p : Nat) (x : EthSt) : (State.setEth s p x).pwr = s.pwr := by unfold State.setEth; split <;> rfl
@[simp] theorem State.setEth_xopp (s : State) (p : Nat) (x : EthSt) : (State.setEth s p x).xopp = s.xopp := by unfold State.setEth; split <;> rfl
@[simp] theorem State.setEth_hopp (s : State) (p : Nat) (x : EthSt) : (State.setEth s p x).hopp = s.hopp := by unfold State.setEth; split <;> rfl
@[simp] theorem State.setEth_x (s : State) (p : Nat) (x : EthSt) : (State.setEth s p x).x = s.x := by unfold State.setEth; split <;> rfl
@[simp] theorem State.setEth_crvn (s : State) (p : Nat) (x : EthSt) : (State.setEth s p x).crvn = s.crvn := by unfold State.setEth; split <;> rfl
@[simp] theorem State.setEth_herv (s : State) (p : Nat) (x : EthSt) : (State.setEth s p x).herv = s.herv := by unfold State.setEth; split <;> rfl
@[simp] theorem State.setEth_ucie (s : State) (p : Nat) (x : EthSt) : (State.setEth s p x).ucie = s.ucie := by unfold State.setEth; split <;> rfl
@[simp] theorem State.setEth_ptp (s : State) (p : Nat) (x : EthSt) : (State.setEth s p x).ptp = s.ptp := by unfold State.setEth; split <;> rfl
@[simp] theorem State.setEth_panS (s : State) (p : Nat) (x : EthSt) : (State.setEth s p x).panS = s.panS := by unfold State.setEth; split <;> rfl
@[simp] theorem State.setEth_panA (s : State) (p : Nat) (x : EthSt) : (State.setEth s p x).panA = s.panA := by unfold State.setEth; split <;> rfl
@[simp] theorem State.setEth_panB (s : State) (p : Nat) (x : EthSt) : (State.setEth s p x).panB = s.panB := by unfold State.setEth; split <;> rfl
@[simp] theorem State.setEth_sec (s : State) (p : Nat) (x : EthSt) : (State.setEth s p x).sec = s.sec := by unfold State.setEth; split <;> rfl
@[simp] theorem State.setEth_lsecA (s : State) (p : Nat) (x : EthSt) : (State.setEth s p x).lsecA = s.lsecA := by unfold State.setEth; split <;> rfl
@[simp] theorem State.setEth_lsecB (s : State) (p : Nat) (x : EthSt) : (State.setEth s p x).lsecB = s.lsecB := by unfold State.setEth; split <;> rfl
@[simp] theorem State.setEth_fwA (s : State) (p : Nat) (x : EthSt) : (State.setEth s p x).fwA = s.fwA := by unfold State.setEth; split <;> rfl
@[simp] theorem State.setEth_fwB (s : State) (p : Nat) (x : EthSt) : (State.setEth s p x).fwB = s.fwB := by unfold State.setEth; split <;> rfl
@[simp] theorem State.setEth_twin (s : State) (p : Nat) (x : EthSt) : (State.setEth s p x).twin = s.twin := by unfold State.setEth; split <;> rfl
@[simp] theorem State.setEth_chip0 (s : State) (p : Nat) (x : EthSt) : (State.setEth s p x).chip0 = s.chip0 := by unfold State.setEth; split <;> rfl
@[simp] theorem State.setEth_chip1 (s : State) (p : Nat) (x : EthSt) : (State.setEth s p x).chip1 = s.chip1 := by unfold State.setEth; split <;> rfl
@[simp] theorem State.setEth_recv (s : State) (p : Nat) (x : EthSt) : (State.setEth s p x).recv = s.recv := by unfold State.setEth; split <;> rfl
@[simp] theorem State.setEth_laneA (s : State) (p : Nat) (x : EthSt) : (State.setEth s p x).laneA = s.laneA := by unfold State.setEth; split <;> rfl
@[simp] theorem State.setEth_laneB (s : State) (p : Nat) (x : EthSt) : (State.setEth s p x).laneB = s.laneB := by unfold State.setEth; split <;> rfl
@[simp] theorem State.setEth_ingest (s : State) (p : Nat) (x : EthSt) : (State.setEth s p x).ingest = s.ingest := by unfold State.setEth; split <;> rfl
@[simp] theorem State.setEth_fwd (s : State) (p : Nat) (x : EthSt) : (State.setEth s p x).fwd = s.fwd := by unfold State.setEth; split <;> rfl
@[simp] theorem State.setEth_agents (s : State) (p : Nat) (x : EthSt) : (State.setEth s p x).agents = s.agents := by unfold State.setEth; split <;> rfl
@[simp] theorem State.setEth_mrec (s : State) (p : Nat) (x : EthSt) : (State.setEth s p x).mrec = s.mrec := by unfold State.setEth; split <;> rfl
@[simp] theorem State.setEth_inv (s : State) (p : Nat) (x : EthSt) : (State.setEth s p x).inv = s.inv := by unfold State.setEth; split <;> rfl
@[simp] theorem State.setEth_rdData (s : State) (p : Nat) (x : EthSt) : (State.setEth s p x).rdData = s.rdData := by unfold State.setEth; split <;> rfl
@[simp] theorem State.setEth_freeCtr (s : State) (p : Nat) (x : EthSt) : (State.setEth s p x).freeCtr = s.freeCtr := by unfold State.setEth; split <;> rfl
@[simp] theorem State.setEth_pending (s : State) (p : Nat) (x : EthSt) : (State.setEth s p x).pending = s.pending := by unfold State.setEth; split <;> rfl
@[simp] theorem State.setUmod_time (s : State) (m : Nat) (x : UMod) : (State.setUmod s m x).time = s.time := rfl
@[simp] theorem State.setUmod_regs (s : State) (m : Nat) (x : UMod) : (State.setUmod s m x).regs = s.regs := rfl
@[simp] theorem State.setUmod_fuses (s : State) (m : Nat) (x : UMod) : (State.setUmod s m x).fuses = s.fuses := rfl
@[simp] theorem State.setUmod_blk (s : State) (m : Nat) (x : UMod) : (State.setUmod s m x).blk = s.blk := rfl
@[simp] theorem State.setUmod_mbox (s : State) (m : Nat) (x : UMod) : (State.setUmod s m x).mbox = s.mbox := rfl
@[simp] theorem State.setUmod_hilo (s : State) (m : Nat) (x : UMod) : (State.setUmod s m x).hilo = s.hilo := rfl
@[simp] theorem State.setUmod_gov (s : State) (m : Nat) (x : UMod) : (State.setUmod s m x).gov = s.gov := rfl
@[simp] theorem State.setUmod_pwr (s : State) (m : Nat) (x : UMod) : (State.setUmod s m x).pwr = s.pwr := rfl
@[simp] theorem State.setUmod_xopp (s : State) (m : Nat) (x : UMod) : (State.setUmod s m x).xopp = s.xopp := rfl
@[simp] theorem State.setUmod_hopp (s : State) (m : Nat) (x : UMod) : (State.setUmod s m x).hopp = s.hopp := rfl
@[simp] theorem State.setUmod_x (s : State) (m : Nat) (x : UMod) : (State.setUmod s m x).x = s.x := rfl
@[simp] theorem State.setUmod_crvn (s : State) (m : Nat) (x : UMod) : (State.setUmod s m x).crvn = s.crvn := rfl
@[simp] theorem State.setUmod_herv (s : State) (m : Nat) (x : UMod) : (State.setUmod s m x).herv = s.herv := rfl
@[simp] theorem State.setUmod_ptp (s : State) (m : Nat) (x : UMod) : (State.setUmod s m x).ptp = s.ptp := rfl
@[simp] theorem State.setUmod_eth0 (s : State) (m : Nat) (x : UMod) : (State.setUmod s m x).eth0 = s.eth0 := rfl
@[simp] theorem State.setUmod_eth1 (s : State) (m : Nat) (x : UMod) : (State.setUmod s m x).eth1 = s.eth1 := rfl
@[simp] theorem State.setUmod_panS (s : State) (m : Nat) (x : UMod) : (State.setUmod s m x).panS = s.panS := rfl
@[simp] theorem State.setUmod_panA (s : State) (m : Nat) (x : UMod) : (State.setUmod s m x).panA = s.panA := rfl
@[simp] theorem State.setUmod_panB (s : State) (m : Nat) (x : UMod) : (State.setUmod s m x).panB = s.panB := rfl
@[simp] theorem State.setUmod_sec (s : State) (m : Nat) (x : UMod) : (State.setUmod s m x).sec = s.sec := rfl
@[simp] theorem State.setUmod_lsecA (s : State) (m : Nat) (x : UMod) : (State.setUmod s m x).lsecA = s.lsecA := rfl
@[simp] theorem State.setUmod_lsecB (s : State) (m : Nat) (x : UMod) : (State.setUmod s m x).lsecB = s.lsecB := rfl
@[simp] theorem State.setUmod_fwA (s : State) (m : Nat) (x : UMod) : (State.setUmod s m x).fwA = s.fwA := rfl
@[simp] theorem State.setUmod_fwB (s : State) (m : Nat) (x : UMod) : (State.setUmod s m x).fwB = s.fwB := rfl
@[simp] theorem State.setUmod_twin (s : State) (m : Nat) (x : UMod) : (State.setUmod s m x).twin = s.twin := rfl
@[simp] theorem State.setUmod_chip0 (s : State) (m : Nat) (x : UMod) : (State.setUmod s m x).chip0 = s.chip0 := rfl
@[simp] theorem State.setUmod_chip1 (s : State) (m : Nat) (x : UMod) : (State.setUmod s m x).chip1 = s.chip1 := rfl
@[simp] theorem State.setUmod_recv (s : State) (m : Nat) (x : UMod) : (State.setUmod s m x).recv = s.recv := rfl
@[simp] theorem State.setUmod_laneA (s : State) (m : Nat) (x : UMod) : (State.setUmod s m x).laneA = s.laneA := rfl
@[simp] theorem State.setUmod_laneB (s : State) (m : Nat) (x : UMod) : (State.setUmod s m x).laneB = s.laneB := rfl
@[simp] theorem State.setUmod_ingest (s : State) (m : Nat) (x : UMod) : (State.setUmod s m x).ingest = s.ingest := rfl
@[simp] theorem State.setUmod_fwd (s : State) (m : Nat) (x : UMod) : (State.setUmod s m x).fwd = s.fwd := rfl
@[simp] theorem State.setUmod_agents (s : State) (m : Nat) (x : UMod) : (State.setUmod s m x).agents = s.agents := rfl
@[simp] theorem State.setUmod_mrec (s : State) (m : Nat) (x : UMod) : (State.setUmod s m x).mrec = s.mrec := rfl
@[simp] theorem State.setUmod_inv (s : State) (m : Nat) (x : UMod) : (State.setUmod s m x).inv = s.inv := rfl
@[simp] theorem State.setUmod_rdData (s : State) (m : Nat) (x : UMod) : (State.setUmod s m x).rdData = s.rdData := rfl
@[simp] theorem State.setUmod_freeCtr (s : State) (m : Nat) (x : UMod) : (State.setUmod s m x).freeCtr = s.freeCtr := rfl
@[simp] theorem State.setUmod_pending (s : State) (m : Nat) (x : UMod) : (State.setUmod s m x).pending = s.pending := rfl
@[simp] theorem State.onXopp_time (s : State) (f : DieOpp → DieOpp) : (State.onXopp s f).time = s.time := rfl
@[simp] theorem State.onXopp_regs (s : State) (f : DieOpp → DieOpp) : (State.onXopp s f).regs = s.regs := rfl
@[simp] theorem State.onXopp_fuses (s : State) (f : DieOpp → DieOpp) : (State.onXopp s f).fuses = s.fuses := rfl
@[simp] theorem State.onXopp_blk (s : State) (f : DieOpp → DieOpp) : (State.onXopp s f).blk = s.blk := rfl
@[simp] theorem State.onXopp_mbox (s : State) (f : DieOpp → DieOpp) : (State.onXopp s f).mbox = s.mbox := rfl
@[simp] theorem State.onXopp_hilo (s : State) (f : DieOpp → DieOpp) : (State.onXopp s f).hilo = s.hilo := rfl
@[simp] theorem State.onXopp_gov (s : State) (f : DieOpp → DieOpp) : (State.onXopp s f).gov = s.gov := rfl
@[simp] theorem State.onXopp_pwr (s : State) (f : DieOpp → DieOpp) : (State.onXopp s f).pwr = s.pwr := rfl
@[simp] theorem State.onXopp_hopp (s : State) (f : DieOpp → DieOpp) : (State.onXopp s f).hopp = s.hopp := rfl
@[simp] theorem State.onXopp_x (s : State) (f : DieOpp → DieOpp) : (State.onXopp s f).x = s.x := rfl
@[simp] theorem State.onXopp_crvn (s : State) (f : DieOpp → DieOpp) : (State.onXopp s f).crvn = s.crvn := rfl
@[simp] theorem State.onXopp_herv (s : State) (f : DieOpp → DieOpp) : (State.onXopp s f).herv = s.herv := rfl
@[simp] theorem State.onXopp_ucie (s : State) (f : DieOpp → DieOpp) : (State.onXopp s f).ucie = s.ucie := rfl
@[simp] theorem State.onXopp_ptp (s : State) (f : DieOpp → DieOpp) : (State.onXopp s f).ptp = s.ptp := rfl
@[simp] theorem State.onXopp_eth0 (s : State) (f : DieOpp → DieOpp) : (State.onXopp s f).eth0 = s.eth0 := rfl
@[simp] theorem State.onXopp_eth1 (s : State) (f : DieOpp → DieOpp) : (State.onXopp s f).eth1 = s.eth1 := rfl
@[simp] theorem State.onXopp_panS (s : State) (f : DieOpp → DieOpp) : (State.onXopp s f).panS = s.panS := rfl
@[simp] theorem State.onXopp_panA (s : State) (f : DieOpp → DieOpp) : (State.onXopp s f).panA = s.panA := rfl
@[simp] theorem State.onXopp_panB (s : State) (f : DieOpp → DieOpp) : (State.onXopp s f).panB = s.panB := rfl
@[simp] theorem State.onXopp_sec (s : State) (f : DieOpp → DieOpp) : (State.onXopp s f).sec = s.sec := rfl
@[simp] theorem State.onXopp_lsecA (s : State) (f : DieOpp → DieOpp) : (State.onXopp s f).lsecA = s.lsecA := rfl
@[simp] theorem State.onXopp_lsecB (s : State) (f : DieOpp → DieOpp) : (State.onXopp s f).lsecB = s.lsecB := rfl
@[simp] theorem State.onXopp_fwA (s : State) (f : DieOpp → DieOpp) : (State.onXopp s f).fwA = s.fwA := rfl
@[simp] theorem State.onXopp_fwB (s : State) (f : DieOpp → DieOpp) : (State.onXopp s f).fwB = s.fwB := rfl
@[simp] theorem State.onXopp_twin (s : State) (f : DieOpp → DieOpp) : (State.onXopp s f).twin = s.twin := rfl
@[simp] theorem State.onXopp_chip0 (s : State) (f : DieOpp → DieOpp) : (State.onXopp s f).chip0 = s.chip0 := rfl
@[simp] theorem State.onXopp_chip1 (s : State) (f : DieOpp → DieOpp) : (State.onXopp s f).chip1 = s.chip1 := rfl
@[simp] theorem State.onXopp_recv (s : State) (f : DieOpp → DieOpp) : (State.onXopp s f).recv = s.recv := rfl
@[simp] theorem State.onXopp_laneA (s : State) (f : DieOpp → DieOpp) : (State.onXopp s f).laneA = s.laneA := rfl
@[simp] theorem State.onXopp_laneB (s : State) (f : DieOpp → DieOpp) : (State.onXopp s f).laneB = s.laneB := rfl
@[simp] theorem State.onXopp_ingest (s : State) (f : DieOpp → DieOpp) : (State.onXopp s f).ingest = s.ingest := rfl
@[simp] theorem State.onXopp_fwd (s : State) (f : DieOpp → DieOpp) : (State.onXopp s f).fwd = s.fwd := rfl
@[simp] theorem State.onXopp_agents (s : State) (f : DieOpp → DieOpp) : (State.onXopp s f).agents = s.agents := rfl
@[simp] theorem State.onXopp_mrec (s : State) (f : DieOpp → DieOpp) : (State.onXopp s f).mrec = s.mrec := rfl
@[simp] theorem State.onXopp_inv (s : State) (f : DieOpp → DieOpp) : (State.onXopp s f).inv = s.inv := rfl
@[simp] theorem State.onXopp_rdData (s : State) (f : DieOpp → DieOpp) : (State.onXopp s f).rdData = s.rdData := rfl
@[simp] theorem State.onXopp_freeCtr (s : State) (f : DieOpp → DieOpp) : (State.onXopp s f).freeCtr = s.freeCtr := rfl
@[simp] theorem State.onXopp_pending (s : State) (f : DieOpp → DieOpp) : (State.onXopp s f).pending = s.pending := rfl
@[simp] theorem State.onHopp_time (s : State) (f : DieOpp → DieOpp) : (State.onHopp s f).time = s.time := rfl
@[simp] theorem State.onHopp_regs (s : State) (f : DieOpp → DieOpp) : (State.onHopp s f).regs = s.regs := rfl
@[simp] theorem State.onHopp_fuses (s : State) (f : DieOpp → DieOpp) : (State.onHopp s f).fuses = s.fuses := rfl
@[simp] theorem State.onHopp_blk (s : State) (f : DieOpp → DieOpp) : (State.onHopp s f).blk = s.blk := rfl
@[simp] theorem State.onHopp_mbox (s : State) (f : DieOpp → DieOpp) : (State.onHopp s f).mbox = s.mbox := rfl
@[simp] theorem State.onHopp_hilo (s : State) (f : DieOpp → DieOpp) : (State.onHopp s f).hilo = s.hilo := rfl
@[simp] theorem State.onHopp_gov (s : State) (f : DieOpp → DieOpp) : (State.onHopp s f).gov = s.gov := rfl
@[simp] theorem State.onHopp_pwr (s : State) (f : DieOpp → DieOpp) : (State.onHopp s f).pwr = s.pwr := rfl
@[simp] theorem State.onHopp_xopp (s : State) (f : DieOpp → DieOpp) : (State.onHopp s f).xopp = s.xopp := rfl
@[simp] theorem State.onHopp_x (s : State) (f : DieOpp → DieOpp) : (State.onHopp s f).x = s.x := rfl
@[simp] theorem State.onHopp_crvn (s : State) (f : DieOpp → DieOpp) : (State.onHopp s f).crvn = s.crvn := rfl
@[simp] theorem State.onHopp_herv (s : State) (f : DieOpp → DieOpp) : (State.onHopp s f).herv = s.herv := rfl
@[simp] theorem State.onHopp_ucie (s : State) (f : DieOpp → DieOpp) : (State.onHopp s f).ucie = s.ucie := rfl
@[simp] theorem State.onHopp_ptp (s : State) (f : DieOpp → DieOpp) : (State.onHopp s f).ptp = s.ptp := rfl
@[simp] theorem State.onHopp_eth0 (s : State) (f : DieOpp → DieOpp) : (State.onHopp s f).eth0 = s.eth0 := rfl
@[simp] theorem State.onHopp_eth1 (s : State) (f : DieOpp → DieOpp) : (State.onHopp s f).eth1 = s.eth1 := rfl
@[simp] theorem State.onHopp_panS (s : State) (f : DieOpp → DieOpp) : (State.onHopp s f).panS = s.panS := rfl
@[simp] theorem State.onHopp_panA (s : State) (f : DieOpp → DieOpp) : (State.onHopp s f).panA = s.panA := rfl
@[simp] theorem State.onHopp_panB (s : State) (f : DieOpp → DieOpp) : (State.onHopp s f).panB = s.panB := rfl
@[simp] theorem State.onHopp_sec (s : State) (f : DieOpp → DieOpp) : (State.onHopp s f).sec = s.sec := rfl
@[simp] theorem State.onHopp_lsecA (s : State) (f : DieOpp → DieOpp) : (State.onHopp s f).lsecA = s.lsecA := rfl
@[simp] theorem State.onHopp_lsecB (s : State) (f : DieOpp → DieOpp) : (State.onHopp s f).lsecB = s.lsecB := rfl
@[simp] theorem State.onHopp_fwA (s : State) (f : DieOpp → DieOpp) : (State.onHopp s f).fwA = s.fwA := rfl
@[simp] theorem State.onHopp_fwB (s : State) (f : DieOpp → DieOpp) : (State.onHopp s f).fwB = s.fwB := rfl
@[simp] theorem State.onHopp_twin (s : State) (f : DieOpp → DieOpp) : (State.onHopp s f).twin = s.twin := rfl
@[simp] theorem State.onHopp_chip0 (s : State) (f : DieOpp → DieOpp) : (State.onHopp s f).chip0 = s.chip0 := rfl
@[simp] theorem State.onHopp_chip1 (s : State) (f : DieOpp → DieOpp) : (State.onHopp s f).chip1 = s.chip1 := rfl
@[simp] theorem State.onHopp_recv (s : State) (f : DieOpp → DieOpp) : (State.onHopp s f).recv = s.recv := rfl
@[simp] theorem State.onHopp_laneA (s : State) (f : DieOpp → DieOpp) : (State.onHopp s f).laneA = s.laneA := rfl
@[simp] theorem State.onHopp_laneB (s : State) (f : DieOpp → DieOpp) : (State.onHopp s f).laneB = s.laneB := rfl
@[simp] theorem State.onHopp_ingest (s : State) (f : DieOpp → DieOpp) : (State.onHopp s f).ingest = s.ingest := rfl
@[simp] theorem State.onHopp_fwd (s : State) (f : DieOpp → DieOpp) : (State.onHopp s f).fwd = s.fwd := rfl
@[simp] theorem State.onHopp_agents (s : State) (f : DieOpp → DieOpp) : (State.onHopp s f).agents = s.agents := rfl
@[simp] theorem State.onHopp_mrec (s : State) (f : DieOpp → DieOpp) : (State.onHopp s f).mrec = s.mrec := rfl
@[simp] theorem State.onHopp_inv (s : State) (f : DieOpp → DieOpp) : (State.onHopp s f).inv = s.inv := rfl
@[simp] theorem State.onHopp_rdData (s : State) (f : DieOpp → DieOpp) : (State.onHopp s f).rdData = s.rdData := rfl
@[simp] theorem State.onHopp_freeCtr (s : State) (f : DieOpp → DieOpp) : (State.onHopp s f).freeCtr = s.freeCtr := rfl
@[simp] theorem State.onHopp_pending (s : State) (f : DieOpp → DieOpp) : (State.onHopp s f).pending = s.pending := rfl
@[simp] theorem State.onHerv_time (s : State) (f : HerviSt → HerviSt) : (State.onHerv s f).time = s.time := rfl
@[simp] theorem State.onHerv_regs (s : State) (f : HerviSt → HerviSt) : (State.onHerv s f).regs = s.regs := rfl
@[simp] theorem State.onHerv_fuses (s : State) (f : HerviSt → HerviSt) : (State.onHerv s f).fuses = s.fuses := rfl
@[simp] theorem State.onHerv_blk (s : State) (f : HerviSt → HerviSt) : (State.onHerv s f).blk = s.blk := rfl
@[simp] theorem State.onHerv_mbox (s : State) (f : HerviSt → HerviSt) : (State.onHerv s f).mbox = s.mbox := rfl
@[simp] theorem State.onHerv_hilo (s : State) (f : HerviSt → HerviSt) : (State.onHerv s f).hilo = s.hilo := rfl
@[simp] theorem State.onHerv_gov (s : State) (f : HerviSt → HerviSt) : (State.onHerv s f).gov = s.gov := rfl
@[simp] theorem State.onHerv_pwr (s : State) (f : HerviSt → HerviSt) : (State.onHerv s f).pwr = s.pwr := rfl
@[simp] theorem State.onHerv_xopp (s : State) (f : HerviSt → HerviSt) : (State.onHerv s f).xopp = s.xopp := rfl
@[simp] theorem State.onHerv_hopp (s : State) (f : HerviSt → HerviSt) : (State.onHerv s f).hopp = s.hopp := rfl
@[simp] theorem State.onHerv_x (s : State) (f : HerviSt → HerviSt) : (State.onHerv s f).x = s.x := rfl
@[simp] theorem State.onHerv_crvn (s : State) (f : HerviSt → HerviSt) : (State.onHerv s f).crvn = s.crvn := rfl
@[simp] theorem State.onHerv_ucie (s : State) (f : HerviSt → HerviSt) : (State.onHerv s f).ucie = s.ucie := rfl
@[simp] theorem State.onHerv_ptp (s : State) (f : HerviSt → HerviSt) : (State.onHerv s f).ptp = s.ptp := rfl
@[simp] theorem State.onHerv_eth0 (s : State) (f : HerviSt → HerviSt) : (State.onHerv s f).eth0 = s.eth0 := rfl
@[simp] theorem State.onHerv_eth1 (s : State) (f : HerviSt → HerviSt) : (State.onHerv s f).eth1 = s.eth1 := rfl
@[simp] theorem State.onHerv_panS (s : State) (f : HerviSt → HerviSt) : (State.onHerv s f).panS = s.panS := rfl
@[simp] theorem State.onHerv_panA (s : State) (f : HerviSt → HerviSt) : (State.onHerv s f).panA = s.panA := rfl
@[simp] theorem State.onHerv_panB (s : State) (f : HerviSt → HerviSt) : (State.onHerv s f).panB = s.panB := rfl
@[simp] theorem State.onHerv_sec (s : State) (f : HerviSt → HerviSt) : (State.onHerv s f).sec = s.sec := rfl
@[simp] theorem State.onHerv_lsecA (s : State) (f : HerviSt → HerviSt) : (State.onHerv s f).lsecA = s.lsecA := rfl
@[simp] theorem State.onHerv_lsecB (s : State) (f : HerviSt → HerviSt) : (State.onHerv s f).lsecB = s.lsecB := rfl
@[simp] theorem State.onHerv_fwA (s : State) (f : HerviSt → HerviSt) : (State.onHerv s f).fwA = s.fwA := rfl
@[simp] theorem State.onHerv_fwB (s : State) (f : HerviSt → HerviSt) : (State.onHerv s f).fwB = s.fwB := rfl
@[simp] theorem State.onHerv_twin (s : State) (f : HerviSt → HerviSt) : (State.onHerv s f).twin = s.twin := rfl
@[simp] theorem State.onHerv_chip0 (s : State) (f : HerviSt → HerviSt) : (State.onHerv s f).chip0 = s.chip0 := rfl
@[simp] theorem State.onHerv_chip1 (s : State) (f : HerviSt → HerviSt) : (State.onHerv s f).chip1 = s.chip1 := rfl
@[simp] theorem State.onHerv_recv (s : State) (f : HerviSt → HerviSt) : (State.onHerv s f).recv = s.recv := rfl
@[simp] theorem State.onHerv_laneA (s : State) (f : HerviSt → HerviSt) : (State.onHerv s f).laneA = s.laneA := rfl
@[simp] theorem State.onHerv_laneB (s : State) (f : HerviSt → HerviSt) : (State.onHerv s f).laneB = s.laneB := rfl
@[simp] theorem State.onHerv_ingest (s : State) (f : HerviSt → HerviSt) : (State.onHerv s f).ingest = s.ingest := rfl
@[simp] theorem State.onHerv_fwd (s : State) (f : HerviSt → HerviSt) : (State.onHerv s f).fwd = s.fwd := rfl
@[simp] theorem State.onHerv_agents (s : State) (f : HerviSt → HerviSt) : (State.onHerv s f).agents = s.agents := rfl
@[simp] theorem State.onHerv_mrec (s : State) (f : HerviSt → HerviSt) : (State.onHerv s f).mrec = s.mrec := rfl
@[simp] theorem State.onHerv_inv (s : State) (f : HerviSt → HerviSt) : (State.onHerv s f).inv = s.inv := rfl
@[simp] theorem State.onHerv_rdData (s : State) (f : HerviSt → HerviSt) : (State.onHerv s f).rdData = s.rdData := rfl
@[simp] theorem State.onHerv_freeCtr (s : State) (f : HerviSt → HerviSt) : (State.onHerv s f).freeCtr = s.freeCtr := rfl
@[simp] theorem State.onHerv_pending (s : State) (f : HerviSt → HerviSt) : (State.onHerv s f).pending = s.pending := rfl
@[simp] theorem State.onTwin_time (s : State) (f : TwinSt → TwinSt) : (State.onTwin s f).time = s.time := rfl
@[simp] theorem State.onTwin_regs (s : State) (f : TwinSt → TwinSt) : (State.onTwin s f).regs = s.regs := rfl
@[simp] theorem State.onTwin_fuses (s : State) (f : TwinSt → TwinSt) : (State.onTwin s f).fuses = s.fuses := rfl
@[simp] theorem State.onTwin_blk (s : State) (f : TwinSt → TwinSt) : (State.onTwin s f).blk = s.blk := rfl
@[simp] theorem State.onTwin_mbox (s : State) (f : TwinSt → TwinSt) : (State.onTwin s f).mbox = s.mbox := rfl
@[simp] theorem State.onTwin_hilo (s : State) (f : TwinSt → TwinSt) : (State.onTwin s f).hilo = s.hilo := rfl
@[simp] theorem State.onTwin_gov (s : State) (f : TwinSt → TwinSt) : (State.onTwin s f).gov = s.gov := rfl
@[simp] theorem State.onTwin_pwr (s : State) (f : TwinSt → TwinSt) : (State.onTwin s f).pwr = s.pwr := rfl
@[simp] theorem State.onTwin_xopp (s : State) (f : TwinSt → TwinSt) : (State.onTwin s f).xopp = s.xopp := rfl
@[simp] theorem State.onTwin_hopp (s : State) (f : TwinSt → TwinSt) : (State.onTwin s f).hopp = s.hopp := rfl
@[simp] theorem State.onTwin_x (s : State) (f : TwinSt → TwinSt) : (State.onTwin s f).x = s.x := rfl
@[simp] theorem State.onTwin_crvn (s : State) (f : TwinSt → TwinSt) : (State.onTwin s f).crvn = s.crvn := rfl
@[simp] theorem State.onTwin_herv (s : State) (f : TwinSt → TwinSt) : (State.onTwin s f).herv = s.herv := rfl
@[simp] theorem State.onTwin_ucie (s : State) (f : TwinSt → TwinSt) : (State.onTwin s f).ucie = s.ucie := rfl
@[simp] theorem State.onTwin_ptp (s : State) (f : TwinSt → TwinSt) : (State.onTwin s f).ptp = s.ptp := rfl
@[simp] theorem State.onTwin_eth0 (s : State) (f : TwinSt → TwinSt) : (State.onTwin s f).eth0 = s.eth0 := rfl
@[simp] theorem State.onTwin_eth1 (s : State) (f : TwinSt → TwinSt) : (State.onTwin s f).eth1 = s.eth1 := rfl
@[simp] theorem State.onTwin_panS (s : State) (f : TwinSt → TwinSt) : (State.onTwin s f).panS = s.panS := rfl
@[simp] theorem State.onTwin_panA (s : State) (f : TwinSt → TwinSt) : (State.onTwin s f).panA = s.panA := rfl
@[simp] theorem State.onTwin_panB (s : State) (f : TwinSt → TwinSt) : (State.onTwin s f).panB = s.panB := rfl
@[simp] theorem State.onTwin_sec (s : State) (f : TwinSt → TwinSt) : (State.onTwin s f).sec = s.sec := rfl
@[simp] theorem State.onTwin_lsecA (s : State) (f : TwinSt → TwinSt) : (State.onTwin s f).lsecA = s.lsecA := rfl
@[simp] theorem State.onTwin_lsecB (s : State) (f : TwinSt → TwinSt) : (State.onTwin s f).lsecB = s.lsecB := rfl
@[simp] theorem State.onTwin_fwA (s : State) (f : TwinSt → TwinSt) : (State.onTwin s f).fwA = s.fwA := rfl
@[simp] theorem State.onTwin_fwB (s : State) (f : TwinSt → TwinSt) : (State.onTwin s f).fwB = s.fwB := rfl
@[simp] theorem State.onTwin_chip0 (s : State) (f : TwinSt → TwinSt) : (State.onTwin s f).chip0 = s.chip0 := rfl
@[simp] theorem State.onTwin_chip1 (s : State) (f : TwinSt → TwinSt) : (State.onTwin s f).chip1 = s.chip1 := rfl
@[simp] theorem State.onTwin_recv (s : State) (f : TwinSt → TwinSt) : (State.onTwin s f).recv = s.recv := rfl
@[simp] theorem State.onTwin_laneA (s : State) (f : TwinSt → TwinSt) : (State.onTwin s f).laneA = s.laneA := rfl
@[simp] theorem State.onTwin_laneB (s : State) (f : TwinSt → TwinSt) : (State.onTwin s f).laneB = s.laneB := rfl
@[simp] theorem State.onTwin_ingest (s : State) (f : TwinSt → TwinSt) : (State.onTwin s f).ingest = s.ingest := rfl
@[simp] theorem State.onTwin_fwd (s : State) (f : TwinSt → TwinSt) : (State.onTwin s f).fwd = s.fwd := rfl
@[simp] theorem State.onTwin_agents (s : State) (f : TwinSt → TwinSt) : (State.onTwin s f).agents = s.agents := rfl
@[simp] theorem State.onTwin_mrec (s : State) (f : TwinSt → TwinSt) : (State.onTwin s f).mrec = s.mrec := rfl
@[simp] theorem State.onTwin_inv (s : State) (f : TwinSt → TwinSt) : (State.onTwin s f).inv = s.inv := rfl
@[simp] theorem State.onTwin_rdData (s : State) (f : TwinSt → TwinSt) : (State.onTwin s f).rdData = s.rdData := rfl
@[simp] theorem State.onTwin_freeCtr (s : State) (f : TwinSt → TwinSt) : (State.onTwin s f).freeCtr = s.freeCtr := rfl
@[simp] theorem State.onTwin_pending (s : State) (f : TwinSt → TwinSt) : (State.onTwin s f).pending = s.pending := rfl
@[simp] theorem State.setFuse_time (s : State) (f : Fld) (v : Nat) : (State.setFuse s f v).time = s.time := rfl
@[simp] theorem State.setFuse_regs (s : State) (f : Fld) (v : Nat) : (State.setFuse s f v).regs = s.regs := rfl
@[simp] theorem State.setFuse_blk (s : State) (f : Fld) (v : Nat) : (State.setFuse s f v).blk = s.blk := rfl
@[simp] theorem State.setFuse_mbox (s : State) (f : Fld) (v : Nat) : (State.setFuse s f v).mbox = s.mbox := rfl
@[simp] theorem State.setFuse_hilo (s : State) (f : Fld) (v : Nat) : (State.setFuse s f v).hilo = s.hilo := rfl
@[simp] theorem State.setFuse_gov (s : State) (f : Fld) (v : Nat) : (State.setFuse s f v).gov = s.gov := rfl
@[simp] theorem State.setFuse_pwr (s : State) (f : Fld) (v : Nat) : (State.setFuse s f v).pwr = s.pwr := rfl
@[simp] theorem State.setFuse_xopp (s : State) (f : Fld) (v : Nat) : (State.setFuse s f v).xopp = s.xopp := rfl
@[simp] theorem State.setFuse_hopp (s : State) (f : Fld) (v : Nat) : (State.setFuse s f v).hopp = s.hopp := rfl
@[simp] theorem State.setFuse_x (s : State) (f : Fld) (v : Nat) : (State.setFuse s f v).x = s.x := rfl
@[simp] theorem State.setFuse_crvn (s : State) (f : Fld) (v : Nat) : (State.setFuse s f v).crvn = s.crvn := rfl
@[simp] theorem State.setFuse_herv (s : State) (f : Fld) (v : Nat) : (State.setFuse s f v).herv = s.herv := rfl
@[simp] theorem State.setFuse_ucie (s : State) (f : Fld) (v : Nat) : (State.setFuse s f v).ucie = s.ucie := rfl
@[simp] theorem State.setFuse_ptp (s : State) (f : Fld) (v : Nat) : (State.setFuse s f v).ptp = s.ptp := rfl
@[simp] theorem State.setFuse_eth0 (s : State) (f : Fld) (v : Nat) : (State.setFuse s f v).eth0 = s.eth0 := rfl
@[simp] theorem State.setFuse_eth1 (s : State) (f : Fld) (v : Nat) : (State.setFuse s f v).eth1 = s.eth1 := rfl
@[simp] theorem State.setFuse_panS (s : State) (f : Fld) (v : Nat) : (State.setFuse s f v).panS = s.panS := rfl
@[simp] theorem State.setFuse_panA (s : State) (f : Fld) (v : Nat) : (State.setFuse s f v).panA = s.panA := rfl
@[simp] theorem State.setFuse_panB (s : State) (f : Fld) (v : Nat) : (State.setFuse s f v).panB = s.panB := rfl
@[simp] theorem State.setFuse_sec (s : State) (f : Fld) (v : Nat) : (State.setFuse s f v).sec = s.sec := rfl
@[simp] theorem State.setFuse_lsecA (s : State) (f : Fld) (v : Nat) : (State.setFuse s f v).lsecA = s.lsecA := rfl
@[simp] theorem State.setFuse_lsecB (s : State) (f : Fld) (v : Nat) : (State.setFuse s f v).lsecB = s.lsecB := rfl
@[simp] theorem State.setFuse_fwA (s : State) (f : Fld) (v : Nat) : (State.setFuse s f v).fwA = s.fwA := rfl
@[simp] theorem State.setFuse_fwB (s : State) (f : Fld) (v : Nat) : (State.setFuse s f v).fwB = s.fwB := rfl
@[simp] theorem State.setFuse_twin (s : State) (f : Fld) (v : Nat) : (State.setFuse s f v).twin = s.twin := rfl
@[simp] theorem State.setFuse_chip0 (s : State) (f : Fld) (v : Nat) : (State.setFuse s f v).chip0 = s.chip0 := rfl
@[simp] theorem State.setFuse_chip1 (s : State) (f : Fld) (v : Nat) : (State.setFuse s f v).chip1 = s.chip1 := rfl
@[simp] theorem State.setFuse_recv (s : State) (f : Fld) (v : Nat) : (State.setFuse s f v).recv = s.recv := rfl
@[simp] theorem State.setFuse_laneA (s : State) (f : Fld) (v : Nat) : (State.setFuse s f v).laneA = s.laneA := rfl
@[simp] theorem State.setFuse_laneB (s : State) (f : Fld) (v : Nat) : (State.setFuse s f v).laneB = s.laneB := rfl
@[simp] theorem State.setFuse_ingest (s : State) (f : Fld) (v : Nat) : (State.setFuse s f v).ingest = s.ingest := rfl
@[simp] theorem State.setFuse_fwd (s : State) (f : Fld) (v : Nat) : (State.setFuse s f v).fwd = s.fwd := rfl
@[simp] theorem State.setFuse_agents (s : State) (f : Fld) (v : Nat) : (State.setFuse s f v).agents = s.agents := rfl
@[simp] theorem State.setFuse_mrec (s : State) (f : Fld) (v : Nat) : (State.setFuse s f v).mrec = s.mrec := rfl
@[simp] theorem State.setFuse_inv (s : State) (f : Fld) (v : Nat) : (State.setFuse s f v).inv = s.inv := rfl
@[simp] theorem State.setFuse_rdData (s : State) (f : Fld) (v : Nat) : (State.setFuse s f v).rdData = s.rdData := rfl
@[simp] theorem State.setFuse_freeCtr (s : State) (f : Fld) (v : Nat) : (State.setFuse s f v).freeCtr = s.freeCtr := rfl
@[simp] theorem State.setFuse_pending (s : State) (f : Fld) (v : Nat) : (State.setFuse s f v).pending = s.pending := rfl
@[simp] theorem State.setLsec_time (s : State) (id : LaneId) (x : LaneSec) : (State.setLsec s id x).time = s.time := by cases id <;> rfl
@[simp] theorem State.setLsec_regs (s : State) (id : LaneId) (x : LaneSec) : (State.setLsec s id x).regs = s.regs := by cases id <;> rfl
@[simp] theorem State.setLsec_fuses (s : State) (id : LaneId) (x : LaneSec) : (State.setLsec s id x).fuses = s.fuses := by cases id <;> rfl
@[simp] theorem State.setLsec_blk (s : State) (id : LaneId) (x : LaneSec) : (State.setLsec s id x).blk = s.blk := by cases id <;> rfl
@[simp] theorem State.setLsec_mbox (s : State) (id : LaneId) (x : LaneSec) : (State.setLsec s id x).mbox = s.mbox := by cases id <;> rfl
@[simp] theorem State.setLsec_hilo (s : State) (id : LaneId) (x : LaneSec) : (State.setLsec s id x).hilo = s.hilo := by cases id <;> rfl
@[simp] theorem State.setLsec_gov (s : State) (id : LaneId) (x : LaneSec) : (State.setLsec s id x).gov = s.gov := by cases id <;> rfl
@[simp] theorem State.setLsec_pwr (s : State) (id : LaneId) (x : LaneSec) : (State.setLsec s id x).pwr = s.pwr := by cases id <;> rfl
@[simp] theorem State.setLsec_xopp (s : State) (id : LaneId) (x : LaneSec) : (State.setLsec s id x).xopp = s.xopp := by cases id <;> rfl
@[simp] theorem State.setLsec_hopp (s : State) (id : LaneId) (x : LaneSec) : (State.setLsec s id x).hopp = s.hopp := by cases id <;> rfl
@[simp] theorem State.setLsec_x (s : State) (id : LaneId) (x : LaneSec) : (State.setLsec s id x).x = s.x := by cases id <;> rfl
@[simp] theorem State.setLsec_crvn (s : State) (id : LaneId) (x : LaneSec) : (State.setLsec s id x).crvn = s.crvn := by cases id <;> rfl
@[simp] theorem State.setLsec_herv (s : State) (id : LaneId) (x : LaneSec) : (State.setLsec s id x).herv = s.herv := by cases id <;> rfl
@[simp] theorem State.setLsec_ucie (s : State) (id : LaneId) (x : LaneSec) : (State.setLsec s id x).ucie = s.ucie := by cases id <;> rfl
@[simp] theorem State.setLsec_ptp (s : State) (id : LaneId) (x : LaneSec) : (State.setLsec s id x).ptp = s.ptp := by cases id <;> rfl
@[simp] theorem State.setLsec_eth0 (s : State) (id : LaneId) (x : LaneSec) : (State.setLsec s id x).eth0 = s.eth0 := by cases id <;> rfl
@[simp] theorem State.setLsec_eth1 (s : State) (id : LaneId) (x : LaneSec) : (State.setLsec s id x).eth1 = s.eth1 := by cases id <;> rfl
@[simp] theorem State.setLsec_panS (s : State) (id : LaneId) (x : LaneSec) : (State.setLsec s id x).panS = s.panS := by cases id <;> rfl
@[simp] theorem State.setLsec_panA (s : State) (id : LaneId) (x : LaneSec) : (State.setLsec s id x).panA = s.panA := by cases id <;> rfl
@[simp] theorem State.setLsec_panB (s : State) (id : LaneId) (x : LaneSec) : (State.setLsec s id x).panB = s.panB := by cases id <;> rfl
@[simp] theorem State.setLsec_sec (s : State) (id : LaneId) (x : LaneSec) : (State.setLsec s id x).sec = s.sec := by cases id <;> rfl
@[simp] theorem State.setLsec_fwA (s : State) (id : LaneId) (x : LaneSec) : (State.setLsec s id x).fwA = s.fwA := by cases id <;> rfl
@[simp] theorem State.setLsec_fwB (s : State) (id : LaneId) (x : LaneSec) : (State.setLsec s id x).fwB = s.fwB := by cases id <;> rfl
@[simp] theorem State.setLsec_twin (s : State) (id : LaneId) (x : LaneSec) : (State.setLsec s id x).twin = s.twin := by cases id <;> rfl
@[simp] theorem State.setLsec_chip0 (s : State) (id : LaneId) (x : LaneSec) : (State.setLsec s id x).chip0 = s.chip0 := by cases id <;> rfl
@[simp] theorem State.setLsec_chip1 (s : State) (id : LaneId) (x : LaneSec) : (State.setLsec s id x).chip1 = s.chip1 := by cases id <;> rfl
@[simp] theorem State.setLsec_recv (s : State) (id : LaneId) (x : LaneSec) : (State.setLsec s id x).recv = s.recv := by cases id <;> rfl
@[simp] theorem State.setLsec_laneA (s : State) (id : LaneId) (x : LaneSec) : (State.setLsec s id x).laneA = s.laneA := by cases id <;> rfl
@[simp] theorem State.setLsec_laneB (s : State) (id : LaneId) (x : LaneSec) : (State.setLsec s id x).laneB = s.laneB := by cases id <;> rfl
@[simp] theorem State.setLsec_ingest (s : State) (id : LaneId) (x : LaneSec) : (State.setLsec s id x).ingest = s.ingest := by cases id <;> rfl
@[simp] theorem State.setLsec_fwd (s : State) (id : LaneId) (x : LaneSec) : (State.setLsec s id x).fwd = s.fwd := by cases id <;> rfl
@[simp] theorem State.setLsec_agents (s : State) (id : LaneId) (x : LaneSec) : (State.setLsec s id x).agents = s.agents := by cases id <;> rfl
@[simp] theorem State.setLsec_mrec (s : State) (id : LaneId) (x : LaneSec) : (State.setLsec s id x).mrec = s.mrec := by cases id <;> rfl
@[simp] theorem State.setLsec_inv (s : State) (id : LaneId) (x : LaneSec) : (State.setLsec s id x).inv = s.inv := by cases id <;> rfl
@[simp] theorem State.setLsec_rdData (s : State) (id : LaneId) (x : LaneSec) : (State.setLsec s id x).rdData = s.rdData := by cases id <;> rfl
@[simp] theorem State.setLsec_freeCtr (s : State) (id : LaneId) (x : LaneSec) : (State.setLsec s id x).freeCtr = s.freeCtr := by cases id <;> rfl
@[simp] theorem State.setLsec_pending (s : State) (id : LaneId) (x : LaneSec) : (State.setLsec s id x).pending = s.pending := by cases id <;> rfl
@[simp] theorem State.setFw_time (s : State) (id : LaneId) (x : LaneFw) : (State.setFw s id x).time = s.time := by cases id <;> rfl
@[simp] theorem State.setFw_regs (s : State) (id : LaneId) (x : LaneFw) : (State.setFw s id x).regs = s.regs := by cases id <;> rfl
@[simp] theorem State.setFw_fuses (s : State) (id : LaneId) (x : LaneFw) : (State.setFw s id x).fuses = s.fuses := by cases id <;> rfl
@[simp] theorem State.setFw_blk (s : State) (id : LaneId) (x : LaneFw) : (State.setFw s id x).blk = s.blk := by cases id <;> rfl
@[simp] theorem State.setFw_mbox (s : State) (id : LaneId) (x : LaneFw) : (State.setFw s id x).mbox = s.mbox := by cases id <;> rfl
@[simp] theorem State.setFw_hilo (s : State) (id : LaneId) (x : LaneFw) : (State.setFw s id x).hilo = s.hilo := by cases id <;> rfl
@[simp] theorem State.setFw_gov (s : State) (id : LaneId) (x : LaneFw) : (State.setFw s id x).gov = s.gov := by cases id <;> rfl
@[simp] theorem State.setFw_pwr (s : State) (id : LaneId) (x : LaneFw) : (State.setFw s id x).pwr = s.pwr := by cases id <;> rfl
@[simp] theorem State.setFw_xopp (s : State) (id : LaneId) (x : LaneFw) : (State.setFw s id x).xopp = s.xopp := by cases id <;> rfl
@[simp] theorem State.setFw_hopp (s : State) (id : LaneId) (x : LaneFw) : (State.setFw s id x).hopp = s.hopp := by cases id <;> rfl
@[simp] theorem State.setFw_x (s : State) (id : LaneId) (x : LaneFw) : (State.setFw s id x).x = s.x := by cases id <;> rfl
@[simp] theorem State.setFw_crvn (s : State) (id : LaneId) (x : LaneFw) : (State.setFw s id x).crvn = s.crvn := by cases id <;> rfl
@[simp] theorem State.setFw_herv (s : State) (id : LaneId) (x : LaneFw) : (State.setFw s id x).herv = s.herv := by cases id <;> rfl
@[simp] theorem State.setFw_ucie (s : State) (id : LaneId) (x : LaneFw) : (State.setFw s id x).ucie = s.ucie := by cases id <;> rfl
@[simp] theorem State.setFw_ptp (s : State) (id : LaneId) (x : LaneFw) : (State.setFw s id x).ptp = s.ptp := by cases id <;> rfl
@[simp] theorem State.setFw_eth0 (s : State) (id : LaneId) (x : LaneFw) : (State.setFw s id x).eth0 = s.eth0 := by cases id <;> rfl
@[simp] theorem State.setFw_eth1 (s : State) (id : LaneId) (x : LaneFw) : (State.setFw s id x).eth1 = s.eth1 := by cases id <;> rfl
@[simp] theorem State.setFw_panS (s : State) (id : LaneId) (x : LaneFw) : (State.setFw s id x).panS = s.panS := by cases id <;> rfl
@[simp] theorem State.setFw_panA (s : State) (id : LaneId) (x : LaneFw) : (State.setFw s id x).panA = s.panA := by cases id <;> rfl
@[simp] theorem State.setFw_panB (s : State) (id : LaneId) (x : LaneFw) : (State.setFw s id x).panB = s.panB := by cases id <;> rfl
@[simp] theorem State.setFw_sec (s : State) (id : LaneId) (x : LaneFw) : (State.setFw s id x).sec = s.sec := by cases id <;> rfl
@[simp] theorem State.setFw_lsecA (s : State) (id : LaneId) (x : LaneFw) : (State.setFw s id x).lsecA = s.lsecA := by cases id <;> rfl
@[simp] theorem State.setFw_lsecB (s : State) (id : LaneId) (x : LaneFw) : (State.setFw s id x).lsecB = s.lsecB := by cases id <;> rfl
@[simp] theorem State.setFw_twin (s : State) (id : LaneId) (x : LaneFw) : (State.setFw s id x).twin = s.twin := by cases id <;> rfl
@[simp] theorem State.setFw_chip0 (s : State) (id : LaneId) (x : LaneFw) : (State.setFw s id x).chip0 = s.chip0 := by cases id <;> rfl
@[simp] theorem State.setFw_chip1 (s : State) (id : LaneId) (x : LaneFw) : (State.setFw s id x).chip1 = s.chip1 := by cases id <;> rfl
@[simp] theorem State.setFw_recv (s : State) (id : LaneId) (x : LaneFw) : (State.setFw s id x).recv = s.recv := by cases id <;> rfl
@[simp] theorem State.setFw_laneA (s : State) (id : LaneId) (x : LaneFw) : (State.setFw s id x).laneA = s.laneA := by cases id <;> rfl
@[simp] theorem State.setFw_laneB (s : State) (id : LaneId) (x : LaneFw) : (State.setFw s id x).laneB = s.laneB := by cases id <;> rfl
@[simp] theorem State.setFw_ingest (s : State) (id : LaneId) (x : LaneFw) : (State.setFw s id x).ingest = s.ingest := by cases id <;> rfl
@[simp] theorem State.setFw_fwd (s : State) (id : LaneId) (x : LaneFw) : (State.setFw s id x).fwd = s.fwd := by cases id <;> rfl
@[simp] theorem State.setFw_agents (s : State) (id : LaneId) (x : LaneFw) : (State.setFw s id x).agents = s.agents := by cases id <;> rfl
@[simp] theorem State.setFw_mrec (s : State) (id : LaneId) (x : LaneFw) : (State.setFw s id x).mrec = s.mrec := by cases id <;> rfl
@[simp] theorem State.setFw_inv (s : State) (id : LaneId) (x : LaneFw) : (State.setFw s id x).inv = s.inv := by cases id <;> rfl
@[simp] theorem State.setFw_rdData (s : State) (id : LaneId) (x : LaneFw) : (State.setFw s id x).rdData = s.rdData := by cases id <;> rfl
@[simp] theorem State.setFw_freeCtr (s : State) (id : LaneId) (x : LaneFw) : (State.setFw s id x).freeCtr = s.freeCtr := by cases id <;> rfl
@[simp] theorem State.setFw_pending (s : State) (id : LaneId) (x : LaneFw) : (State.setFw s id x).pending = s.pending := by cases id <;> rfl
@[simp] theorem State.modFw_time (s : State) (id : LaneId) (f : LaneFw → LaneFw) : (State.modFw s id f).time = s.time := by cases id <;> rfl
@[simp] theorem State.modFw_regs (s : State) (id : LaneId) (f : LaneFw → LaneFw) : (State.modFw s id f).regs = s.regs := by cases id <;> rfl
@[simp] theorem State.modFw_fuses (s : State) (id : LaneId) (f : LaneFw → LaneFw) : (State.modFw s id f).fuses = s.fuses := by cases id <;> rfl
@[simp] theorem State.modFw_blk (s : State) (id : LaneId) (f : LaneFw → LaneFw) : (State.modFw s id f).blk = s.blk := by cases id <;> rfl
@[simp] theorem State.modFw_mbox (s : State) (id : LaneId) (f : LaneFw → LaneFw) : (State.modFw s id f).mbox = s.mbox := by cases id <;> rfl
@[simp] theorem State.modFw_hilo (s : State) (id : LaneId) (f : LaneFw → LaneFw) : (State.modFw s id f).hilo = s.hilo := by cases id <;> rfl
@[simp] theorem State.modFw_gov (s : State) (id : LaneId) (f : LaneFw → LaneFw) : (State.modFw s id f).gov = s.gov := by cases id <;> rfl
@[simp] theorem State.modFw_pwr (s : State) (id : LaneId) (f : LaneFw → LaneFw) : (State.modFw s id f).pwr = s.pwr := by cases id <;> rfl
@[simp] theorem State.modFw_xopp (s : State) (id : LaneId) (f : LaneFw → LaneFw) : (State.modFw s id f).xopp = s.xopp := by cases id <;> rfl
@[simp] theorem State.modFw_hopp (s : State) (id : LaneId) (f : LaneFw → LaneFw) : (State.modFw s id f).hopp = s.hopp := by cases id <;> rfl
@[simp] theorem State.modFw_x (s : State) (id : LaneId) (f : LaneFw → LaneFw) : (State.modFw s id f).x = s.x := by cases id <;> rfl
@[simp] theorem State.modFw_crvn (s : State) (id : LaneId) (f : LaneFw → LaneFw) : (State.modFw s id f).crvn = s.crvn := by cases id <;> rfl
@[simp] theorem State.modFw_herv (s : State) (id : LaneId) (f : LaneFw → LaneFw) : (State.modFw s id f).herv = s.herv := by cases id <;> rfl
@[simp] theorem State.modFw_ucie (s : State) (id : LaneId) (f : LaneFw → LaneFw) : (State.modFw s id f).ucie = s.ucie := by cases id <;> rfl
@[simp] theorem State.modFw_ptp (s : State) (id : LaneId) (f : LaneFw → LaneFw) : (State.modFw s id f).ptp = s.ptp := by cases id <;> rfl
@[simp] theorem State.modFw_eth0 (s : State) (id : LaneId) (f : LaneFw → LaneFw) : (State.modFw s id f).eth0 = s.eth0 := by cases id <;> rfl
@[simp] theorem State.modFw_eth1 (s : State) (id : LaneId) (f : LaneFw → LaneFw) : (State.modFw s id f).eth1 = s.eth1 := by cases id <;> rfl
@[simp] theorem State.modFw_panS (s : State) (id : LaneId) (f : LaneFw → LaneFw) : (State.modFw s id f).panS = s.panS := by cases id <;> rfl
@[simp] theorem State.modFw_panA (s : State) (id : LaneId) (f : LaneFw → LaneFw) : (State.modFw s id f).panA = s.panA := by cases id <;> rfl
@[simp] theorem State.modFw_panB (s : State) (id : LaneId) (f : LaneFw → LaneFw) : (State.modFw s id f).panB = s.panB := by cases id <;> rfl
@[simp] theorem State.modFw_sec (s : State) (id : LaneId) (f : LaneFw → LaneFw) : (State.modFw s id f).sec = s.sec := by cases id <;> rfl
@[simp] theorem State.modFw_lsecA (s : State) (id : LaneId) (f : LaneFw → LaneFw) : (State.modFw s id f).lsecA = s.lsecA := by cases id <;> rfl
@[simp] theorem State.modFw_lsecB (s : State) (id : LaneId) (f : LaneFw → LaneFw) : (State.modFw s id f).lsecB = s.lsecB := by cases id <;> rfl
@[simp] theorem State.modFw_twin (s : State) (id : LaneId) (f : LaneFw → LaneFw) : (State.modFw s id f).twin = s.twin := by cases id <;> rfl
@[simp] theorem State.modFw_chip0 (s : State) (id : LaneId) (f : LaneFw → LaneFw) : (State.modFw s id f).chip0 = s.chip0 := by cases id <;> rfl
@[simp] theorem State.modFw_chip1 (s : State) (id : LaneId) (f : LaneFw → LaneFw) : (State.modFw s id f).chip1 = s.chip1 := by cases id <;> rfl
@[simp] theorem State.modFw_recv (s : State) (id : LaneId) (f : LaneFw → LaneFw) : (State.modFw s id f).recv = s.recv := by cases id <;> rfl
@[simp] theorem State.modFw_laneA (s : State) (id : LaneId) (f : LaneFw → LaneFw) : (State.modFw s id f).laneA = s.laneA := by cases id <;> rfl
@[simp] theorem State.modFw_laneB (s : State) (id : LaneId) (f : LaneFw → LaneFw) : (State.modFw s id f).laneB = s.laneB := by cases id <;> rfl
@[simp] theorem State.modFw_ingest (s : State) (id : LaneId) (f : LaneFw → LaneFw) : (State.modFw s id f).ingest = s.ingest := by cases id <;> rfl
@[simp] theorem State.modFw_fwd (s : State) (id : LaneId) (f : LaneFw → LaneFw) : (State.modFw s id f).fwd = s.fwd := by cases id <;> rfl
@[simp] theorem State.modFw_agents (s : State) (id : LaneId) (f : LaneFw → LaneFw) : (State.modFw s id f).agents = s.agents := by cases id <;> rfl
@[simp] theorem State.modFw_mrec (s : State) (id : LaneId) (f : LaneFw → LaneFw) : (State.modFw s id f).mrec = s.mrec := by cases id <;> rfl
@[simp] theorem State.modFw_inv (s : State) (id : LaneId) (f : LaneFw → LaneFw) : (State.modFw s id f).inv = s.inv := by cases id <;> rfl
@[simp] theorem State.modFw_rdData (s : State) (id : LaneId) (f : LaneFw → LaneFw) : (State.modFw s id f).rdData = s.rdData := by cases id <;> rfl
@[simp] theorem State.modFw_freeCtr (s : State) (id : LaneId) (f : LaneFw → LaneFw) : (State.modFw s id f).freeCtr = s.freeCtr := by cases id <;> rfl
@[simp] theorem State.modFw_pending (s : State) (id : LaneId) (f : LaneFw → LaneFw) : (State.modFw s id f).pending = s.pending := by cases id <;> rfl
@[simp] theorem State.setLane_time (s : State) (id : LaneId) (x : Lane) : (State.setLane s id x).time = s.time := by cases id <;> rfl
@[simp] theorem State.setLane_regs (s : State) (id : LaneId) (x : Lane) : (State.setLane s id x).regs = s.regs := by cases id <;> rfl
@[simp] theorem State.setLane_fuses (s : State) (id : LaneId) (x : Lane) : (State.setLane s id x).fuses = s.fuses := by cases id <;> rfl
@[simp] theorem State.setLane_blk (s : State) (id : LaneId) (x : Lane) : (State.setLane s id x).blk = s.blk := by cases id <;> rfl
@[simp] theorem State.setLane_mbox (s : State) (id : LaneId) (x : Lane) : (State.setLane s id x).mbox = s.mbox := by cases id <;> rfl
@[simp] theorem State.setLane_hilo (s : State) (id : LaneId) (x : Lane) : (State.setLane s id x).hilo = s.hilo := by cases id <;> rfl
@[simp] theorem State.setLane_gov (s : State) (id : LaneId) (x : Lane) : (State.setLane s id x).gov = s.gov := by cases id <;> rfl
@[simp] theorem State.setLane_pwr (s : State) (id : LaneId) (x : Lane) : (State.setLane s id x).pwr = s.pwr := by cases id <;> rfl
@[simp] theorem State.setLane_xopp (s : State) (id : LaneId) (x : Lane) : (State.setLane s id x).xopp = s.xopp := by cases id <;> rfl
@[simp] theorem State.setLane_hopp (s : State) (id : LaneId) (x : Lane) : (State.setLane s id x).hopp = s.hopp := by cases id <;> rfl
@[simp] theorem State.setLane_x (s : State) (id : LaneId) (x : Lane) : (State.setLane s id x).x = s.x := by cases id <;> rfl
@[simp] theorem State.setLane_crvn (s : State) (id : LaneId) (x : Lane) : (State.setLane s id x).crvn = s.crvn := by cases id <;> rfl
@[simp] theorem State.setLane_herv (s : State) (id : LaneId) (x : Lane) : (State.setLane s id x).herv = s.herv := by cases id <;> rfl
@[simp] theorem State.setLane_ucie (s : State) (id : LaneId) (x : Lane) : (State.setLane s id x).ucie = s.ucie := by cases id <;> rfl
@[simp] theorem State.setLane_ptp (s : State) (id : LaneId) (x : Lane) : (State.setLane s id x).ptp = s.ptp := by cases id <;> rfl
@[simp] theorem State.setLane_eth0 (s : State) (id : LaneId) (x : Lane) : (State.setLane s id x).eth0 = s.eth0 := by cases id <;> rfl
@[simp] theorem State.setLane_eth1 (s : State) (id : LaneId) (x : Lane) : (State.setLane s id x).eth1 = s.eth1 := by cases id <;> rfl
@[simp] theorem State.setLane_panS (s : State) (id : LaneId) (x : Lane) : (State.setLane s id x).panS = s.panS := by cases id <;> rfl
@[simp] theorem State.setLane_panA (s : State) (id : LaneId) (x : Lane) : (State.setLane s id x).panA = s.panA := by cases id <;> rfl
@[simp] theorem State.setLane_panB (s : State) (id : LaneId) (x : Lane) : (State.setLane s id x).panB = s.panB := by cases id <;> rfl
@[simp] theorem State.setLane_sec (s : State) (id : LaneId) (x : Lane) : (State.setLane s id x).sec = s.sec := by cases id <;> rfl
@[simp] theorem State.setLane_lsecA (s : State) (id : LaneId) (x : Lane) : (State.setLane s id x).lsecA = s.lsecA := by cases id <;> rfl
@[simp] theorem State.setLane_lsecB (s : State) (id : LaneId) (x : Lane) : (State.setLane s id x).lsecB = s.lsecB := by cases id <;> rfl
@[simp] theorem State.setLane_fwA (s : State) (id : LaneId) (x : Lane) : (State.setLane s id x).fwA = s.fwA := by cases id <;> rfl
@[simp] theorem State.setLane_fwB (s : State) (id : LaneId) (x : Lane) : (State.setLane s id x).fwB = s.fwB := by cases id <;> rfl
@[simp] theorem State.setLane_twin (s : State) (id : LaneId) (x : Lane) : (State.setLane s id x).twin = s.twin := by cases id <;> rfl
@[simp] theorem State.setLane_chip0 (s : State) (id : LaneId) (x : Lane) : (State.setLane s id x).chip0 = s.chip0 := by cases id <;> rfl
@[simp] theorem State.setLane_chip1 (s : State) (id : LaneId) (x : Lane) : (State.setLane s id x).chip1 = s.chip1 := by cases id <;> rfl
@[simp] theorem State.setLane_recv (s : State) (id : LaneId) (x : Lane) : (State.setLane s id x).recv = s.recv := by cases id <;> rfl
@[simp] theorem State.setLane_ingest (s : State) (id : LaneId) (x : Lane) : (State.setLane s id x).ingest = s.ingest := by cases id <;> rfl
@[simp] theorem State.setLane_fwd (s : State) (id : LaneId) (x : Lane) : (State.setLane s id x).fwd = s.fwd := by cases id <;> rfl
@[simp] theorem State.setLane_agents (s : State) (id : LaneId) (x : Lane) : (State.setLane s id x).agents = s.agents := by cases id <;> rfl
@[simp] theorem State.setLane_mrec (s : State) (id : LaneId) (x : Lane) : (State.setLane s id x).mrec = s.mrec := by cases id <;> rfl
@[simp] theorem State.setLane_inv (s : State) (id : LaneId) (x : Lane) : (State.setLane s id x).inv = s.inv := by cases id <;> rfl
@[simp] theorem State.setLane_rdData (s : State) (id : LaneId) (x : Lane) : (State.setLane s id x).rdData = s.rdData := by cases id <;> rfl
@[simp] theorem State.setLane_freeCtr (s : State) (id : LaneId) (x : Lane) : (State.setLane s id x).freeCtr = s.freeCtr := by cases id <;> rfl
@[simp] theorem State.setLane_pending (s : State) (id : LaneId) (x : Lane) : (State.setLane s id x).pending = s.pending := by cases id <;> rfl
@[simp] theorem State.modLane_time (s : State) (id : LaneId) (f : Lane → Lane) : (State.modLane s id f).time = s.time := by cases id <;> rfl
@[simp] theorem State.modLane_regs (s : State) (id : LaneId) (f : Lane → Lane) : (State.modLane s id f).regs = s.regs := by cases id <;> rfl
@[simp] theorem State.modLane_fuses (s : State) (id : LaneId) (f : Lane → Lane) : (State.modLane s id f).fuses = s.fuses := by cases id <;> rfl
@[simp] theorem State.modLane_blk (s : State) (id : LaneId) (f : Lane → Lane) : (State.modLane s id f).blk = s.blk := by cases id <;> rfl
@[simp] theorem State.modLane_mbox (s : State) (id : LaneId) (f : Lane → Lane) : (State.modLane s id f).mbox = s.mbox := by cases id <;> rfl
@[simp] theorem State.modLane_hilo (s : State) (id : LaneId) (f : Lane → Lane) : (State.modLane s id f).hilo = s.hilo := by cases id <;> rfl
@[simp] theorem State.modLane_gov (s : State) (id : LaneId) (f : Lane → Lane) : (State.modLane s id f).gov = s.gov := by cases id <;> rfl
@[simp] theorem State.modLane_pwr (s : State) (id : LaneId) (f : Lane → Lane) : (State.modLane s id f).pwr = s.pwr := by cases id <;> rfl
@[simp] theorem State.modLane_xopp (s : State) (id : LaneId) (f : Lane → Lane) : (State.modLane s id f).xopp = s.xopp := by cases id <;> rfl
@[simp] theorem State.modLane_hopp (s : State) (id : LaneId) (f : Lane → Lane) : (State.modLane s id f).hopp = s.hopp := by cases id <;> rfl
@[simp] theorem State.modLane_x (s : State) (id : LaneId) (f : Lane → Lane) : (State.modLane s id f).x = s.x := by cases id <;> rfl
@[simp] theorem State.modLane_crvn (s : State) (id : LaneId) (f : Lane → Lane) : (State.modLane s id f).crvn = s.crvn := by cases id <;> rfl
@[simp] theorem State.modLane_herv (s : State) (id : LaneId) (f : Lane → Lane) : (State.modLane s id f).herv = s.herv := by cases id <;> rfl
@[simp] theorem State.modLane_ucie (s : State) (id : LaneId) (f : Lane → Lane) : (State.modLane s id f).ucie = s.ucie := by cases id <;> rfl
@[simp] theorem State.modLane_ptp (s : State) (id : LaneId) (f : Lane → Lane) : (State.modLane s id f).ptp = s.ptp := by cases id <;> rfl
@[simp] theorem State.modLane_eth0 (s : State) (id : LaneId) (f : Lane → Lane) : (State.modLane s id f).eth0 = s.eth0 := by cases id <;> rfl
@[simp] theorem State.modLane_eth1 (s : State) (id : LaneId) (f : Lane → Lane) : (State.modLane s id f).eth1 = s.eth1 := by cases id <;> rfl
@[simp] theorem State.modLane_panS (s : State) (id : LaneId) (f : Lane → Lane) : (State.modLane s id f).panS = s.panS := by cases id <;> rfl
@[simp] theorem State.modLane_panA (s : State) (id : LaneId) (f : Lane → Lane) : (State.modLane s id f).panA = s.panA := by cases id <;> rfl
@[simp] theorem State.modLane_panB (s : State) (id : LaneId) (f : Lane → Lane) : (State.modLane s id f).panB = s.panB := by cases id <;> rfl
@[simp] theorem State.modLane_sec (s : State) (id : LaneId) (f : Lane → Lane) : (State.modLane s id f).sec = s.sec := by cases id <;> rfl
@[simp] theorem State.modLane_lsecA (s : State) (id : LaneId) (f : Lane → Lane) : (State.modLane s id f).lsecA = s.lsecA := by cases id <;> rfl
@[simp] theorem State.modLane_lsecB (s : State) (id : LaneId) (f : Lane → Lane) : (State.modLane s id f).lsecB = s.lsecB := by cases id <;> rfl
@[simp] theorem State.modLane_fwA (s : State) (id : LaneId) (f : Lane → Lane) : (State.modLane s id f).fwA = s.fwA := by cases id <;> rfl
@[simp] theorem State.modLane_fwB (s : State) (id : LaneId) (f : Lane → Lane) : (State.modLane s id f).fwB = s.fwB := by cases id <;> rfl
@[simp] theorem State.modLane_twin (s : State) (id : LaneId) (f : Lane → Lane) : (State.modLane s id f).twin = s.twin := by cases id <;> rfl
@[simp] theorem State.modLane_chip0 (s : State) (id : LaneId) (f : Lane → Lane) : (State.modLane s id f).chip0 = s.chip0 := by cases id <;> rfl
@[simp] theorem State.modLane_chip1 (s : State) (id : LaneId) (f : Lane → Lane) : (State.modLane s id f).chip1 = s.chip1 := by cases id <;> rfl
@[simp] theorem State.modLane_recv (s : State) (id : LaneId) (f : Lane → Lane) : (State.modLane s id f).recv = s.recv := by cases id <;> rfl
@[simp] theorem State.modLane_ingest (s : State) (id : LaneId) (f : Lane → Lane) : (State.modLane s id f).ingest = s.ingest := by cases id <;> rfl
@[simp] theorem State.modLane_fwd (s : State) (id : LaneId) (f : Lane → Lane) : (State.modLane s id f).fwd = s.fwd := by cases id <;> rfl
@[simp] theorem State.modLane_agents (s : State) (id : LaneId) (f : Lane → Lane) : (State.modLane s id f).agents = s.agents := by cases id <;> rfl
@[simp] theorem State.modLane_mrec (s : State) (id : LaneId) (f : Lane → Lane) : (State.modLane s id f).mrec = s.mrec := by cases id <;> rfl
@[simp] theorem State.modLane_inv (s : State) (id : LaneId) (f : Lane → Lane) : (State.modLane s id f).inv = s.inv := by cases id <;> rfl
@[simp] theorem State.modLane_rdData (s : State) (id : LaneId) (f : Lane → Lane) : (State.modLane s id f).rdData = s.rdData := by cases id <;> rfl
@[simp] theorem State.modLane_freeCtr (s : State) (id : LaneId) (f : Lane → Lane) : (State.modLane s id f).freeCtr = s.freeCtr := by cases id <;> rfl
@[simp] theorem State.modLane_pending (s : State) (id : LaneId) (f : Lane → Lane) : (State.modLane s id f).pending = s.pending := by cases id <;> rfl
@[simp] theorem State.onRows_time (s : State) (f : RowSt → RowSt) : (State.onRows s f).time = s.time := rfl
@[simp] theorem State.onRows_regs (s : State) (f : RowSt → RowSt) : (State.onRows s f).regs = s.regs := rfl
@[simp] theorem State.onRows_fuses (s : State) (f : RowSt → RowSt) : (State.onRows s f).fuses = s.fuses := rfl
@[simp] theorem State.onRows_blk (s : State) (f : RowSt → RowSt) : (State.onRows s f).blk = s.blk := rfl
@[simp] theorem State.onRows_mbox (s : State) (f : RowSt → RowSt) : (State.onRows s f).mbox = s.mbox := rfl
@[simp] theorem State.onRows_hilo (s : State) (f : RowSt → RowSt) : (State.onRows s f).hilo = s.hilo := rfl
@[simp] theorem State.onRows_gov (s : State) (f : RowSt → RowSt) : (State.onRows s f).gov = s.gov := rfl
@[simp] theorem State.onRows_pwr (s : State) (f : RowSt → RowSt) : (State.onRows s f).pwr = s.pwr := rfl
@[simp] theorem State.onRows_xopp (s : State) (f : RowSt → RowSt) : (State.onRows s f).xopp = s.xopp := rfl
@[simp] theorem State.onRows_hopp (s : State) (f : RowSt → RowSt) : (State.onRows s f).hopp = s.hopp := rfl
@[simp] theorem State.onRows_x (s : State) (f : RowSt → RowSt) : (State.onRows s f).x = s.x := rfl
@[simp] theorem State.onRows_crvn (s : State) (f : RowSt → RowSt) : (State.onRows s f).crvn = s.crvn := rfl
@[simp] theorem State.onRows_herv (s : State) (f : RowSt → RowSt) : (State.onRows s f).herv = s.herv := rfl
@[simp] theorem State.onRows_ucie (s : State) (f : RowSt → RowSt) : (State.onRows s f).ucie = s.ucie := rfl
@[simp] theorem State.onRows_ptp (s : State) (f : RowSt → RowSt) : (State.onRows s f).ptp = s.ptp := rfl
@[simp] theorem State.onRows_eth0 (s : State) (f : RowSt → RowSt) : (State.onRows s f).eth0 = s.eth0 := rfl
@[simp] theorem State.onRows_eth1 (s : State) (f : RowSt → RowSt) : (State.onRows s f).eth1 = s.eth1 := rfl
@[simp] theorem State.onRows_panS (s : State) (f : RowSt → RowSt) : (State.onRows s f).panS = s.panS := rfl
@[simp] theorem State.onRows_panA (s : State) (f : RowSt → RowSt) : (State.onRows s f).panA = s.panA := rfl
@[simp] theorem State.onRows_panB (s : State) (f : RowSt → RowSt) : (State.onRows s f).panB = s.panB := rfl
@[simp] theorem State.onRows_sec (s : State) (f : RowSt → RowSt) : (State.onRows s f).sec = s.sec := rfl
@[simp] theorem State.onRows_lsecA (s : State) (f : RowSt → RowSt) : (State.onRows s f).lsecA = s.lsecA := rfl
@[simp] theorem State.onRows_lsecB (s : State) (f : RowSt → RowSt) : (State.onRows s f).lsecB = s.lsecB := rfl
@[simp] theorem State.onRows_fwA (s : State) (f : RowSt → RowSt) : (State.onRows s f).fwA = s.fwA := rfl
@[simp] theorem State.onRows_fwB (s : State) (f : RowSt → RowSt) : (State.onRows s f).fwB = s.fwB := rfl
@[simp] theorem State.onRows_twin (s : State) (f : RowSt → RowSt) : (State.onRows s f).twin = s.twin := rfl
@[simp] theorem State.onRows_chip0 (s : State) (f : RowSt → RowSt) : (State.onRows s f).chip0 = s.chip0 := rfl
@[simp] theorem State.onRows_chip1 (s : State) (f : RowSt → RowSt) : (State.onRows s f).chip1 = s.chip1 := rfl
@[simp] theorem State.onRows_recv (s : State) (f : RowSt → RowSt) : (State.onRows s f).recv = s.recv := rfl
@[simp] theorem State.onRows_ingest (s : State) (f : RowSt → RowSt) : (State.onRows s f).ingest = s.ingest := rfl
@[simp] theorem State.onRows_fwd (s : State) (f : RowSt → RowSt) : (State.onRows s f).fwd = s.fwd := rfl
@[simp] theorem State.onRows_agents (s : State) (f : RowSt → RowSt) : (State.onRows s f).agents = s.agents := rfl
@[simp] theorem State.onRows_mrec (s : State) (f : RowSt → RowSt) : (State.onRows s f).mrec = s.mrec := rfl
@[simp] theorem State.onRows_inv (s : State) (f : RowSt → RowSt) : (State.onRows s f).inv = s.inv := rfl
@[simp] theorem State.onRows_rdData (s : State) (f : RowSt → RowSt) : (State.onRows s f).rdData = s.rdData := rfl
@[simp] theorem State.onRows_freeCtr (s : State) (f : RowSt → RowSt) : (State.onRows s f).freeCtr = s.freeCtr := rfl
@[simp] theorem State.onRows_pending (s : State) (f : RowSt → RowSt) : (State.onRows s f).pending = s.pending := rfl
@[simp] theorem State.onVoting_time (s : State) (f : Lane → Lane) : (State.onVoting s f).time = s.time := rfl
@[simp] theorem State.onVoting_regs (s : State) (f : Lane → Lane) : (State.onVoting s f).regs = s.regs := rfl
@[simp] theorem State.onVoting_fuses (s : State) (f : Lane → Lane) : (State.onVoting s f).fuses = s.fuses := rfl
@[simp] theorem State.onVoting_blk (s : State) (f : Lane → Lane) : (State.onVoting s f).blk = s.blk := rfl
@[simp] theorem State.onVoting_mbox (s : State) (f : Lane → Lane) : (State.onVoting s f).mbox = s.mbox := rfl
@[simp] theorem State.onVoting_hilo (s : State) (f : Lane → Lane) : (State.onVoting s f).hilo = s.hilo := rfl
@[simp] theorem State.onVoting_gov (s : State) (f : Lane → Lane) : (State.onVoting s f).gov = s.gov := rfl
@[simp] theorem State.onVoting_pwr (s : State) (f : Lane → Lane) : (State.onVoting s f).pwr = s.pwr := rfl
@[simp] theorem State.onVoting_xopp (s : State) (f : Lane → Lane) : (State.onVoting s f).xopp = s.xopp := rfl
@[simp] theorem State.onVoting_hopp (s : State) (f : Lane → Lane) : (State.onVoting s f).hopp = s.hopp := rfl
@[simp] theorem State.onVoting_x (s : State) (f : Lane → Lane) : (State.onVoting s f).x = s.x := rfl
@[simp] theorem State.onVoting_crvn (s : State) (f : Lane → Lane) : (State.onVoting s f).crvn = s.crvn := rfl
@[simp] theorem State.onVoting_herv (s : State) (f : Lane → Lane) : (State.onVoting s f).herv = s.herv := rfl
@[simp] theorem State.onVoting_ucie (s : State) (f : Lane → Lane) : (State.onVoting s f).ucie = s.ucie := rfl
@[simp] theorem State.onVoting_ptp (s : State) (f : Lane → Lane) : (State.onVoting s f).ptp = s.ptp := rfl
@[simp] theorem State.onVoting_eth0 (s : State) (f : Lane → Lane) : (State.onVoting s f).eth0 = s.eth0 := rfl
@[simp] theorem State.onVoting_eth1 (s : State) (f : Lane → Lane) : (State.onVoting s f).eth1 = s.eth1 := rfl
@[simp] theorem State.onVoting_panS (s : State) (f : Lane → Lane) : (State.onVoting s f).panS = s.panS := rfl
@[simp] theorem State.onVoting_panA (s : State) (f : Lane → Lane) : (State.onVoting s f).panA = s.panA := rfl
@[simp] theorem State.onVoting_panB (s : State) (f : Lane → Lane) : (State.onVoting s f).panB = s.panB := rfl
@[simp] theorem State.onVoting_sec (s : State) (f : Lane → Lane) : (State.onVoting s f).sec = s.sec := rfl
@[simp] theorem State.onVoting_lsecA (s : State) (f : Lane → Lane) : (State.onVoting s f).lsecA = s.lsecA := rfl
@[simp] theorem State.onVoting_lsecB (s : State) (f : Lane → Lane) : (State.onVoting s f).lsecB = s.lsecB := rfl
@[simp] theorem State.onVoting_fwA (s : State) (f : Lane → Lane) : (State.onVoting s f).fwA = s.fwA := rfl
@[simp] theorem State.onVoting_fwB (s : State) (f : Lane → Lane) : (State.onVoting s f).fwB = s.fwB := rfl
@[simp] theorem State.onVoting_twin (s : State) (f : Lane → Lane) : (State.onVoting s f).twin = s.twin := rfl
@[simp] theorem State.onVoting_chip0 (s : State) (f : Lane → Lane) : (State.onVoting s f).chip0 = s.chip0 := rfl
@[simp] theorem State.onVoting_chip1 (s : State) (f : Lane → Lane) : (State.onVoting s f).chip1 = s.chip1 := rfl
@[simp] theorem State.onVoting_recv (s : State) (f : Lane → Lane) : (State.onVoting s f).recv = s.recv := rfl
@[simp] theorem State.onVoting_ingest (s : State) (f : Lane → Lane) : (State.onVoting s f).ingest = s.ingest := rfl
@[simp] theorem State.onVoting_fwd (s : State) (f : Lane → Lane) : (State.onVoting s f).fwd = s.fwd := rfl
@[simp] theorem State.onVoting_agents (s : State) (f : Lane → Lane) : (State.onVoting s f).agents = s.agents := rfl
@[simp] theorem State.onVoting_mrec (s : State) (f : Lane → Lane) : (State.onVoting s f).mrec = s.mrec := rfl
@[simp] theorem State.onVoting_inv (s : State) (f : Lane → Lane) : (State.onVoting s f).inv = s.inv := rfl
@[simp] theorem State.onVoting_rdData (s : State) (f : Lane → Lane) : (State.onVoting s f).rdData = s.rdData := rfl
@[simp] theorem State.onVoting_freeCtr (s : State) (f : Lane → Lane) : (State.onVoting s f).freeCtr = s.freeCtr := rfl
@[simp] theorem State.onVoting_pending (s : State) (f : Lane → Lane) : (State.onVoting s f).pending = s.pending := rfl
@[simp] theorem State.flush_time (s : State) : (State.flush s).time = s.time := rfl
@[simp] theorem State.flush_fuses (s : State) : (State.flush s).fuses = s.fuses := rfl
@[simp] theorem State.flush_blk (s : State) : (State.flush s).blk = s.blk := rfl
@[simp] theorem State.flush_mbox (s : State) : (State.flush s).mbox = s.mbox := rfl
@[simp] theorem State.flush_hilo (s : State) : (State.flush s).hilo = s.hilo := rfl
@[simp] theorem State.flush_gov (s : State) : (State.flush s).gov = s.gov := rfl
@[simp] theorem State.flush_pwr (s : State) : (State.flush s).pwr = s.pwr := rfl
@[simp] theorem State.flush_xopp (s : State) : (State.flush s).xopp = s.xopp := rfl
@[simp] theorem State.flush_hopp (s : State) : (State.flush s).hopp = s.hopp := rfl
@[simp] theorem State.flush_x (s : State) : (State.flush s).x = s.x := rfl
@[simp] theorem State.flush_crvn (s : State) : (State.flush s).crvn = s.crvn := rfl
@[simp] theorem State.flush_herv (s : State) : (State.flush s).herv = s.herv := rfl
@[simp] theorem State.flush_ucie (s : State) : (State.flush s).ucie = s.ucie := rfl
@[simp] theorem State.flush_ptp (s : State) : (State.flush s).ptp = s.ptp := rfl
@[simp] theorem State.flush_eth0 (s : State) : (State.flush s).eth0 = s.eth0 := rfl
@[simp] theorem State.flush_eth1 (s : State) : (State.flush s).eth1 = s.eth1 := rfl
@[simp] theorem State.flush_panS (s : State) : (State.flush s).panS = s.panS := rfl
@[simp] theorem State.flush_panA (s : State) : (State.flush s).panA = s.panA := rfl
@[simp] theorem State.flush_panB (s : State) : (State.flush s).panB = s.panB := rfl
@[simp] theorem State.flush_sec (s : State) : (State.flush s).sec = s.sec := rfl
@[simp] theorem State.flush_lsecA (s : State) : (State.flush s).lsecA = s.lsecA := rfl
@[simp] theorem State.flush_lsecB (s : State) : (State.flush s).lsecB = s.lsecB := rfl
@[simp] theorem State.flush_fwA (s : State) : (State.flush s).fwA = s.fwA := rfl
@[simp] theorem State.flush_fwB (s : State) : (State.flush s).fwB = s.fwB := rfl
@[simp] theorem State.flush_twin (s : State) : (State.flush s).twin = s.twin := rfl
@[simp] theorem State.flush_chip0 (s : State) : (State.flush s).chip0 = s.chip0 := rfl
@[simp] theorem State.flush_chip1 (s : State) : (State.flush s).chip1 = s.chip1 := rfl
@[simp] theorem State.flush_recv (s : State) : (State.flush s).recv = s.recv := rfl
@[simp] theorem State.flush_ingest (s : State) : (State.flush s).ingest = s.ingest := rfl
@[simp] theorem State.flush_fwd (s : State) : (State.flush s).fwd = s.fwd := rfl
@[simp] theorem State.flush_agents (s : State) : (State.flush s).agents = s.agents := rfl
@[simp] theorem State.flush_mrec (s : State) : (State.flush s).mrec = s.mrec := rfl
@[simp] theorem State.flush_inv (s : State) : (State.flush s).inv = s.inv := rfl
@[simp] theorem State.flush_rdData (s : State) : (State.flush s).rdData = s.rdData := rfl
@[simp] theorem State.flush_freeCtr (s : State) : (State.flush s).freeCtr = s.freeCtr := rfl
@[simp] theorem State.flush_pending (s : State) : (State.flush s).pending = s.pending := rfl
@[simp] theorem State.laneWrite_time (s : State) (p : Nat) (n : Bool) (f : Lane → Lane) : (State.laneWrite s p n f).time = s.time := by unfold State.laneWrite; split <;> rfl
@[simp] theorem State.laneWrite_fuses (s : State) (p : Nat) (n : Bool) (f : Lane → Lane) : (State.laneWrite s p n f).fuses = s.fuses := by unfold State.laneWrite; split <;> rfl
@[simp] theorem State.laneWrite_blk (s : State) (p : Nat) (n : Bool) (f : Lane → Lane) : (State.laneWrite s p n f).blk = s.blk := by unfold State.laneWrite; split <;> rfl
@[simp] theorem State.laneWrite_mbox (s : State) (p : Nat) (n : Bool) (f : Lane → Lane) : (State.laneWrite s p n f).mbox = s.mbox := by unfold State.laneWrite; split <;> rfl
@[simp] theorem State.laneWrite_hilo (s : State) (p : Nat) (n : Bool) (f : Lane → Lane) : (State.laneWrite s p n f).hilo = s.hilo := by unfold State.laneWrite; split <;> rfl
@[simp] theorem State.laneWrite_gov (s : State) (p : Nat) (n : Bool) (f : Lane → Lane) : (State.laneWrite s p n f).gov = s.gov := by unfold State.laneWrite; split <;> rfl
@[simp] theorem State.laneWrite_pwr (s : State) (p : Nat) (n : Bool) (f : Lane → Lane) : (State.laneWrite s p n f).pwr = s.pwr := by unfold State.laneWrite; split <;> rfl
@[simp] theorem State.laneWrite_xopp (s : State) (p : Nat) (n : Bool) (f : Lane → Lane) : (State.laneWrite s p n f).xopp = s.xopp := by unfold State.laneWrite; split <;> rfl
@[simp] theorem State.laneWrite_hopp (s : State) (p : Nat) (n : Bool) (f : Lane → Lane) : (State.laneWrite s p n f).hopp = s.hopp := by unfold State.laneWrite; split <;> rfl
@[simp] theorem State.laneWrite_x (s : State) (p : Nat) (n : Bool) (f : Lane → Lane) : (State.laneWrite s p n f).x = s.x := by unfold State.laneWrite; split <;> rfl
@[simp] theorem State.laneWrite_crvn (s : State) (p : Nat) (n : Bool) (f : Lane → Lane) : (State.laneWrite s p n f).crvn = s.crvn := by unfold State.laneWrite; split <;> rfl
@[simp] theorem State.laneWrite_herv (s : State) (p : Nat) (n : Bool) (f : Lane → Lane) : (State.laneWrite s p n f).herv = s.herv := by unfold State.laneWrite; split <;> rfl
@[simp] theorem State.laneWrite_ucie (s : State) (p : Nat) (n : Bool) (f : Lane → Lane) : (State.laneWrite s p n f).ucie = s.ucie := by unfold State.laneWrite; split <;> rfl
@[simp] theorem State.laneWrite_ptp (s : State) (p : Nat) (n : Bool) (f : Lane → Lane) : (State.laneWrite s p n f).ptp = s.ptp := by unfold State.laneWrite; split <;> rfl
@[simp] theorem State.laneWrite_eth0 (s : State) (p : Nat) (n : Bool) (f : Lane → Lane) : (State.laneWrite s p n f).eth0 = s.eth0 := by unfold State.laneWrite; split <;> rfl
@[simp] theorem State.laneWrite_eth1 (s : State) (p : Nat) (n : Bool) (f : Lane → Lane) : (State.laneWrite s p n f).eth1 = s.eth1 := by unfold State.laneWrite; split <;> rfl
@[simp] theorem State.laneWrite_panS (s : State) (p : Nat) (n : Bool) (f : Lane → Lane) : (State.laneWrite s p n f).panS = s.panS := by unfold State.laneWrite; split <;> rfl
@[simp] theorem State.laneWrite_panA (s : State) (p : Nat) (n : Bool) (f : Lane → Lane) : (State.laneWrite s p n f).panA = s.panA := by unfold State.laneWrite; split <;> rfl
@[simp] theorem State.laneWrite_panB (s : State) (p : Nat) (n : Bool) (f : Lane → Lane) : (State.laneWrite s p n f).panB = s.panB := by unfold State.laneWrite; split <;> rfl
@[simp] theorem State.laneWrite_sec (s : State) (p : Nat) (n : Bool) (f : Lane → Lane) : (State.laneWrite s p n f).sec = s.sec := by unfold State.laneWrite; split <;> rfl
@[simp] theorem State.laneWrite_lsecA (s : State) (p : Nat) (n : Bool) (f : Lane → Lane) : (State.laneWrite s p n f).lsecA = s.lsecA := by unfold State.laneWrite; split <;> rfl
@[simp] theorem State.laneWrite_lsecB (s : State) (p : Nat) (n : Bool) (f : Lane → Lane) : (State.laneWrite s p n f).lsecB = s.lsecB := by unfold State.laneWrite; split <;> rfl
@[simp] theorem State.laneWrite_fwA (s : State) (p : Nat) (n : Bool) (f : Lane → Lane) : (State.laneWrite s p n f).fwA = s.fwA := by unfold State.laneWrite; split <;> rfl
@[simp] theorem State.laneWrite_fwB (s : State) (p : Nat) (n : Bool) (f : Lane → Lane) : (State.laneWrite s p n f).fwB = s.fwB := by unfold State.laneWrite; split <;> rfl
@[simp] theorem State.laneWrite_twin (s : State) (p : Nat) (n : Bool) (f : Lane → Lane) : (State.laneWrite s p n f).twin = s.twin := by unfold State.laneWrite; split <;> rfl
@[simp] theorem State.laneWrite_chip0 (s : State) (p : Nat) (n : Bool) (f : Lane → Lane) : (State.laneWrite s p n f).chip0 = s.chip0 := by unfold State.laneWrite; split <;> rfl
@[simp] theorem State.laneWrite_chip1 (s : State) (p : Nat) (n : Bool) (f : Lane → Lane) : (State.laneWrite s p n f).chip1 = s.chip1 := by unfold State.laneWrite; split <;> rfl
@[simp] theorem State.laneWrite_recv (s : State) (p : Nat) (n : Bool) (f : Lane → Lane) : (State.laneWrite s p n f).recv = s.recv := by unfold State.laneWrite; split <;> rfl
@[simp] theorem State.laneWrite_ingest (s : State) (p : Nat) (n : Bool) (f : Lane → Lane) : (State.laneWrite s p n f).ingest = s.ingest := by unfold State.laneWrite; split <;> rfl
@[simp] theorem State.laneWrite_fwd (s : State) (p : Nat) (n : Bool) (f : Lane → Lane) : (State.laneWrite s p n f).fwd = s.fwd := by unfold State.laneWrite; split <;> rfl
@[simp] theorem State.laneWrite_agents (s : State) (p : Nat) (n : Bool) (f : Lane → Lane) : (State.laneWrite s p n f).agents = s.agents := by unfold State.laneWrite; split <;> rfl
@[simp] theorem State.laneWrite_mrec (s : State) (p : Nat) (n : Bool) (f : Lane → Lane) : (State.laneWrite s p n f).mrec = s.mrec := by unfold State.laneWrite; split <;> rfl
@[simp] theorem State.laneWrite_inv (s : State) (p : Nat) (n : Bool) (f : Lane → Lane) : (State.laneWrite s p n f).inv = s.inv := by unfold State.laneWrite; split <;> rfl
@[simp] theorem State.laneWrite_rdData (s : State) (p : Nat) (n : Bool) (f : Lane → Lane) : (State.laneWrite s p n f).rdData = s.rdData := by unfold State.laneWrite; split <;> rfl
@[simp] theorem State.laneWrite_freeCtr (s : State) (p : Nat) (n : Bool) (f : Lane → Lane) : (State.laneWrite s p n f).freeCtr = s.freeCtr := by unfold State.laneWrite; split <;> rfl
@[simp] theorem State.laneWrite_pending (s : State) (p : Nat) (n : Bool) (f : Lane → Lane) : (State.laneWrite s p n f).pending = s.pending := by unfold State.laneWrite; split <;> rfl
@[simp] theorem invCycle_time (k : Nat) (s : State) : (invCycle k s).time = s.time := rfl
@[simp] theorem invCycle_regs (k : Nat) (s : State) : (invCycle k s).regs = s.regs := rfl
@[simp] theorem invCycle_fuses (k : Nat) (s : State) : (invCycle k s).fuses = s.fuses := rfl
@[simp] theorem invCycle_blk (k : Nat) (s : State) : (invCycle k s).blk = s.blk := rfl
@[simp] theorem invCycle_mbox (k : Nat) (s : State) : (invCycle k s).mbox = s.mbox := rfl
@[simp] theorem invCycle_hilo (k : Nat) (s : State) : (invCycle k s).hilo = s.hilo := rfl
@[simp] theorem invCycle_gov (k : Nat) (s : State) : (invCycle k s).gov = s.gov := rfl
@[simp] theorem invCycle_pwr (k : Nat) (s : State) : (invCycle k s).pwr = s.pwr := rfl
@[simp] theorem invCycle_xopp (k : Nat) (s : State) : (invCycle k s).xopp = s.xopp := rfl
@[simp] theorem invCycle_hopp (k : Nat) (s : State) : (invCycle k s).hopp = s.hopp := rfl
@[simp] theorem invCycle_x (k : Nat) (s : State) : (invCycle k s).x = s.x := rfl
@[simp] theorem invCycle_crvn (k : Nat) (s : State) : (invCycle k s).crvn = s.crvn := rfl
@[simp] theorem invCycle_herv (k : Nat) (s : State) : (invCycle k s).herv = s.herv := rfl
@[simp] theorem invCycle_ucie (k : Nat) (s : State) : (invCycle k s).ucie = s.ucie := rfl
@[simp] theorem invCycle_ptp (k : Nat) (s : State) : (invCycle k s).ptp = s.ptp := rfl
@[simp] theorem invCycle_eth0 (k : Nat) (s : State) : (invCycle k s).eth0 = s.eth0 := rfl
@[simp] theorem invCycle_eth1 (k : Nat) (s : State) : (invCycle k s).eth1 = s.eth1 := rfl
@[simp] theorem invCycle_panS (k : Nat) (s : State) : (invCycle k s).panS = s.panS := rfl
@[simp] theorem invCycle_panA (k : Nat) (s : State) : (invCycle k s).panA = s.panA := rfl
@[simp] theorem invCycle_panB (k : Nat) (s : State) : (invCycle k s).panB = s.panB := rfl
@[simp] theorem invCycle_sec (k : Nat) (s : State) : (invCycle k s).sec = s.sec := rfl
@[simp] theorem invCycle_lsecA (k : Nat) (s : State) : (invCycle k s).lsecA = s.lsecA := rfl
@[simp] theorem invCycle_lsecB (k : Nat) (s : State) : (invCycle k s).lsecB = s.lsecB := rfl
@[simp] theorem invCycle_fwA (k : Nat) (s : State) : (invCycle k s).fwA = s.fwA := rfl
@[simp] theorem invCycle_fwB (k : Nat) (s : State) : (invCycle k s).fwB = s.fwB := rfl
@[simp] theorem invCycle_twin (k : Nat) (s : State) : (invCycle k s).twin = s.twin := rfl
@[simp] theorem invCycle_chip0 (k : Nat) (s : State) : (invCycle k s).chip0 = s.chip0 := rfl
@[simp] theorem invCycle_chip1 (k : Nat) (s : State) : (invCycle k s).chip1 = s.chip1 := rfl
@[simp] theorem invCycle_recv (k : Nat) (s : State) : (invCycle k s).recv = s.recv := rfl
@[simp] theorem invCycle_laneA (k : Nat) (s : State) : (invCycle k s).laneA = s.laneA := rfl
@[simp] theorem invCycle_laneB (k : Nat) (s : State) : (invCycle k s).laneB = s.laneB := rfl
@[simp] theorem invCycle_ingest (k : Nat) (s : State) : (invCycle k s).ingest = s.ingest := rfl
@[simp] theorem invCycle_fwd (k : Nat) (s : State) : (invCycle k s).fwd = s.fwd := rfl
@[simp] theorem invCycle_agents (k : Nat) (s : State) : (invCycle k s).agents = s.agents := rfl
@[simp] theorem invCycle_mrec (k : Nat) (s : State) : (invCycle k s).mrec = s.mrec := rfl
@[simp] theorem invCycle_rdData (k : Nat) (s : State) : (invCycle k s).rdData = s.rdData := rfl
@[simp] theorem invCycle_freeCtr (k : Nat) (s : State) : (invCycle k s).freeCtr = s.freeCtr := rfl
@[simp] theorem invCycle_pending (k : Nat) (s : State) : (invCycle k s).pending = s.pending := rfl
@[simp] theorem mainTake_time (o : Occ) (s : State) : (mainTake o s).time = s.time := by unfold mainTake; dsimp only; split <;> rfl
@[simp] theorem mainTake_fuses (o : Occ) (s : State) : (mainTake o s).fuses = s.fuses := by unfold mainTake; dsimp only; split <;> rfl
@[simp] theorem mainTake_blk (o : Occ) (s : State) : (mainTake o s).blk = s.blk := by unfold mainTake; dsimp only; split <;> rfl
@[simp] theorem mainTake_mbox (o : Occ) (s : State) : (mainTake o s).mbox = s.mbox := by unfold mainTake; dsimp only; split <;> rfl
@[simp] theorem mainTake_hilo (o : Occ) (s : State) : (mainTake o s).hilo = s.hilo := by unfold mainTake; dsimp only; split <;> rfl
@[simp] theorem mainTake_gov (o : Occ) (s : State) : (mainTake o s).gov = s.gov := by unfold mainTake; dsimp only; split <;> rfl
@[simp] theorem mainTake_pwr (o : Occ) (s : State) : (mainTake o s).pwr = s.pwr := by unfold mainTake; dsimp only; split <;> rfl
@[simp] theorem mainTake_xopp (o : Occ) (s : State) : (mainTake o s).xopp = s.xopp := by unfold mainTake; dsimp only; split <;> rfl
@[simp] theorem mainTake_hopp (o : Occ) (s : State) : (mainTake o s).hopp = s.hopp := by unfold mainTake; dsimp only; split <;> rfl
@[simp] theorem mainTake_x (o : Occ) (s : State) : (mainTake o s).x = s.x := by unfold mainTake; dsimp only; split <;> rfl
@[simp] theorem mainTake_crvn (o : Occ) (s : State) : (mainTake o s).crvn = s.crvn := by unfold mainTake; dsimp only; split <;> rfl
@[simp] theorem mainTake_herv (o : Occ) (s : State) : (mainTake o s).herv = s.herv := by unfold mainTake; dsimp only; split <;> rfl
@[simp] theorem mainTake_ucie (o : Occ) (s : State) : (mainTake o s).ucie = s.ucie := by unfold mainTake; dsimp only; split <;> rfl
@[simp] theorem mainTake_ptp (o : Occ) (s : State) : (mainTake o s).ptp = s.ptp := by unfold mainTake; dsimp only; split <;> rfl
@[simp] theorem mainTake_eth0 (o : Occ) (s : State) : (mainTake o s).eth0 = s.eth0 := by unfold mainTake; dsimp only; split <;> rfl
@[simp] theorem mainTake_eth1 (o : Occ) (s : State) : (mainTake o s).eth1 = s.eth1 := by unfold mainTake; dsimp only; split <;> rfl
@[simp] theorem mainTake_panS (o : Occ) (s : State) : (mainTake o s).panS = s.panS := by unfold mainTake; dsimp only; split <;> rfl
@[simp] theorem mainTake_panA (o : Occ) (s : State) : (mainTake o s).panA = s.panA := by unfold mainTake; dsimp only; split <;> rfl
@[simp] theorem mainTake_panB (o : Occ) (s : State) : (mainTake o s).panB = s.panB := by unfold mainTake; dsimp only; split <;> rfl
@[simp] theorem mainTake_sec (o : Occ) (s : State) : (mainTake o s).sec = s.sec := by unfold mainTake; dsimp only; split <;> rfl
@[simp] theorem mainTake_lsecA (o : Occ) (s : State) : (mainTake o s).lsecA = s.lsecA := by unfold mainTake; dsimp only; split <;> rfl
@[simp] theorem mainTake_lsecB (o : Occ) (s : State) : (mainTake o s).lsecB = s.lsecB := by unfold mainTake; dsimp only; split <;> rfl
@[simp] theorem mainTake_fwA (o : Occ) (s : State) : (mainTake o s).fwA = s.fwA := by unfold mainTake; dsimp only; split <;> rfl
@[simp] theorem mainTake_fwB (o : Occ) (s : State) : (mainTake o s).fwB = s.fwB := by unfold mainTake; dsimp only; split <;> rfl
@[simp] theorem mainTake_twin (o : Occ) (s : State) : (mainTake o s).twin = s.twin := by unfold mainTake; dsimp only; split <;> rfl
@[simp] theorem mainTake_chip0 (o : Occ) (s : State) : (mainTake o s).chip0 = s.chip0 := by unfold mainTake; dsimp only; split <;> rfl
@[simp] theorem mainTake_chip1 (o : Occ) (s : State) : (mainTake o s).chip1 = s.chip1 := by unfold mainTake; dsimp only; split <;> rfl
@[simp] theorem mainTake_recv (o : Occ) (s : State) : (mainTake o s).recv = s.recv := by unfold mainTake; dsimp only; split <;> rfl
@[simp] theorem mainTake_laneA (o : Occ) (s : State) : (mainTake o s).laneA = s.laneA := by unfold mainTake; dsimp only; split <;> rfl
@[simp] theorem mainTake_laneB (o : Occ) (s : State) : (mainTake o s).laneB = s.laneB := by unfold mainTake; dsimp only; split <;> rfl
@[simp] theorem mainTake_ingest (o : Occ) (s : State) : (mainTake o s).ingest = s.ingest := by unfold mainTake; dsimp only; split <;> rfl
@[simp] theorem mainTake_fwd (o : Occ) (s : State) : (mainTake o s).fwd = s.fwd := by unfold mainTake; dsimp only; split <;> rfl
@[simp] theorem mainTake_agents (o : Occ) (s : State) : (mainTake o s).agents = s.agents := by unfold mainTake; dsimp only; split <;> rfl
@[simp] theorem mainTake_inv (o : Occ) (s : State) : (mainTake o s).inv = s.inv := by unfold mainTake; dsimp only; split <;> rfl
@[simp] theorem mainTake_rdData (o : Occ) (s : State) : (mainTake o s).rdData = s.rdData := by unfold mainTake; dsimp only; split <;> rfl
@[simp] theorem mainTake_freeCtr (o : Occ) (s : State) : (mainTake o s).freeCtr = s.freeCtr := by unfold mainTake; dsimp only; split <;> rfl
@[simp] theorem mainTake_pending (o : Occ) (s : State) : (mainTake o s).pending = s.pending := by unfold mainTake; dsimp only; split <;> rfl
@[simp] theorem State.occ_time (s : State) (o : Occ) : (State.occ s o).time = s.time := occ_keeps (fun s => s.time) (fun _ _ _ => rfl) s o
@[simp] theorem State.occ_fuses (s : State) (o : Occ) : (State.occ s o).fuses = s.fuses := occ_keeps (fun s => s.fuses) (fun _ _ _ => rfl) s o
@[simp] theorem State.occ_blk (s : State) (o : Occ) : (State.occ s o).blk = s.blk := occ_keeps (fun s => s.blk) (fun _ _ _ => rfl) s o
@[simp] theorem State.occ_mbox (s : State) (o : Occ) : (State.occ s o).mbox = s.mbox := occ_keeps (fun s => s.mbox) (fun _ _ _ => rfl) s o
@[simp] theorem State.occ_hilo (s : State) (o : Occ) : (State.occ s o).hilo = s.hilo := occ_keeps (fun s => s.hilo) (fun _ _ _ => rfl) s o
@[simp] theorem State.occ_gov (s : State) (o : Occ) : (State.occ s o).gov = s.gov := occ_keeps (fun s => s.gov) (fun _ _ _ => rfl) s o
@[simp] theorem State.occ_pwr (s : State) (o : Occ) : (State.occ s o).pwr = s.pwr := occ_keeps (fun s => s.pwr) (fun _ _ _ => rfl) s o
@[simp] theorem State.occ_xopp (s : State) (o : Occ) : (State.occ s o).xopp = s.xopp := occ_keeps (fun s => s.xopp) (fun _ _ _ => rfl) s o
@[simp] theorem State.occ_hopp (s : State) (o : Occ) : (State.occ s o).hopp = s.hopp := occ_keeps (fun s => s.hopp) (fun _ _ _ => rfl) s o
@[simp] theorem State.occ_x (s : State) (o : Occ) : (State.occ s o).x = s.x := occ_keeps (fun s => s.x) (fun _ _ _ => rfl) s o
@[simp] theorem State.occ_crvn (s : State) (o : Occ) : (State.occ s o).crvn = s.crvn := occ_keeps (fun s => s.crvn) (fun _ _ _ => rfl) s o
@[simp] theorem State.occ_herv (s : State) (o : Occ) : (State.occ s o).herv = s.herv := occ_keeps (fun s => s.herv) (fun _ _ _ => rfl) s o
@[simp] theorem State.occ_ucie (s : State) (o : Occ) : (State.occ s o).ucie = s.ucie := occ_keeps (fun s => s.ucie) (fun _ _ _ => rfl) s o
@[simp] theorem State.occ_ptp (s : State) (o : Occ) : (State.occ s o).ptp = s.ptp := occ_keeps (fun s => s.ptp) (fun _ _ _ => rfl) s o
@[simp] theorem State.occ_eth0 (s : State) (o : Occ) : (State.occ s o).eth0 = s.eth0 := occ_keeps (fun s => s.eth0) (fun _ _ _ => rfl) s o
@[simp] theorem State.occ_eth1 (s : State) (o : Occ) : (State.occ s o).eth1 = s.eth1 := occ_keeps (fun s => s.eth1) (fun _ _ _ => rfl) s o
@[simp] theorem State.occ_panS (s : State) (o : Occ) : (State.occ s o).panS = s.panS := occ_keeps (fun s => s.panS) (fun _ _ _ => rfl) s o
@[simp] theorem State.occ_panA (s : State) (o : Occ) : (State.occ s o).panA = s.panA := occ_keeps (fun s => s.panA) (fun _ _ _ => rfl) s o
@[simp] theorem State.occ_panB (s : State) (o : Occ) : (State.occ s o).panB = s.panB := occ_keeps (fun s => s.panB) (fun _ _ _ => rfl) s o
@[simp] theorem State.occ_sec (s : State) (o : Occ) : (State.occ s o).sec = s.sec := occ_keeps (fun s => s.sec) (fun _ _ _ => rfl) s o
@[simp] theorem State.occ_lsecA (s : State) (o : Occ) : (State.occ s o).lsecA = s.lsecA := occ_keeps (fun s => s.lsecA) (fun _ _ _ => rfl) s o
@[simp] theorem State.occ_lsecB (s : State) (o : Occ) : (State.occ s o).lsecB = s.lsecB := occ_keeps (fun s => s.lsecB) (fun _ _ _ => rfl) s o
@[simp] theorem State.occ_fwA (s : State) (o : Occ) : (State.occ s o).fwA = s.fwA := occ_keeps (fun s => s.fwA) (fun _ _ _ => rfl) s o
@[simp] theorem State.occ_fwB (s : State) (o : Occ) : (State.occ s o).fwB = s.fwB := occ_keeps (fun s => s.fwB) (fun _ _ _ => rfl) s o
@[simp] theorem State.occ_twin (s : State) (o : Occ) : (State.occ s o).twin = s.twin := occ_keeps (fun s => s.twin) (fun _ _ _ => rfl) s o
@[simp] theorem State.occ_chip0 (s : State) (o : Occ) : (State.occ s o).chip0 = s.chip0 := occ_keeps (fun s => s.chip0) (fun _ _ _ => rfl) s o
@[simp] theorem State.occ_chip1 (s : State) (o : Occ) : (State.occ s o).chip1 = s.chip1 := occ_keeps (fun s => s.chip1) (fun _ _ _ => rfl) s o
@[simp] theorem State.occ_recv (s : State) (o : Occ) : (State.occ s o).recv = s.recv := occ_keeps (fun s => s.recv) (fun _ _ _ => rfl) s o
@[simp] theorem State.occ_laneA (s : State) (o : Occ) : (State.occ s o).laneA = s.laneA := occ_keeps (fun s => s.laneA) (fun _ _ _ => rfl) s o
@[simp] theorem State.occ_laneB (s : State) (o : Occ) : (State.occ s o).laneB = s.laneB := occ_keeps (fun s => s.laneB) (fun _ _ _ => rfl) s o
@[simp] theorem State.occ_ingest (s : State) (o : Occ) : (State.occ s o).ingest = s.ingest := occ_keeps (fun s => s.ingest) (fun _ _ _ => rfl) s o
@[simp] theorem State.occ_fwd (s : State) (o : Occ) : (State.occ s o).fwd = s.fwd := occ_keeps (fun s => s.fwd) (fun _ _ _ => rfl) s o
@[simp] theorem State.occ_agents (s : State) (o : Occ) : (State.occ s o).agents = s.agents := occ_keeps (fun s => s.agents) (fun _ _ _ => rfl) s o
@[simp] theorem State.occ_inv (s : State) (o : Occ) : (State.occ s o).inv = s.inv := occ_keeps (fun s => s.inv) (fun _ _ _ => rfl) s o
@[simp] theorem State.occ_rdData (s : State) (o : Occ) : (State.occ s o).rdData = s.rdData := occ_keeps (fun s => s.rdData) (fun _ _ _ => rfl) s o
@[simp] theorem State.occ_freeCtr (s : State) (o : Occ) : (State.occ s o).freeCtr = s.freeCtr := occ_keeps (fun s => s.freeCtr) (fun _ _ _ => rfl) s o
@[simp] theorem State.occ_pending (s : State) (o : Occ) : (State.occ s o).pending = s.pending := occ_keeps (fun s => s.pending) (fun _ _ _ => rfl) s o
@[simp] theorem State.note_time (s : State) (origin cls unit sub code arg : Nat) : (State.note s origin cls unit sub code arg).time = s.time := by simp [State.note]
@[simp] theorem State.note_fuses (s : State) (origin cls unit sub code arg : Nat) : (State.note s origin cls unit sub code arg).fuses = s.fuses := by simp [State.note]
@[simp] theorem State.note_blk (s : State) (origin cls unit sub code arg : Nat) : (State.note s origin cls unit sub code arg).blk = s.blk := by simp [State.note]
@[simp] theorem State.note_mbox (s : State) (origin cls unit sub code arg : Nat) : (State.note s origin cls unit sub code arg).mbox = s.mbox := by simp [State.note]
@[simp] theorem State.note_hilo (s : State) (origin cls unit sub code arg : Nat) : (State.note s origin cls unit sub code arg).hilo = s.hilo := by simp [State.note]
@[simp] theorem State.note_gov (s : State) (origin cls unit sub code arg : Nat) : (State.note s origin cls unit sub code arg).gov = s.gov := by simp [State.note]
@[simp] theorem State.note_pwr (s : State) (origin cls unit sub code arg : Nat) : (State.note s origin cls unit sub code arg).pwr = s.pwr := by simp [State.note]
@[simp] theorem State.note_xopp (s : State) (origin cls unit sub code arg : Nat) : (State.note s origin cls unit sub code arg).xopp = s.xopp := by simp [State.note]
@[simp] theorem State.note_hopp (s : State) (origin cls unit sub code arg : Nat) : (State.note s origin cls unit sub code arg).hopp = s.hopp := by simp [State.note]
@[simp] theorem State.note_x (s : State) (origin cls unit sub code arg : Nat) : (State.note s origin cls unit sub code arg).x = s.x := by simp [State.note]
@[simp] theorem State.note_crvn (s : State) (origin cls unit sub code arg : Nat) : (State.note s origin cls unit sub code arg).crvn = s.crvn := by simp [State.note]
@[simp] theorem State.note_herv (s : State) (origin cls unit sub code arg : Nat) : (State.note s origin cls unit sub code arg).herv = s.herv := by simp [State.note]
@[simp] theorem State.note_ucie (s : State) (origin cls unit sub code arg : Nat) : (State.note s origin cls unit sub code arg).ucie = s.ucie := by simp [State.note]
@[simp] theorem State.note_ptp (s : State) (origin cls unit sub code arg : Nat) : (State.note s origin cls unit sub code arg).ptp = s.ptp := by simp [State.note]
@[simp] theorem State.note_eth0 (s : State) (origin cls unit sub code arg : Nat) : (State.note s origin cls unit sub code arg).eth0 = s.eth0 := by simp [State.note]
@[simp] theorem State.note_eth1 (s : State) (origin cls unit sub code arg : Nat) : (State.note s origin cls unit sub code arg).eth1 = s.eth1 := by simp [State.note]
@[simp] theorem State.note_panS (s : State) (origin cls unit sub code arg : Nat) : (State.note s origin cls unit sub code arg).panS = s.panS := by simp [State.note]
@[simp] theorem State.note_panA (s : State) (origin cls unit sub code arg : Nat) : (State.note s origin cls unit sub code arg).panA = s.panA := by simp [State.note]
@[simp] theorem State.note_panB (s : State) (origin cls unit sub code arg : Nat) : (State.note s origin cls unit sub code arg).panB = s.panB := by simp [State.note]
@[simp] theorem State.note_sec (s : State) (origin cls unit sub code arg : Nat) : (State.note s origin cls unit sub code arg).sec = s.sec := by simp [State.note]
@[simp] theorem State.note_lsecA (s : State) (origin cls unit sub code arg : Nat) : (State.note s origin cls unit sub code arg).lsecA = s.lsecA := by simp [State.note]
@[simp] theorem State.note_lsecB (s : State) (origin cls unit sub code arg : Nat) : (State.note s origin cls unit sub code arg).lsecB = s.lsecB := by simp [State.note]
@[simp] theorem State.note_fwA (s : State) (origin cls unit sub code arg : Nat) : (State.note s origin cls unit sub code arg).fwA = s.fwA := by simp [State.note]
@[simp] theorem State.note_fwB (s : State) (origin cls unit sub code arg : Nat) : (State.note s origin cls unit sub code arg).fwB = s.fwB := by simp [State.note]
@[simp] theorem State.note_twin (s : State) (origin cls unit sub code arg : Nat) : (State.note s origin cls unit sub code arg).twin = s.twin := by simp [State.note]
@[simp] theorem State.note_chip0 (s : State) (origin cls unit sub code arg : Nat) : (State.note s origin cls unit sub code arg).chip0 = s.chip0 := by simp [State.note]
@[simp] theorem State.note_chip1 (s : State) (origin cls unit sub code arg : Nat) : (State.note s origin cls unit sub code arg).chip1 = s.chip1 := by simp [State.note]
@[simp] theorem State.note_recv (s : State) (origin cls unit sub code arg : Nat) : (State.note s origin cls unit sub code arg).recv = s.recv := by simp [State.note]
@[simp] theorem State.note_laneA (s : State) (origin cls unit sub code arg : Nat) : (State.note s origin cls unit sub code arg).laneA = s.laneA := by simp [State.note]
@[simp] theorem State.note_laneB (s : State) (origin cls unit sub code arg : Nat) : (State.note s origin cls unit sub code arg).laneB = s.laneB := by simp [State.note]
@[simp] theorem State.note_ingest (s : State) (origin cls unit sub code arg : Nat) : (State.note s origin cls unit sub code arg).ingest = s.ingest := by simp [State.note]
@[simp] theorem State.note_fwd (s : State) (origin cls unit sub code arg : Nat) : (State.note s origin cls unit sub code arg).fwd = s.fwd := by simp [State.note]
@[simp] theorem State.note_agents (s : State) (origin cls unit sub code arg : Nat) : (State.note s origin cls unit sub code arg).agents = s.agents := by simp [State.note]
@[simp] theorem State.note_inv (s : State) (origin cls unit sub code arg : Nat) : (State.note s origin cls unit sub code arg).inv = s.inv := by simp [State.note]
@[simp] theorem State.note_rdData (s : State) (origin cls unit sub code arg : Nat) : (State.note s origin cls unit sub code arg).rdData = s.rdData := by simp [State.note]
@[simp] theorem State.note_freeCtr (s : State) (origin cls unit sub code arg : Nat) : (State.note s origin cls unit sub code arg).freeCtr = s.freeCtr := by simp [State.note]
@[simp] theorem State.note_pending (s : State) (origin cls unit sub code arg : Nat) : (State.note s origin cls unit sub code arg).pending = s.pending := by simp [State.note]
@[simp] theorem State.crvnEv_time (s : State) (sub code arg : Nat) : (State.crvnEv s sub code arg).time = s.time := by simp [State.crvnEv]
@[simp] theorem State.crvnEv_fuses (s : State) (sub code arg : Nat) : (State.crvnEv s sub code arg).fuses = s.fuses := by simp [State.crvnEv]
@[simp] theorem State.crvnEv_blk (s : State) (sub code arg : Nat) : (State.crvnEv s sub code arg).blk = s.blk := by simp [State.crvnEv]
@[simp] theorem State.crvnEv_mbox (s : State) (sub code arg : Nat) : (State.crvnEv s sub code arg).mbox = s.mbox := by simp [State.crvnEv]
@[simp] theorem State.crvnEv_hilo (s : State) (sub code arg : Nat) : (State.crvnEv s sub code arg).hilo = s.hilo := by simp [State.crvnEv]
@[simp] theorem State.crvnEv_gov (s : State) (sub code arg : Nat) : (State.crvnEv s sub code arg).gov = s.gov := by simp [State.crvnEv]
@[simp] theorem State.crvnEv_pwr (s : State) (sub code arg : Nat) : (State.crvnEv s sub code arg).pwr = s.pwr := by simp [State.crvnEv]
@[simp] theorem State.crvnEv_xopp (s : State) (sub code arg : Nat) : (State.crvnEv s sub code arg).xopp = s.xopp := by simp [State.crvnEv]
@[simp] theorem State.crvnEv_hopp (s : State) (sub code arg : Nat) : (State.crvnEv s sub code arg).hopp = s.hopp := by simp [State.crvnEv]
@[simp] theorem State.crvnEv_x (s : State) (sub code arg : Nat) : (State.crvnEv s sub code arg).x = s.x := by simp [State.crvnEv]
@[simp] theorem State.crvnEv_crvn (s : State) (sub code arg : Nat) : (State.crvnEv s sub code arg).crvn = s.crvn := by simp [State.crvnEv]
@[simp] theorem State.crvnEv_herv (s : State) (sub code arg : Nat) : (State.crvnEv s sub code arg).herv = s.herv := by simp [State.crvnEv]
@[simp] theorem State.crvnEv_ucie (s : State) (sub code arg : Nat) : (State.crvnEv s sub code arg).ucie = s.ucie := by simp [State.crvnEv]
@[simp] theorem State.crvnEv_ptp (s : State) (sub code arg : Nat) : (State.crvnEv s sub code arg).ptp = s.ptp := by simp [State.crvnEv]
@[simp] theorem State.crvnEv_eth0 (s : State) (sub code arg : Nat) : (State.crvnEv s sub code arg).eth0 = s.eth0 := by simp [State.crvnEv]
@[simp] theorem State.crvnEv_eth1 (s : State) (sub code arg : Nat) : (State.crvnEv s sub code arg).eth1 = s.eth1 := by simp [State.crvnEv]
@[simp] theorem State.crvnEv_panS (s : State) (sub code arg : Nat) : (State.crvnEv s sub code arg).panS = s.panS := by simp [State.crvnEv]
@[simp] theorem State.crvnEv_panA (s : State) (sub code arg : Nat) : (State.crvnEv s sub code arg).panA = s.panA := by simp [State.crvnEv]
@[simp] theorem State.crvnEv_panB (s : State) (sub code arg : Nat) : (State.crvnEv s sub code arg).panB = s.panB := by simp [State.crvnEv]
@[simp] theorem State.crvnEv_sec (s : State) (sub code arg : Nat) : (State.crvnEv s sub code arg).sec = s.sec := by simp [State.crvnEv]
@[simp] theorem State.crvnEv_lsecA (s : State) (sub code arg : Nat) : (State.crvnEv s sub code arg).lsecA = s.lsecA := by simp [State.crvnEv]
@[simp] theorem State.crvnEv_lsecB (s : State) (sub code arg : Nat) : (State.crvnEv s sub code arg).lsecB = s.lsecB := by simp [State.crvnEv]
@[simp] theorem State.crvnEv_fwA (s : State) (sub code arg : Nat) : (State.crvnEv s sub code arg).fwA = s.fwA := by simp [State.crvnEv]
@[simp] theorem State.crvnEv_fwB (s : State) (sub code arg : Nat) : (State.crvnEv s sub code arg).fwB = s.fwB := by simp [State.crvnEv]
@[simp] theorem State.crvnEv_twin (s : State) (sub code arg : Nat) : (State.crvnEv s sub code arg).twin = s.twin := by simp [State.crvnEv]
@[simp] theorem State.crvnEv_chip0 (s : State) (sub code arg : Nat) : (State.crvnEv s sub code arg).chip0 = s.chip0 := by simp [State.crvnEv]
@[simp] theorem State.crvnEv_chip1 (s : State) (sub code arg : Nat) : (State.crvnEv s sub code arg).chip1 = s.chip1 := by simp [State.crvnEv]
@[simp] theorem State.crvnEv_recv (s : State) (sub code arg : Nat) : (State.crvnEv s sub code arg).recv = s.recv := by simp [State.crvnEv]
@[simp] theorem State.crvnEv_laneA (s : State) (sub code arg : Nat) : (State.crvnEv s sub code arg).laneA = s.laneA := by simp [State.crvnEv]
@[simp] theorem State.crvnEv_laneB (s : State) (sub code arg : Nat) : (State.crvnEv s sub code arg).laneB = s.laneB := by simp [State.crvnEv]
@[simp] theorem State.crvnEv_ingest (s : State) (sub code arg : Nat) : (State.crvnEv s sub code arg).ingest = s.ingest := by simp [State.crvnEv]
@[simp] theorem State.crvnEv_fwd (s : State) (sub code arg : Nat) : (State.crvnEv s sub code arg).fwd = s.fwd := by simp [State.crvnEv]
@[simp] theorem State.crvnEv_agents (s : State) (sub code arg : Nat) : (State.crvnEv s sub code arg).agents = s.agents := by simp [State.crvnEv]
@[simp] theorem State.crvnEv_inv (s : State) (sub code arg : Nat) : (State.crvnEv s sub code arg).inv = s.inv := by simp [State.crvnEv]
@[simp] theorem State.crvnEv_rdData (s : State) (sub code arg : Nat) : (State.crvnEv s sub code arg).rdData = s.rdData := by simp [State.crvnEv]
@[simp] theorem State.crvnEv_freeCtr (s : State) (sub code arg : Nat) : (State.crvnEv s sub code arg).freeCtr = s.freeCtr := by simp [State.crvnEv]
@[simp] theorem State.crvnEv_pending (s : State) (sub code arg : Nat) : (State.crvnEv s sub code arg).pending = s.pending := by simp [State.crvnEv]
@[simp] theorem State.secEv_time (s : State) (sub code arg : Nat) : (State.secEv s sub code arg).time = s.time := by simp [State.secEv]
@[simp] theorem State.secEv_fuses (s : State) (sub code arg : Nat) : (State.secEv s sub code arg).fuses = s.fuses := by simp [State.secEv]
@[simp] theorem State.secEv_blk (s : State) (sub code arg : Nat) : (State.secEv s sub code arg).blk = s.blk := by simp [State.secEv]
@[simp] theorem State.secEv_mbox (s : State) (sub code arg : Nat) : (State.secEv s sub code arg).mbox = s.mbox := by simp [State.secEv]
@[simp] theorem State.secEv_hilo (s : State) (sub code arg : Nat) : (State.secEv s sub code arg).hilo = s.hilo := by simp [State.secEv]
@[simp] theorem State.secEv_gov (s : State) (sub code arg : Nat) : (State.secEv s sub code arg).gov = s.gov := by simp [State.secEv]
@[simp] theorem State.secEv_pwr (s : State) (sub code arg : Nat) : (State.secEv s sub code arg).pwr = s.pwr := by simp [State.secEv]
@[simp] theorem State.secEv_xopp (s : State) (sub code arg : Nat) : (State.secEv s sub code arg).xopp = s.xopp := by simp [State.secEv]
@[simp] theorem State.secEv_hopp (s : State) (sub code arg : Nat) : (State.secEv s sub code arg).hopp = s.hopp := by simp [State.secEv]
@[simp] theorem State.secEv_x (s : State) (sub code arg : Nat) : (State.secEv s sub code arg).x = s.x := by simp [State.secEv]
@[simp] theorem State.secEv_crvn (s : State) (sub code arg : Nat) : (State.secEv s sub code arg).crvn = s.crvn := by simp [State.secEv]
@[simp] theorem State.secEv_herv (s : State) (sub code arg : Nat) : (State.secEv s sub code arg).herv = s.herv := by simp [State.secEv]
@[simp] theorem State.secEv_ucie (s : State) (sub code arg : Nat) : (State.secEv s sub code arg).ucie = s.ucie := by simp [State.secEv]
@[simp] theorem State.secEv_ptp (s : State) (sub code arg : Nat) : (State.secEv s sub code arg).ptp = s.ptp := by simp [State.secEv]
@[simp] theorem State.secEv_eth0 (s : State) (sub code arg : Nat) : (State.secEv s sub code arg).eth0 = s.eth0 := by simp [State.secEv]
@[simp] theorem State.secEv_eth1 (s : State) (sub code arg : Nat) : (State.secEv s sub code arg).eth1 = s.eth1 := by simp [State.secEv]
@[simp] theorem State.secEv_panS (s : State) (sub code arg : Nat) : (State.secEv s sub code arg).panS = s.panS := by simp [State.secEv]
@[simp] theorem State.secEv_panA (s : State) (sub code arg : Nat) : (State.secEv s sub code arg).panA = s.panA := by simp [State.secEv]
@[simp] theorem State.secEv_panB (s : State) (sub code arg : Nat) : (State.secEv s sub code arg).panB = s.panB := by simp [State.secEv]
@[simp] theorem State.secEv_sec (s : State) (sub code arg : Nat) : (State.secEv s sub code arg).sec = s.sec := by simp [State.secEv]
@[simp] theorem State.secEv_lsecA (s : State) (sub code arg : Nat) : (State.secEv s sub code arg).lsecA = s.lsecA := by simp [State.secEv]
@[simp] theorem State.secEv_lsecB (s : State) (sub code arg : Nat) : (State.secEv s sub code arg).lsecB = s.lsecB := by simp [State.secEv]
@[simp] theorem State.secEv_fwA (s : State) (sub code arg : Nat) : (State.secEv s sub code arg).fwA = s.fwA := by simp [State.secEv]
@[simp] theorem State.secEv_fwB (s : State) (sub code arg : Nat) : (State.secEv s sub code arg).fwB = s.fwB := by simp [State.secEv]
@[simp] theorem State.secEv_twin (s : State) (sub code arg : Nat) : (State.secEv s sub code arg).twin = s.twin := by simp [State.secEv]
@[simp] theorem State.secEv_chip0 (s : State) (sub code arg : Nat) : (State.secEv s sub code arg).chip0 = s.chip0 := by simp [State.secEv]
@[simp] theorem State.secEv_chip1 (s : State) (sub code arg : Nat) : (State.secEv s sub code arg).chip1 = s.chip1 := by simp [State.secEv]
@[simp] theorem State.secEv_recv (s : State) (sub code arg : Nat) : (State.secEv s sub code arg).recv = s.recv := by simp [State.secEv]
@[simp] theorem State.secEv_laneA (s : State) (sub code arg : Nat) : (State.secEv s sub code arg).laneA = s.laneA := by simp [State.secEv]
@[simp] theorem State.secEv_laneB (s : State) (sub code arg : Nat) : (State.secEv s sub code arg).laneB = s.laneB := by simp [State.secEv]
@[simp] theorem State.secEv_ingest (s : State) (sub code arg : Nat) : (State.secEv s sub code arg).ingest = s.ingest := by simp [State.secEv]
@[simp] theorem State.secEv_fwd (s : State) (sub code arg : Nat) : (State.secEv s sub code arg).fwd = s.fwd := by simp [State.secEv]
@[simp] theorem State.secEv_agents (s : State) (sub code arg : Nat) : (State.secEv s sub code arg).agents = s.agents := by simp [State.secEv]
@[simp] theorem State.secEv_inv (s : State) (sub code arg : Nat) : (State.secEv s sub code arg).inv = s.inv := by simp [State.secEv]
@[simp] theorem State.secEv_rdData (s : State) (sub code arg : Nat) : (State.secEv s sub code arg).rdData = s.rdData := by simp [State.secEv]
@[simp] theorem State.secEv_freeCtr (s : State) (sub code arg : Nat) : (State.secEv s sub code arg).freeCtr = s.freeCtr := by simp [State.secEv]
@[simp] theorem State.secEv_pending (s : State) (sub code arg : Nat) : (State.secEv s sub code arg).pending = s.pending := by simp [State.secEv]

@[simp] theorem State.lane_setLane_same (s : State) (id : LaneId) (x : Lane) : (s.setLane id x).lane id = x := by cases id <;> rfl
@[simp] theorem State.lane_setLane_other (s : State) (id : LaneId) (x : Lane) : (s.setLane id x).lane (otherLane id) = s.lane (otherLane id) := by
  cases id <;> rfl
@[simp] theorem State.lane_modLane_same (s : State) (id : LaneId) (f : Lane → Lane) : (s.modLane id f).lane id = f (s.lane id) := by cases id <;> rfl
@[simp] theorem State.lane_modLane_other (s : State) (id : LaneId) (f : Lane → Lane) : (s.modLane id f).lane (otherLane id) = s.lane (otherLane id) := by
  cases id <;> rfl
@[simp] theorem otherLane_otherLane (id : LaneId) : otherLane (otherLane id) = id := by cases id <;> rfl
@[simp] theorem otherLane_ne (id : LaneId) : otherLane id ≠ id := by cases id <;> simp [otherLane]
/-- Only the lane's present value matters. -/
theorem State.modLane_congr {s : State} {id : LaneId} {f g : Lane → Lane} (h : f (s.lane id) = g (s.lane id)) : s.modLane id f = s.modLane id g := by
  simp only [State.modLane, h]
theorem State.modLane_frame (s : State) (id : LaneId) (f : Lane → Lane) :
    s.modLane id f = { s with laneA := (s.modLane id f).laneA, laneB := (s.modLane id f).laneB } := by cases id <;> rfl
theorem State.setLane_frame (s : State) (id : LaneId) (x : Lane) :
    s.setLane id x = { s with laneA := (s.setLane id x).laneA, laneB := (s.setLane id x).laneB } := by cases id <;> rfl
@[simp] theorem State.modLane_modLane_same (s : State) (id : LaneId) (f g : Lane → Lane) :
    (s.modLane id f).modLane id g = s.modLane id (fun l => g (f l)) := by cases id <;> rfl
@[simp] theorem State.setLane_setLane_same (s : State) (id : LaneId) (x y : Lane) : (s.setLane id x).setLane id y = s.setLane id y := by
  cases id <;> rfl
@[simp] theorem State.chip_setChip_same (s : State) (c : Nat) (x : Chip) : (s.setChip c x).chip c = x := by
  unfold State.setChip State.chip; by_cases h : c = 0 <;> simp [h]
@[simp] theorem State.chip_modChip_same (s : State) (c : Nat) (f : Chip → Chip) : (s.modChip c f).chip c = f (s.chip c) := by
  simp [State.modChip]
theorem State.setChip_frame (s : State) (c : Nat) (x : Chip) :
    s.setChip c x = { s with chip0 := (s.setChip c x).chip0, chip1 := (s.setChip c x).chip1 } := by unfold State.setChip; split <;> rfl
@[simp] theorem blkGet_blkSet_same (s : State) (k : Nat) (b : Blk) : blkGet (blkSet s k b) k = b := by simp [blkGet, blkSet]
theorem blkGet_blkSet_other (s : State) {k j : Nat} (b : Blk) (h : j ≠ k) : blkGet (blkSet s k b) j = blkGet s j := by
  simp [blkGet, blkSet, tget_tset_other _ _ _ h]
/-- A field of the module's registers reads what was written to it, and a field of another register keeps its value. -/
theorem State.fld_setFld_same (s : State) (f : Fld) (v : Nat) (h : f.lo + f.w ≤ 32) : (s.setFld f v).fld f = v % 2 ^ f.w :=
  fget_fset_same s.regs f v h
theorem State.fld_setFld_other (s : State) (f g : Fld) (v : Nat) (h : g.off ≠ f.off) : (s.setFld f v).fld g = s.fld g :=
  fget_fset_other s.regs f g v h
theorem State.fld_setFld_beside (s : State) (f g : Fld) (v : Nat) (ho : g.off = f.off) (hf : f.lo + f.w ≤ 32)
    (h : f.lo + f.w ≤ g.lo ∨ g.lo + g.w ≤ f.lo) : (s.setFld f v).fld g = s.fld g := fget_fset_beside s.regs f g v ho hf h

end Sys2Proof.Machine
end

