-- ==== Sys2Proof/Laws/Blocks.lean ====
section
/-! SUPPORT. What moving a block from state to state can do, and what it leaves alone. -/
namespace Sys2Proof.Machine
open Sys2Proof

/-- A view of the state that sees nothing a block's change of state may touch: registers, block states, governor, Xoide, Caravan, Ethernet and
UCIe links, inventory counts, Playa's chips. -/
def OffBlocks {β : Type} (v : State → β) : Prop :=
  ∀ (s : State) regs blk gov x crvn ucie eth0 eth1 chip0 chip1 inv,
    v { s with regs := regs, blk := blk, gov := gov, x := x, crvn := crvn, ucie := ucie, eth0 := eth0, eth1 := eth1, chip0 := chip0, chip1 := chip1,
               inv := inv } = v s

section
variable {β : Type} {v : State → β}

theorem OffBlocks.irq (h : OffBlocks v) (s : State) (p b : Nat) : v (s.irq p b) = v s :=
  h s (s.irq p b).regs s.blk s.gov s.x s.crvn s.ucie s.eth0 s.eth1 s.chip0 s.chip1 s.inv
theorem OffBlocks.setFld (h : OffBlocks v) (s : State) (f : Fld) (n : Nat) : v (s.setFld f n) = v s :=
  h s (s.setFld f n).regs s.blk s.gov s.x s.crvn s.ucie s.eth0 s.eth1 s.chip0 s.chip1 s.inv
theorem OffBlocks.blkSet (h : OffBlocks v) (s : State) (k : Nat) (b : Blk) : v (blkSet s k b) = v s :=
  h s s.regs (tset {} s.blk k b) s.gov s.x s.crvn s.ucie s.eth0 s.eth1 s.chip0 s.chip1 s.inv
theorem OffBlocks.gov (h : OffBlocks v) (s : State) (g : GovSt) : v { s with gov := g } = v s :=
  h s s.regs s.blk g s.x s.crvn s.ucie s.eth0 s.eth1 s.chip0 s.chip1 s.inv
theorem OffBlocks.crvn (h : OffBlocks v) (s : State) (c : CrvnSt) : v { s with crvn := c } = v s :=
  h s s.regs s.blk s.gov s.x c s.ucie s.eth0 s.eth1 s.chip0 s.chip1 s.inv
theorem OffBlocks.onX (h : OffBlocks v) (s : State) (f : XoideSt → XoideSt) : v (s.onX f) = v s :=
  h s s.regs s.blk s.gov (f s.x) s.crvn s.ucie s.eth0 s.eth1 s.chip0 s.chip1 s.inv
theorem OffBlocks.setChip (h : OffBlocks v) (s : State) (c : Nat) (x : Chip) : v (s.setChip c x) = v s := by
  unfold State.setChip; split
  · exact h s s.regs s.blk s.gov s.x s.crvn s.ucie s.eth0 s.eth1 x s.chip1 s.inv
  · exact h s s.regs s.blk s.gov s.x s.crvn s.ucie s.eth0 s.eth1 s.chip0 x s.inv
theorem OffBlocks.setBank (h : OffBlocks v) (s : State) (b : Nat) (x : VBank) : v (s.setBank b x) = v s := h.setChip ..
theorem OffBlocks.setVch (h : OffBlocks v) (s : State) (k : Nat) (x : VCh) : v (s.setVch k x) = v s := h.setChip ..
theorem OffBlocks.setCport (h : OffBlocks v) (s : State) (p : Nat) (x : CPort) : v (s.setCport p x) = v s := h.crvn ..
theorem OffBlocks.setEth (h : OffBlocks v) (s : State) (p : Nat) (x : EthSt) : v (s.setEth p x) = v s := by
  unfold State.setEth; split
  · exact h s s.regs s.blk s.gov s.x s.crvn s.ucie x s.eth1 s.chip0 s.chip1 s.inv
  · exact h s s.regs s.blk s.gov s.x s.crvn s.ucie s.eth0 x s.chip0 s.chip1 s.inv
theorem OffBlocks.setUmod (h : OffBlocks v) (s : State) (m : Nat) (x : UMod) : v (s.setUmod m x) = v s :=
  h s s.regs s.blk s.gov s.x s.crvn (s.setUmod m x).ucie s.eth0 s.eth1 s.chip0 s.chip1 s.inv
theorem OffBlocks.invCycle (h : OffBlocks v) (k : Nat) (s : State) : v (invCycle k s) = v s :=
  h s s.regs s.blk s.gov s.x s.crvn s.ucie s.eth0 s.eth1 s.chip0 s.chip1 (Machine.invCycle k s).inv
theorem OffBlocks.domRun (h : OffBlocks v) (n : Nat) (on : Bool) (s : State) : v (domRun n on s) = v s := by
  unfold Machine.domRun; (repeat' split) <;> simp only [h.setFld]

theorem OffBlocks.bankDrain (h : OffBlocks v) (b : Nat) (s : State) : v (bankDrain b s) = v s := by
  unfold Machine.bankDrain
  simp only [h.setBank]
  exact foldl_keeps v _ (fun s n => h.setVch ..) ..
theorem OffBlocks.bankRequest (h : OffBlocks v) (b : Nat) (s : State) : v (bankRequest b s) = v s := by
  unfold Machine.bankRequest; dsimp only; split
  · rfl
  · rw [h.gov, h.setBank]
theorem OffBlocks.bankConverterOff (h : OffBlocks v) (b : Nat) (s : State) : v (bankConverterOff b s) = v s := by
  unfold Machine.bankConverterOff; dsimp only; split
  · rw [h.gov, h.setBank]
  · rfl
theorem OffBlocks.bankCut (h : OffBlocks v) (b : Nat) (s : State) : v (bankCut b s) = v s := by
  unfold Machine.bankCut
  simp only [h.setBank]
  rw [foldl_keeps v _ (fun s n => h.setVch ..), h.bankDrain]
theorem OffBlocks.bankWithdraw (h : OffBlocks v) (b : Nat) (s : State) : v (bankWithdraw b s) = v s := by
  unfold Machine.bankWithdraw; rw [h.gov, h.setBank]
theorem OffBlocks.bankEnter (h : OffBlocks v) (b : Nat) (st : BState) (s : State) : v (bankEnter b st s) = v s := by
  cases st <;> simp only [Machine.bankEnter]
  · rw [h.bankConverterOff, h.bankWithdraw, h.bankDrain]
  · split
    · exact h.bankRequest ..
    · rfl
  · rw [h.bankWithdraw, h.bankDrain]
  · rw [h.bankCut, h.bankConverterOff, h.bankWithdraw]
theorem OffBlocks.stopCost (h : OffBlocks v) (s : State) (k : Nat) : v (s.stopCost k) = v s := by
  unfold State.stopCost; split
  · exact h.gov ..
  · rfl
theorem OffBlocks.ergRest (h : OffBlocks v) (n : Nat) (s : State) : v (ergRest n s) = v s := by
  unfold Machine.ergRest; dsimp only; rw [h.stopCost, h.setFld, h.domRun, h.blkSet]
theorem OffBlocks.quadRest (h : OffBlocks v) (q : Nat) (s : State) : v (quadRest q s) = v s := by
  unfold Machine.quadRest; simp only [h.stopCost, h.setFld, h.domRun, h.blkSet]
theorem OffBlocks.xoideRest (h : OffBlocks v) (s : State) : v (xoideRest s) = v s := by
  unfold Machine.xoideRest; split
  · rw [foldl_keeps v _ (fun s n => by split; exact h.quadRest ..; rfl), h.domRun]
  · rfl
theorem OffBlocks.ergAsleep (h : OffBlocks v) (n : Nat) (s : State) : v (ergAsleep n s) = v s := by
  unfold Machine.ergAsleep; split
  · rw [h.xoideRest, h.ergRest]
  · exact h.blkSet ..
theorem OffBlocks.ergAwake (h : OffBlocks v) (n : Nat) (s : State) : v (ergAwake n s) = v s := by
  unfold Machine.ergAwake; rw [h.domRun, h.setFld, h.domRun]
theorem OffBlocks.xEnter (h : OffBlocks v) (k : Nat) (st : BState) (s : State) : v (xEnter k st s) = v s := by
  unfold Machine.xEnter
  split
  · cases st <;> simp only [h.setFld, h.onX, h.ergAsleep, ergClear]
    split
    · exact h.ergRest ..
    · exact h.ergAwake ..
  · split
    · cases st <;> simp only [h.setFld, h.domRun, h.irq]
    · rfl
theorem OffBlocks.portSend (h : OffBlocks v) (p : Nat) (f : CFrame) (s : State) : v (portSend p f s) = v s := by
  unfold Machine.portSend; dsimp only; split
  · exact h.setCport ..
  · exact h s _ s.blk s.gov s.x s.crvn s.ucie s.eth0 s.eth1 s.chip0 s.chip1 s.inv
theorem OffBlocks.sendLink (h : OffBlocks v) (p : Nat) (l : Bool) (s : State) : v (sendLink p l s) = v s := by
  unfold Machine.sendLink Machine.crvnNext; rw [h.crvn, h.portSend]
theorem OffBlocks.relayOff (h : OffBlocks v) (s : State) : v (relayOff s) = v s := by
  unfold Machine.relayOff; rw [h.setFld, h.crvn]
theorem OffBlocks.peerWaits (h : OffBlocks v) (p : Nat) (s : State) : v (peerWaits p s) = v s := by
  unfold Machine.peerWaits State.modCport; dsimp only; split <;> simp only [h.setCport]
theorem OffBlocks.portEnter (h : OffBlocks v) (p : Nat) (st : BState) (s : State) : v (portEnter p st s) = v s := by
  cases st <;> simp only [Machine.portEnter, State.modCport]
  · rw [h.setCport, h.peerWaits]; split <;> simp only [h.domRun]
  · exact h.setCport ..
  · exact h.setCport ..
  · rw [h.relayOff, h.sendLink, h.sendLink, h.peerWaits]
  · have e : ∀ s' : State, v s' = v s → v (if (blkGet s' (0x110 + (1 - p))).state = .run then
        (Machine.sendLink (1 - p) true (Machine.peerWaits (1 - p) (Machine.blkSet s' (0x110 + (1 - p))
          { blkGet s' (0x110 + (1 - p)) with state := .stopping, pend := (blkGet s' (0x110 + (1 - p))).en }))).irq 0x70 0
        else s') = v s := by
      intro s' hs
      split
      · rw [h.irq, h.sendLink, h.peerWaits, h.blkSet, hs]
      · exact hs
    exact e _ (by rw [h.relayOff, h.setCport, h.peerWaits])
theorem OffBlocks.ethEnter (h : OffBlocks v) (p : Nat) (st : BState) (s : State) : v (ethEnter p st s) = v s := by
  unfold Machine.ethEnter
  dsimp only
  rw [h.setFld]
  (repeat' split) <;> try rw [h.domRun]
  all_goals (first
    | exact h s s.regs s.blk s.gov s.x s.crvn s.ucie _ s.eth1 s.chip0 s.chip1 s.inv
    | exact h s s.regs s.blk s.gov s.x s.crvn s.ucie s.eth0 _ s.chip0 s.chip1 s.inv)
theorem OffBlocks.ucieEnter (h : OffBlocks v) (st : BState) (s : State) : v (ucieEnter st s) = v s := by
  cases st <;> simp only [Machine.ucieEnter, ucieShow, h.setFld, h.setUmod]
theorem OffBlocks.invMove (h : OffBlocks v) (k : Nat) (st : BState) (s : State) : v (invMove k st s) = v s := by
  unfold Machine.invMove
  split
  · exact foldl_keeps v _ (fun s n => h.invCycle ..) ..
  · split
    · exact h.invCycle ..
    · rfl
/-- A block's change of state stays within what `OffBlocks` names. -/
theorem OffBlocks.blkMove (h : OffBlocks v) (s : State) (k : Nat) (st : BState) : v (blkMove s k st) = v s := by
  unfold Machine.blkMove
  dsimp only
  split
  · rfl
  · have e : ∀ s : State, v (((Machine.invMove k st s)).irq (keyPage k) 0) = v s := fun s => by rw [h.irq, h.invMove]
    have e' : ∀ s : State, v (if 0x30 ≤ k ∧ k ≤ 0x3B then Machine.bankEnter (k - 0x30) st s
             else if k = 0x110 ∨ k = 0x111 then Machine.portEnter (k - 0x110) st s
             else if k = 0x78 ∨ k = 0x79 then Machine.ethEnter (k - 0x78) st s else if k = 0x90 then Machine.ucieEnter st s else Machine.xEnter k st s) = v s := by
      intro s
      split
      · exact h.bankEnter ..
      split
      · exact h.portEnter ..
      split
      · exact h.ethEnter ..
      split
      · exact h.ucieEnter ..
      · exact h.xEnter ..
    split
    · rw [h.irq, e', e, h.blkSet]
    · rw [e', e, h.blkSet]
/-- Writes of registers, block states apart, keep every block's state. -/
theorem blkGet_of_blk {s t : State} (h : t.blk = s.blk) (k : Nat) : blkGet t k = blkGet s k := by unfold blkGet; rw [h]
end

theorem bankDrain_blk (b : Nat) (s : State) : (bankDrain b s).blk = s.blk := by
  unfold bankDrain; simp only [State.setBank_blk]; exact foldl_keeps State.blk _ (fun s n => by simp only [State.setVch_blk]) ..
theorem bankConverterOff_blk (b : Nat) (s : State) : (bankConverterOff b s).blk = s.blk := by
  unfold bankConverterOff; dsimp only; split
  · simp only [State.setBank_blk]
  · rfl
theorem bankCut_blk (b : Nat) (s : State) : (bankCut b s).blk = s.blk := by
  unfold bankCut; simp only [State.setBank_blk]; rw [foldl_keeps State.blk _ (fun s n => by simp only [State.setVch_blk]), bankDrain_blk]
theorem bankRequest_blk (b : Nat) (s : State) : (bankRequest b s).blk = s.blk := by
  unfold bankRequest; dsimp only; split
  · rfl
  · simp only [State.setBank_blk]
theorem bankWithdraw_blk (b : Nat) (s : State) : (bankWithdraw b s).blk = s.blk := by
  unfold bankWithdraw; simp only [State.setBank_blk]
theorem bankEnter_blk (b : Nat) (st : BState) (s : State) : (bankEnter b st s).blk = s.blk := by
  cases st <;> simp only [bankEnter]
  · rw [bankConverterOff_blk, bankWithdraw_blk, bankDrain_blk]
  · by_cases h : (s.bank b).rail < 650
    · rw [if_pos h]; exact bankRequest_blk ..
    · rw [if_neg h]
  · rw [bankWithdraw_blk, bankDrain_blk]
  · rw [bankCut_blk, bankConverterOff_blk, bankWithdraw_blk]
theorem ethEnter_blk (p : Nat) (st : BState) (s : State) : (ethEnter p st s).blk = s.blk := by
  unfold ethEnter; dsimp only; rw [State.setFld_blk]; (repeat' split) <;> simp only [domRun_blk]
  all_goals (split <;> rfl)
theorem ucieEnter_blk (st : BState) (s : State) : (ucieEnter st s).blk = s.blk := by
  cases st <;> simp only [ucieEnter, ucieShow, State.setFld_blk, State.setUmod_blk]
theorem ergClear_blk (n : Nat) (s : State) : (ergClear n s).blk = s.blk := by unfold ergClear; exact State.onX_blk ..
/-- A view that sees the blocks' states alone: what leaves them keeps it. -/
theorem state_blkSet (s : State) (k : Nat) (b : Blk) (hb : b.state = (blkGet s k).state) (j : Nat) : (blkGet (blkSet s k b) j).state = (blkGet s j).state := by
  by_cases h : j = k
  · subst h; simp [hb]
  · rw [blkGet_blkSet_other s b h]
theorem state_of_blk {s t : State} (h : t.blk = s.blk) (j : Nat) : (blkGet t j).state = (blkGet s j).state := by rw [blkGet_of_blk h]
theorem stopCost_blk (s : State) (k : Nat) : (s.stopCost k).blk = s.blk := by unfold State.stopCost; split <;> rfl
theorem ergRest_state (n : Nat) (s : State) (j : Nat) : (blkGet (ergRest n s) j).state = (blkGet s j).state :=
  (state_of_blk (s := blkSet s (0x80 + n) { blkGet s (0x80 + n) with granted := false })
    (by unfold ergRest; dsimp only; rw [stopCost_blk, State.setFld_blk, domRun_blk]) j).trans (by apply state_blkSet; rfl)
theorem quadRest_state (n : Nat) (s : State) (j : Nat) : (blkGet (quadRest n s) j).state = (blkGet s j).state :=
  (state_of_blk (s := blkSet s (0x8A + n) { blkGet s (0x8A + n) with granted := false })
    (by unfold quadRest; dsimp only; rw [stopCost_blk, State.setFld_blk, domRun_blk]) j).trans (by apply state_blkSet; rfl)
theorem xoideRest_state (s : State) (j : Nat) : (blkGet (xoideRest s) j).state = (blkGet s j).state := by
  unfold xoideRest; split
  · rw [foldl_keeps (fun s => (blkGet s j).state) _ (fun s n => by split; exact quadRest_state ..; rfl), state_of_blk (domRun_blk ..)]
  · rfl
theorem ergAsleep_state (n : Nat) (s : State) (j : Nat) : (blkGet (ergAsleep n s) j).state = (blkGet s j).state := by
  unfold ergAsleep; split
  · rw [xoideRest_state, ergRest_state]
  · apply state_blkSet; rfl
/-- An erg or a quadrant that enters a state moves no block. -/
theorem xEnter_state (k : Nat) (st : BState) (s : State) (j : Nat) : (blkGet (xEnter k st s) j).state = (blkGet s j).state := by
  unfold xEnter
  split
  · cases st
    case starting =>
      dsimp only
      exact state_of_blk (by rw [State.setFld_blk, State.setFld_blk, State.setFld_blk, ergClear_blk]) _
    case run =>
      dsimp only
      rw [state_of_blk (State.onX_blk ..)]
      split
      · exact ergRest_state ..
      · unfold ergAwake; exact state_of_blk (by rw [domRun_blk, State.setFld_blk, domRun_blk]) _
    case stopping => rfl
    all_goals exact ergAsleep_state ..
  · split
    · cases st <;> exact state_of_blk (by simp only [State.setFld_blk, State.irq_blk, domRun_blk]) _
    · rfl
/-- What a block's entry into a state does beside its own state moves no block, but for a Caravan port that fails. -/
theorem entry_state (k : Nat) (st : BState) (s : State) (j : Nat) :
    (blkGet (if 0x30 ≤ k ∧ k ≤ 0x3B then bankEnter (k - 0x30) st s
     else if k = 0x78 ∨ k = 0x79 then ethEnter (k - 0x78) st s else if k = 0x90 then ucieEnter st s else xEnter k st s) j).state = (blkGet s j).state := by
  by_cases h : 0x30 ≤ k ∧ k ≤ 0x3B
  · rw [if_pos h]; exact state_of_blk (bankEnter_blk ..) _
  · rw [if_neg h]
    by_cases h2 : k = 0x78 ∨ k = 0x79
    · rw [if_pos h2]; exact state_of_blk (ethEnter_blk ..) _
    · rw [if_neg h2]
      by_cases h3 : k = 0x90
      · rw [if_pos h3]; exact state_of_blk (ucieEnter_blk ..) _
      · rw [if_neg h3]; exact xEnter_state ..
/-- A moved block is in its new state; a Caravan port apart, no other block moves. -/
theorem blkMove_state (s : State) (k j : Nat) (st : BState) (hp : ¬ (k = 0x110 ∨ k = 0x111)) :
    (blkGet (blkMove s k st) j).state = if j = k then st else (blkGet s j).state := by
  have hi : ∀ s : State, (invMove k st s).blk = s.blk := by
    intro s; unfold invMove
    split
    · exact foldl_keeps State.blk _ (fun s n => by simp) ..
    · split <;> simp
  unfold blkMove
  dsimp only
  split
  · rename_i h
    split
    · rename_i hj; subst hj; exact h
    · rfl
  · have key : (blkGet (blkSet s k { blkGet s k with state := st }) j).state = if j = k then st else (blkGet s j).state := by
      split
      · rename_i hj; subst hj; simp
      · rename_i hj; rw [blkGet_blkSet_other s _ hj]
    split
    · rw [← key, state_of_blk (State.irq_blk ..), entry_state k st _]; exact state_of_blk (by simp [hi]) _
    · rw [← key, entry_state k st _]; exact state_of_blk (by simp [hi]) _

end Sys2Proof.Machine
end

