-- ==== Sys2Proof/Laws/Memory.lean ====
section
/-! SUPPORT. Every operation on an addressed memory keeps its canonical form (`Memory.wf`). -/
namespace Sys2Proof.Machine
open Sys2Proof

theorem tput_eq_tset {α : Type} [DecidableEq α] (d : α) (t : Tbl α) (j : Nat) (x : α) (h : x ≠ d) : tput t j x = tset d t j x := by
  unfold tset; rw [if_neg h]
/-- What holds of every entry of a table and of a new value holds of every entry after the write. -/
theorem tset_all {α : Type} [DecidableEq α] (d : α) (t : Tbl α) (j : Nat) (x : α) (p : α → Bool) (ht : t.all (fun e => p e.2) = true) (hx : p x = true) :
    (tset d t j x).all (fun e => p e.2) = true := by
  rw [List.all_eq_true] at ht ⊢
  intro e he
  unfold tset at he
  split at he
  · exact ht e (mem_tdel t j e he)
  · rcases mem_tput t j x e he with h | h
    · rw [h]; exact hx
    · exact ht e h
theorem tget_all {α : Type} (d : α) (t : Tbl α) (j : Nat) (p : α → Bool) (ht : t.all (fun e => p e.2) = true) (hd : p d = true) : p (tget d t j) = true := by
  induction t with
  | nil => exact hd
  | cons e r ih =>
    rw [List.all_cons, Bool.and_eq_true] at ht
    unfold tget; split
    · exact ht.1
    · exact ih ht.2
theorem tclear_all {α : Type} (t : Tbl α) (lo hi : Nat) (p : α → Bool) (ht : t.all (fun e => p e.2) = true) : (tclear t lo hi).all (fun e => p e.2) = true := by
  rw [List.all_eq_true] at ht ⊢
  exact fun e he => ht e (List.mem_filter.1 he).1
theorem filter_wf {α : Type} [DecidableEq α] (d : α) (t : Tbl α) (q : Nat × α → Bool) (h : tblWf d t = true) : tblWf d (t.filter q) = true := by
  rw [tblWf_iff] at h ⊢
  exact ⟨fun e he => h.1 e (List.mem_filter.1 he).1, h.2.filter _⟩
theorem foldl_wf {α β : Type} (q : β → Prop) (g : β → α → β) (h : ∀ b a, q b → q (g b a)) (l : List α) (b : β) (hb : q b) : q (l.foldl g b) := by
  induction l generalizing b with
  | nil => exact hb
  | cons a l ih => exact ih _ (h b a hb)

theorem memWf_iff (s : State) : Memory.wf s = true ↔
    (tblWf 0 s.x.lp = true ∧ tblWf 0 s.x.shared = true ∧ tblWf 0 s.x.errs = true ∧ tblWf {} s.x.tiles = true) ∧
    (s.x.tiles.all (fun t => tblWf 0 t.2.sram) = true ∧ tblWf none s.x.hist = true ∧ s.x.hist.all (fun h => tblWf 0xFFFF (h.2.getD [])) = true) ∧
    tblWf 0xFFFF s.ingest.buf0 = true ∧ tblWf 0xFFFF s.ingest.buf1 = true ∧ tblWf 0 s.herv.sram = true := by
  unfold Memory.wf; simp only [Bool.and_eq_true]; constructor <;> intro h <;> simp only [h, and_self]
/-- The form rests on the memories alone. -/
theorem memWf_congr {s t : State} (hx : t.x = s.x) (hi : t.ingest = s.ingest) (hh : t.herv.sram = s.herv.sram) : Memory.wf t = Memory.wf s := by
  unfold Memory.wf; rw [hx, hi, hh]
theorem memWf_congr_parts {s t : State} (h1 : t.x.lp = s.x.lp) (h2 : t.x.shared = s.x.shared) (h3 : t.x.errs = s.x.errs) (h4 : t.x.tiles = s.x.tiles)
    (h5 : t.x.hist = s.x.hist) (hi : t.ingest = s.ingest) (hh : t.herv.sram = s.herv.sram) : Memory.wf t = Memory.wf s := by
  unfold Memory.wf; rw [h1, h2, h3, h4, h5, hi, hh]
theorem memWf_reset : Memory.wf State.reset = true := by decide

/-- An update of Xoide's record that leaves its memories alone keeps the form. -/
theorem onX_memWf (s : State) (f : XoideSt → XoideSt) (h1 : (f s.x).lp = s.x.lp) (h2 : (f s.x).shared = s.x.shared) (h3 : (f s.x).errs = s.x.errs)
    (h4 : (f s.x).tiles = s.x.tiles) (h5 : (f s.x).hist = s.x.hist) : Memory.wf (s.onX f) = Memory.wf s := by
  unfold Memory.wf; simp only [State.onX]; rw [h1, h2, h3, h4, h5]

/-! ### Frames -/

theorem ptsPut_wf (t : Tbl Nat) (i v : Nat) (h : tblWf 0xFFFF t = true) : tblWf 0xFFFF (ptsPut t i v) = true :=
  foldl_wf (fun t => tblWf 0xFFFF t = true) _ (fun t _ ht => tset_wf _ t _ _ ht) _ _ h
theorem ingestPoints_wf (base : Nat) (pts : List Nat) (t : Tbl Nat) (h : tblWf 0xFFFF t = true) : tblWf 0xFFFF (ingestPoints base pts t) = true :=
  foldl_wf (fun t => tblWf 0xFFFF t = true) _ (fun t _ ht => tset_wf _ t _ _ ht) _ _ h
theorem ingestSeg_wf (m : MapSeg) (g : Ingest) (h0 : tblWf 0xFFFF g.buf0 = true) (h1 : tblWf 0xFFFF g.buf1 = true) :
    tblWf 0xFFFF (ingestSeg m g).buf0 = true ∧ tblWf 0xFFFF (ingestSeg m g).buf1 = true := by
  have p0 := fun b => ingestPoints_wf b m.points g.buf0 h0
  have p1 := fun b => ingestPoints_wf b m.points g.buf1 h1
  unfold ingestSeg
  dsimp only
  constructor <;> (repeat' split) <;> simp only [h0, h1, p0, p1]

/-! ### Words -/

theorem putBits_wf (b n v : Nat) (t : Tile) (h : tblWf 0 t.sram = true) : tblWf 0 (t.putBits b n v).sram = true := by
  unfold Tile.putBits; dsimp only; split
  · exact tset_wf _ _ _ _ h
  · exact tset_wf _ _ _ _ (tset_wf _ _ _ _ h)
theorem putElems_wf (base bits : Nat) (l : List Nat) (t : Tile) (h : tblWf 0 t.sram = true) : tblWf 0 (t.putElems base bits l).sram = true :=
  foldl_wf (fun t => tblWf 0 t.sram = true) _ (fun t _ ht => putBits_wf _ _ _ t ht) _ _ h
theorem tile_sram_wf (s : State) (h : Memory.wf s = true) (t : Nat) : tblWf 0 (s.tile t).sram = true :=
  tget_all ({} : Tile) s.x.tiles t (fun x => tblWf 0 x.sram) ((memWf_iff s).1 h).2.1.1 rfl
/-- A tile whose SRAM is in form may be stored. -/
theorem setTile_memWf (s : State) (t : Nat) (x : Tile) (hx : tblWf 0 x.sram = true) (h : Memory.wf s = true) : Memory.wf (s.setTile t x) = true := by
  obtain ⟨⟨h1, h2, h3, h4⟩, ⟨h5, h6, h7⟩, h8⟩ := (memWf_iff s).1 h
  exact (memWf_iff _).2 ⟨⟨h1, h2, h3, tset_wf _ _ _ _ h4⟩, ⟨tset_all ({} : Tile) _ _ _ (fun x => tblWf 0 x.sram) h5 hx, h6, h7⟩, h8⟩
theorem setErr_memWf (s : State) (w e : Nat) (i : Option (Nat × Nat × Nat × Bool)) (h : Memory.wf s = true) :
    Memory.wf (s.onX (fun x => { x with inject := i, errs := tset 0 x.errs w e })) = true := by
  obtain ⟨⟨h1, h2, h3, h4⟩, h5⟩ := (memWf_iff s).1 h
  exact (memWf_iff _).2 ⟨⟨h1, h2, tset_wf _ _ _ _ h3, h4⟩, h5⟩
theorem lpPut_memWf (w v : Nat) (s : State) (h : Memory.wf s = true) : Memory.wf (lpPut w v s) = true := by
  obtain ⟨⟨h1, h2⟩, h5⟩ := (memWf_iff s).1 h
  exact (memWf_iff _).2 ⟨⟨tset_wf _ _ _ _ h1, h2⟩, h5⟩
theorem xaPut_memWf (s : State) (w v : Nat) (h : Memory.wf s = true) : Memory.wf (xaPut s w v) = true := by
  obtain ⟨⟨h1, h2, h3, h4⟩, ⟨h5, h6, h7⟩, h8, h9, h10⟩ := (memWf_iff s).1 h
  unfold xaPut
  split
  · split
    · split
      · rename_i t ht
        refine (memWf_iff _).2 ⟨⟨h1, h2, h3, h4⟩, ⟨h5, ?_, ?_⟩, h8, h9, h10⟩ <;> dsimp only [State.onX] <;> rw [tput_eq_tset none _ _ _ (by simp)]
        · exact tset_wf _ _ _ _ h6
        · refine tset_all none _ _ _ (fun x => tblWf 0xFFFF (x.getD [])) h7 (ptsPut_wf _ _ _ ?_)
          have := tget_all none s.x.hist (w / ingWords) (fun x => tblWf 0xFFFF (x.getD [])) h7 rfl
          rw [ht] at this; exact this
      · exact lpPut_memWf _ _ _ h
    · split
      · dsimp only; split
        · exact (memWf_iff _).2 ⟨⟨h1, h2, h3, h4⟩, ⟨h5, h6, h7⟩, h8, h9, h10⟩
        · exact lpPut_memWf _ _ _ h
      · exact lpPut_memWf _ _ _ h
  · dsimp only; split
    · exact (memWf_iff _).2 ⟨⟨h1, h2, h3, h4⟩, ⟨h5, h6, h7⟩, ptsPut_wf _ _ _ h8, h9, h10⟩
    · split
      · exact (memWf_iff _).2 ⟨⟨h1, h2, h3, h4⟩, ⟨h5, h6, h7⟩, h8, ptsPut_wf _ _ _ h9, h10⟩
      · exact (memWf_iff _).2 ⟨⟨h1, tset_wf _ _ _ _ h2, h3, h4⟩, ⟨h5, h6, h7⟩, h8, h9, h10⟩
  · exact setTile_memWf _ _ _ (tset_wf _ _ _ _ (tile_sram_wf s h _)) h
  · exact h

/-! ### Errors, copies and scrubbing -/

theorem setFld_memWf (s : State) (f : Fld) (n : Nat) : Memory.wf (s.setFld f n) = Memory.wf s := memWf_congr rfl rfl rfl
theorem satFld_memWf (s : State) (f : Fld) (n : Nat) : Memory.wf (s.satFld f n) = Memory.wf s := memWf_congr rfl rfl rfl
theorem ueNote_memWf (job : Option Nat) (w kind : Nat) (s : State) : Memory.wf (ueNote job w kind s) = Memory.wf s := by
  unfold ueNote; dsimp only
  split
  · simp only [setFld_memWf]
  · have hi : ∀ (s : State) p b, Memory.wf (s.irq p b) = Memory.wf s := fun s p b => memWf_congr (by simp) (by simp) (by simp)
    have hn : ∀ (s : State) a b c d e f, Memory.wf (s.note a b c d e f) = Memory.wf s := fun s a b c d e f => memWf_congr (by simp) (by simp) (by simp)
    split <;> simp only [setFld_memWf, satFld_memWf, hi, hn]
theorem ceNote_memWf (w : Nat) (s : State) : Memory.wf (ceNote w s) = Memory.wf s := by unfold ceNote; split <;> simp only [satFld_memWf]
/-- Everything the decoder can do on a read of a word. -/
theorem eccTouch_cases (job : Option Nat) (w : Nat) (s : State) :
    ∃ t, (t = s ∨ t = ceNote w (s.onX (fun x => { x with errs := tset 0 x.errs w (tget 0 s.x.errs w / 4 * 4) }))) ∧
      ((eccTouch job w s).1 = t ∨ ∃ k, (eccTouch job w s).1 = ueNote job w k t) := by
  unfold eccTouch
  cases xaMem w
  case none => exact ⟨s, .inl rfl, .inr ⟨4, rfl⟩⟩
  all_goals
    dsimp only
    by_cases h0 : tget 0 s.x.errs w = 0
    · rw [if_pos h0]; exact ⟨s, .inl rfl, .inl rfl⟩
    · rw [if_neg h0]
      by_cases h3 : tget 0 s.x.errs w % 4 = 3
      · rw [if_pos h3]; exact ⟨s, .inl rfl, .inr ⟨1, rfl⟩⟩
      · rw [if_neg h3]
        refine ⟨if tget 0 s.x.errs w % 4 = 0 then s else ceNote w (s.onX (fun x => { x with errs := tset 0 x.errs w (tget 0 s.x.errs w / 4 * 4) })), ?_, ?_⟩
        · by_cases hc : tget 0 s.x.errs w % 4 = 0
          · rw [if_pos hc]; exact .inl rfl
          · rw [if_neg hc]; exact .inr rfl
        · by_cases ha : tget 0 s.x.errs w / 4 = 0 <;> by_cases hc : tget 0 s.x.errs w % 4 = 0
          · simp only [if_pos ha, if_pos hc]; exact .inl trivial
          · simp only [if_pos ha, if_neg hc]; exact .inl trivial
          · simp only [if_neg ha, if_pos hc]; exact .inr ⟨3, rfl⟩
          · simp only [if_neg ha, if_neg hc]; exact .inr ⟨3, rfl⟩
theorem eccTouch_memWf (job : Option Nat) (w : Nat) (s : State) (h : Memory.wf s = true) : Memory.wf (eccTouch job w s).1 = true := by
  obtain ⟨t, ht, hr⟩ := eccTouch_cases job w s
  have hw : Memory.wf t = true := by
    rcases ht with rfl | rfl
    · exact h
    · rw [ceNote_memWf]; exact setErr_memWf s w _ s.x.inject h
  rcases hr with hr | ⟨k, hr⟩
  · rw [hr]; exact hw
  · rw [hr, ueNote_memWf]; exact hw
theorem eccTouches_memWf (job : Option Nat) (ws : List Nat) (s : State) (h : Memory.wf s = true) : Memory.wf (eccTouches job ws s).1 = true := by
  unfold eccTouches
  refine foldl_wf (fun a : State × Bool => Memory.wf a.1 = true) (fun a w => ((eccTouch job w a.1).1, a.2 && (eccTouch job w a.1).2)) ?_ _ (s, true) h
  intro a w ha
  exact eccTouch_memWf job w a.1 ha
/-- Words newly written store a fresh codeword, which keeps the form. -/
theorem xaFresh_memWf (p : Nat → Bool) (s : State) (h : Memory.wf s = true) : Memory.wf (xaFresh p s) = true := by
  have h1 : Memory.wf (s.onX (fun x => { x with errs := x.errs.filter (fun e => !p e.1) })) = true := by
    obtain ⟨⟨h1, h2, h3, h4⟩, h5⟩ := (memWf_iff s).1 h
    exact (memWf_iff _).2 ⟨⟨h1, h2, filter_wf _ _ _ h3, h4⟩, h5⟩
  unfold xaFresh
  dsimp only
  generalize s.onX (fun x => { x with errs := x.errs.filter (fun e => !p e.1) }) = u at h1
  cases u.x.inject with
  | none => exact h1
  | some q =>
    obtain ⟨iw, mem, bits, af⟩ := q
    dsimp only
    split
    · exact setErr_memWf u iw _ none h1
    · exact h1
theorem xaFreshAt_memWf (a n : Nat) (s : State) (h : Memory.wf s = true) : Memory.wf (xaFreshAt a n s) = true := xaFresh_memWf _ s h
theorem eccRange_memWf (job : Option Nat) (a n : Nat) (s : State) (h : Memory.wf s = true) : Memory.wf (eccRange job a n s).1 = true := by
  unfold eccRange
  refine foldl_wf (fun r : State × Bool => Memory.wf r.1 = true) _ ?_ _ (s, true) h
  intro r e hr
  exact eccTouch_memWf job e.1 r.1 hr
theorem xaWrite_memWf (w v : Nat) (s : State) (h : Memory.wf s = true) : Memory.wf (xaWrite w v s) = true := by
  unfold xaWrite
  cases xaMem w
  case none => dsimp only; rw [ueNote_memWf]; exact h
  all_goals exact xaFresh_memWf _ _ (xaPut_memWf s w (v % 2 ^ 64) h)
theorem xSpend_memWf (job : Option Nat) (n : Nat) (s : State) : Memory.wf (xSpend job n s) = Memory.wf s := by
  unfold xSpend; cases job <;> exact memWf_congr_parts rfl rfl rfl rfl rfl rfl rfl
theorem lpCount_memWf (job : Option Nat) (wr : Bool) (w n : Nat) (s : State) : Memory.wf (lpCount job wr w n s) = Memory.wf s := by
  unfold lpCount; dsimp only
  refine foldl_keeps (fun s => Memory.wf s) _ ?_ _ _
  intro s b; simp only [xSpend_memWf, setFld_memWf]
theorem lpMoved_memWf (job : Option Nat) (wr : Bool) (w n : Nat) (s : State) : Memory.wf (lpMoved job wr w n s) = Memory.wf s := by
  unfold lpMoved; split
  · exact lpCount_memWf ..
  · rfl
theorem xaWriteBy_memWf (job : Option Nat) (w v : Nat) (s : State) (h : Memory.wf s = true) : Memory.wf (xaWriteBy job w v s) = true := by
  unfold xaWriteBy; split
  · rw [ueNote_memWf]; exact h
  · exact xaWrite_memWf w v s h
theorem xaCopy_memWf (job : Option Nat) (src dst n : Nat) (s : State) (h : Memory.wf s = true) : Memory.wf (xaCopy job src dst n s).1 = true := by
  have h1 := eccTouches_memWf job ((upto n).map (fun k => src + k)) s h
  unfold xaCopy; dsimp only
  split
  · rw [lpMoved_memWf, lpMoved_memWf]
    refine foldl_wf (fun s => Memory.wf s = true) (fun s k => xaWriteBy job (dst + k) (xaGet s (src + k)) s) ?_ _ _ h1
    intro s k hs
    exact xaWriteBy_memWf _ _ _ s hs
  · exact h1
theorem scrubReads_memWf (n : Nat) (s : State) : Memory.wf (scrubReads n s) = Memory.wf s := by
  unfold scrubReads
  refine foldl_keeps (fun s => Memory.wf s) _ ?_ _ _
  intro s b; dsimp only; split
  · exact lpMoved_memWf ..
  · rfl
theorem scrubTouches_memWf (l : List (Nat × Nat)) (s : State) (h : Memory.wf s = true) : Memory.wf (l.foldl (fun s e =>
      let r := eccTouch none e.1 s
      if tget 0 r.1.x.errs e.1 = tget 0 s.x.errs e.1 then r.1 else lpMoved none true e.1 1 r.1) s) = true := by
  refine foldl_wf (fun s => Memory.wf s = true) _ ?_ l s h
  intro s e hs
  have hr := eccTouch_memWf none e.1 s hs
  dsimp only; split
  · exact hr
  · rw [lpMoved_memWf]; exact hr
theorem scrubFrame_memWf (s : State) (h : Memory.wf s = true) : Memory.wf (scrubFrame s) = true := by
  unfold scrubFrame
  by_cases hf : s.fld F.XECC_SCRUB_EN = 0
  · rw [if_pos hf]; exact h
  · rw [if_neg hf]; dsimp only
    have h2 := scrubTouches_memWf (s.x.errs.filter (fun e => scrubHits s s.x.scrub e.1)) (scrubReads s.x.scrub s)
      (by rw [scrubReads_memWf]; exact h)
    dsimp only at h2
    revert h2
    generalize List.foldl _ (scrubReads s.x.scrub s) (s.x.errs.filter (fun e => scrubHits s s.x.scrub e.1)) = t
    intro h2
    have h3 : Memory.wf (t.onX (fun x => { x with scrub := (s.x.scrub + 1) % scrubPass })) = true := by rw [onX_memWf t _ rfl rfl rfl rfl rfl]; exact h2
    by_cases hn : s.x.scrub + 1 = scrubPass
    · rw [if_pos hn, satFld_memWf]; exact h3
    · rw [if_neg hn]; exact h3

/-! ### Clearing, tables and Hervi's SRAM -/

theorem ergClear_memWf (n : Nat) (s : State) (h : Memory.wf s = true) : Memory.wf (ergClear n s) = true := by
  obtain ⟨⟨h1, h2, h3, h4⟩, ⟨h5, h6⟩, h8⟩ := (memWf_iff s).1 h
  exact (memWf_iff _).2 ⟨⟨h1, h2, tclear_wf _ _ _ _ h3, tclear_wf _ _ _ _ h4⟩, ⟨tclear_all _ _ _ (fun x : Tile => tblWf 0 x.sram) h5, h6⟩, h8⟩
theorem tableWrite_memWf (b : Bool) (jobs : List JobEnt) (s : State) (h : Memory.wf s = true) : Memory.wf (tableWrite b jobs s) = true := by
  obtain ⟨⟨h1, h2, h3⟩, h5⟩ := (memWf_iff s).1 h
  unfold tableWrite; dsimp only
  exact xaFreshAt_memWf _ _ _ ((memWf_iff _).2
    ⟨⟨h1, foldl_wf (fun t => tblWf 0 t = true) _ (fun t _ ht => tset_wf _ t _ _ ht) _ _ (tclear_wf _ _ _ _ h2), h3⟩, h5⟩)
theorem sramPut_memWf (a : Nat) (l : List Nat) (s : State) (h : Memory.wf s = true) : Memory.wf (sramPut a l s) = true := by
  obtain ⟨h1, h5, h8, h9, h10⟩ := (memWf_iff s).1 h
  exact (memWf_iff _).2 ⟨h1, h5, h8, h9, foldl_wf (fun x : Tbl Nat × Nat => tblWf 0 x.1 = true) _ (fun x _ hx => tset_wf _ x.1 _ _ hx) _ _ h10⟩
theorem decs_memWf (s : State) (e : XoideSt → Tbl DecAcc) : Memory.wf (s.onX (fun x => { x with decs := e x })) = Memory.wf s :=
  onX_memWf s _ rfl rfl rfl rfl rfl
/-- The history takes a buffer that is in form. -/
theorem historyWrite_memWf (g : Nat) (b : Bool) (buf : Tbl Nat) (arr : Tbl Nat) (summ : Tbl (List Nat)) (s : State) (hb : tblWf 0xFFFF buf = true)
    (h : Memory.wf s = true) : Memory.wf (historyWrite g b buf arr summ s) = true := by
  have hput : ∀ (t : State) (k : Nat), Memory.wf t = true → Memory.wf (t.onX (fun x => { x with hist := tput x.hist k (some buf) })) = true := by
    intro t k ht
    obtain ⟨⟨h1, h2, h3, h4⟩, ⟨h5, h6, h7⟩, h8⟩ := (memWf_iff t).1 ht
    refine (memWf_iff _).2 ⟨⟨h1, h2, h3, h4⟩, ⟨h5, ?_, ?_⟩, h8⟩ <;> dsimp only [State.onX] <;> rw [tput_eq_tset none _ _ _ (by simp)]
    · exact tset_wf _ _ _ _ h6
    · exact tset_all none _ _ _ (fun x => tblWf 0xFFFF (x.getD [])) h7 hb
  have hd : ∀ (t : State) (f : XoideSt → Tbl (Option (Tbl Nat))), Memory.wf t = true → Memory.wf (t.onX (fun x => { x with dhist := f x })) = true :=
    fun t f ht => by rw [onX_memWf t _ rfl rfl rfl rfl rfl]; exact ht
  unfold historyWrite
  dsimp only
  have h1 := eccRange_memWf none (xaShared + (if b then ingWords else 0)) ingWords s h
  revert h1
  generalize (eccRange none (xaShared + (if b then ingWords else 0)) ingWords s).1 = t
  intro h1
  have h2 : Memory.wf (if quadsRun s = true then lpCount none true (g % 20480 * ingWords) ingWords (xaFreshAt (g % 20480 * ingWords) ingWords
      (t.onX (fun x => { x with hist := tput x.hist (g % 20480) (some buf) }))) else t) = true := by
    split
    · rw [lpCount_memWf]; exact xaFreshAt_memWf _ _ _ (hput t _ h1)
    · exact h1
  revert h2
  generalize (if quadsRun s = true then lpCount none true (g % 20480 * ingWords) ingWords (xaFreshAt (g % 20480 * ingWords) ingWords
      (t.onX (fun x => { x with hist := tput x.hist (g % 20480) (some buf) }))) else t) = u
  intro h2
  split
  · rw [decs_memWf]
    split
    · rw [lpCount_memWf]; exact xaFreshAt_memWf _ _ _ (hd u _ h2)
    · exact h2
  · rw [decs_memWf]; exact h2
theorem bufferSwap_memWf (g : Nat) (s : State) (h : Memory.wf s = true) : Memory.wf (bufferSwap g s) = true := by
  obtain ⟨_, _, h8, h9, _⟩ := (memWf_iff s).1 h
  have key : ∀ (t u : State) (i : Ingest), Memory.wf t = true → u.x.lp = t.x.lp → u.x.shared = t.x.shared → u.x.errs = t.x.errs → u.x.tiles = t.x.tiles → u.x.hist = t.x.hist →
      u.herv.sram = t.herv.sram → u.ingest = i → tblWf 0xFFFF i.buf0 = true → tblWf 0xFFFF i.buf1 = true → Memory.wf u = true := by
    intro t u i ht a1 a2 a3 a4 a5 a6 a7 b0 b1
    obtain ⟨⟨h1, h2, h3, h4⟩, ⟨h5, h6, h7⟩, _, _, h10⟩ := (memWf_iff t).1 ht
    rw [memWf_iff, a1, a2, a3, a4, a5, a6, a7]
    exact ⟨⟨h1, h2, h3, h4⟩, ⟨h5, h6, h7⟩, b0, b1, h10⟩
  have hc : tblWf 0xFFFF (if s.ingest.sel then s.ingest.buf1 else s.ingest.buf0) = true := by split <;> assumption
  unfold bufferSwap
  refine xaFreshAt_memWf _ _ _ (key _ _ _ (historyWrite_memWf g s.ingest.sel _ s.ingest.arr s.ingest.summ s hc h) rfl rfl rfl rfl rfl rfl rfl ?_ ?_) <;>
    dsimp only <;> split
  · rfl
  · exact h8
  · exact h9
  · rfl
theorem oppShow_memWf (s : State) : Memory.wf (oppShow s) = Memory.wf s := by
  unfold oppShow; simp only [setFld_memWf]
  rw [foldl_keeps (fun s => Memory.wf s) _ (fun s n => by simp only [setFld_memWf])]; simp only [setFld_memWf]
theorem supplyLims_memWf (s : State) : Memory.wf (supplyLims s) = Memory.wf s := by unfold supplyLims; exact memWf_congr rfl rfl rfl
theorem xoideClear_memWf (keep : Bool) (s : State) (h : Memory.wf s = true) : Memory.wf (xoideClear keep s) = true := by
  obtain ⟨⟨h1, h2, h3, h4⟩, ⟨h5, h6, h7⟩, h8, h9, h10⟩ := (memWf_iff s).1 h
  have hr : ((upto 14).foldl (fun s k => domRun (20 + k) false s) s).herv = s.herv :=
    foldl_keeps (fun s => s.herv) _ (fun s a => by unfold domRun; (repeat' split) <;> rfl) _ _
  unfold xoideClear
  dsimp only
  rw [oppShow_memWf, supplyLims_memWf]
  cases keep
  · exact (memWf_iff _).2 ⟨⟨rfl, rfl, rfl, rfl⟩, ⟨rfl, rfl, rfl⟩, rfl, rfl, by dsimp only; rw [hr]; exact h10⟩
  · exact (memWf_iff _).2 ⟨⟨h1, rfl, filter_wf _ _ _ h3, rfl⟩, ⟨rfl, h6, h7⟩, rfl, rfl, by dsimp only; rw [hr]; exact h10⟩

end Sys2Proof.Machine
end

