-- ==== Sys2Proof/WellFormed.lean ====
section
/-! DEFINITION. Operands a sender can give: an operand that its type does not already bound keeps the field width, the count or the length the spec
gives it. `exec` has a meaning for every other operand too. -/
namespace Sys2Proof

/-- Items of each governed class (R53). -/
def GovClass.count : GovClass → Nat
  | .lane => 2 | .valve => 12 | .pump => 4 | .lpddr => 5 | .erg => 8 | .eth => 2
def itemWf (i : GovItem) : Bool := decide (i.inst < i.cls.count)
def wordsWf (n : Nat) (l : List Nat) : Bool := l.all (fun x => decide (x < n))
/-- Edges come in the order of their timestamps (R102). -/
def sampleWf : Sample → Bool
  | .elec _ => true
  | .edges n t1 t2 => decide (n = 0 ∨ t1 ≤ t2)
/-- The field widths of R107. -/
def segWf (m : MapSeg) : Bool :=
  decide (m.version < 256 ∧ m.typ < 256 ∧ m.endpoint < 65536 ∧ m.mapSeq < 2 ^ 32 ∧ m.seg < 256 ∧ m.segLast < 256 ∧ m.npoints < 65536 ∧ m.flags < 256 ∧
      m.hotspots < 256 ∧ m.sec < 2 ^ 32 ∧ m.ns < 2 ^ 32 ∧ m.summary.length ≤ 16 ∧ m.points.length ≤ 512 ∧ m.tag.getD 0 < 65536) &&
    wordsWf 65536 m.summary && wordsWf 65536 m.points
/-- Currents are 12-bit samples; PEAK has windows 0 to 15 (R246, R247). -/
def detWf : DetSample → Bool
  | .dip m x => decide (m < 4096 ∧ x < 4096)
  | .kink i _ _ _ => decide (i < 256)
/-- The field widths of a job table entry (R176). -/
def jobWf (e : JobEnt) : Bool :=
  decide (e.kind < 16 ∧ e.after < 65536 ∧ e.tileFirst < 65536 ∧ e.tileCount < 65536 ∧ e.pkgFirst < 65536 ∧ e.pkgCount < 65536 ∧ e.slots < 65536 ∧
    e.head < 65536)
def manifestWf (m : Manifest) : Bool := decide (m.setId < 2 ^ 32 ∧ m.jobs.length ≤ 1024) && m.jobs.all jobWf && wordsWf 256 m.img
/-- The field widths of R302 and R303. -/
def discWf (e : DiscEnt) : Bool := decide (e.uid < 2 ^ 64 ∧ e.last < 64 ∧ e.pref < 64 ∧ e.cdu < 65536)
def asgWf (e : AsgEnt) : Bool := decide (e.uid < 2 ^ 64 ∧ e.addr < 64)
/-- The field widths of R343. -/
def evWf (e : EvIn) : Bool := decide (e.cls < 8 ∧ e.origin < 8 ∧ e.unit < 256 ∧ e.sub < 65536 ∧ e.op < 65536 ∧ e.arg < 2 ^ 64)

/-- Whether a command's operands are such as its sender can give. -/
def Instr.wf : Instr → Bool
  | .tickBoundary _ _ _ _ => true
  | .takeover _ => true
  | .aonclkLoss _ => true
  | .tickMark _ _ => true
  | .frameBoundary => true
  | .selfRefreshExitRequest => true
  | .ergClockStartRequest _ => true
  | .advisoryPost _ => true
  | .advisory _ _ => true
  | .advisoryExpiry => true
  | .conservClear => true
  | .adaptationStart => true
  | .adaptationStop => true
  | .ergSleep _ => true
  | .mboxGo _ _ => true
  | .mboxBatchArrival => true
  | .mboxVerdict _ _ => true
  | .mboxApply => true
  | .mboxNoLane => true
  | .registerWrite _ _ _ => true
  | .busTimeout _ _ => true
  | .hiLoReadLatch _ _ => true
  | .blockEnable _ _ => true
  | .blockDisable _ _ => true
  | .blockReset _ _ => true
  | .forceSafe _ _ _ => true
  | .blockReady _ => true
  | .blockStopComplete _ => true
  | .pendingEnableStart _ => true
  | .blockFault _ => true
  | .irqClear _ _ _ => true
  | .errCntClear _ _ => true
  | .busErrClear => true
  | .governorCycle _ => true
  | .inrushRequest item => itemWf item
  | .grant item => itemWf item
  | .surgeWindowEnd item => itemWf item
  | .spacingIntervalEnd _ => true
  | .bypassStart _ => true
  | .inrushHold => true
  | .inrushHoldClear => true
  | .packageRailLoss => true
  | .domainWakeComplete _ => true
  | .powerEvalInterval tXoide tHervi => decide (tXoide < 256 ∧ tHervi < 256)
  | .ergThermalStop tMax => decide (tMax < 256)
  | .dvfsStepComplete _ => true
  | .supplyLowChange _ _ => true
  | .droopDetect _ mv pointMv => decide (mv < 65536 ∧ pointMv < 65536)
  | .droopRelease _ => true
  | .droopWaitEnd _ => true
  | .frameDone => true
  | .ledgerPeakClear => true
  | .input _ _ => true
  | .selftest _ _ => true
  | .snapshot _ _ => true
  | .record _ _ => true
  | .log _ _ => true
  | .status _ _ => true
  | .cmd _ _ => true
  | .linkDown _ => true
  | .linkDownClear _ => true
  | .mergeEnd _ => true
  | .mergeSelftestRepeat _ _ => true
  | .bootComplete _ => true
  | .laneBBootWait => true
  | .resyncComplete _ => true
  | .probationPass _ => true
  | .rotationOverdue _ => true
  | .laneCmdRestart _ => true
  | .laneCmdDemote _ => true
  | .laneCmdTakeover _ => true
  | .commandReportTimeout _ => true
  | .claimBeacon _ _ _ => true
  | .receiverHoldExpiry _ => true
  | .receiverAuthForget _ => true
  | .playaTickBoundary _ cur rails => decide (cur.length = 24 ∧ rails.length = 6) && wordsWf 256 cur && wordsWf 1024 rails
  | .actuatorFrame _ _ _ => true
  | .loopOut _ _ _ _ => true
  | .playaStatusReport _ _ _ => true
  | .playaReset _ => true
  | .sensorSample _ _ _ x => sampleWf x
  | .rangeFault _ _ => true
  | .rangeRecovery _ _ => true
  | .pathSuspect _ _ => true
  | .pathRecovery _ _ => true
  | .pairSuspect _ => true
  | .pairRecovery _ => true
  | .leakVerdict _ => true
  | .leakRopeFault _ => true
  | .sensLeakClr _ => true
  | .dewPoll => true
  | .dewReply _ _ _ _ => true
  | .dewReplyTimeout _ => true
  | .dewPointVerdict => true
  | .mapSegment _ seg => segWf seg
  | .hotspotSummary => true
  | .hotspotSuspect _ _ => true
  | .hotspotClear _ _ => true
  | .agentPortFailover _ => true
  | .lcalStage => true
  | .lcalWdata _ _ => true
  | .lcalCommit => true
  | .lcalCommitForeign => true
  | .lcalAbort => true
  | .calReady _ _ => true
  | .calSwitch => true
  | .calTimeout => true
  | .calEnter _ _ => true
  | .calLeave _ _ => true
  | .calCancel _ _ => true
  | .calAbandon _ _ => true
  | .returnValid _ _ => true
  | .lengFeClr _ _ => true
  | .bankCmdCheck => true
  | .bankCmdSwap => true
  | .bankCmdSwapAt => true
  | .bankCmdCancel => true
  | .bankCmdCopy => true
  | .bankSwap => true
  | .lutEntryWrite _ => true
  | .traceArm => true
  | .traceForce => true
  | .traceStop => true
  | .nop _ => true
  | .jmp _ => true
  | .brz _ => true
  | .loop _ => true
  | .setr _ => true
  | .bar _ => true
  | .xEnd _ => true
  | .ldw _ => true
  | .mm _ => true
  | .aclr _ => true
  | .vadd _ => true
  | .vsub _ => true
  | .vmul _ => true
  | .vmulc _ => true
  | .vmax _ => true
  | .vmin _ => true
  | .vrelu _ => true
  | .vclamp _ => true
  | .vfma _ => true
  | .vexp _ => true
  | .vlog2 _ => true
  | .vrcp _ => true
  | .vrsqrt _ => true
  | .vsig _ => true
  | .vtanh _ => true
  | .vrmax _ => true
  | .vrsum _ => true
  | .cvt _ => true
  | .xld _ => true
  | .xst _ => true
  | .residueVerdict _ _ _ => true
  | .replay _ => true
  | .ergStartComplete _ _ => true
  | .ergPllUnlock _ => true
  | .jobStart _ => true
  | .jobDone _ _ _ _ => true
  | .jobRunEnd _ => true
  | .scrub => true
  | .xjobLoad m => manifestWf m
  | .fittingComplete => true
  | .xjobArm => true
  | .xjobCancel => true
  | .swapWindow => true
  | .swapAbandon => true
  | .xeccInjectArm _ => true
  | .xoideReset => true
  | .capFrame _ _ _ _ => true
  | .dropFrame _ _ _ _ => true
  | .haboobFrame _ _ _ => true
  | .capApply _ _ _ => true
  | .receiverSilenceHold _ => true
  | .receiverSilenceRevert _ => true
  | .idleDwell _ => true
  | .capcTblWdata _ _ => true
  | .gatherTimeout => true
  | .shutdownRelay => true
  | .ack _ _ _ => true
  | .ackDeadline => true
  | .abortFrame _ _ _ _ => true
  | .slipSubmit _ => true
  | .slipWithdraw => true
  | .slipAbort => true
  | .profileStart _ _ => true
  | .boostEnd _ _ => true
  | .peakEnd _ => true
  | .holdEnd _ => true
  | .profileCut _ => true
  | .openCoil _ _ => true
  | .channelOvercurrent _ _ => true
  | .switchOvercurrent _ _ => true
  | .railOvervoltage _ _ => true
  | .commandWaitTimeout _ => true
  | .moveVerdict _ d _ => detWf d
  | .boostRechargeRequest _ _ => true
  | .boostRechargeEnd _ _ => true
  | .bankStartTimeout _ _ => true
  | .vbankChClr _ _ => true
  | .vbankPosSet _ _ _ => true
  | .dutyLoad _ => true
  | .tachEdge _ ts => decide (ts < 2 ^ 64)
  | .fanStartWindowEnd _ => true
  | .fanEdgeTimeout _ => true
  | .fanKickEnd _ => true
  | .fanTachRecovery _ => true
  | .fanStall _ => true
  | .fanClr _ _ => true
  | .playaWatchdog _ => true
  | .pumpStartTimeout _ => true
  | .pumpStopTimeout _ => true
  | .pumpTachLost _ => true
  | .pumpPoll _ => true
  | .modbusReply _ _ _ regs => decide (regs.length ≤ 6) && wordsWf 65536 regs
  | .modbusReplyTimeout _ => true
  | .lossConfigRead _ _ _ => true
  | .pumpMbSetLoss _ _ => true
  | .pumpMbWrite _ => true
  | .dryRunVerdict _ => true
  | .pumpDryClr _ => true
  | .fanSlow _ => true
  | .fanSlowClear _ => true
  | .flowStop => true
  | .flowRestored => true
  | .flowDecl => true
  | .flowDeclEnd => true
  | .pressHi => true
  | .pressHiEnd => true
  | .pressMax => true
  | .supOver => true
  | .haboobConditionEnd => true
  | .shutdownTimer => true
  | .protCmdHaboob _ => true
  | .protCmdHaboobEnd => true
  | .protCmdRestore _ => true
  | .protCmdStandbyRet => true
  | .packageOff _ => true
  | .packageOffClear _ => true
  | .dewOverrideEnd => true
  | .dewBreach => true
  | .oneFeed _ _ => true
  | .holdup _ _ => true
  | .holdupFlashWrite => true
  | .holdupClear _ _ => true
  | .portLoopbackCheck _ _ => true
  | .relayConfirm => true
  | .relayConfirmTimeout _ => true
  | .relayDisagree _ => true
  | .waitPeerTimeout _ => true
  | .laneRailLoss => true
  | .link _ _ _ _ _ => true
  | .caravanLinkUp _ => true
  | .caravanLinkDown _ => true
  | .blockLockLoss _ => true
  | .discoveryStart => true
  | .disc _ _ _ _ _ list => decide (1 ≤ list.length ∧ list.length ≤ 64) && list.all discWf
  | .discEnd _ _ _ _ _ list => decide (1 ≤ list.length ∧ list.length ≤ 64) && list.all discWf
  | .assign _ _ _ _ _ _ list => decide (1 ≤ list.length ∧ list.length ≤ 64) && list.all asgWf
  | .discoveryFail => true
  | .pairReq _ _ _ _ _ => true
  | .pairAccept _ _ _ _ _ => true
  | .pairSnap _ _ _ _ _ => true
  | .pairLog _ _ _ _ => true
  | .pairInput _ _ _ _ elec => elec.all (fun x => decide (x.1 < 256))
  | .pairStatus _ _ _ _ _ _ _ => true
  | .pairHandover _ _ _ _ _ => true
  | .pairBSet _ _ _ _ _ _ => true
  | .hallBroadcast => true
  | .hall _ _ _ bytes => decide (bytes.length = 32)
  | .data _ _ _ bytes => decide (1 ≤ bytes.length ∧ bytes.length ≤ 512)
  | .echo _ _ _ _ _ => true
  | .crvnTxGo _ _ _ => true
  | .crvnRxPop => true
  | .crvnEchoGo _ _ => true
  | .echoTimeout => true
  | .redfishGet _ => true
  | .redfishBudgetPatch _ _ => true
  | .redfishPkgPatch _ _ _ => true
  | .redfishSubscribe _ _ => true
  | .redfishUnsubscribe id => decide (id < 2 ^ 32)
  | .redfishSimpleUpdate _ => true
  | .regRd _ _ => true
  | .regWr _ _ _ => true
  | .regCpl _ => true
  | .memRd _ _ _ => true
  | .memWr _ _ bytes => decide (bytes.length ≤ 224)
  | .memCpl _ => true
  | .irq _ _ => true
  | .idle _ _ _ => true
  | .flitReplay _ _ _ => true
  | .ucieRetrain _ => true
  | .ucieMemoryTimeout _ => true
  | .quadrantIdleTimeout _ => true
  | .ptpSync _ _ sync => decide (sync.path < 2 ^ 32)
  | .ptpSyncTimeout => true
  | .ptpMessage _ _ _ _ path => (match path with | some p => decide (p < 2 ^ 32) | none => true)
  | .secEnroll _ => true
  | .secRevoke _ => true
  | .secTamperClr _ => true
  | .secRaiseSvn => true
  | .secAttest => true
  | .attestationComplete => true
  | .secDbgOpen _ => true
  | .secDbgKill _ => true
  | .lsecTamperClr => true
  | .lsecDbgOpen _ => true
  | .lsecDbgKill _ => true
  | .lsecAttest => true
  | .fuseBlowComplete _ => true
  | .panelSample _ _ _ => true
  | .presenceOpen => true
  | .presenceWindowExpiry => true
  | .buttonRelease => true
  | .buttonStuck => true
  | .jumperFitted => true
  | .jumperRemoved => true
  | .presCtrlClose => true
  | .sealOpen => true
  | .sealRead _ _ _ => true
  | .eventOccurrence o => evWf o
  | .entryClose => true
  | .recorderStartRedelivery => true
  | .recCursor _ => true
  | .recWinAutoRead => true
  | .recFifoPeakClr => true
  | .invSet => true
  | .inventoryFlush => true
  | .laneFlashLog _ => true
  | .feedUp _ _ => true
  | .laneRailUp _ _ _ => true
  | .lupdStage _ => true
  | .lupdWdata _ _ _ => true
  | .lupdVerify _ => true
  | .lupdVerifyComplete _ _ _ => true
  | .lupdActivate _ => true
  | .lupdRollback _ => true
  | .lupdAbort _ => true
  | .trialTimeout _ => true
  | .herviTrialTimeout => true
  | .twinHandover => true
  | .twinCancel => true
  | .secondSlotWait => true
  | .paired => true
  | .pairStatusLoss => true
  | .peerOwnChange _ => true
  | .handoverBoundary => true
  | .peerOwnConflict => true
  | .slotRemoval => true
  | .herviRestart => true
  | .laneWatchdogReset _ => true
  | .herviBootComplete => true
  | .xoideBootComplete => true
  | .ucieRetrainComplete _ _ => true
  | .ethLinkLoss _ _ => true

end Sys2Proof
end

