-- ==== Sys2Proof/Tests/Slice0.lean ====
section
/-! SUPPORT. Tests: ill-formed operands are refused, a few worked examples of the spec, and for every statement concrete states and operands
that meet the hypotheses of each of its clauses. -/
set_option Elab.async false
namespace Sys2Proof.Tests
open Sys2Proof Sys2Proof.Machine

/-! ### Small states -/

/-- A lane with its core changed. -/
def core (f : LaneCore → LaneCore) (l : Lane) : Lane := { l with core := f l.core }
/-- Reset with lane A, and with lane B, changed. -/
def onA (f : Lane → Lane) (s : State := State.reset) : State := { s with laneA := f s.laneA }
def onB (f : Lane → Lane) (s : State := State.reset) : State := { s with laneB := f s.laneB }
/-- Lane A is AUTHORITY and lane B STANDBY. -/
def up (s : State := State.reset) : State :=
  onA (core (fun c => { c with mode := .authority, claim := 0x180 })) (onB (core (fun c => { c with mode := .standby, claim := 0x121 })) s)
/-- Both lanes' row changed, the lanes computing in step. -/
def row (f : RowSt → RowSt) (s : State := State.reset) : State :=
  let s := up s
  { s with laneA := { s.laneA with row := f s.laneA.row }, laneB := { s.laneB with row := f s.laneB.row } }
/-- The tick count. -/
def atTick (n : Nat) (s : State := State.reset) : State := { s with time := { s.time with count := n, tick := n % 8, frame := n / 8 % 1024 } }
/-- A block's record. -/
def blkAt (k : Nat) (b : Blk) (s : State := State.reset) : State := blkSet s k b
/-- A field of a register, and of the row's registers. -/
def fldAt (f : Fld) (v : Nat) (s : State := State.reset) : State := s.setFld f v
def rfld (f : Fld) (v : Nat) (r : RowSt) : RowSt := r.setF f v
/-- Xoide up. -/
def xUp (f : XoideSt → XoideSt := id) (s : State := State.reset) : State := { s with x := f { s.x with up := true } }
def msg0 : StatusMsg := ⟨0, .authority, false, false, false, false, false, false, 0, 0, 0, 0⟩
def adv0 : Advisory := ⟨0, 0, 0, 0, 0, 0, 0, [], [], 0⟩
def man0 : Manifest := ⟨1, [], [], [], 0, [], [], 0, 0, []⟩
def dec0 : DecRec := ⟨0, 0, false, false, false, false, 0, false, false, 0, 0, 0, 0, [], [], [], [], [], [], []⟩
def info78 : PageInfo := match pageInfo 0x78 with | some i => i | none => ⟨0, 0, true, .bus, 0⟩
/-- Both rails are up. -/
def rails (s : State := State.reset) : State := { s with pwr := { s.pwr with seqSupply := true, laneRail := true, pkgRail := true } }
/-- The presence windows are open. -/
def opn (s : State := State.reset) : State :=
  { s with panS := { s.panS with w := true }, panA := { s.panA with w := true }, panB := { s.panB with w := true } }
def openUp : State := opn up

/-! ### Images with a right CRC -/

theorem xor_lt32 {a b : Nat} (ha : a < 2 ^ 32) (hb : b < 2 ^ 32) : a ^^^ b < 2 ^ 32 := Nat.xor_lt_two_pow ha hb
theorem crcR_lt (p : Nat) (hp : p < 2 ^ 32) (k c : Nat) (h : c < 2 ^ 32) : crcR p k c < 2 ^ 32 := by
  induction k generalizing c with
  | zero => exact h
  | succ k ih => unfold crcR; apply ih; split; · exact xor_lt32 (by omega) hp
                 · omega
theorem crcRBytes_lt (p : Nat) (hp : p < 2 ^ 32) (l : List Nat) (c : Nat) (h : c < 2 ^ 32) : crcRBytes p l c < 2 ^ 32 := by
  induction l generalizing c with
  | nil => exact h
  | cons b r ih => unfold crcRBytes; exact ih _ (crcR_lt p hp _ _ (xor_lt32 h (by omega)))
theorem crc32_lt (l : List Nat) : crc32 l < 2 ^ 32 := xor_lt32 (crcRBytes_lt _ (by decide) _ _ (by decide)) (by decide)

theorem tget_range (d : Nat) (f : Nat → Nat) (n j : Nat) : tget d ((upto n).map (fun k => (k, f k))) j = if j < n then f j else d := by
  have key : ∀ m a, tget d ((List.range' a m).map (fun k => (k, f k))) j = if a ≤ j ∧ j < a + m then f j else d := by
    intro m
    induction m with
    | zero => intro a; simp <;> omega
    | succ m ih =>
      intro a
      rw [List.range'_succ, List.map_cons, tget]
      by_cases h : a = j
      · subst h; simp
      · rw [if_neg h, ih]; congr 1; simp; omega
  rw [upto, List.range_eq_range', key]; simp

/-- The factory image with the next generation, staged with its CRC. -/
def calNext (k : Nat) : Nat := if k = 3 then 1 else calFactoryWord k
@[irreducible] def calNextCrc : Nat := crc32 (calBody calNext)
def calImg (k : Nat) : Nat := if k = 1031 then calNextCrc else calNext k
@[irreducible] def calStageOk : Tbl Nat := (upto 1032).map (fun k => (k, calImg k))
def calOk : CalSt := { CalSt.init with phase := .checking, stage := calStageOk }
theorem calOk_stage : calOk.stage = calStageOk := rfl
theorem tget_stage (k : Nat) : tget 0 calStageOk k = if k < 1032 then calImg k else 0 := by
  unfold calStageOk
  exact tget_range 0 calImg 1032 k
theorem calImg_above (k : Nat) (h : ¬ k < 1032) : calImg k = 0 := by
  unfold calImg calNext calFactoryWord
  repeat rw [if_neg (by omega)]
theorem stgWord_calOk : stgWord calOk = calImg := by
  funext k
  unfold stgWord
  rw [calOk_stage, tget_stage]
  split
  · rfl
  · exact (calImg_above k ‹_›).symm
theorem calBody_congr (f g : Nat → Nat) (h : ∀ k, k < calWords → f k = g k) : calBody f = calBody g := by
  unfold calBody
  have : (upto calWords).map (fun k => leBytes 4 (f k)) = (upto calWords).map (fun k => leBytes 4 (g k)) := by
    refine List.map_congr_left (fun k hk => ?_)
    rw [h k (List.mem_range.1 hk)]
  rw [this]
theorem calBody_calImg : calBody calImg = calBody calNext :=
  calBody_congr _ _ (fun k h => by unfold calImg; rw [if_neg (by unfold calWords at h; omega)])

/-! ### Frames and chips -/

def eth0 : EthOut :=
  ⟨0x180, 9, false, false, 0, 0, [], [], List.replicate 24 96, 0, 0, false, 0, none, 0, [], []⟩
def act0 : ActFrame := ⟨false, false, false, 0x180, 9, 0, 0, [], [], [], [], [], 0, 0, 0, []⟩
/-- Lane A sends a cap frame, and an actuator frame. -/
def sendE (f : EthOut → EthOut := id) (s : State := State.reset) : State := onA (fun l => { l with ethOut := some (f eth0) }) s
def sendA (f : ActFrame → ActFrame := id) (s : State := State.reset) : State := onA (fun l => { l with actOut := some (f act0) }) s
def rcv (e : Nat) (r : Recv) (s : State := State.reset) : State := { s with recv := tset {} s.recv e r }
/-- Both Playa chips powered and changed. -/
def chp (f : Chip → Chip := id) (s : State := State.reset) : State :=
  { s with chip0 := f { s.chip0 with powered := true }, chip1 := f { s.chip1 with powered := true } }
def vchAt (k : Nat) (x : VCh) (s : State := chp) : State := s.setVch k x
def bankAt (b : Nat) (x : VBank) (s : State := chp) : State := s.setBank b x
def fan47 (x : FanCh) (n : Nat) : State := atTick n (setFan chp 47 x)
def prt (f : ProtSt → ProtSt) (n : Nat := 0) : State := atTick n (row (fun r => { r with prot := f r.prot }))
def lat (onB : Bool) (n m : Nat) : Latch := ⟨onB, 0, n, m, false⟩
/-- Fan 47 with a current in the normal band. -/
def fan47n (x : FanCh) (n : Nat) : State := fan47 { x with cur := fget State.reset.leadRegs (F.FANG_CUR_NORM_LO 2) } n
def rx0 : RxFrame := ⟨2, 0, 0x180, 9, false, 0, .drop (some 4) none false⟩
def hdr1 : CHdr := ⟨1#8, 0x50#8, 0#6, true, 0#6, 9#8, 0#32, 0#16⟩

/-- A frame from node 4 to node 3 alone, the last type of R297. -/
def hdrP : CHdr := ⟨1#8, 0x57#8, 3#6, false, 4#6, 9#8, 0#32, 0#16⟩
/-- A module of the ring with address 3 whose pair holds address 4 too; both ports in RUN. -/
def ring (s : State := State.reset) : State :=
  let t := blkAt 0x110 { state := .run } (blkAt 0x111 { state := .run } (fldAt F.CRVN_STAT_ADDR_VALID 1 (fldAt F.CRVN_STAT_ADDR 3 (fldAt F.CRVN_CFG_PAIR_EN 1 s))))
  t.onCrvn (fun c => { c with order := [(ownUid s, some 3), (9, some 4)], known := [(9, (s.fld F.CRVN_CFG_CDU_ID, true))] })
def twn (f : TwinSt → TwinSt) (s : State := State.reset) : State := { s with twin := f s.twin }
/-- A page is LOCKED. -/
def lockAt (p : Nat) (s : State := State.reset) : State := { s with regs := rset s.regs (hdrGate p) 4 }
/-- Hervi reaches Xoide. -/
def xr (s : State := xUp) : State := { rails s with ucie := { s.ucie with m0 := { s.ucie.m0 with up := true }, m1 := { s.ucie.m1 with up := true } } }
/-- Every quadrant, and erg 7, in RUN. -/
def quads (s : State) : State :=
  fldAt (F.ERG_STAT_AWAKE 7) 1 <| blkAt 0x87 { state := .run } (blkAt 0x8A { state := .run } (blkAt 0x8B { state := .run } (blkAt 0x8C { state := .run } (blkAt 0x8D { state := .run } (blkAt 0x8E { state := .run } s)))))
/-- Job 1023 is of a kind on tile 575, after no other; job 1022 follows it. -/
def jobTab (kind : Nat) : Tbl Nat :=
  [(tableWord false + 4 * 1022, 1 + 1023 * 65536 + 575 * 2 ^ 32 + 2 ^ 48), (tableWord false + 4 * 1023, kind + 0xFFFF * 65536 + 575 * 2 ^ 32 + 2 ^ 48),
   (tableWord false + 4 * 1023 + 3, 5 * 2 ^ 32)]
def xjob (j : JobRun) (kind : Nat := 1) (f : XoideSt → XoideSt := id) : State :=
  quads (xUp (fun x => f { x with shared := jobTab kind, jobs := [(1022, { state := 1 }), (1023, j)], active := some man0, frameOn := true }))
def flt : FlitHdr := ⟨1, true, 0#8, 0#12, 0#12, false, 0#8⟩
def hrv (f : HerviSt → HerviSt) (s : State := State.reset) : State := { s with herv := f s.herv }
def scy (f : SecSt → SecSt) (s : State := State.reset) : State := { s with sec := f s.sec }
def fus (f : Fld) (v : Nat) (s : State := State.reset) : State := { s with fuses := fset s.fuses f v }
def pan (f : PanelSt → PanelSt) (s : State := State.reset) : State := { s with panS := f s.panS }
def pin (x : PanelSt → PanelSt) (s : State) : State := { s with panA := x s.panA, panB := x s.panB }
def mrc (f : MainRec → MainRec) (s : State := State.reset) : State := { s with mrec := f s.mrec }
def fwd' (f : LaneFw → LaneFw) (s : State := openUp) : State := { s with fwB := f s.fwB }
def pin0 : PanelIn := ⟨false, false, false⟩
def ev0 : EvIn := ⟨6, 0, 0xB0, 1, 2, 3, 4⟩
def occ0 : Occ := ⟨6, 0, 0xB0, 1, 2, 0x10003, 4⟩
/-- The open entry of that occurrence. -/
def ent0 : Entry := ⟨0, 0, 6, 0, true, false, false, 0xB0, 1, 2, 0x10003, 1, 0, 0, 0, 0, 0, 0, 0, 0, 0, 0, 0, 4⟩
/-- Tile 575 runs, its next instruction given by its word; words 100 and 101 hold a descriptor of 32 bytes between tile word 200 and shared SRAM. -/
def tileOp (w : Nat) (f : Tile → Tile := id) (xa : Nat := 8 * xaShared) : State :=
  quads (xUp (fun x => { x with tiles := [(575, f { running := true, sram := [(0, w), (100, xa), (101, 32 + 200 * 2 ^ 32)] })] }))
/-- An instruction word of FP32 operands with AA = 100. -/
def xw (opc : Nat) : Nat := opc * 2 ^ 58 + 100 * 2 ^ 26
/-- What `tileFetches` says, as a test. -/
def fetches (s : State) (t opc : Nat) : Bool :=
  s.x.errs.isEmpty && tileReady t s && xLegal (xIns ((s.tile t).word (s.tile t).pc)) && ((xIns ((s.tile t).word (s.tile t).pc)).opc == opc)
theorem fetches_iff (s : State) (t opc : Nat) (h : fetches s t opc = true) : tileFetches s t opc (xIns ((s.tile t).word (s.tile t).pc)) := by
  simp only [fetches, Bool.and_eq_true, List.isEmpty_iff, beq_iff_eq] at h
  exact ⟨h.1.1.1, h.1.1.2, rfl, h.1.2, h.2⟩

/-! ### Signed tokens -/

/-- Signatures with the factory key over the tokens ENROLL, REVOKE of slot 0, TAMPER_CLR and (5) REVOKE of slot 5 for the UID, count and nonce of reset. -/
def tokenSig (k : Nat) : Nat :=
  match k with
  | 1 => 0x11FEB72D2881E89FC0A8D369B80EDB1B7A7C410E4656E4C7922A0A099921077ABCA322BF0A7E8F2F8F258934627C2061AE4212E2696D6ED1D6ABC022AF81019458A83FE86B98AF9EC4ED38A4413940148CC7B20E6F02D76A9F600178945F13EF784DAE22304859B23F40254123C088AB43DD489DEF7EAC86B32E0C975D5F85A2239ADB7DD14D5352E27EEFCFFFFC8878B6B713A6DB2684ECA446EEBCF11E94D9B5CB62F5F03D87F8CEC7D0E2BBEA1A8A2E33C8BF90B9032B0DD5C0B27581050C35BFB0F842D2336B06BFEC99A021A54D6DECF8ADAA40F69B5FDB11E1F501F4363DB75E43DF41597D4E259D6314F18D9038F5E37222F2F71FA1220FB1BB3C7CF69F2A89E6122DD15A92FDEAF4C09105EBF48F1E0DEBCAD0E4460ABF16B731476558D3E004CF68FEEDDDA2D13F6F9276DA00EABBC76322A1AAACA62862601AFF71AA6C99934132C652E35EEB15119300B60C56F57EAC0D27E7E0EDD6E45A7C31BE7F76041DC2645E83C3F7FE1B773C16A55939DF97ED97B7CA3F2D04FE711B0F8F
  | 2 => 0x15A110A2ABA61E5F52E2AB7ABCA4F22652AB77DE91D6ECDFAA6AD5F48B1F4A3E1896D7215C0B3AF73342E632CD5357EB11DC0140C24A99D5D9317A2D0797D8CDE532B649B20F5579164FCED1FD2DCFDA6599BEBB7DA53A60041A44830DB483C5C36E3B23CF9EBE1EACE630F5E37EEF8F1B15BAFEBC00F380DB032EC264EBB35FF36524C327CD3E4AC279142392FB08982BA65382FBB23A79755C9D388B96AFCCF739AA3B5ADEC743DC92C7B37D7D51F3BAD0851F954D996125CC16EB79550A89AAA67570C8C9F3ADD07451502661F6B4B01667EDC91A669BBF1371D89F98DA11AB7FFF45F2FB00CAA91AA191890DECB0DB2BA14F53C04D14BF215383A628B6C08FDF868447B6F60F95A291E1BADDB8C7C25077F9ED5046FE15006F78EED9C52EACA51299D3BEED3E045D7B037F0501D4B801330E780F49EDB134EB5CF6B9A50F404F119AAD8B300C64FD7AFFA97BA45F5715AB53E5FB54E2117F85C0D9FCC0F45C2D3D3F1CADC3F1E1C4FF970E47843963BBBC2355DB727CBB314DED53A3E868
  | 3 => 0x9F17AD74C2FC19F46797E47E18021C78CC9EFF29D224C9A326FF7E02278CB76AD35415C8BFA9A618E4AE0807F60C94E598FE3ABE174F39E90F4A2775E174B693D25C165AD7C6472721D7E9D5874F3116000490444ECD0033D11BFA21DD95EA992523ACADE5E98619BF16BB717E0E28E2ACBD7708D9935B7E0D80A570EFB384FD3D4E260800D708276B6021BC3026D260C21AE90622B95E763299939EEA17FD1BC1216E5700ADC126DE38B86A2A8593E39D8FE310131C5B4450D5991383F377F67AC31CAF31F26687B9D22B505E63545320714CF86BA3A175AF861236CEF5621C53BB1B643667FE55A411EF4A66C09B993FEC83B1B4550A374D2A82DFBCB3CBFAF245A5F982650FDD37DD69AE14C173A5F320262315916C886FBAC839DA9372A089DE81708B58AF501CE367A5270CDBB676338A2EE7632F0FA41CA46F1342C8FD2BE8889B34EA9EDC3ED364B88B54CC122CBB97F9250B25084C5A04C8C8BFD37B6E32EA8A4C056453ADA237E35DC3B0794C8EDB17C15D75E0F3787B932427C10A
  | _ => 0xC9F00EEEE3349BB3740F9932BDCCB79CDC0E4E9E867BDFDEB187F83173CF6C67DC8FF6B0060F07FB5736567AF849E0640661E026F491B1FA0F0598D746E9EA7D6EE3A63F1A5FD278F34C72A50D8C40A4F4FD2AAD332B79B9443BCE3F705ADD909F4105EDA6505BF27EBD2F8DD16500B726EAE740B8C9B5979C248FF45A4CF86E49A015845AF2C9229168D139D244AC82EE9B675A0AA1EE208AB57477AAC76C6A5663DA15B72108809D11E90C6157E3B0454B3297E89719D95147D3BFCEDCE54A427E35579A6A49E131192BF9B6B595E7B15C23A94B9BD4F561C939D58CA8814465B0801A56D8D93B53C33477C650F013AF5A88AC14843DAA23B91DA9D14D3D8E9D95B553D1452CADE2C3BCF8BFAEE120E9BCE77849E65E3A07A758C0C7B4F83109758F5F4EC4A9CAAAE8700E94FF8D2588A6EDA1817115AC0953C5271CD6BC35227769278AD01D44504ABD482DEF0C2CC82D02C4723BBCE8B08DEBA6251D4AA4435ACE8CC9650B75F5DBF2809E59C31B56AD632BED256A089AC9F6F57610B3FB
/-- SEC_SIGBUF holds that signature. -/
def signed (k : Nat) (s : State) : State := (upto 96).foldl (fun s j => fldAt (F.SEC_SIGBUF j) (tokenSig k / 2 ^ (32 * (95 - j)) % 2 ^ 32) s) s
/-- Slot 0 holds the factory key as its owner key. -/
def owned (s : State) : State :=
  (upto 8).foldl (fun s j => { s with fuses := fset s.fuses (F.FUSE_OWNER_HASH_HASH 0 j) (factoryKey / 2 ^ (32 * j) % 2 ^ 32) }) { s with fuses := fset s.fuses F.FUSE_OWNER_STAT_ENROLLED 1 }

def s_CrossLaneMessagesAndAonclk_0 : State := onA (core (fun c => { c with mode := .authority })) (onB (core (fun c => { c with mode := .resync })))
def s_CrossLaneMessagesAndAonclk_1 : State := onB (core (fun c => { c with mode := .resync, chunks := 15, logs := 15 })) (onA (core (fun c => { c with mode := .authority, serving := some 0 })) (atTick 15))
def s_CrossLaneMessagesAndAonclk_2 : State := onB (core (fun c => { c with mode := .resync, chunks := 16, logs := 15 })) (onA (core (fun c => { c with mode := .authority, serving := some 0 })) (atTick 15))
def s_CrossLaneMessagesAndAonclk_3 : State := onA (core (fun c => { c with cmdWait := some ⟨false, 1, 1, 9⟩ }))
def s_CrossLaneMessagesAndAonclk_4 : State := onA (core (fun c => { c with cmdWait := some ⟨false, 1, 1, 9⟩ })) up
def s_CrossLaneMessagesAndAonclk_5 : State := onB (core (fun c => { c with aonLost := true })) up
theorem test_CrossLaneMessagesAndAonclk :
    (((s_CrossLaneMessagesAndAonclk_0.lane LaneId.b).core.await ≠ .status)) ∧
    (((s_CrossLaneMessagesAndAonclk_1.lane (otherLane LaneId.b)).core.mode = .authority) ∧ ((s_CrossLaneMessagesAndAonclk_1.lane LaneId.b).core.mode = .resync) ∧ ((15 : Nat) < 16) ∧ ((s_CrossLaneMessagesAndAonclk_1.lane LaneId.b).core.chunks = (15 : Nat)) ∧ ((s_CrossLaneMessagesAndAonclk_1.lane LaneId.b).core.logs = (15 : Nat)) ∧ (((s_CrossLaneMessagesAndAonclk_1.lane (otherLane LaneId.b)).core.serving).any (fun t0 => decide ((s_CrossLaneMessagesAndAonclk_1.time.count = t0 + (15 : Nat)))) = true)) ∧
    (((s_CrossLaneMessagesAndAonclk_2.lane (otherLane LaneId.b)).core.mode = .authority) ∧ ((s_CrossLaneMessagesAndAonclk_2.lane LaneId.b).core.mode = .resync) ∧ ((s_CrossLaneMessagesAndAonclk_2.lane LaneId.b).core.chunks = (15 : Nat) + 1) ∧ ((s_CrossLaneMessagesAndAonclk_2.lane LaneId.b).core.logs = (15 : Nat)) ∧ (((s_CrossLaneMessagesAndAonclk_2.lane (otherLane LaneId.b)).core.serving).any (fun t0 => decide ((s_CrossLaneMessagesAndAonclk_2.time.count = t0 + (15 : Nat)))) = true)) ∧
    (((s_CrossLaneMessagesAndAonclk_3.lane LaneId.b).votes = false) ∧ (((s_CrossLaneMessagesAndAonclk_3.lane (otherLane LaneId.b)).core.cmdWait).any (fun _ => decide (True)) = true)) ∧
    (((s_CrossLaneMessagesAndAonclk_4.lane LaneId.b).votes = true) ∧ (((s_CrossLaneMessagesAndAonclk_4.lane (otherLane LaneId.b)).core.cmdWait).any (fun _ => decide (True)) = true)) ∧
    (((s_CrossLaneMessagesAndAonclk_3.lane LaneId.a).core.aonLost = false) ∧ (((s_CrossLaneMessagesAndAonclk_3.lane (otherLane LaneId.a)).running = false ∨ (s_CrossLaneMessagesAndAonclk_3.lane (otherLane LaneId.a)).core.aonLost = true))) ∧
    (((s_CrossLaneMessagesAndAonclk_0.lane LaneId.a).core.aonLost = false) ∧ ((s_CrossLaneMessagesAndAonclk_0.lane (otherLane LaneId.a)).running = true) ∧ ((s_CrossLaneMessagesAndAonclk_0.lane (otherLane LaneId.a)).core.aonLost = false)) ∧
    (((s_CrossLaneMessagesAndAonclk_5.lane LaneId.b).core.aonLost = true) ∧ (outranks (s_CrossLaneMessagesAndAonclk_5.lane (otherLane LaneId.b)).core.claim (s_CrossLaneMessagesAndAonclk_5.lane LaneId.b).core.claim = true)) ∧
    (((s_CrossLaneMessagesAndAonclk_0.lane LaneId.a).core.aonLost = false ∨ outranks (s_CrossLaneMessagesAndAonclk_0.lane (otherLane LaneId.a)).core.claim (s_CrossLaneMessagesAndAonclk_0.lane LaneId.a).core.claim = false)) := by
  refine ⟨?_, ?_, ?_, ?_, ?_, ?_, ?_, ?_, ?_⟩ <;> decide +kernel

def s_TakeoverAndLaneCommands_0 : State := onB (core (fun c => { c with mode := .standby, takeoverCmd := true }))
def s_TakeoverAndLaneCommands_1 : State := onB (core (fun c => { c with mode := .standby, await := .status })) (onA (core (fun c => { c with mode := .authority, claim := 0x180, statusOwn := some msg0, await := .nothing })))
def s_TakeoverAndLaneCommands_2 : State := { up with panS := { State.reset.panS with w := true }, panA := { State.reset.panA with w := true }, panB := { State.reset.panB with w := true } }
def s_TakeoverAndLaneCommands_3 : State := atTick 9 (onA (core (fun c => { c with cmdWait := some ⟨false, 1, 1, 7⟩ })))
def s_TakeoverAndLaneCommands_4 : State := atTick 9 (onA (core (fun c => { c with cmdWait := some ⟨false, 2, 1, 7⟩ })))
def s_TakeoverAndLaneCommands_5 : State := atTick 9 (onA (core (fun c => { c with cmdWait := some ⟨true, 2, 1, 7⟩ })))
theorem test_TakeoverAndLaneCommands :
    (((s_TakeoverAndLaneCommands_0.lane LaneId.b).core.mode = .standby) ∧ ((s_TakeoverAndLaneCommands_0.lane LaneId.b).core.await ≠ .status) ∧ (((s_TakeoverAndLaneCommands_0.lane LaneId.b).core.takeoverCmd = true ∨ (s_TakeoverAndLaneCommands_0.lane LaneId.b).core.statusLast.any (fun o => o.claim == 0 || (o.mode == .authority && o.stFail && !(s_TakeoverAndLaneCommands_0.lane LaneId.b).core.stFail)) = true ∨ (2 ≤ (s_TakeoverAndLaneCommands_0.lane LaneId.b).core.missRun ∧ (if LaneId.b = .a then (s_TakeoverAndLaneCommands_0.lane LaneId.b).core.playaSawB else (s_TakeoverAndLaneCommands_0.lane LaneId.b).core.playaSawA) = false)))) ∧
    (((s_TakeoverAndLaneCommands_1.lane LaneId.b).core.mode = .standby) ∧ ((s_TakeoverAndLaneCommands_1.lane LaneId.b).core.await = .status) ∧ ((s_TakeoverAndLaneCommands_1.lane LaneId.b).core.merge = false) ∧ ((s_TakeoverAndLaneCommands_1.lane LaneId.b).core.takeoverCmd = false) ∧ ((s_TakeoverAndLaneCommands_1.lane LaneId.b).core.stOwn = none) ∧ ((s_TakeoverAndLaneCommands_1.lane LaneId.b).core.rot.faultTick = none) ∧ ((s_TakeoverAndLaneCommands_1.lane LaneId.b).core.statusLast.all (fun o => o.claim != 0 && !o.stFail) = true) ∧ ((s_TakeoverAndLaneCommands_1.lane (otherLane LaneId.b)).core.await = .nothing) ∧ (((s_TakeoverAndLaneCommands_1.lane (otherLane LaneId.b)).core.statusOwn).any (fun _ => decide (True)) = true)) ∧
    ((s_TakeoverAndLaneCommands_0.locked (0x10 + 0x10 * laneNum LaneId.b) = false) ∧ ((s_TakeoverAndLaneCommands_0.lane LaneId.b).core.mode = .standby)) ∧
    ((s_TakeoverAndLaneCommands_2.locked (0x10 + 0x10 * laneNum LaneId.b) = false) ∧ (s_TakeoverAndLaneCommands_2.panS.w = true) ∧ (s_TakeoverAndLaneCommands_2.panA.w = true) ∧ (s_TakeoverAndLaneCommands_2.panB.w = true) ∧ ((s_TakeoverAndLaneCommands_2.lane LaneId.b).votes = true) ∧ (((s_TakeoverAndLaneCommands_2.lane (otherLane LaneId.b)).core.mode = .standby ∨ (s_TakeoverAndLaneCommands_2.lane (otherLane LaneId.b)).core.mode = .authority)) ∧ ((s_TakeoverAndLaneCommands_2.lane (otherLane LaneId.b)).core.stFail = false)) ∧
    ((s_TakeoverAndLaneCommands_0.locked (0x10 + 0x10 * laneNum LaneId.a) = false) ∧ ((s_TakeoverAndLaneCommands_0.lane LaneId.a).votes = false) ∧ ((s_TakeoverAndLaneCommands_0.lane (otherLane LaneId.a)).votes = true)) ∧
    ((((s_TakeoverAndLaneCommands_3.lane (otherLane LaneId.b)).core.cmdWait).any (fun m => decide ((m.apply + 2 ≤ s_TakeoverAndLaneCommands_3.time.count) ∧ (m.isSec = false) ∧ (m.code = 1))) = true)) ∧
    ((((s_TakeoverAndLaneCommands_4.lane (otherLane LaneId.b)).core.cmdWait).any (fun m => decide ((m.apply + 2 ≤ s_TakeoverAndLaneCommands_4.time.count) ∧ (m.isSec = false) ∧ (m.code ≠ 1))) = true)) ∧
    ((((s_TakeoverAndLaneCommands_5.lane (otherLane LaneId.b)).core.cmdWait).any (fun m => decide ((m.apply + 2 ≤ s_TakeoverAndLaneCommands_5.time.count) ∧ (m.isSec = true))) = true)) := by
  refine ⟨?_, ?_, ?_, ?_, ?_, ?_, ?_, ?_⟩ <;> decide +kernel

def s_LinkMergeAndSelfTest_0 : State := onA (core (fun c => { c with missRun := 2 }))
def s_LinkMergeAndSelfTest_1 : State := onB (core (fun c => { c with linkDown := true, goodRun := 8, otherClaim := 0x180 })) up
def s_LinkMergeAndSelfTest_2 : State := onA (core (fun c => { c with linkDown := true, goodRun := 8, otherClaim := 0x121 })) up
def s_LinkMergeAndSelfTest_3 : State := onA (core (fun c => { c with merge := true, equalRun := 8192 }))
def s_LinkMergeAndSelfTest_4 : State := atTick 64 (onA (core (fun c => { c with merge := true })))
def s_LinkMergeAndSelfTest_5 : State := onA (core (fun c => { c with await := .selftest, stOwn := some false })) (onB (core (fun c => { c with await := .selftest, selftestOut := some true })))
def s_LinkMergeAndSelfTest_6 : State := onA (core (fun c => { c with await := .record, recordOut := some dec0 })) (onB (core (fun c => { c with await := .record, recordOut := some dec0 })) up)
theorem test_LinkMergeAndSelfTest :
    (((s_LinkMergeAndSelfTest_0.lane LaneId.a).core.linkDown = false) ∧ (2 ≤ (s_LinkMergeAndSelfTest_0.lane LaneId.a).core.missRun)) ∧
    (((s_LinkMergeAndSelfTest_1.lane LaneId.b).core.linkDown = true) ∧ (8 ≤ (s_LinkMergeAndSelfTest_1.lane LaneId.b).core.goodRun) ∧ (((s_LinkMergeAndSelfTest_1.lane LaneId.b).core.mode = .probation ∨ (s_LinkMergeAndSelfTest_1.lane LaneId.b).core.mode = .standby)) ∧ (outranks (s_LinkMergeAndSelfTest_1.lane LaneId.b).core.otherClaim (s_LinkMergeAndSelfTest_1.lane LaneId.b).core.claim = true)) ∧
    (((s_LinkMergeAndSelfTest_2.lane LaneId.a).core.linkDown = true) ∧ (8 ≤ (s_LinkMergeAndSelfTest_2.lane LaneId.a).core.goodRun) ∧ (((s_LinkMergeAndSelfTest_2.lane LaneId.a).core.mode ≠ .probation ∧ (s_LinkMergeAndSelfTest_2.lane LaneId.a).core.mode ≠ .standby) ∨ outranks (s_LinkMergeAndSelfTest_2.lane LaneId.a).core.otherClaim (s_LinkMergeAndSelfTest_2.lane LaneId.a).core.claim = false)) ∧
    (((s_LinkMergeAndSelfTest_3.lane LaneId.a).core.merge = true) ∧ ((8192 ≤ (s_LinkMergeAndSelfTest_3.lane LaneId.a).core.equalRun ∨ (s_LinkMergeAndSelfTest_3.lane LaneId.a).core.mergeEndDue = true))) ∧
    (((s_LinkMergeAndSelfTest_4.lane LaneId.a).core.merge = true) ∧ ((s_LinkMergeAndSelfTest_4.lane LaneId.a).core.mergeStart < s_LinkMergeAndSelfTest_4.time.count) ∧ ((s_LinkMergeAndSelfTest_4.time.count - (s_LinkMergeAndSelfTest_4.lane LaneId.a).core.mergeStart) % 64 = 0) ∧ ((s_LinkMergeAndSelfTest_4.lane LaneId.a).core.stTick ≠ some s_LinkMergeAndSelfTest_4.time.count) ∧ ((3 : Fin 6).val ≠ 0)) ∧
    (((s_LinkMergeAndSelfTest_4.lane LaneId.a).core.merge = true) ∧ ((s_LinkMergeAndSelfTest_4.lane LaneId.a).core.mergeStart < s_LinkMergeAndSelfTest_4.time.count) ∧ ((s_LinkMergeAndSelfTest_4.time.count - (s_LinkMergeAndSelfTest_4.lane LaneId.a).core.mergeStart) % 64 = 0) ∧ ((s_LinkMergeAndSelfTest_4.lane LaneId.a).core.stTick ≠ some s_LinkMergeAndSelfTest_4.time.count) ∧ ((0 : Fin 6).val = 0)) ∧
    ((s_LinkMergeAndSelfTest_5.twin.passive = false) ∧ ((s_LinkMergeAndSelfTest_5.lane LaneId.a).core.await = .selftest) ∧ ((s_LinkMergeAndSelfTest_5.lane (otherLane LaneId.a)).core.await = .selftest) ∧ ((s_LinkMergeAndSelfTest_5.lane LaneId.a).core.stOwn = some false) ∧ ((s_LinkMergeAndSelfTest_5.lane (otherLane LaneId.a)).core.selftestOut = some true)) ∧
    ((s_LinkMergeAndSelfTest_6.twin.passive = false) ∧ ((s_LinkMergeAndSelfTest_6.lane LaneId.a).votes = true) ∧ ((s_LinkMergeAndSelfTest_6.lane LaneId.a).core.await = .record) ∧ ((s_LinkMergeAndSelfTest_6.lane (otherLane LaneId.a)).core.await = .record) ∧ (((s_LinkMergeAndSelfTest_6.lane LaneId.a).core.recordOut).any (fun _ => decide ((((s_LinkMergeAndSelfTest_6.lane (otherLane LaneId.a)).core.recordOut).any (fun _ => decide (True)) = true))) = true)) ∧
    (((s_LinkMergeAndSelfTest_0.lane LaneId.a).core.await ≠ .selftest)) := by
  refine ⟨?_, ?_, ?_, ?_, ?_, ?_, ?_, ?_, ?_⟩ <;> decide +kernel

def s_BootAndReturn_0 : State := onB (core (fun c => { c with admitted := true, statusLast := some msg0 }))
def s_BootAndReturn_1 : State := onB (core (fun c => { c with bootDone := true, admitted := true, bootWait := 64 }))
def s_BootAndReturn_2 : State := onB (core (fun c => { c with mode := .resync, chunks := 16, logs := 16 })) (onA (core (fun c => { c with mode := .authority, serving := some 0 })) (atTick 16))
def s_BootAndReturn_3 : State := onB (core (fun c => { c with mode := .probation, probRun := 8192 }))
def s_BootAndReturn_4 : State := onA (core (fun c => { c with rot := { c.rot with ticks := 4915200 } }))
theorem test_BootAndReturn :
    (((s_BootAndReturn_0.lane LaneId.a).core.mode = .boot) ∧ ((s_BootAndReturn_0.lane LaneId.a).core.bootDone = false) ∧ (s_BootAndReturn_0.twin.passive = false) ∧ (s_BootAndReturn_0.twin.waiting = false) ∧ (imgOk s_BootAndReturn_0 2 (bankImage (fwBank (s_BootAndReturn_0.fw LaneId.a) (s_BootAndReturn_0.fw LaneId.a).run)) = true) ∧ ((s_BootAndReturn_0.lane LaneId.a).core.admitted = false)) ∧
    (((s_BootAndReturn_0.lane LaneId.b).core.mode = .boot) ∧ ((s_BootAndReturn_0.lane LaneId.b).core.bootDone = false) ∧ (s_BootAndReturn_0.twin.passive = false) ∧ (s_BootAndReturn_0.twin.waiting = false) ∧ (imgOk s_BootAndReturn_0 2 (bankImage (fwBank (s_BootAndReturn_0.fw LaneId.b) (s_BootAndReturn_0.fw LaneId.b).run)) = true) ∧ ((s_BootAndReturn_0.lane LaneId.b).core.admitted = true) ∧ ((s_BootAndReturn_0.lane LaneId.b).core.missRun < 2) ∧ (((s_BootAndReturn_0.lane LaneId.b).core.statusLast).any (fun o => decide ((o.mode ≠ .boot))) = true)) ∧
    ((s_BootAndReturn_1.laneB.core.mode = .boot) ∧ (s_BootAndReturn_1.laneB.core.bootDone = true) ∧ (s_BootAndReturn_1.laneB.core.admitted = true) ∧ (64 ≤ s_BootAndReturn_1.laneB.core.bootWait) ∧ (s_BootAndReturn_1.laneB.core.statusLast.all (fun o => o.mode == .boot) = true)) ∧
    (((s_BootAndReturn_2.lane LaneId.b).core.mode = .resync) ∧ ((s_BootAndReturn_2.lane LaneId.b).core.chunks = 16) ∧ ((s_BootAndReturn_2.lane LaneId.b).core.logs = 16) ∧ (((s_BootAndReturn_2.lane (otherLane LaneId.b)).core.serving).any (fun t0 => decide ((t0 + 16 ≤ s_BootAndReturn_2.time.count))) = true)) ∧
    (((s_BootAndReturn_3.lane LaneId.b).core.mode = .probation) ∧ (8192 ≤ (s_BootAndReturn_3.lane LaneId.b).core.probRun)) ∧
    (((s_BootAndReturn_4.lane LaneId.a).core.rot.overdue = false) ∧ (4915200 ≤ (s_BootAndReturn_4.lane LaneId.a).core.rot.ticks)) := by
  refine ⟨?_, ?_, ?_, ?_, ?_, ?_⟩ <;> decide +kernel

def s_TickBoundaryStepsTheClock_0 : State := { State.reset with pwr := { State.reset.pwr with seqSupply := true } }
theorem test_TickBoundaryStepsTheClock :
    ((s_TickBoundaryStepsTheClock_0.pwr.seqSupply = true)) ∧
    ((State.reset.pwr.seqSupply = false)) := by
  refine ⟨?_, ?_⟩ <;> decide +kernel

def s_FrameBoundaryAndSleep_0 : State := blkAt 0x87 { state := .run } xUp
def s_FrameBoundaryAndSleep_1 : State := fldAt (F.ERG_STAT_AWAKE 0) 1 (fldAt (F.ERG_STAT_AWAKE 7) 1 (blkAt 0x80 { state := .run } xUp))
def s_FrameBoundaryAndSleep_2 : State := fldAt (F.ERG_STAT_AWAKE 6) 1 (fldAt (F.ERG_STAT_AWAKE 7) 1 (blkAt 0x87 { state := .stopping } xUp))
theorem test_FrameBoundaryAndSleep :
    ((State.reset.x.up = false ∨ State.reset.pwr.aonLost = true)) ∧
    ((xUp.x.up = true) ∧ (xUp.pwr.aonLost = false) ∧ (xUp.x.active = none) ∧ (xUp.x.armed = none)) ∧
    ((s_FrameBoundaryAndSleep_0.x.up = true) ∧ ((blkGet s_FrameBoundaryAndSleep_0 (0x80 + (7 : Fin 8).val)).state = .run) ∧ (s_FrameBoundaryAndSleep_0.fld (F.ERG_STAT_AWAKE (7 : Fin 8).val) = 0) ∧ ((blkGet s_FrameBoundaryAndSleep_0 (0x80 + (7 : Fin 8).val)).safe = false)) ∧
    ((s_FrameBoundaryAndSleep_1.x.up = true) ∧ (s_FrameBoundaryAndSleep_1.fld (F.ERG_STAT_AWAKE (0 : Fin 8).val) = 1) ∧ (ergBusyNow s_FrameBoundaryAndSleep_1 (0 : Fin 8).val = false) ∧ (swapHolds s_FrameBoundaryAndSleep_1 = false) ∧ ((7 : Fin 8) ≠ (0 : Fin 8)) ∧ (s_FrameBoundaryAndSleep_1.fld (F.ERG_STAT_AWAKE (7 : Fin 8).val) = 1) ∧ ((blkGet s_FrameBoundaryAndSleep_1 (0x80 + (0 : Fin 8).val)).state = .run) ∧ ((0 : Nat) ≠ 0x80 + (0 : Fin 8).val)) ∧
    ((s_FrameBoundaryAndSleep_2.x.up = true) ∧ (s_FrameBoundaryAndSleep_2.fld (F.ERG_STAT_AWAKE (7 : Fin 8).val) = 1) ∧ (ergBusyNow s_FrameBoundaryAndSleep_2 (7 : Fin 8).val = false) ∧ (swapHolds s_FrameBoundaryAndSleep_2 = false) ∧ ((6 : Fin 8) ≠ (7 : Fin 8)) ∧ (s_FrameBoundaryAndSleep_2.fld (F.ERG_STAT_AWAKE (6 : Fin 8).val) = 1) ∧ ((blkGet s_FrameBoundaryAndSleep_2 (0x80 + (7 : Fin 8).val)).state = .stopping)) := by
  refine ⟨?_, ?_, ?_, ?_, ?_⟩ <;> decide +kernel

def s_AdvisoriesArePostedHeldAndExpire_0 : State := (upto 5).foldl (fun s q => blkAt (0x8A + q) { state := .run } s) (xUp (fun x => { x with frameOn := true, active := some man0 }))
def s_AdvisoriesArePostedHeldAndExpire_1 : State := { xUp with pwr := { xUp.pwr with aonLost := true } }
def s_AdvisoriesArePostedHeldAndExpire_2 : State := xUp (fun x => { x with adv := some adv0, posted := true })
def s_AdvisoriesArePostedHeldAndExpire_3 : State := atTick 25 (row (fun r => { r with adv := some ⟨adv0, 1⟩ }))
def s_AdvisoriesArePostedHeldAndExpire_4 : State := atTick 24 (row (fun r => { r with adv := some ⟨adv0, 1⟩ }))
def s_AdvisoriesArePostedHeldAndExpire_5 : State := row (fun r => { r with prot := { r.prot with advRun := 8 } })
theorem test_AdvisoriesArePostedHeldAndExpire :
    ((s_AdvisoriesArePostedHeldAndExpire_0.pwr.aonLost = false) ∧ (s_AdvisoriesArePostedHeldAndExpire_0.x.frameOn = true) ∧ (s_AdvisoriesArePostedHeldAndExpire_0.x.posted = false) ∧ (s_AdvisoriesArePostedHeldAndExpire_0.x.active.isSome = true) ∧ (s_AdvisoriesArePostedHeldAndExpire_0.x.barred = false) ∧ (quadsRun s_AdvisoriesArePostedHeldAndExpire_0 = true) ∧ (safetyEnded s_AdvisoriesArePostedHeldAndExpire_0 = true) ∧ (s_AdvisoriesArePostedHeldAndExpire_0.x.reload = 0) ∧ (s_AdvisoriesArePostedHeldAndExpire_0.x.errs = []) ∧ ((255 : Fin 1024).val ≤ 255)) ∧
    ((s_AdvisoriesArePostedHeldAndExpire_1.pwr.aonLost = true)) ∧
    ((s_AdvisoriesArePostedHeldAndExpire_2.x.posted = true) ∧ ((s_AdvisoriesArePostedHeldAndExpire_2.x.adv).any (fun _ => decide (True)) = true)) ∧
    (((s_AdvisoriesArePostedHeldAndExpire_3.lane LaneId.a).votes = true) ∧ (((s_AdvisoriesArePostedHeldAndExpire_3.lane LaneId.a).row.adv).any (fun a => decide ((a.tick + 24 ≤ s_AdvisoriesArePostedHeldAndExpire_3.time.count))) = true)) ∧
    ((((s_AdvisoriesArePostedHeldAndExpire_4.lane LaneId.a).row.adv).any (fun a => decide ((s_AdvisoriesArePostedHeldAndExpire_4.time.count < a.tick + 24))) = true)) ∧
    (((s_AdvisoriesArePostedHeldAndExpire_5.lane LaneId.a).votes = true) ∧ (8 ≤ (s_AdvisoriesArePostedHeldAndExpire_5.lane LaneId.a).row.prot.advRun)) ∧
    (((s_AdvisoriesArePostedHeldAndExpire_0.lane LaneId.a).row.prot.advRun < 8)) := by
  refine ⟨?_, ?_, ?_, ?_, ?_, ?_, ?_⟩ <;> decide +kernel

def s_BlocksMoveBetweenTheirStates_0 : State := rails { State.reset with eth0 := { State.reset.eth0 with optical := true } }
def s_BlocksMoveBetweenTheirStates_1 : State := blkAt 0x78 { state := .stopping } rails
def s_BlocksMoveBetweenTheirStates_2 : State := blkAt 0x78 { state := .starting } rails
def s_BlocksMoveBetweenTheirStates_3 : State := blkAt 0x78 { state := .starting, granted := true } rails
def s_BlocksMoveBetweenTheirStates_4 : State := fldAt (F.ERG_STAT_AWAKE 7) 1 (blkAt 0x87 { state := .stopping } xr)
def s_BlocksMoveBetweenTheirStates_5 : State := blkAt 0x78 { pend := true } rails
theorem test_BlocksMoveBetweenTheirStates :
    ((reachable rails (0x78#8).toNat = true) ∧ (rails.locked (0x78#8).toNat = false) ∧ (blkHasState (0x78#8).toNat = true) ∧ ((0x78#8).toNat ≠ 0x70) ∧ ((blkGet rails (0x78#8).toNat).state = .off) ∧ (cableBad rails (0x78#8).toNat = false) ∧ ((pageInfo (0x78#8).toNat).any (fun i => decide ((i.laneOwned = false))) = true)) ∧
    ((reachable s_BlocksMoveBetweenTheirStates_0 (0x78#8).toNat = true) ∧ (s_BlocksMoveBetweenTheirStates_0.locked (0x78#8).toNat = false) ∧ (blkHasState (0x78#8).toNat = true) ∧ ((0x78#8).toNat ≠ 0x70) ∧ ((blkGet s_BlocksMoveBetweenTheirStates_0 (0x78#8).toNat).state = .off) ∧ (cableBad s_BlocksMoveBetweenTheirStates_0 (0x78#8).toNat = true) ∧ ((pageInfo (0x78#8).toNat).any (fun i => decide ((i.laneOwned = false))) = true)) ∧
    ((reachable s_BlocksMoveBetweenTheirStates_1 (0x78#8).toNat = true) ∧ (s_BlocksMoveBetweenTheirStates_1.locked (0x78#8).toNat = false) ∧ (blkHasState (0x78#8).toNat = true) ∧ ((0x78#8).toNat ≠ 0x70) ∧ ((blkGet s_BlocksMoveBetweenTheirStates_1 (0x78#8).toNat).state = .stopping) ∧ ((0 : Nat) ≠ (0x78#8).toNat) ∧ ((pageInfo (0x78#8).toNat).any (fun i => decide ((i.laneOwned = false))) = true)) ∧
    ((reachable s_BlocksMoveBetweenTheirStates_2 (0x78#8).toNat = true) ∧ (s_BlocksMoveBetweenTheirStates_2.locked (0x78#8).toNat = false) ∧ (blkHasState (0x78#8).toNat = true) ∧ ((0x78#8).toNat ≠ 0x70) ∧ ((blkGet s_BlocksMoveBetweenTheirStates_2 (0x78#8).toNat).state = .starting ∨ (blkGet s_BlocksMoveBetweenTheirStates_2 (0x78#8).toNat).state = .run ∨ (blkGet s_BlocksMoveBetweenTheirStates_2 (0x78#8).toNat).state = .fault) ∧ ((pageInfo (0x78#8).toNat).any (fun i => decide ((i.laneOwned = false))) = true)) ∧
    ((blkHasState (0x78#8).toNat = true) ∧ ((0x78#8).toNat ≠ 0x70) ∧ ((blkGet s_BlocksMoveBetweenTheirStates_3 (0x78#8).toNat).state = .starting) ∧ ((blkGoverned (0x78#8).toNat = false ∨ (blkGet s_BlocksMoveBetweenTheirStates_3 (0x78#8).toNat).granted = true)) ∧ ((0x30 ≤ (0x78#8).toNat → (0x78#8).toNat ≤ 0x3B → 640 ≤ (s_BlocksMoveBetweenTheirStates_3.bank ((0x78#8).toNat - 0x30)).rail))) ∧
    ((blkHasState (0x78#8).toNat = true) ∧ ((0x78#8).toNat ≠ 0x70) ∧ ((blkGet s_BlocksMoveBetweenTheirStates_1 (0x78#8).toNat).state = .stopping) ∧ (stopBusy s_BlocksMoveBetweenTheirStates_1 (0x78#8).toNat = false)) ∧
    ((blkHasState (0x87#8).toNat = true) ∧ ((0x87#8).toNat ≠ 0x70) ∧ (stopBusy s_BlocksMoveBetweenTheirStates_4 (0x87#8).toNat = true)) ∧
    ((blkHasState (0x78#8).toNat = true) ∧ ((0x78#8).toNat ≠ 0x70) ∧ ((blkGet s_BlocksMoveBetweenTheirStates_5 (0x78#8).toNat).state = .off) ∧ ((blkGet s_BlocksMoveBetweenTheirStates_5 (0x78#8).toNat).pend = true ∨ blkWanted s_BlocksMoveBetweenTheirStates_5 (0x78#8).toNat = true)) ∧
    ((blkHasState (0x78#8).toNat = true) ∧ ((0x78#8).toNat ≠ 0x70) ∧ ((blkGet rails (0x78#8).toNat).state ≠ .fault)) ∧
    ((blkHasState (0x78#8).toNat = true) ∧ ((0x78#8).toNat ≠ 0x70) ∧ (reachable rails (0x78#8).toNat = true) ∧ (rails.locked (0x78#8).toNat = false) ∧ (¬ (0x80 ≤ (0x78#8).toNat ∧ (0x78#8).toNat ≤ 0x87)) ∧ ((0 : Nat) ≠ (0x78#8).toNat) ∧ ((pageInfo (0x78#8).toNat).any (fun i => decide ((i.laneOwned = false))) = true)) ∧
    ((blkHasState (0x87#8).toNat = true) ∧ ((0x87#8).toNat ≠ 0x70) ∧ (reachable s_BlocksMoveBetweenTheirStates_4 (0x87#8).toNat = true) ∧ (s_BlocksMoveBetweenTheirStates_4.locked (0x87#8).toNat = false) ∧ ((0x87#8).toNat = 0x80 + (7 : Fin 8).val) ∧ ((pageInfo (0x87#8).toNat).any (fun i => decide ((i.laneOwned = false))) = true)) := by
  refine ⟨?_, ?_, ?_, ?_, ?_, ?_, ?_, ?_, ?_, ?_, ?_⟩ <;> decide +kernel

theorem test_HeaderAndBusCommands :
    ((reachable rails (0x02#8).toNat = true)) ∧
    ((rails.locked 0 = false) ∧ ((0 : Nat) ≠ F.SYS_BUS_ERR_COUNT.off)) ∧
    (((0x03118#20).toNat % 4 = 0) ∧ ((pageInfo ((0x03118#20).toNat / 0x1000)).isSome = true) ∧ (reachable rails ((0x03118#20).toNat / 0x1000) = true) ∧ (wideLo ((0x03118#20).toNat / 0x1000) ((0x03118#20).toNat % 0x1000) = true) ∧ ((0x03118#20).toNat / 0x1000 ≠ 0xB0) ∧ ((0x03118#20).toNat / 0x1000 ≠ 1) ∧ ((0x03118#20).toNat / 0x1000 ≠ 2)) ∧
    (((pageInfo (0x02#8).toNat).isSome = true) ∧ (reachable rails (0x02#8).toNat = true) ∧ (rails.locked (0x02#8).toNat = false) ∧ (lanePageReserved (0x02#8).toNat = false)) := by
  refine ⟨?_, ?_, ?_, ?_⟩ <;> decide +kernel

def s_LaneMailbox_0 : State := { State.reset with mbox := { State.reset.mbox with flight := some ⟨5, [⟨0, 0, 0⟩]⟩ } }
def s_LaneMailbox_1 : State := fldAt F.SYS_MBOX_STAT_BUSY 1
def s_LaneMailbox_2 : State := lockAt 0 openUp
def s_LaneMailbox_3 : State := onA (core (fun c => { c with verdictOwn := [.accept] })) (onB (core (fun c => { c with verdictOwn := [.accept], verdictWait := true })) { State.reset with mbox := { State.reset.mbox with latched := true } })
def s_LaneMailbox_4 : State := { fldAt F.SYS_MBOX_STAT_BUSY 1 (onA (core (fun c => { c with verdictOwn := [.accept], verdictIn := some [.accept] })) (onB (core (fun c => { c with verdictOwn := [.accept] })) up)) with mbox := { State.reset.mbox with latched := true, arrived := some (⟨5, [⟨0, 0, 0⟩]⟩, 7) } }
def s_LaneMailbox_5 : State := { onA (core (fun c => { c with verdictOwn := [.accept] })) up with mbox := { State.reset.mbox with accepted := some (⟨5, [⟨0x48118, 4294967295, 0xFFFFFFFF⟩]⟩, 0) } }
def s_LaneMailbox_6 : State := { up with mbox := { State.reset.mbox with accepted := some (⟨5, [⟨0, 0, 0⟩]⟩, 7) } }
def s_LaneMailbox_7 : State := atTick 5 (fldAt F.SYS_MBOX_STAT_BUSY 1 { State.reset with mbox := { State.reset.mbox with arrived := some (⟨5, [⟨0, 0, 0⟩]⟩, 3) } })
theorem test_LaneMailbox_1 :
    ((s_LaneMailbox_0.locked 0 = false) ∧ (s_LaneMailbox_0.fld F.SYS_MBOX_STAT_BUSY = 0) ∧ (1 ≤ (1#4).toNat) ∧ ((1#4).toNat ≤ 8)) ∧
    ((s_LaneMailbox_1.locked 0 = false) ∧ (s_LaneMailbox_1.fld F.SYS_MBOX_STAT_BUSY = 1)) ∧
    ((s_LaneMailbox_0.locked 0 = false) ∧ (s_LaneMailbox_0.fld F.SYS_MBOX_STAT_BUSY = 0) ∧ (((0#4).toNat = 0 ∨ 8 < (0#4).toNat))) ∧
    ((s_LaneMailbox_2.locked 0 = true)) ∧
    (((s_LaneMailbox_0.mbox.flight).any (fun _ => decide (True)) = true)) ∧
    ((s_LaneMailbox_1.mbox.flight = none)) ∧
    ((s_LaneMailbox_3.mbox.latched = true) ∧ ((s_LaneMailbox_3.lane LaneId.a).core.verdictOwn ≠ []) ∧ ((s_LaneMailbox_3.lane (otherLane LaneId.a)).core.verdictOwn ≠ []) ∧ ((s_LaneMailbox_3.lane (otherLane LaneId.a)).core.verdictWait = true) ∧ ((s_LaneMailbox_3.lane (otherLane LaneId.a)).core.verdictIn = none)) ∧
    ((s_LaneMailbox_4.mbox.latched = true) ∧ (s_LaneMailbox_4.fld F.SYS_MBOX_STAT_BUSY = 1) ∧ ((s_LaneMailbox_4.lane LaneId.b).core.verdictOwn ≠ []) ∧ ((s_LaneMailbox_4.lane LaneId.b).core.mode.decides = true) ∧ ((s_LaneMailbox_4.lane (otherLane LaneId.b)).core.verdictOwn ≠ []) ∧ ((s_LaneMailbox_4.lane (otherLane LaneId.b)).core.verdictIn ≠ none) ∧ ((s_LaneMailbox_4.mbox.arrived).any (fun (_, _) => decide (True)) = true)) ∧
    ((mbTakes (s_LaneMailbox_5.lane LaneId.a) = true) ∧ ((s_LaneMailbox_5.mbox.accepted).any (fun (b, t0) => decide ((t0 ≤ s_LaneMailbox_5.time.count) ∧ (b.entries = [⟨0x48118, (0xFFFFFFFF#32), 0xFFFFFFFF⟩]))) = true)) ∧
    ((mbTakes (s_LaneMailbox_5.lane LaneId.b) = false) ∧ ((s_LaneMailbox_5.mbox.accepted).any (fun (b, t0) => decide ((t0 ≤ s_LaneMailbox_5.time.count) ∧ (b.entries = [⟨0x48118, (0xFFFFFFFF#32), 0xFFFFFFFF⟩]))) = true)) ∧
    (((s_LaneMailbox_6.mbox.accepted).any (fun (_, t0) => decide ((s_LaneMailbox_6.time.count < t0))) = true)) ∧
    ((s_LaneMailbox_1.mbox.accepted = none)) := by
  refine ⟨?_, ?_, ?_, ?_, ?_, ?_, ?_, ?_, ?_, ?_, ?_, ?_⟩ <;> decide +kernel
theorem test_LaneMailbox_2 :
    ((mbDecides s_LaneMailbox_7.laneA = false) ∧ (mbDecides s_LaneMailbox_7.laneB = false) ∧ (s_LaneMailbox_7.fld F.SYS_MBOX_STAT_BUSY = 1) ∧ ((s_LaneMailbox_7.mbox.arrived).any (fun (_, t0) => decide ((t0 + 2 ≤ s_LaneMailbox_7.time.count))) = true)) := by
  decide +kernel

def s_GovernorCyclesRequestsAndGrants_0 : State := { State.reset with gov := { State.reset.gov with raised := [⟨⟨.erg, 0⟩, 0, false⟩] } }
def s_GovernorCyclesRequestsAndGrants_1 : State := { State.reset with gov := { State.reset.gov with granting := [(⟨.pump, 0⟩, 1)] } }
def s_GovernorCyclesRequestsAndGrants_2 : State := { State.reset with gov := { State.reset.gov with granting := [(⟨.lane, 1⟩, 1)] } }
def s_GovernorCyclesRequestsAndGrants_3 : State := { State.reset with gov := { State.reset.gov with admitted := [⟨⟨.erg, 0⟩, 9⟩] } }
def s_GovernorCyclesRequestsAndGrants_4 : State := { State.reset with gov := { State.reset.gov with admitted := [⟨⟨.erg, 7⟩, 9⟩] } }
def s_GovernorCyclesRequestsAndGrants_5 : State := { State.reset with gov := { State.reset.gov with admitted := [⟨⟨.pump, 3⟩, 9⟩] } }
def s_GovernorCyclesRequestsAndGrants_6 : State := { State.reset with gov := { State.reset.gov with overRun := 16 } }
def s_GovernorCyclesRequestsAndGrants_7 : State := { State.reset with gov := { State.reset.gov with underRun := 16 } }
theorem test_GovernorCyclesRequestsAndGrants_1 :
    (((∀ r ∈ s_GovernorCyclesRequestsAndGrants_0.gov.raised, r.bypass = false)) ∧ (govLedger s_GovernorCyclesRequestsAndGrants_0.gov ≤ 1200)) ∧
    ((s_GovernorCyclesRequestsAndGrants_0.gov.queue = []) ∧ (s_GovernorCyclesRequestsAndGrants_0.gov.ended = []) ∧ (s_GovernorCyclesRequestsAndGrants_0.gov.admitted = []) ∧ (s_GovernorCyclesRequestsAndGrants_0.gov.granting = []) ∧ (s_GovernorCyclesRequestsAndGrants_0.gov.hold = false) ∧ (s_GovernorCyclesRequestsAndGrants_0.gov.overNow = false) ∧ (s_GovernorCyclesRequestsAndGrants_0.gov.overRun < 15) ∧ (s_GovernorCyclesRequestsAndGrants_0.pwr.holdup = false) ∧ ((match s_GovernorCyclesRequestsAndGrants_0.gov.raised with | [r] => decide ((r.age = 0) ∧ (r.bypass = false) ∧ (govGap s_GovernorCyclesRequestsAndGrants_0.gov r.item.cls ≤ 1)) | _ => false) = true)) ∧
    ((s_GovernorCyclesRequestsAndGrants_1.gov.granting.any (fun x => x.1 == (⟨.pump, 0⟩ : GovItem)) = true) ∧ ((itemBlk (⟨.pump, 0⟩ : GovItem)).any (fun k => decide (((0 : Nat) ≠ k))) = true)) ∧
    ((s_GovernorCyclesRequestsAndGrants_1.gov.granting.any (fun x => x.1 == (⟨.pump, 0⟩ : GovItem)) = true) ∧ ((⟨.pump, 0⟩ : GovItem).cls ≠ .valve) ∧ ((itemBlk (⟨.pump, 0⟩ : GovItem)).any (fun _ => decide (True)) = true)) ∧
    ((s_GovernorCyclesRequestsAndGrants_2.gov.granting.any (fun x => x.1 == (⟨.lane, 1⟩ : GovItem)) = true) ∧ ((⟨.lane, 1⟩ : GovItem).cls = .lane) ∧ (LaneId.b = (if (⟨.lane, 1⟩ : GovItem).inst = 0 then LaneId.a else LaneId.b))) ∧
    ((s_GovernorCyclesRequestsAndGrants_0.gov.granting.any (fun x => x.1 == (⟨.erg, 3⟩ : GovItem)) = false)) ∧
    (((s_GovernorCyclesRequestsAndGrants_3.gov.admitted).any (fun a => decide ((a.item ≠ (⟨.erg, 3⟩ : GovItem)) ∧ (a.surgeLeft ≠ 0))) = true)) ∧
    ((govSteady (⟨.erg, 7⟩ : GovItem).cls ≠ 0) ∧ ((s_GovernorCyclesRequestsAndGrants_4.gov.admitted).any (fun a => decide ((a.item = (⟨.erg, 7⟩ : GovItem)))) = true)) ∧
    ((s_GovernorCyclesRequestsAndGrants_0.gov.raised.any (fun r => r.bypass && r.item == ⟨.pump, (3 : Fin 4).val⟩) = true ∨ s_GovernorCyclesRequestsAndGrants_0.gov.admitted.any (fun a => a.item == ⟨.pump, (3 : Fin 4).val⟩) = false)) ∧
    ((s_GovernorCyclesRequestsAndGrants_5.gov.raised.any (fun r => r.bypass && r.item == ⟨.pump, (3 : Fin 4).val⟩) = false) ∧ (s_GovernorCyclesRequestsAndGrants_5.gov.admitted.any (fun a => a.item == ⟨.pump, (3 : Fin 4).val⟩) = true)) ∧
    ((16 ≤ s_GovernorCyclesRequestsAndGrants_6.gov.overRun)) ∧
    ((16 ≤ s_GovernorCyclesRequestsAndGrants_7.gov.underRun)) := by
  refine ⟨?_, ?_, ?_, ?_, ?_, ?_, ?_, ?_, ?_, ?_, ?_, ?_⟩ <;> decide +kernel
theorem test_GovernorCyclesRequestsAndGrants_2 :
    ((s_GovernorCyclesRequestsAndGrants_0.locked 3 = false) ∧ ((0 : Nat) ≠ F.INRUSH_LEDGER_PEAK.off)) := by
  decide +kernel

def s_OperatingPointsAndDroop_0 : State := { State.reset with xopp := { State.reset.xopp with stepping := some 3 } }
def s_OperatingPointsAndDroop_1 : State := { State.reset with xopp := { State.reset.xopp with stepping := some 3, target := 2 } }
def s_OperatingPointsAndDroop_2 : State := { State.reset with hopp := { State.reset.hopp with stepping := some 3 } }
def s_OperatingPointsAndDroop_3 : State := xjob { state := 2 }
def s_OperatingPointsAndDroop_4 : State := blkAt 0x87 { state := .run, granted := true }
def s_OperatingPointsAndDroop_5 : State := { State.reset with xopp := { State.reset.xopp with waiting := true } }
def s_OperatingPointsAndDroop_6 : State := { State.reset with hopp := { State.reset.hopp with waiting := true } }
theorem test_OperatingPointsAndDroop_1 :
    (((s_OperatingPointsAndDroop_0.xopp.stepping).any (fun n => decide ((ergsAsleep s_OperatingPointsAndDroop_0 = false ∨ s_OperatingPointsAndDroop_0.xopp.waiting = true ∨ n ≤ s_OperatingPointsAndDroop_0.xopp.target))) = true)) ∧
    ((ergsAsleep s_OperatingPointsAndDroop_1 = true) ∧ (s_OperatingPointsAndDroop_1.xopp.waiting = false) ∧ ((s_OperatingPointsAndDroop_1.xopp.stepping).any (fun n => decide ((s_OperatingPointsAndDroop_1.xopp.target < n))) = true)) ∧
    (((s_OperatingPointsAndDroop_2.hopp.stepping).any (fun _ => decide (True)) = true)) ∧
    ((115 ≤ (115 : Nat)) ∧ ((jobList s_OperatingPointsAndDroop_3).any (fun j => decide ((((s_OperatingPointsAndDroop_3.xjob j).state = 1 ∨ (s_OperatingPointsAndDroop_3.xjob j).state = 2)))) = true)) ∧
    (((0 : Nat) < 115)) ∧
    ((s_OperatingPointsAndDroop_4.ucie.out = []) ∧ ((blkGet s_OperatingPointsAndDroop_4 (0x80 + (7 : Fin 8).val)).granted = true) ∧ ((blkGet s_OperatingPointsAndDroop_4 (0x80 + (7 : Fin 8).val)).state = .run)) ∧
    ((s_OperatingPointsAndDroop_0.ucie.out = []) ∧ ((domBlk (3 : Fin 41).val).all (fun k => !(blkGet s_OperatingPointsAndDroop_0 k).granted) = true) ∧ ((3 : Fin 41).val ≠ 9) ∧ ((3 : Fin 41).val ≠ 10) ∧ ((3 : Fin 41).val ≠ 11) ∧ ((3 : Fin 41).val ≠ 20)) ∧
    ((s_OperatingPointsAndDroop_0.locked 1 = false)) ∧
    ((100 * (0 : Nat) < s_OperatingPointsAndDroop_0.fld (F.XPWR_STATIC_V_MV s_OperatingPointsAndDroop_0.xopp.cur) * (100 - s_OperatingPointsAndDroop_0.fld F.XPWR_DROOP_THR))) ∧
    ((s_OperatingPointsAndDroop_0.fld (F.XPWR_STATIC_V_MV s_OperatingPointsAndDroop_0.xopp.cur) * (100 - s_OperatingPointsAndDroop_0.fld F.XPWR_DROOP_THR) ≤ 100 * (700 : Nat))) ∧
    ((100 * (0 : Nat) < (700 : Nat) * (100 - s_OperatingPointsAndDroop_0.fld F.CLK_HERVI_DROOP_THR))) ∧
    (((0 : Nat) * (100 - s_OperatingPointsAndDroop_0.fld F.CLK_HERVI_DROOP_THR) ≤ 100 * (0 : Nat))) := by
  refine ⟨?_, ?_, ?_, ?_, ?_, ?_, ?_, ?_, ?_, ?_, ?_, ?_⟩ <;> decide +kernel
theorem test_OperatingPointsAndDroop_2 :
    ((s_OperatingPointsAndDroop_5.xopp.waiting = true) ∧ (s_OperatingPointsAndDroop_5.xopp.droop = false)) ∧
    ((s_OperatingPointsAndDroop_6.hopp.waiting = true) ∧ (s_OperatingPointsAndDroop_6.hopp.droop = false)) := by
  refine ⟨?_, ?_⟩ <;> decide +kernel

theorem test_ChannelsChangeState :
    (((1 : Nat) ≠ 32 * (0 : Fin 8).val + (0 : Fin 32).val)) ∧
    ((1 ≠ 0)) ∧
    (((1 : Nat) ≠ (0 : Fin 32).val)) ∧
    (((up.lane LaneId.a).votes = true)) := by
  refine ⟨?_, ?_, ?_, ?_⟩ <;> decide +kernel

def s_PairsAndLeakRopes_0 : State := row (fun r => { r with sens := { r.sens with chan := [(192, { state := .valid }), (200, { state := .suspect })], pairs := [{}, {}, {}, {}, {}, { outRun := 2048 }] } })
def s_PairsAndLeakRopes_1 : State := row (fun r => { r with sens := { r.sens with chan := [(192, { state := .suspect, cause := 6 })], pairs := [{}, {}, {}, {}, {}, { inRun := 8192, suspect := true }] } })
def s_PairsAndLeakRopes_2 : State := row (fun r => { r with sens := { r.sens with chan := [(192, { state := .suspect, cause := 6 }), (200, { state := .suspect, cause := 6 })], pairs := [{}, {}, {}, {}, {}, { inRun := 8192, suspect := true }] } })
theorem test_PairsAndLeakRopes :
    (((s_PairsAndLeakRopes_0.lane LaneId.a).votes = true) ∧ (2048 ≤ (pairAt (s_PairsAndLeakRopes_0.lane LaneId.a).row.sens (5 : Fin 6).val).outRun) ∧ (inPairState (chanAt (s_PairsAndLeakRopes_0.lane LaneId.a).row.sens (pairKeyA (5 : Fin 6).val)).state = true) ∧ (inPairState (chanAt (s_PairsAndLeakRopes_0.lane LaneId.a).row.sens (pairKeyB (5 : Fin 6).val)).state = true)) ∧
    (((s_PairsAndLeakRopes_0.lane LaneId.a).votes = true) ∧ ((0 : Nat) ≠ pairKeyA (5 : Fin 6).val) ∧ ((0 : Nat) ≠ pairKeyB (5 : Fin 6).val)) ∧
    (((s_PairsAndLeakRopes_1.lane LaneId.a).votes = true) ∧ (8192 ≤ (pairAt (s_PairsAndLeakRopes_1.lane LaneId.a).row.sens (5 : Fin 6).val).inRun) ∧ ((pairAt (s_PairsAndLeakRopes_1.lane LaneId.a).row.sens (5 : Fin 6).val).suspect = true) ∧ ((chanAt (s_PairsAndLeakRopes_1.lane LaneId.a).row.sens (pairKeyA (5 : Fin 6).val)).state = .suspect ∧ (chanAt (s_PairsAndLeakRopes_1.lane LaneId.a).row.sens (pairKeyA (5 : Fin 6).val)).cause = 6)) ∧
    (((s_PairsAndLeakRopes_2.lane LaneId.a).votes = true) ∧ (8192 ≤ (pairAt (s_PairsAndLeakRopes_2.lane LaneId.a).row.sens (5 : Fin 6).val).inRun) ∧ ((pairAt (s_PairsAndLeakRopes_2.lane LaneId.a).row.sens (5 : Fin 6).val).suspect = true) ∧ ((chanAt (s_PairsAndLeakRopes_2.lane LaneId.a).row.sens (pairKeyB (5 : Fin 6).val)).state = .suspect ∧ (chanAt (s_PairsAndLeakRopes_2.lane LaneId.a).row.sens (pairKeyB (5 : Fin 6).val)).cause = 6)) ∧
    (((s_PairsAndLeakRopes_0.lane LaneId.a).votes = true) ∧ ((0 : Nat) ≠ (31 : Fin 32).val)) ∧
    ((openUp.laneOk 0x50 true = true) ∧ ((openUp.lane LaneId.a).votes = true)) := by
  refine ⟨?_, ?_, ?_, ?_, ?_, ?_⟩ <;> decide +kernel

def s_DewPointsArePolled_0 : State := row (fun r => { r with sens := { r.sens with dewBus := [⟨none, []⟩, ⟨some (3, 39), []⟩] } })
def s_DewPointsArePolled_1 : State := row (fun r => { r with sens := { r.sens with dewBus := [⟨some (3, 48), []⟩, ⟨none, []⟩], dewMiss := [(3, { miss := 2 })], chan := [(227, { state := .valid })] } })
def s_DewPointsArePolled_2 : State := row (fun r => { r with sens := { r.sens with dewRun := 8 } })
theorem test_DewPointsArePolled :
    ((s_DewPointsArePolled_0.time.count % 64 = 0) ∧ ((s_DewPointsArePolled_0.lane LaneId.a).votes = true)) ∧
    (((s_DewPointsArePolled_0.lane LaneId.a).votes = true) ∧ ((match lget ⟨none, []⟩ (s_DewPointsArePolled_0.lane LaneId.a).row.sens.dewBus (1 : Fin 2).val with | ⟨some (k, _), _⟩ => decide (((0 : Nat) ≠ 224 + (4 * (1 : Fin 2).val + k))) | _ => false) = true)) ∧
    (((s_DewPointsArePolled_0.lane LaneId.a).votes = true) ∧ ((match lget ⟨none, []⟩ (s_DewPointsArePolled_0.lane LaneId.a).row.sens.dewBus (1 : Fin 2).val with | ⟨some (_, _), _⟩ => decide (True) | _ => false) = true)) ∧
    (((s_DewPointsArePolled_1.lane LaneId.a).votes = true) ∧ ((match lget ⟨none, []⟩ (s_DewPointsArePolled_1.lane LaneId.a).row.sens.dewBus (0 : Fin 2).val with | ⟨some (_, age), _⟩ => decide ((modbusWait 8 < age)) | _ => false) = true)) ∧
    (((s_DewPointsArePolled_0.lane LaneId.a).votes = true) ∧ ((match lget ⟨none, []⟩ (s_DewPointsArePolled_0.lane LaneId.a).row.sens.dewBus (1 : Fin 2).val with | ⟨some (_, age), _⟩ => decide ((age ≤ modbusWait 8)) | _ => false) = true)) ∧
    (((s_DewPointsArePolled_2.lane LaneId.a).votes = true) ∧ (8 ≤ (s_DewPointsArePolled_2.lane LaneId.a).row.sens.dewRun)) ∧
    (((s_DewPointsArePolled_0.lane LaneId.a).votes = true) ∧ ((s_DewPointsArePolled_0.lane LaneId.a).row.sens.dewRun < 8)) := by
  refine ⟨?_, ?_, ?_, ?_, ?_, ?_, ?_⟩ <;> decide +kernel

def s_ThermalMapsAndHotSpots_0 : State := (fun s => { s with eth0 := { s.eth0 with link := true }, eth1 := { s.eth1 with link := true } }) { xUp with ingest := { State.reset.ingest with lastSeq := [(4607, some 9)] } }
def s_ThermalMapsAndHotSpots_1 : State := (fun s => { s with eth0 := { s.eth0 with link := true }, eth1 := { s.eth1 with link := true } }) { up with ingest := { State.reset.ingest with dups := 0 } }
def s_ThermalMapsAndHotSpots_2 : State := (fun s => { s with eth0 := { s.eth0 with link := true }, eth1 := { s.eth1 with link := true } }) { xUp with ingest := { State.reset.ingest with dups := 0 } }
def s_ThermalMapsAndHotSpots_3 : State := { up with fwd := [⟨0, 0, 0, []⟩] }
def s_ThermalMapsAndHotSpots_4 : State := { State.reset with fwd := [⟨0, 0, 0, []⟩] }
def s_ThermalMapsAndHotSpots_5 : State := atTick 2049 (row (fun r => { r with sens := { r.sens with hot := [(18431, { diffFrom := some 1 })] } }))
def s_ThermalMapsAndHotSpots_6 : State := atTick 8193 (row (fun r => { r with sens := { r.sens with hot := [(18431, { sameFrom := some 1, suspect := true })] } }))
theorem test_ThermalMapsAndHotSpots :
    (((s_ThermalMapsAndHotSpots_0.eth (1 : Fin 2).val).link = true) ∧ (segForm (⟨1, 0x30, 2303, 9, 1, 1, 0, 0, 0, 0, 0, [], [], none⟩ : MapSeg) = true) ∧ (s_ThermalMapsAndHotSpots_0.x.up = true) ∧ ((tget none s_ThermalMapsAndHotSpots_0.ingest.lastSeq (2 * (⟨1, 0x30, 2303, 9, 1, 1, 0, 0, 0, 0, 0, [], [], none⟩ : MapSeg).endpoint + (⟨1, 0x30, 2303, 9, 1, 1, 0, 0, 0, 0, 0, [], [], none⟩ : MapSeg).seg)).any (fun q => decide ((newer32 (⟨1, 0x30, 2303, 9, 1, 1, 0, 0, 0, 0, 0, [], [], none⟩ : MapSeg).mapSeq q = false))) = true)) ∧
    (((s_ThermalMapsAndHotSpots_1.eth (1 : Fin 2).val).link = true) ∧ (segForm (⟨1, 0x30, 2303, 9, 1, 1, 0, 0, 0, 0, 0, [], [], none⟩ : MapSeg) = true) ∧ (s_ThermalMapsAndHotSpots_1.x.up = false)) ∧
    (((s_ThermalMapsAndHotSpots_2.eth (1 : Fin 2).val).link = true) ∧ (segForm (⟨2, 0x30, 0, 0, 0, 1, 0, 1, 0, 0, 0, [], [], none⟩ : MapSeg) = false)) ∧
    (((s_ThermalMapsAndHotSpots_3.lane LaneId.a).votes = true) ∧ ((match s_ThermalMapsAndHotSpots_3.fwd with | _ :: _ => decide (True) | _ => false) = true)) ∧
    (((s_ThermalMapsAndHotSpots_4.lane LaneId.a).votes = false) ∧ ((match s_ThermalMapsAndHotSpots_4.fwd with | _ :: _ => decide (True) | _ => false) = true)) ∧
    (((s_ThermalMapsAndHotSpots_5.lane LaneId.a).votes = true) ∧ (((hotAt (s_ThermalMapsAndHotSpots_5.lane LaneId.a).row.sens (2303 : Fin 2304).val (7 : Fin 8).val).diffFrom).any (fun _ => decide (True)) = true)) ∧
    (((s_ThermalMapsAndHotSpots_1.lane LaneId.a).votes = true) ∧ ((hotAt (s_ThermalMapsAndHotSpots_1.lane LaneId.a).row.sens (2303 : Fin 2304).val (7 : Fin 8).val).diffFrom = none)) ∧
    (((s_ThermalMapsAndHotSpots_1.lane LaneId.a).votes = true) ∧ (8 * (0 : Nat) + (0 : Nat) ≠ 8 * (2303 : Fin 2304).val + (7 : Fin 8).val)) ∧
    (((s_ThermalMapsAndHotSpots_6.lane LaneId.a).votes = true) ∧ (((hotAt (s_ThermalMapsAndHotSpots_6.lane LaneId.a).row.sens (2303 : Fin 2304).val (7 : Fin 8).val).sameFrom).any (fun _ => decide (True)) = true)) ∧
    (((s_ThermalMapsAndHotSpots_1.lane LaneId.a).votes = true) ∧ ((hotAt (s_ThermalMapsAndHotSpots_1.lane LaneId.a).row.sens (2303 : Fin 2304).val (7 : Fin 8).val).sameFrom = none)) ∧
    (((0 : Nat) ≠ (2303 : Fin 2304).val)) := by
  refine ⟨?_, ?_, ?_, ?_, ?_, ?_, ?_, ?_, ?_, ?_, ?_⟩ <;> decide +kernel

def s_CalibrationSetsSwitchTogether_0 : State := onA (fun l => { l with cal := { l.cal with phase := .idle } }) (onB (fun l => { l with cal := { l.cal with phase := .idle } }) up)
def s_CalibrationSetsSwitchTogether_1 : State := onA (fun l => { l with cal := { l.cal with phase := .checking } }) (onB (fun l => { l with cal := { l.cal with phase := .checking } }) up)
def s_CalibrationSetsSwitchTogether_2 : State := onA (fun l => { l with cal := { l.cal with phase := .staging } }) (onB (fun l => { l with cal := { l.cal with phase := .staging } }) up)
def s_CalibrationSetsSwitchTogether_3 : State := opn (onA (fun l => { l with cal := { l.cal with phase := .staging } }) (onB (fun l => { l with cal := { l.cal with phase := .staging } }) up))
def s_CalibrationSetsSwitchTogether_4 : State := onA (fun l => { l with cal := { l.cal with phase := .writing } }) (onB (fun l => { l with cal := { l.cal with phase := .writing } }) up)
def s_CalibrationSetsSwitchTogether_5 : State := onA (fun l => { l with cal := { l.cal with phase := .ready } }) (onB (fun l => { l with cal := { l.cal with phase := .ready } }) up)
def s_CalibrationSetsSwitchTogether_6 : State := onA (fun l => { l with cal := { l.cal with phase := .ready } }) (onB (fun l => { l with cal := { l.cal with phase := .ready, stage := [(3, 1)] } }) up)
def s_CalibrationSetsSwitchTogether_7 : State := onA (fun l => { l with cal := { l.cal with phase := .ready, age := 2048 } }) (onB (fun l => { l with cal := { l.cal with phase := .ready, age := 2048 } }) up)
theorem test_CalibrationSetsSwitchTogether_1 :
    ((s_CalibrationSetsSwitchTogether_0.laneOk 0x12 false = true) ∧ ((s_CalibrationSetsSwitchTogether_0.lane LaneId.a).votes = true) ∧ (((s_CalibrationSetsSwitchTogether_0.lane LaneId.a).cal.phase = .idle ∨ (s_CalibrationSetsSwitchTogether_0.lane LaneId.a).cal.phase = .staging ∨ (s_CalibrationSetsSwitchTogether_0.lane LaneId.a).cal.phase = .failed))) ∧
    ((s_CalibrationSetsSwitchTogether_1.laneOk 0x12 false = true) ∧ ((s_CalibrationSetsSwitchTogether_1.lane LaneId.a).votes = true) ∧ ((s_CalibrationSetsSwitchTogether_1.lane LaneId.a).cal.phase.busy = true)) ∧
    ((s_CalibrationSetsSwitchTogether_2.laneOk 0x12 false = true) ∧ ((s_CalibrationSetsSwitchTogether_2.lane LaneId.a).votes = true) ∧ ((s_CalibrationSetsSwitchTogether_2.lane LaneId.a).cal.phase = .staging) ∧ (4 * fget (s_CalibrationSetsSwitchTogether_2.lane LaneId.a).row.regs F.LCAL_OFF_OFF + 4 * (6 : Fin 7).val ≤ 0x1FFC) ∧ ((0 : Nat) ≠ fget (s_CalibrationSetsSwitchTogether_2.lane LaneId.a).row.regs F.LCAL_OFF_OFF + (6 : Fin 7).val)) ∧
    ((s_CalibrationSetsSwitchTogether_0.laneOk 0x12 false = true) ∧ ((s_CalibrationSetsSwitchTogether_0.lane LaneId.a).votes = true) ∧ ((s_CalibrationSetsSwitchTogether_0.lane LaneId.a).cal.phase ≠ .staging ∨ 0x1FFC < 4 * fget (s_CalibrationSetsSwitchTogether_0.lane LaneId.a).row.regs F.LCAL_OFF_OFF + 4 * (6 : Fin 7).val)) ∧
    ((s_CalibrationSetsSwitchTogether_3.laneOk 0x12 true = true) ∧ ((s_CalibrationSetsSwitchTogether_3.lane LaneId.a).votes = true)) ∧
    (((s_CalibrationSetsSwitchTogether_1.lane LaneId.a).cal.phase = .checking) ∧ (calCheck (s_CalibrationSetsSwitchTogether_1.lane LaneId.a).cal ≠ 0)) ∧
    (((s_CalibrationSetsSwitchTogether_4.lane LaneId.a).cal.phase = .writing ∨ ((s_CalibrationSetsSwitchTogether_4.lane LaneId.a).cal.phase = .checking ∧ calCheck (s_CalibrationSetsSwitchTogether_4.lane LaneId.a).cal = 0))) ∧
    (((s_CalibrationSetsSwitchTogether_0.lane LaneId.a).cal.phase ≠ .checking) ∧ ((s_CalibrationSetsSwitchTogether_0.lane LaneId.a).cal.phase ≠ .writing)) ∧
    ((s_CalibrationSetsSwitchTogether_5.laneA.cal.phase = .ready) ∧ (s_CalibrationSetsSwitchTogether_5.laneB.cal.phase = .ready) ∧ (stgWord s_CalibrationSetsSwitchTogether_5.laneA.cal 3 = stgWord s_CalibrationSetsSwitchTogether_5.laneB.cal 3) ∧ (stgCrc s_CalibrationSetsSwitchTogether_5.laneA.cal = stgCrc s_CalibrationSetsSwitchTogether_5.laneB.cal) ∧ ((0 : Nat) < calWords)) ∧
    ((s_CalibrationSetsSwitchTogether_6.laneA.cal.phase = .ready) ∧ (s_CalibrationSetsSwitchTogether_6.laneB.cal.phase = .ready) ∧ ((stgWord s_CalibrationSetsSwitchTogether_6.laneA.cal 3 ≠ stgWord s_CalibrationSetsSwitchTogether_6.laneB.cal 3 ∨ stgCrc s_CalibrationSetsSwitchTogether_6.laneA.cal ≠ stgCrc s_CalibrationSetsSwitchTogether_6.laneB.cal))) ∧
    (((s_CalibrationSetsSwitchTogether_0.laneA.cal.phase ≠ .ready ∨ s_CalibrationSetsSwitchTogether_0.laneB.cal.phase ≠ .ready))) ∧
    (((s_CalibrationSetsSwitchTogether_7.lane LaneId.a).cal.phase.busy = true) ∧ (2048 ≤ (s_CalibrationSetsSwitchTogether_7.lane LaneId.a).cal.age)) := by
  refine ⟨?_, ?_, ?_, ?_, ?_, ?_, ?_, ?_, ?_, ?_, ?_, ?_⟩ <;> decide +kernel
theorem test_CalibrationSetsSwitchTogether_2 :
    ((((s_CalibrationSetsSwitchTogether_0.lane LaneId.a).cal.age < 2048 ∨ (s_CalibrationSetsSwitchTogether_0.lane LaneId.a).cal.phase.busy = false))) := by
  decide +kernel

def s_OneChannelIsRecalibrated_0 : State := row (fun r => { r with sens := { r.sens with chan := [(0, { state := .cal }), (200, { state := .valid })] } })
def s_OneChannelIsRecalibrated_1 : State := opn (row (fun r => { r with sens := { r.sens with chan := [(200, { state := .cal })] } }))
def s_OneChannelIsRecalibrated_2 : State := row (fun r => { r with sens := { r.sens with chan := [(200, { state := .cal, calTicks := 29491200 })] } })
theorem test_OneChannelIsRecalibrated :
    ((s_OneChannelIsRecalibrated_0.laneOk 0x50 false = true) ∧ ((s_OneChannelIsRecalibrated_0.lane LaneId.a).votes = true) ∧ ((0 : Nat) ≠ 32 * (6 : Fin 8).val + (8 : Fin 32).val)) ∧
    ((s_OneChannelIsRecalibrated_1.laneOk 0x50 true = true) ∧ ((s_OneChannelIsRecalibrated_1.lane LaneId.a).votes = true) ∧ (((chanAt (s_OneChannelIsRecalibrated_1.lane LaneId.a).row.sens (32 * (6 : Fin 8).val + (31 : Fin 32).val)).state ≠ .cal ∨ (s_OneChannelIsRecalibrated_1.lane LaneId.a).cal.phase.busy = true))) ∧
    ((s_OneChannelIsRecalibrated_1.laneOk 0x50 true = true) ∧ ((s_OneChannelIsRecalibrated_1.lane LaneId.a).votes = true) ∧ ((chanAt (s_OneChannelIsRecalibrated_1.lane LaneId.a).row.sens (32 * (6 : Fin 8).val + (8 : Fin 32).val)).state = .cal) ∧ ((s_OneChannelIsRecalibrated_1.lane LaneId.a).cal.phase.busy = false) ∧ ((5 : Nat) < calWords) ∧ ((5 : Nat) ≠ 1) ∧ ((5 : Nat) ≠ 3)) ∧
    ((s_OneChannelIsRecalibrated_0.laneOk 0x50 false = true) ∧ ((s_OneChannelIsRecalibrated_0.lane LaneId.a).votes = true) ∧ ((chanAt (s_OneChannelIsRecalibrated_0.lane LaneId.a).row.sens (32 * (0 : Fin 8).val + (0 : Fin 32).val)).state = .cal)) ∧
    ((s_OneChannelIsRecalibrated_0.laneOk 0x50 false = true) ∧ ((s_OneChannelIsRecalibrated_0.lane LaneId.a).votes = true) ∧ ((chanAt (s_OneChannelIsRecalibrated_0.lane LaneId.a).row.sens (32 * (6 : Fin 8).val + (8 : Fin 32).val)).state ≠ .cal)) ∧
    (((s_OneChannelIsRecalibrated_2.lane LaneId.a).votes = true) ∧ ((chanAt (s_OneChannelIsRecalibrated_2.lane LaneId.a).row.sens (32 * (6 : Fin 8).val + (8 : Fin 32).val)).state = .cal) ∧ (29491200 ≤ (chanAt (s_OneChannelIsRecalibrated_2.lane LaneId.a).row.sens (32 * (6 : Fin 8).val + (8 : Fin 32).val)).calTicks)) ∧
    (((s_OneChannelIsRecalibrated_0.lane LaneId.a).votes = true) ∧ ((chanAt (s_OneChannelIsRecalibrated_0.lane LaneId.a).row.sens (32 * (6 : Fin 8).val + (8 : Fin 32).val)).calTicks < 29491200)) := by
  refine ⟨?_, ?_, ?_, ?_, ?_, ?_, ?_⟩ <;> decide +kernel

def s_LoopBanksCheckAndSwap_0 : State := row (fun r => { r with loops := { r.loops with swapNext := true } })
def s_LoopBanksCheckAndSwap_1 : State := row (fun r => { r with loops := { r.loops with bank1 := ⟨[(8, 1)], []⟩ } })
def s_LoopBanksCheckAndSwap_2 : State := atTick 9 (row (fun r => rfld F.LENG_SWAP_TICK 11 { r with loops := { r.loops with armedAt := some 11 } }))
def s_LoopBanksCheckAndSwap_3 : State := row (rfld F.LENG_SWAP_TICK 9)
def s_LoopBanksCheckAndSwap_4 : State := row (rfld F.LENG_SWAP_TICK 1)
def s_LoopBanksCheckAndSwap_5 : State := row (rfld F.LENG_LUT_PTR_INC 1)
theorem test_LoopBanksCheckAndSwap :
    ((s_LoopBanksCheckAndSwap_0.laneOk 0x13 false = true) ∧ ((s_LoopBanksCheckAndSwap_0.lane LaneId.a).votes = true) ∧ ((s_LoopBanksCheckAndSwap_0.lane LaneId.a).row.loops.checkDue = none) ∧ (bankArmed ((s_LoopBanksCheckAndSwap_0.lane LaneId.a).row.loops) = true)) ∧
    ((s_LoopBanksCheckAndSwap_1.laneOk 0x13 false = true) ∧ ((s_LoopBanksCheckAndSwap_1.lane LaneId.a).votes = true) ∧ ((s_LoopBanksCheckAndSwap_1.lane LaneId.a).row.loops.checkDue = none) ∧ (bankArmed ((s_LoopBanksCheckAndSwap_1.lane LaneId.a).row.loops) = false) ∧ (((bankCheckFrom (s_LoopBanksCheckAndSwap_1.lane LaneId.a).row.regs ((s_LoopBanksCheckAndSwap_1.lane LaneId.a).row.loops).edit (upto 64)).1) ≠ 0)) ∧
    ((s_LoopBanksCheckAndSwap_0.laneOk 0x13 false = true) ∧ ((s_LoopBanksCheckAndSwap_0.lane LaneId.a).votes = true) ∧ ((s_LoopBanksCheckAndSwap_0.lane LaneId.a).row.loops.checkDue = none) ∧ ((decide (2147483648 ≤ ((fget (s_LoopBanksCheckAndSwap_0.lane LaneId.a).row.regs F.LENG_SWAP_TICK) + 4294967296 - (s_LoopBanksCheckAndSwap_0.time.count + 1) % 4294967296) % 4294967296)) = true) ∧ (((s_LoopBanksCheckAndSwap_0.lane LaneId.a).row.loops).armedAt.map (· % 4294967296) ≠ some ((s_LoopBanksCheckAndSwap_0.time.count + 1) % 4294967296))) ∧
    ((s_LoopBanksCheckAndSwap_2.laneOk 0x13 false = true) ∧ ((s_LoopBanksCheckAndSwap_2.lane LaneId.a).votes = true) ∧ ((s_LoopBanksCheckAndSwap_2.lane LaneId.a).row.loops.checkDue = none) ∧ ((decide (2147483648 ≤ ((fget (s_LoopBanksCheckAndSwap_2.lane LaneId.a).row.regs F.LENG_SWAP_TICK) + 4294967296 - (s_LoopBanksCheckAndSwap_2.time.count + 1) % 4294967296) % 4294967296)) = false) ∧ (bankArmed ((s_LoopBanksCheckAndSwap_2.lane LaneId.a).row.loops) = true) ∧ (((s_LoopBanksCheckAndSwap_2.lane LaneId.a).row.loops).armedAt.map (· % 4294967296) ≠ some ((s_LoopBanksCheckAndSwap_2.time.count + 1) % 4294967296))) ∧
    ((s_LoopBanksCheckAndSwap_3.laneOk 0x13 false = true) ∧ ((s_LoopBanksCheckAndSwap_3.lane LaneId.a).votes = true) ∧ ((s_LoopBanksCheckAndSwap_3.lane LaneId.a).row.loops.checkDue = none) ∧ ((decide (2147483648 ≤ ((fget (s_LoopBanksCheckAndSwap_3.lane LaneId.a).row.regs F.LENG_SWAP_TICK) + 4294967296 - (s_LoopBanksCheckAndSwap_3.time.count + 1) % 4294967296) % 4294967296)) = false) ∧ (bankArmed ((s_LoopBanksCheckAndSwap_3.lane LaneId.a).row.loops) = false) ∧ ((fget (s_LoopBanksCheckAndSwap_3.lane LaneId.a).row.regs F.LENG_SWAP_TICK) % 4294967296 ≠ (s_LoopBanksCheckAndSwap_3.time.count + 1) % 4294967296)) ∧
    ((s_LoopBanksCheckAndSwap_4.laneOk 0x13 false = true) ∧ ((s_LoopBanksCheckAndSwap_4.lane LaneId.a).votes = true) ∧ ((s_LoopBanksCheckAndSwap_4.lane LaneId.a).row.loops.checkDue = none) ∧ (bankArmed ((s_LoopBanksCheckAndSwap_4.lane LaneId.a).row.loops) = false) ∧ ((fget (s_LoopBanksCheckAndSwap_4.lane LaneId.a).row.regs F.LENG_SWAP_TICK) % 4294967296 = (s_LoopBanksCheckAndSwap_4.time.count + 1) % 4294967296)) ∧
    ((s_LoopBanksCheckAndSwap_0.laneOk 0x13 false = true) ∧ ((s_LoopBanksCheckAndSwap_0.lane LaneId.a).votes = true) ∧ (((s_LoopBanksCheckAndSwap_0.lane LaneId.a).row.loops).swapNext = true)) ∧
    ((s_LoopBanksCheckAndSwap_1.laneOk 0x13 false = true) ∧ ((s_LoopBanksCheckAndSwap_1.lane LaneId.a).votes = true) ∧ (((s_LoopBanksCheckAndSwap_1.lane LaneId.a).row.loops).swapNext = false)) ∧
    ((s_LoopBanksCheckAndSwap_0.laneOk 0x13 false = true) ∧ ((s_LoopBanksCheckAndSwap_0.lane LaneId.a).votes = true) ∧ (0 ≠ 192 * (fget (s_LoopBanksCheckAndSwap_0.lane LaneId.a).row.regs F.LENG_LUT_PTR_LOOP) + 3 * (fget (s_LoopBanksCheckAndSwap_0.lane LaneId.a).row.regs F.LENG_LUT_PTR_IDX) + 2)) ∧
    ((s_LoopBanksCheckAndSwap_5.laneOk 0x13 false = true) ∧ ((s_LoopBanksCheckAndSwap_5.lane LaneId.a).votes = true) ∧ (fget (s_LoopBanksCheckAndSwap_5.lane LaneId.a).row.regs F.LENG_LUT_PTR_INC = 1)) ∧
    ((s_LoopBanksCheckAndSwap_0.laneOk 0x13 false = true) ∧ ((s_LoopBanksCheckAndSwap_0.lane LaneId.a).votes = true) ∧ (fget (s_LoopBanksCheckAndSwap_0.lane LaneId.a).row.regs F.LENG_LUT_PTR_INC ≠ 1)) := by
  refine ⟨?_, ?_, ?_, ?_, ?_, ?_, ?_, ?_, ?_, ?_, ?_⟩ <;> decide +kernel

theorem test_TraceAndTripsAreCommanded :
    ((up.laneOk 0x13 false = true) ∧ ((up.lane LaneId.a).votes = true)) := by
  decide +kernel

def s_ReceiversFollowTheirFrames_0 : State := rcv 2303 { acted := true, locked := true } (sendE (fun o => { o with merged := false }))
def s_ReceiversFollowTheirFrames_1 : State := rcv 2303 { auth := some 0x180 } (sendE (fun o => { o with claim := 0x150 }))
def s_ReceiversFollowTheirFrames_2 : State := sendE (fun o => { o with claim := 0x101 })
def s_ReceiversFollowTheirFrames_3 : State := rcv 2303 { locked := true } (sendE (fun o => { o with drops := [⟨[(2303, 4)], none⟩] }))
def s_ReceiversFollowTheirFrames_4 : State := rcv 2303 { dropCap := some 4, hseqs := [] } (sendE (fun o => { o with haboob := [⟨0xFFFFFF, 1, false, 3, 0⟩] }))
def s_ReceiversFollowTheirFrames_5 : State := rcv 2303 { locked := true, pend := some (1, 2, 5, 7, 0) } (sendE (fun o => { o with aborts := [⟨1, 0, 5, 0, 0⟩] }))
def s_ReceiversFollowTheirFrames_6 : State := rcv 2303 { holds := [rx0] }
theorem test_ReceiversFollowTheirFrames_1 :
    ((((s_ReceiversFollowTheirFrames_0.lane LaneId.a).ethOut).any (fun o => decide (((2303 : Fin 2304).val % 96 < lget 0 o.nrec ((2303 : Fin 2304).val / 96)) ∧ (frameTaken (tget {} s_ReceiversFollowTheirFrames_0.recv (2303 : Fin 2304).val) o.claim (256 + (2303 : Fin 2304).val / 96) o.seq))) = true)) ∧
    ((((s_ReceiversFollowTheirFrames_1.lane LaneId.a).ethOut).any (fun o => decide (((2303 : Fin 2304).val % 96 < lget 0 o.nrec ((2303 : Fin 2304).val / 96)) ∧ (bitsOf o.claim 1 7 ≠ 0) ∧ (seqFresh (tget {} s_ReceiversFollowTheirFrames_1.recv (2303 : Fin 2304).val) (256 + (2303 : Fin 2304).val / 96) o.seq = true) ∧ (((tget {} s_ReceiversFollowTheirFrames_1.recv (2303 : Fin 2304).val).auth).any (fun a => decide ((higherClaim a o.claim = true))) = true))) = true)) ∧
    ((((s_ReceiversFollowTheirFrames_2.lane LaneId.a).ethOut).any (fun o => decide (((2303 : Fin 2304).val % 96 < lget 0 o.nrec ((2303 : Fin 2304).val / 96)) ∧ (bitsOf o.claim 1 7 = 0 ∨ seqFresh (tget {} s_ReceiversFollowTheirFrames_2.recv (2303 : Fin 2304).val) (256 + (2303 : Fin 2304).val / 96) o.seq = false))) = true)) ∧
    (((s_ReceiversFollowTheirFrames_0.lane LaneId.b).ethOut.all (fun o => decide (lget 0 o.nrec ((2303 : Fin 2304).val / 96) ≤ (2303 : Fin 2304).val % 96)) = true)) ∧
    ((({ locked := true } : Recv).locked = true) ∧ (({ locked := true } : Recv).timeFree = false)) ∧
    ((((s_ReceiversFollowTheirFrames_3.lane LaneId.a).ethOut).any (fun o => decide ((bitsOf o.claim 1 7 ≠ 0) ∧ (seqFresh (tget {} s_ReceiversFollowTheirFrames_3.recv (2303 : Fin 2304).val) (512 + (0#8).toNat) o.seq = true) ∧ ((o.drops[(0#8).toNat]?).any (fun _ => decide (True)) = true))) = true)) ∧
    ((((s_ReceiversFollowTheirFrames_4.lane LaneId.a).ethOut).any (fun o => decide ((bitsOf o.claim 1 7 ≠ 0) ∧ (seqFresh (tget {} s_ReceiversFollowTheirFrames_4.recv (2303 : Fin 2304).val) 768 o.seq = true) ∧ ((match o.haboob with | _ :: _ => decide (True) | _ => false) = true))) = true)) ∧
    ((((s_ReceiversFollowTheirFrames_5.lane LaneId.a).ethOut).any (fun o => decide ((frameTaken (tget {} s_ReceiversFollowTheirFrames_5.recv (2303 : Fin 2304).val) o.claim (4608 + (0#8).toNat) o.seq) ∧ ((o.aborts[(0#8).toNat]?).any (fun _ => decide (True)) = true))) = true)) ∧
    (((match (tget {} s_ReceiversFollowTheirFrames_6.recv (2303 : Fin 2304).val).holds with | _ :: _ => decide (True) | _ => false) = true)) ∧
    (((1 : Fin 2).val = (2303 : Fin 2304).val / 96 % 2) ∧ (((s_ReceiversFollowTheirFrames_0.lane LaneId.a).ethOut).any (fun _ => decide (True)) = true)) ∧
    (((0 : Fin 2).val ≠ (2303 : Fin 2304).val / 96 % 2) ∧ (((s_ReceiversFollowTheirFrames_0.lane LaneId.a).ethOut).any (fun _ => decide (True)) = true)) ∧
    (((0 : Nat) ≠ (2303 : Fin 2304).val) ∧ (((s_ReceiversFollowTheirFrames_0.lane LaneId.a).ethOut).any (fun _ => decide (True)) = true)) := by
  refine ⟨?_, ?_, ?_, ?_, ?_, ?_, ?_, ?_, ?_, ?_, ?_, ?_⟩ <;> decide +kernel
theorem test_ReceiversFollowTheirFrames_2 :
    ((((s_ReceiversFollowTheirFrames_0.lane LaneId.a).ethOut).any (fun o => decide ((frameTaken (tget {} s_ReceiversFollowTheirFrames_0.recv (2303 : Fin 2304).val) o.claim 0x2000 o.seq))) = true)) ∧
    ((((s_ReceiversFollowTheirFrames_1.lane LaneId.a).ethOut).any (fun o => decide ((bitsOf o.claim 1 7 ≠ 0) ∧ (seqFresh (tget {} s_ReceiversFollowTheirFrames_1.recv (2303 : Fin 2304).val) 0x2000 o.seq = true) ∧ (((tget {} s_ReceiversFollowTheirFrames_1.recv (2303 : Fin 2304).val).auth).any (fun a => decide ((higherClaim a o.claim = true))) = true))) = true)) ∧
    (((s_ReceiversFollowTheirFrames_0.lane LaneId.b).ethOut = none)) := by
  refine ⟨?_, ?_, ?_⟩ <;> decide +kernel

def s_CapTablesAndSlipfaceRequests_0 : State := row (fun r => { r with caps := { r.caps with gather := true } })
def s_CapTablesAndSlipfaceRequests_1 : State := row (rfld F.CAPC_TBL_PTR_IDX 2304)
def s_CapTablesAndSlipfaceRequests_2 : State := atTick 8193 (row (fun r => { r with caps := { r.caps with gather := true, gatherTick := 1, held := [(2303, some 7)] } }))
def s_CapTablesAndSlipfaceRequests_3 : State := row (fun r => { r with caps := { r.caps with nrack := 24, nslot := List.replicate 24 96, ep := [(2303, { idleRun := 16777216 })] } })
def s_CapTablesAndSlipfaceRequests_4 : State := (fun s => { s with eth0 := { s.eth0 with link := true }, eth1 := { s.eth1 with link := true } }) up
def s_CapTablesAndSlipfaceRequests_5 : State := atTick 4 (row (fun r => { r with slip := { r.slip with cur := some ⟨9, 1, 7, 7, [], [], [], [], false, false, [], [], [], 1, 0, 0, 0, 0⟩ } }))
def s_CapTablesAndSlipfaceRequests_6 : State := row (fun r => { r with slip := { r.slip with hreq := some ([], true) } })
def s_CapTablesAndSlipfaceRequests_7 : State := atTick 5 (row (fun r => { r with slip := { r.slip with cur := some ⟨9, 1, 7, 7, [], [], [], [], false, false, [], [], [], 1, 0, 0, 0, 0⟩ } }))
def s_CapTablesAndSlipfaceRequests_8 : State := atTick 6 (row (fun r => { r with slip := { r.slip with cur := some ⟨9, 1, 7, 7, [], [], [], [], false, false, [], [], [], 1, 0, 0, 0, 0⟩ } }))
theorem test_CapTablesAndSlipfaceRequests_1 :
    ((tblLimit ((s_CapTablesAndSlipfaceRequests_0.lane LaneId.a).row).caps (((s_CapTablesAndSlipfaceRequests_0.lane s_CapTablesAndSlipfaceRequests_0.lead).row).f F.CAPC_TBL_PTR_SEL) (((s_CapTablesAndSlipfaceRequests_0.lane s_CapTablesAndSlipfaceRequests_0.lead).row).f F.CAPC_TBL_PTR_IDX + (6 : Fin 7).val) (0#32).toNat 0xFFFFFFFF = none) ∧ (s_CapTablesAndSlipfaceRequests_0.laneOk 0x60 (tblGuard ((s_CapTablesAndSlipfaceRequests_0.lane LaneId.a).row).caps (((s_CapTablesAndSlipfaceRequests_0.lane s_CapTablesAndSlipfaceRequests_0.lead).row).f F.CAPC_TBL_PTR_SEL) (((s_CapTablesAndSlipfaceRequests_0.lane s_CapTablesAndSlipfaceRequests_0.lead).row).f F.CAPC_TBL_PTR_IDX + (6 : Fin 7).val) (0#32).toNat) = true) ∧ ((((s_CapTablesAndSlipfaceRequests_0.lane s_CapTablesAndSlipfaceRequests_0.lead).row).f F.CAPC_TBL_PTR_SEL) = 0) ∧ (((s_CapTablesAndSlipfaceRequests_0.lane LaneId.a).row).caps.gather = true) ∧ ((0 : Nat) ≠ (((s_CapTablesAndSlipfaceRequests_0.lane s_CapTablesAndSlipfaceRequests_0.lead).row).f F.CAPC_TBL_PTR_IDX + (6 : Fin 7).val))) ∧
    ((tblLimit ((up.lane LaneId.a).row).caps (((up.lane up.lead).row).f F.CAPC_TBL_PTR_SEL) (((up.lane up.lead).row).f F.CAPC_TBL_PTR_IDX + (6 : Fin 7).val) (0#32).toNat 0xFFFFFFFF = none) ∧ (up.laneOk 0x60 (tblGuard ((up.lane LaneId.a).row).caps (((up.lane up.lead).row).f F.CAPC_TBL_PTR_SEL) (((up.lane up.lead).row).f F.CAPC_TBL_PTR_IDX + (6 : Fin 7).val) (0#32).toNat) = true) ∧ ((((up.lane up.lead).row).f F.CAPC_TBL_PTR_SEL) ≠ 0 ∨ ((up.lane LaneId.a).row).caps.gather = false) ∧ ((0 : Nat) ≠ 4 * (((up.lane up.lead).row).f F.CAPC_TBL_PTR_IDX + (6 : Fin 7).val) + (((up.lane up.lead).row).f F.CAPC_TBL_PTR_SEL))) ∧
    ((tblLimit ((s_CapTablesAndSlipfaceRequests_1.lane s_CapTablesAndSlipfaceRequests_1.lead).row).caps (((s_CapTablesAndSlipfaceRequests_1.lane s_CapTablesAndSlipfaceRequests_1.lead).row).f F.CAPC_TBL_PTR_SEL) (((s_CapTablesAndSlipfaceRequests_1.lane s_CapTablesAndSlipfaceRequests_1.lead).row).f F.CAPC_TBL_PTR_IDX + (6 : Fin 7).val) (0#32).toNat 0xFFFFFFFF ≠ none)) ∧
    ((((s_CapTablesAndSlipfaceRequests_2.lane LaneId.a).row).caps.gather = true) ∧ (((s_CapTablesAndSlipfaceRequests_2.lane LaneId.a).row).caps.gatherTick + 8192 ≤ s_CapTablesAndSlipfaceRequests_2.time.count) ∧ (tblWf none ((s_CapTablesAndSlipfaceRequests_2.lane LaneId.a).row).caps.held = true) ∧ ((tget none ((s_CapTablesAndSlipfaceRequests_2.lane LaneId.a).row).caps.held 2303).any (fun _ => decide (True)) = true)) ∧
    ((((s_CapTablesAndSlipfaceRequests_2.lane LaneId.a).row).caps.gather = true) ∧ (((s_CapTablesAndSlipfaceRequests_2.lane LaneId.a).row).caps.gatherTick + 8192 ≤ s_CapTablesAndSlipfaceRequests_2.time.count) ∧ (tblWf none ((s_CapTablesAndSlipfaceRequests_2.lane LaneId.a).row).caps.held = true) ∧ (((1 : Nat) % 4 ≠ 0 ∨ tget none ((s_CapTablesAndSlipfaceRequests_2.lane LaneId.a).row).caps.held ((1 : Nat) / 4) = none))) ∧
    ((((s_CapTablesAndSlipfaceRequests_0.lane LaneId.a).row).caps.gather = false ∨ s_CapTablesAndSlipfaceRequests_0.time.count < ((s_CapTablesAndSlipfaceRequests_0.lane LaneId.a).row).caps.gatherTick + 8192)) ∧
    ((capConfigured ((s_CapTablesAndSlipfaceRequests_3.lane LaneId.a).row).caps (2303 : Fin 2304).val = true) ∧ (((s_CapTablesAndSlipfaceRequests_3.lane LaneId.a).row).f F.CAPC_WARM_DWELL * 8192 ≤ (epAt ((s_CapTablesAndSlipfaceRequests_3.lane LaneId.a).row).caps (2303 : Fin 2304).val).idleRun) ∧ ((0 : Nat) ≠ (2303 : Fin 2304).val)) ∧
    ((capConfigured ((s_CapTablesAndSlipfaceRequests_0.lane LaneId.a).row).caps (2303 : Fin 2304).val = false ∨ (epAt ((s_CapTablesAndSlipfaceRequests_0.lane LaneId.a).row).caps (2303 : Fin 2304).val).idleRun < ((s_CapTablesAndSlipfaceRequests_0.lane LaneId.a).row).f F.CAPC_WARM_DWELL * 8192)) ∧
    ((((bitOf (((tget {} s_CapTablesAndSlipfaceRequests_4.recv (2303 : Fin 2304).val).ackOut.filter (fun (a : AckMsg) => a.epoch == (9#32).toNat && a.cap == (7#16).toNat)).head?.elim 3 (fun a => a.ports)) 0 && ((s_CapTablesAndSlipfaceRequests_4.eth 0).link || (blkGet s_CapTablesAndSlipfaceRequests_4 0x78).state == .run)) || (bitOf (((tget {} s_CapTablesAndSlipfaceRequests_4.recv (2303 : Fin 2304).val).ackOut.filter (fun (a : AckMsg) => a.epoch == (9#32).toNat && a.cap == (7#16).toNat)).head?.elim 3 (fun a => a.ports)) 1 && ((s_CapTablesAndSlipfaceRequests_4.eth 1).link || (blkGet s_CapTablesAndSlipfaceRequests_4 0x79).state == .run))) = true) ∧ ((s_CapTablesAndSlipfaceRequests_4.lane LaneId.a).votes = true)) ∧
    (((s_CapTablesAndSlipfaceRequests_0.lane LaneId.a).votes = false ∨ ((bitOf (((tget {} s_CapTablesAndSlipfaceRequests_0.recv (2303 : Fin 2304).val).ackOut.filter (fun (a : AckMsg) => a.epoch == (9#32).toNat && a.cap == (7#16).toNat)).head?.elim 3 (fun a => a.ports)) 0 && ((s_CapTablesAndSlipfaceRequests_0.eth 0).link || (blkGet s_CapTablesAndSlipfaceRequests_0 0x78).state == .run)) || (bitOf (((tget {} s_CapTablesAndSlipfaceRequests_0.recv (2303 : Fin 2304).val).ackOut.filter (fun (a : AckMsg) => a.epoch == (9#32).toNat && a.cap == (7#16).toNat)).head?.elim 3 (fun a => a.ports)) 1 && ((s_CapTablesAndSlipfaceRequests_0.eth 1).link || (blkGet s_CapTablesAndSlipfaceRequests_0 0x79).state == .run))) = false)) ∧
    (((0 : Nat) ≠ (2303 : Fin 2304).val)) ∧
    (((((s_CapTablesAndSlipfaceRequests_5.lane LaneId.a).row).slip.cur).any (fun _ => decide (True)) = true)) := by
  refine ⟨?_, ?_, ?_, ?_, ?_, ?_, ?_, ?_, ?_, ?_, ?_, ?_⟩ <;> decide +kernel
theorem test_CapTablesAndSlipfaceRequests_2 :
    ((((s_CapTablesAndSlipfaceRequests_0.lane LaneId.a).row).slip.cur = none)) ∧
    ((s_CapTablesAndSlipfaceRequests_6.laneOk 0x61 false = true) ∧ (((s_CapTablesAndSlipfaceRequests_6.lane LaneId.a).row).slip.hreq.isSome = true)) ∧
    ((s_CapTablesAndSlipfaceRequests_0.laneOk 0x61 false = true) ∧ (((s_CapTablesAndSlipfaceRequests_0.lane LaneId.a).row).slip.hreq = none) ∧ ((hreqPages ((s_CapTablesAndSlipfaceRequests_0.lane LaneId.a).row).regs = [] ∧ false = false ∨ ∃ p ∈ hreqPages ((s_CapTablesAndSlipfaceRequests_0.lane LaneId.a).row).regs, rwsOffs p = []))) ∧
    ((s_CapTablesAndSlipfaceRequests_0.laneOk 0x61 false = true) ∧ (((s_CapTablesAndSlipfaceRequests_0.lane LaneId.a).row).slip.hreq = none) ∧ ((hreqPages ((s_CapTablesAndSlipfaceRequests_0.lane LaneId.a).row).regs ≠ [] ∨ true = true)) ∧ ((∀ p ∈ hreqPages ((s_CapTablesAndSlipfaceRequests_0.lane LaneId.a).row).regs, rwsOffs p ≠ []))) ∧
    ((s_CapTablesAndSlipfaceRequests_5.laneOk 0x61 false = true) ∧ ((slipPending ((s_CapTablesAndSlipfaceRequests_5.lane LaneId.a).row).slip).any (fun x => decide (((s_CapTablesAndSlipfaceRequests_5.time.count + 2 < x.a ∨ s_CapTablesAndSlipfaceRequests_5.time.count + 2 = x.a ∧ x.phase = 2)))) = true)) ∧
    ((s_CapTablesAndSlipfaceRequests_7.laneOk 0x61 false = true) ∧ ((slipPending ((s_CapTablesAndSlipfaceRequests_7.lane LaneId.a).row).slip).any (fun x => decide ((s_CapTablesAndSlipfaceRequests_7.time.count + 2 = x.a) ∧ (x.phase = 1))) = true)) ∧
    ((s_CapTablesAndSlipfaceRequests_8.laneOk 0x61 false = true) ∧ ((slipPending ((s_CapTablesAndSlipfaceRequests_8.lane LaneId.a).row).slip).any (fun x => decide ((x.a < s_CapTablesAndSlipfaceRequests_8.time.count + 2))) = true)) ∧
    ((s_CapTablesAndSlipfaceRequests_0.laneOk 0x61 false = true) ∧ (slipPending ((s_CapTablesAndSlipfaceRequests_0.lane LaneId.a).row).slip = none)) := by
  refine ⟨?_, ?_, ?_, ?_, ?_, ?_, ?_, ?_⟩ <;> decide +kernel

def s_CoolantVerdictsEnterAndEnd_0 : State := prt (fun p => { p with flowStop := lat false 41 0 })
def s_CoolantVerdictsEnterAndEnd_1 : State := prt (fun p => { p with flowStop := lat false 40 0 })
def s_CoolantVerdictsEnterAndEnd_2 : State := prt (fun p => { p with flowStop := lat true 0 8 })
def s_CoolantVerdictsEnterAndEnd_3 : State := prt (fun p => { p with conserv := true, eRun := 4096 })
def s_CoolantVerdictsEnterAndEnd_4 : State := prt (fun p => { p with flowDecl := true, nRun := 8192 })
def s_CoolantVerdictsEnterAndEnd_5 : State := prt (fun p => { p with pressHi := lat false 8 0 })
def s_CoolantVerdictsEnterAndEnd_6 : State := prt (fun p => { p with pressHi := lat true 0 8 })
def s_CoolantVerdictsEnterAndEnd_7 : State := prt (fun p => { p with pressMax := lat false 8 0 })
def s_CoolantVerdictsEnterAndEnd_8 : State := prt (fun p => { p with supOver := lat false 8 0 })
theorem test_CoolantVerdictsEnterAndEnd_1 :
    ((((s_CoolantVerdictsEnterAndEnd_0.lane LaneId.a).row).prot.flowStop.on = false) ∧ (41 ≤ ((s_CoolantVerdictsEnterAndEnd_0.lane LaneId.a).row).prot.flowStop.onRun)) ∧
    ((((s_CoolantVerdictsEnterAndEnd_1.lane LaneId.a).row).prot.flowStop.on = true ∨ ((s_CoolantVerdictsEnterAndEnd_1.lane LaneId.a).row).prot.flowStop.onRun < 41)) ∧
    ((((s_CoolantVerdictsEnterAndEnd_2.lane LaneId.a).row).prot.flowStop.on = true) ∧ (8 ≤ ((s_CoolantVerdictsEnterAndEnd_2.lane LaneId.a).row).prot.flowStop.offRun)) ∧
    ((((s_CoolantVerdictsEnterAndEnd_0.lane LaneId.a).row).prot.flowStop.on = false ∨ ((s_CoolantVerdictsEnterAndEnd_0.lane LaneId.a).row).prot.flowStop.offRun < 8)) ∧
    ((((s_CoolantVerdictsEnterAndEnd_3.lane LaneId.a).row).prot.flowDecl = false) ∧ (((s_CoolantVerdictsEnterAndEnd_3.lane LaneId.a).row).prot.flowStop.on = false) ∧ ((1024 ≤ ((s_CoolantVerdictsEnterAndEnd_3.lane LaneId.a).row).prot.eRun ∧ declM ((s_CoolantVerdictsEnterAndEnd_3.lane LaneId.a).row) = true ∨ ((s_CoolantVerdictsEnterAndEnd_3.lane LaneId.a).row).prot.conserv = true ∧ 4096 ≤ ((s_CoolantVerdictsEnterAndEnd_3.lane LaneId.a).row).prot.eRun))) ∧
    ((((s_CoolantVerdictsEnterAndEnd_0.lane LaneId.a).row).prot.flowDecl = true ∨ ((s_CoolantVerdictsEnterAndEnd_0.lane LaneId.a).row).prot.flowStop.on = true ∨ ((s_CoolantVerdictsEnterAndEnd_0.lane LaneId.a).row).prot.eRun < 1024)) ∧
    ((((s_CoolantVerdictsEnterAndEnd_4.lane LaneId.a).row).prot.flowDecl = true) ∧ (8192 ≤ ((s_CoolantVerdictsEnterAndEnd_4.lane LaneId.a).row).prot.nRun)) ∧
    ((((s_CoolantVerdictsEnterAndEnd_0.lane LaneId.a).row).prot.flowDecl = false ∨ ((s_CoolantVerdictsEnterAndEnd_0.lane LaneId.a).row).prot.nRun < 8192)) ∧
    ((((s_CoolantVerdictsEnterAndEnd_5.lane LaneId.a).row).prot.pressHi.on = false) ∧ (8 ≤ ((s_CoolantVerdictsEnterAndEnd_5.lane LaneId.a).row).prot.pressHi.onRun)) ∧
    ((((s_CoolantVerdictsEnterAndEnd_0.lane LaneId.a).row).prot.pressHi.on = true ∨ ((s_CoolantVerdictsEnterAndEnd_0.lane LaneId.a).row).prot.pressHi.onRun < 8)) ∧
    ((((s_CoolantVerdictsEnterAndEnd_6.lane LaneId.a).row).prot.pressHi.on = true) ∧ (8 ≤ ((s_CoolantVerdictsEnterAndEnd_6.lane LaneId.a).row).prot.pressHi.offRun)) ∧
    ((((s_CoolantVerdictsEnterAndEnd_0.lane LaneId.a).row).prot.pressHi.on = false ∨ ((s_CoolantVerdictsEnterAndEnd_0.lane LaneId.a).row).prot.pressHi.offRun < 8)) := by
  refine ⟨?_, ?_, ?_, ?_, ?_, ?_, ?_, ?_, ?_, ?_, ?_, ?_⟩ <;> decide +kernel
theorem test_CoolantVerdictsEnterAndEnd_2 :
    ((((s_CoolantVerdictsEnterAndEnd_7.lane LaneId.a).row).prot.pressMax.on = false) ∧ (8 ≤ ((s_CoolantVerdictsEnterAndEnd_7.lane LaneId.a).row).prot.pressMax.onRun)) ∧
    ((((s_CoolantVerdictsEnterAndEnd_0.lane LaneId.a).row).prot.pressMax.on = true ∨ ((s_CoolantVerdictsEnterAndEnd_0.lane LaneId.a).row).prot.pressMax.onRun < 8)) ∧
    ((((s_CoolantVerdictsEnterAndEnd_8.lane LaneId.a).row).prot.supOver.on = false) ∧ (8 ≤ ((s_CoolantVerdictsEnterAndEnd_8.lane LaneId.a).row).prot.supOver.onRun)) ∧
    ((((s_CoolantVerdictsEnterAndEnd_0.lane LaneId.a).row).prot.supOver.on = true ∨ ((s_CoolantVerdictsEnterAndEnd_0.lane LaneId.a).row).prot.supOver.onRun < 8)) := by
  refine ⟨?_, ?_, ?_, ?_⟩ <;> decide +kernel

def s_ShutdownsAndPackagesOff_0 : State := prt (fun p => { p with flowStop := lat true 0 0 }) 16383
def s_ShutdownsAndPackagesOff_1 : State := prt (fun p => { p with flowStop := lat true 0 0 }) 16384
def s_ShutdownsAndPackagesOff_2 : State := prt (fun p => { p with pressMax := lat true 0 0 }) 16384
def s_ShutdownsAndPackagesOff_3 : State := prt (fun p => { p with supOver := lat true 0 0 }) 16384
def s_ShutdownsAndPackagesOff_4 : State := row (fun r => { r with caps := { r.caps with ep := [(2303, { tripRun := 8 })] } })
def s_ShutdownsAndPackagesOff_5 : State := row (fun r => { r with caps := { r.caps with ep := [(2303, { off := true, coolRun := 8192 })] } })
def s_ShutdownsAndPackagesOff_6 : State := prt (fun p => { p with dewOn := true, dewAbs := 8193 })
def s_ShutdownsAndPackagesOff_7 : State := prt (fun p => { p with breachRun := 8 })
theorem test_ShutdownsAndPackagesOff :
    ((timerSet s_ShutdownsAndPackagesOff_0.time.count ((s_ShutdownsAndPackagesOff_0.lane LaneId.a).row).prot.flowStop = ((s_ShutdownsAndPackagesOff_0.lane LaneId.a).row).prot.flowStop) ∧ (timerSet s_ShutdownsAndPackagesOff_0.time.count ((s_ShutdownsAndPackagesOff_0.lane LaneId.a).row).prot.pressMax = ((s_ShutdownsAndPackagesOff_0.lane LaneId.a).row).prot.pressMax) ∧ (timerSet s_ShutdownsAndPackagesOff_0.time.count ((s_ShutdownsAndPackagesOff_0.lane LaneId.a).row).prot.supOver = ((s_ShutdownsAndPackagesOff_0.lane LaneId.a).row).prot.supOver)) ∧
    ((((s_ShutdownsAndPackagesOff_1.lane LaneId.a).row).prot.flowStop.on = true) ∧ (((s_ShutdownsAndPackagesOff_1.lane LaneId.a).row).prot.flowStop.shut = false) ∧ (((s_ShutdownsAndPackagesOff_1.lane LaneId.a).row).prot.flowStop.since + 16384 ≤ s_ShutdownsAndPackagesOff_1.time.count)) ∧
    ((((s_ShutdownsAndPackagesOff_2.lane LaneId.a).row).prot.pressMax.on = true) ∧ (((s_ShutdownsAndPackagesOff_2.lane LaneId.a).row).prot.pressMax.shut = false) ∧ (((s_ShutdownsAndPackagesOff_2.lane LaneId.a).row).prot.pressMax.since + 16384 ≤ s_ShutdownsAndPackagesOff_2.time.count)) ∧
    ((((s_ShutdownsAndPackagesOff_3.lane LaneId.a).row).prot.supOver.on = true) ∧ (((s_ShutdownsAndPackagesOff_3.lane LaneId.a).row).prot.supOver.shut = false) ∧ (((s_ShutdownsAndPackagesOff_3.lane LaneId.a).row).prot.supOver.since + 16384 ≤ s_ShutdownsAndPackagesOff_3.time.count)) ∧
    (((epAt ((s_ShutdownsAndPackagesOff_4.lane LaneId.a).row).caps (2303 : Fin 2304).val).off = false) ∧ (8 ≤ (epAt ((s_ShutdownsAndPackagesOff_4.lane LaneId.a).row).caps (2303 : Fin 2304).val).tripRun) ∧ ((0 : Nat) ≠ (2303 : Fin 2304).val)) ∧
    (((epAt ((s_ShutdownsAndPackagesOff_1.lane LaneId.a).row).caps (2303 : Fin 2304).val).off = true ∨ (epAt ((s_ShutdownsAndPackagesOff_1.lane LaneId.a).row).caps (2303 : Fin 2304).val).tripRun < 8)) ∧
    (((epAt ((s_ShutdownsAndPackagesOff_5.lane LaneId.a).row).caps (2303 : Fin 2304).val).off = true) ∧ (8192 ≤ (epAt ((s_ShutdownsAndPackagesOff_5.lane LaneId.a).row).caps (2303 : Fin 2304).val).coolRun) ∧ ((0 : Nat) ≠ (2303 : Fin 2304).val)) ∧
    (((epAt ((s_ShutdownsAndPackagesOff_1.lane LaneId.a).row).caps (2303 : Fin 2304).val).off = false ∨ (epAt ((s_ShutdownsAndPackagesOff_1.lane LaneId.a).row).caps (2303 : Fin 2304).val).coolRun < 8192)) ∧
    ((((s_ShutdownsAndPackagesOff_6.lane LaneId.a).row).prot.dewOn = true) ∧ (8192 < ((s_ShutdownsAndPackagesOff_6.lane LaneId.a).row).prot.dewAbs)) ∧
    ((((s_ShutdownsAndPackagesOff_1.lane LaneId.a).row).prot.dewOn = false ∨ ((s_ShutdownsAndPackagesOff_1.lane LaneId.a).row).prot.dewAbs ≤ 8192)) ∧
    ((((s_ShutdownsAndPackagesOff_7.lane LaneId.a).row).prot.breach = false) ∧ (8 ≤ ((s_ShutdownsAndPackagesOff_7.lane LaneId.a).row).prot.breachRun)) ∧
    ((((s_ShutdownsAndPackagesOff_1.lane LaneId.a).row).prot.breach = true ∨ ((s_ShutdownsAndPackagesOff_1.lane LaneId.a).row).prot.breachRun < 8)) := by
  refine ⟨?_, ?_, ?_, ?_, ?_, ?_, ?_, ?_, ?_, ?_, ?_, ?_⟩ <;> decide +kernel

def s_ProtectionCommandsAndDryRunning_0 : State := prt (fun p => { p with op := 1, cmd := some (1, 3) })
def s_ProtectionCommandsAndDryRunning_1 : State := prt (fun p => { p with op := 1, cmd := some (2, 3) })
def s_ProtectionCommandsAndDryRunning_2 : State := row (fun r => { r with prot := { r.prot with flowStop := lat true 0 0, cmd := some (3, 3) }, caps := { r.caps with nrack := 24, nslot := List.replicate 24 96 } })
def s_ProtectionCommandsAndDryRunning_3 : State := prt (fun p => { p with op := 0, iso := 8, roff := 8, cmd := some (3, 3) })
def s_ProtectionCommandsAndDryRunning_4 : State := prt (fun p => { p with op := 1, cmd := some (3, 3) })
def s_ProtectionCommandsAndDryRunning_5 : State := prt (fun p => { p with op := 1, cmd := some (4, 3) })
def s_ProtectionCommandsAndDryRunning_6 : State := prt (fun p => { p with dryAB := [2048, 0, 0, 0] })
def s_ProtectionCommandsAndDryRunning_7 : State := prt (fun p => { p with dryAB := [0, 0, 0, 2048] })
theorem test_ProtectionCommandsAndDryRunning_1 :
    ((up.laneOk 0x18 false = true)) ∧
    ((openUp.laneOk 0x18 true = true)) ∧
    ((((up.lane LaneId.a).row).prot.cmd = none)) ∧
    (((((s_ProtectionCommandsAndDryRunning_0.lane LaneId.a).row).prot.cmd).any (fun (z0_, _) => decide (z0_ = 1 ∧ True)) = true)) ∧
    (((((s_ProtectionCommandsAndDryRunning_1.lane LaneId.a).row).prot.cmd).any (fun (z0_, _) => decide (z0_ = 2 ∧ True)) = true)) ∧
    (((((s_ProtectionCommandsAndDryRunning_2.lane LaneId.a).row).prot.cmd).any (fun (z0_, k) => decide (z0_ = 3 ∧ ((condOn ((s_ProtectionCommandsAndDryRunning_2.lane LaneId.a).row) = true ∧ bitOf (confRacks ((s_ProtectionCommandsAndDryRunning_2.lane LaneId.a).row).caps) k = true ∨ bitOf (leakBits ((s_ProtectionCommandsAndDryRunning_2.lane LaneId.a).row).sens) k = true)))) = true)) ∧
    (((((s_ProtectionCommandsAndDryRunning_3.lane LaneId.a).row).prot.cmd).any (fun (z0_, k) => decide (z0_ = 3 ∧ ((condOn ((s_ProtectionCommandsAndDryRunning_3.lane LaneId.a).row) = false ∨ bitOf (confRacks ((s_ProtectionCommandsAndDryRunning_3.lane LaneId.a).row).caps) k = false)) ∧ (bitOf (leakBits ((s_ProtectionCommandsAndDryRunning_3.lane LaneId.a).row).sens) k = false) ∧ (bitOf ((s_ProtectionCommandsAndDryRunning_3.lane LaneId.a).row).prot.iso k = true))) = true)) ∧
    (((0 : Nat) < 96) ∧ ((((s_ProtectionCommandsAndDryRunning_4.lane LaneId.a).row).prot.cmd).any (fun (z0_, k) => decide (z0_ = 3 ∧ ((condOn ((s_ProtectionCommandsAndDryRunning_4.lane LaneId.a).row) = false ∨ bitOf (confRacks ((s_ProtectionCommandsAndDryRunning_4.lane LaneId.a).row).caps) k = false)) ∧ (bitOf (leakBits ((s_ProtectionCommandsAndDryRunning_4.lane LaneId.a).row).sens) k = false))) = true)) ∧
    (((((s_ProtectionCommandsAndDryRunning_5.lane LaneId.a).row).prot.cmd).any (fun (z0_, _) => decide (z0_ = 4 ∧ True)) = true)) ∧
    ((bitOf ((s_ProtectionCommandsAndDryRunning_6.lane LaneId.a).row).prot.dry (0 : Fin 4).val = false) ∧ ((2048 ≤ lget 0 ((s_ProtectionCommandsAndDryRunning_6.lane LaneId.a).row).prot.dryAB (0 : Fin 4).val ∨ 8192 ≤ lget 0 ((s_ProtectionCommandsAndDryRunning_6.lane LaneId.a).row).prot.dryA (0 : Fin 4).val ∨ 8192 ≤ lget 0 ((s_ProtectionCommandsAndDryRunning_6.lane LaneId.a).row).prot.dryB (0 : Fin 4).val)) ∧ ((3 : Fin 4) ≠ (0 : Fin 4).val)) ∧
    ((bitOf ((s_ProtectionCommandsAndDryRunning_7.lane LaneId.a).row).prot.dry (3 : Fin 4).val = false) ∧ ((2048 ≤ lget 0 ((s_ProtectionCommandsAndDryRunning_7.lane LaneId.a).row).prot.dryAB (3 : Fin 4).val ∨ 8192 ≤ lget 0 ((s_ProtectionCommandsAndDryRunning_7.lane LaneId.a).row).prot.dryA (3 : Fin 4).val ∨ 8192 ≤ lget 0 ((s_ProtectionCommandsAndDryRunning_7.lane LaneId.a).row).prot.dryB (3 : Fin 4).val)) ∧ ((3 : Fin 4).val = ((s_ProtectionCommandsAndDryRunning_7.lane LaneId.a).row).f F.PUMP_CFG_STANDBY)) ∧
    ((bitOf ((s_ProtectionCommandsAndDryRunning_6.lane LaneId.a).row).prot.dry (0 : Fin 4).val = false) ∧ ((2048 ≤ lget 0 ((s_ProtectionCommandsAndDryRunning_6.lane LaneId.a).row).prot.dryAB (0 : Fin 4).val ∨ 8192 ≤ lget 0 ((s_ProtectionCommandsAndDryRunning_6.lane LaneId.a).row).prot.dryA (0 : Fin 4).val ∨ 8192 ≤ lget 0 ((s_ProtectionCommandsAndDryRunning_6.lane LaneId.a).row).prot.dryB (0 : Fin 4).val)) ∧ ((0 : Fin 4).val ≠ ((s_ProtectionCommandsAndDryRunning_6.lane LaneId.a).row).f F.PUMP_CFG_STANDBY)) := by
  refine ⟨?_, ?_, ?_, ?_, ?_, ?_, ?_, ?_, ?_, ?_, ?_, ?_⟩ <;> decide +kernel
theorem test_ProtectionCommandsAndDryRunning_2 :
    ((bitOf ((up.lane LaneId.a).row).prot.dry (0 : Fin 4).val = true ∨ lget 0 ((up.lane LaneId.a).row).prot.dryAB (0 : Fin 4).val < 2048 ∧ lget 0 ((up.lane LaneId.a).row).prot.dryA (0 : Fin 4).val < 8192 ∧ lget 0 ((up.lane LaneId.a).row).prot.dryB (0 : Fin 4).val < 8192)) ∧
    ((openUp.laneOk 0x48 true = true) ∧ (bitOf (8#4).toNat (3 : Fin 4).val = true)) ∧
    ((openUp.laneOk 0x48 true = true) ∧ (bitOf (8#4).toNat (0 : Fin 4).val = false)) := by
  refine ⟨?_, ?_, ?_⟩ <;> decide +kernel

def s_ValveProfilesRunThroughTheirPhases_0 : State := blkAt 0x3B { state := .run } ((bankAt 11 { queue := [7] } (vchAt 95 { wait := true } (vchAt 94 {  }))))
def s_ValveProfilesRunThroughTheirPhases_1 : State := blkAt 0x3B { state := .run } ((bankAt 11 { queue := [7] } (vchAt 95 { wait := true } (vchAt 94 { phase := 3, holdI := 400 }))))
def s_ValveProfilesRunThroughTheirPhases_2 : State := vchAt 95 { phase := 1, boostT := 200 }
def s_ValveProfilesRunThroughTheirPhases_3 : State := vchAt 88 { phase := 1, boostT := 200 }
def s_ValveProfilesRunThroughTheirPhases_4 : State := blkAt 0x3B { state := .run } ((bankAt 11 { queue := [7] } (vchAt 95 { wait := true } (vchAt 94 { phase := 2 }))))
def s_ValveProfilesRunThroughTheirPhases_5 : State := vchAt 95 { phase := 2, verdict := some true }
def s_ValveProfilesRunThroughTheirPhases_6 : State := blkAt 0x3B { state := .run } ((bankAt 11 { queue := [7] } (vchAt 95 { wait := true, value := 8 } (vchAt 94 { phase := 3, holdI := 400 }))))
theorem test_ValveProfilesRunThroughTheirPhases_1 :
    ((bankActive s_ValveProfilesRunThroughTheirPhases_0 (11 : Fin 12).val = none) ∧ (5 * fget s_ValveProfilesRunThroughTheirPhases_0.leadRegs (F.VBANK_RAIL_CFG_BOOST_MIN (11 : Fin 12).val) ≤ (700#10).toNat) ∧ ((blkGet s_ValveProfilesRunThroughTheirPhases_0 (0x30 + (11 : Fin 12).val)).state = .run) ∧ ((blkGet s_ValveProfilesRunThroughTheirPhases_0 (0x30 + (11 : Fin 12).val)).safe = false) ∧ ((valProt (s_ValveProfilesRunThroughTheirPhases_0.vch (8 * (11 : Fin 12).val + (7 : Fin 8).val)).value = true ∨ holdSum s_ValveProfilesRunThroughTheirPhases_0 (11 : Fin 12).val + effHold s_ValveProfilesRunThroughTheirPhases_0 (8 * (11 : Fin 12).val + (7 : Fin 8).val) (s_ValveProfilesRunThroughTheirPhases_0.vch (8 * (11 : Fin 12).val + (7 : Fin 8).val)).value < 400)) ∧ ((0 : Nat) ≠ 8 * (11 : Fin 12).val + (7 : Fin 8).val) ∧ ((match (s_ValveProfilesRunThroughTheirPhases_0.bank (11 : Fin 12).val).queue with | m :: _ => decide ((m = (7 : Fin 8).val)) | _ => false) = true)) ∧
    ((bankActive s_ValveProfilesRunThroughTheirPhases_0 (11 : Fin 12).val = none) ∧ (5 * fget s_ValveProfilesRunThroughTheirPhases_0.leadRegs (F.VBANK_RAIL_CFG_BOOST_MIN (11 : Fin 12).val) ≤ (700#10).toNat) ∧ ((blkGet s_ValveProfilesRunThroughTheirPhases_0 (0x30 + (11 : Fin 12).val)).state = .run) ∧ ((blkGet s_ValveProfilesRunThroughTheirPhases_0 (0x30 + (11 : Fin 12).val)).safe = false) ∧ ((valProt (s_ValveProfilesRunThroughTheirPhases_0.vch (8 * (11 : Fin 12).val + (7 : Fin 8).val)).value = true ∨ holdSum s_ValveProfilesRunThroughTheirPhases_0 (11 : Fin 12).val + effHold s_ValveProfilesRunThroughTheirPhases_0 (8 * (11 : Fin 12).val + (7 : Fin 8).val) (s_ValveProfilesRunThroughTheirPhases_0.vch (8 * (11 : Fin 12).val + (7 : Fin 8).val)).value < 400)) ∧ (holdSum s_ValveProfilesRunThroughTheirPhases_0 (11 : Fin 12).val + effHold s_ValveProfilesRunThroughTheirPhases_0 (8 * (11 : Fin 12).val + (7 : Fin 8).val) (s_ValveProfilesRunThroughTheirPhases_0.vch (8 * (11 : Fin 12).val + (7 : Fin 8).val)).value < 400) ∧ ((0 : Nat) ≠ 8 * (11 : Fin 12).val + (7 : Fin 8).val) ∧ ((match (s_ValveProfilesRunThroughTheirPhases_0.bank (11 : Fin 12).val).queue with | m :: _ => decide ((m = (7 : Fin 8).val)) | _ => false) = true)) ∧
    ((((s_ValveProfilesRunThroughTheirPhases_0.bank (11 : Fin 12).val).queue = [] ∨ (bankActive s_ValveProfilesRunThroughTheirPhases_0 (11 : Fin 12).val).isSome = true ∨ (0#10).toNat < 5 * fget s_ValveProfilesRunThroughTheirPhases_0.leadRegs (F.VBANK_RAIL_CFG_BOOST_MIN (11 : Fin 12).val) ∨ (blkGet s_ValveProfilesRunThroughTheirPhases_0 (0x30 + (11 : Fin 12).val)).state ≠ .run ∨ (blkGet s_ValveProfilesRunThroughTheirPhases_0 (0x30 + (11 : Fin 12).val)).safe = true))) ∧
    ((valProt (s_ValveProfilesRunThroughTheirPhases_1.vch (8 * (11 : Fin 12).val + (7 : Fin 8).val)).value = false) ∧ (400 ≤ holdSum s_ValveProfilesRunThroughTheirPhases_1 (11 : Fin 12).val + effHold s_ValveProfilesRunThroughTheirPhases_1 (8 * (11 : Fin 12).val + (7 : Fin 8).val) (s_ValveProfilesRunThroughTheirPhases_1.vch (8 * (11 : Fin 12).val + (7 : Fin 8).val)).value) ∧ ((match (s_ValveProfilesRunThroughTheirPhases_1.bank (11 : Fin 12).val).queue with | m :: _ => decide ((m = (7 : Fin 8).val)) | _ => false) = true)) ∧
    (((s_ValveProfilesRunThroughTheirPhases_2.vch (95 : Fin 96).val).phase = 1) ∧ ((0#8).toNat ≤ (s_ValveProfilesRunThroughTheirPhases_2.vch (95 : Fin 96).val).boostT) ∧ ((0#8).toNat < vTtpMin s_ValveProfilesRunThroughTheirPhases_2.leadCal (95 : Fin 96).val)) ∧
    (((s_ValveProfilesRunThroughTheirPhases_2.vch (95 : Fin 96).val).phase = 1) ∧ ((180#8).toNat ≤ (s_ValveProfilesRunThroughTheirPhases_2.vch (95 : Fin 96).val).boostT) ∧ (vTtpMin s_ValveProfilesRunThroughTheirPhases_2.leadCal (95 : Fin 96).val ≤ (180#8).toNat) ∧ (vTtpMax s_ValveProfilesRunThroughTheirPhases_2.leadCal (95 : Fin 96).val < (180#8).toNat)) ∧
    (((s_ValveProfilesRunThroughTheirPhases_3.vch (88 : Fin 96).val).phase = 1) ∧ ((180#8).toNat ≤ (s_ValveProfilesRunThroughTheirPhases_3.vch (88 : Fin 96).val).boostT) ∧ (vTtpMin s_ValveProfilesRunThroughTheirPhases_3.leadCal (88 : Fin 96).val ≤ (180#8).toNat) ∧ (valveClass ((88 : Fin 96).val % 8) = 0) ∧ ((s_ValveProfilesRunThroughTheirPhases_3.vch (88 : Fin 96).val).verdict = none)) ∧
    (((s_ValveProfilesRunThroughTheirPhases_2.vch (95 : Fin 96).val).phase = 1) ∧ ((180#8).toNat ≤ (s_ValveProfilesRunThroughTheirPhases_2.vch (95 : Fin 96).val).boostT) ∧ (vTtpMin s_ValveProfilesRunThroughTheirPhases_2.leadCal (95 : Fin 96).val ≤ (180#8).toNat) ∧ (valveClass ((95 : Fin 96).val % 8) ≠ 0 ∨ (s_ValveProfilesRunThroughTheirPhases_2.vch (95 : Fin 96).val).verdict ≠ none)) ∧
    (((s_ValveProfilesRunThroughTheirPhases_2.vch (95 : Fin 96).val).phase = 1) ∧ ((some (255#8) : Option (BitVec 8)).all (fun x => decide ((s_ValveProfilesRunThroughTheirPhases_2.vch (95 : Fin 96).val).boostT < x.toNat)) = true)) ∧
    (((s_ValveProfilesRunThroughTheirPhases_4.vch (94 : Fin 96).val).phase = 2) ∧ ((s_ValveProfilesRunThroughTheirPhases_4.vch (94 : Fin 96).val).verdict = none)) ∧
    (((s_ValveProfilesRunThroughTheirPhases_5.vch (95 : Fin 96).val).phase = 2) ∧ ((s_ValveProfilesRunThroughTheirPhases_5.vch (95 : Fin 96).val).verdict ≠ none)) ∧
    (((s_ValveProfilesRunThroughTheirPhases_6.vch (94 : Fin 96).val).phase = 3)) := by
  refine ⟨?_, ?_, ?_, ?_, ?_, ?_, ?_, ?_, ?_, ?_, ?_, ?_⟩ <;> decide +kernel
theorem test_ValveProfilesRunThroughTheirPhases_2 :
    (((s_ValveProfilesRunThroughTheirPhases_6.vch (94 : Fin 96).val).phase ≠ 0)) ∧
    (((s_ValveProfilesRunThroughTheirPhases_0.vch (95 : Fin 96).val).wait = true) ∧ (profileStart ((95 : Fin 96).val / 8) s_ValveProfilesRunThroughTheirPhases_0 = s_ValveProfilesRunThroughTheirPhases_0)) ∧
    ((((profileStart ((88 : Fin 96).val / 8) s_ValveProfilesRunThroughTheirPhases_0).vch (88 : Fin 96).val).wait = false)) := by
  refine ⟨?_, ?_, ?_⟩ <;> decide +kernel

def s_ValveVerdictsAndBankGuards_0 : State := vchAt 95 { phase := 1 }
def s_ValveVerdictsAndBankGuards_1 : State := vchAt 88 { phase := 1 }
def s_ValveVerdictsAndBankGuards_2 : State := opn (vchAt 95 {  } (up chp))
def s_ValveVerdictsAndBankGuards_3 : State := blkAt 0x3B { state := .run } chp
def s_ValveVerdictsAndBankGuards_4 : State := bankAt 11 { recharge := true }
def s_ValveVerdictsAndBankGuards_5 : State := blkAt 0x3B { state := .starting } (bankAt 11 { recharge := true })
theorem test_ValveVerdictsAndBankGuards_1 :
    (((s_ValveVerdictsAndBankGuards_0.vch (95 : Fin 96).val).phase = 1) ∧ ((19#12).toNat < 20)) ∧
    ((20 ≤ (20#12).toNat ∨ (s_ValveVerdictsAndBankGuards_0.vch (95 : Fin 96).val).phase ≠ 1)) ∧
    (((s_ValveVerdictsAndBankGuards_0.vch (95 : Fin 96).val).phase ≠ 0) ∧ (750 < (751#12).toNat)) ∧
    (((19#12).toNat ≤ 750 ∨ (s_ValveVerdictsAndBankGuards_0.vch (95 : Fin 96).val).phase = 0)) ∧
    (((valveClass ((88 : Fin 96).val % 8) = 0 ∧ (s_ValveVerdictsAndBankGuards_1.vch (88 : Fin 96).val).phase = 1 ∨ valveClass ((88 : Fin 96).val % 8) ≠ 0 ∧ (s_ValveVerdictsAndBankGuards_1.vch (88 : Fin 96).val).phase = 2)) ∧ ((s_ValveVerdictsAndBankGuards_1.vch (88 : Fin 96).val).verdict = none) ∧ (detMoved (vDetTh s_ValveVerdictsAndBankGuards_1.leadCal (88 : Fin 96).val) (88 : Fin 96).val (DetSample.dip 4000 0) = true)) ∧
    ((detMoved (vDetTh s_ValveVerdictsAndBankGuards_0.leadCal (95 : Fin 96).val) (95 : Fin 96).val (DetSample.dip 0 0) = false ∨ (s_ValveVerdictsAndBankGuards_0.vch (95 : Fin 96).val).verdict ≠ none)) ∧
    (((95 : Fin 96).val = 8 * (11 : Fin 12).val + (7 : Fin 8).val) ∧ (s_ValveVerdictsAndBankGuards_2.laneOk (0x30 + (11 : Fin 12).val) true = true) ∧ ((s_ValveVerdictsAndBankGuards_2.vch (95 : Fin 96).val).phase = 0) ∧ ((s_ValveVerdictsAndBankGuards_2.vch (95 : Fin 96).val).wait = false) ∧ ((1#2).toNat = 1 ∨ (1#2).toNat = 2) ∧ ((0 : Nat) ≠ (95 : Fin 96).val)) ∧
    (((95 : Fin 96).val = 8 * (11 : Fin 12).val + (7 : Fin 8).val) ∧ (s_ValveVerdictsAndBankGuards_2.laneOk (0x30 + (11 : Fin 12).val) true = true) ∧ ((s_ValveVerdictsAndBankGuards_2.vch (95 : Fin 96).val).phase = 0) ∧ ((s_ValveVerdictsAndBankGuards_2.vch (95 : Fin 96).val).wait = false) ∧ ((1#2).toNat = 1 ∨ (1#2).toNat = 2) ∧ ((s_ValveVerdictsAndBankGuards_2.lane LaneId.a).votes = true)) ∧
    (((95 : Fin 96).val = 8 * (11 : Fin 12).val + (7 : Fin 8).val) ∧ (s_ValveVerdictsAndBankGuards_2.laneOk (0x30 + (11 : Fin 12).val) true = true) ∧ (((s_ValveVerdictsAndBankGuards_2.vch (95 : Fin 96).val).phase ≠ 0 ∨ (s_ValveVerdictsAndBankGuards_2.vch (95 : Fin 96).val).wait = true ∨ (3#2).toNat = 0 ∨ (3#2).toNat = 3))) ∧
    ((1000 < (1001#12).toNat) ∧ ((blkGet s_ValveVerdictsAndBankGuards_0 (0x30 + (11 : Fin 12).val)).state ≠ .fault)) ∧
    (((19#12).toNat ≤ 1000 ∨ (blkGet s_ValveVerdictsAndBankGuards_0 (0x30 + (11 : Fin 12).val)).state = .fault)) ∧
    ((690 < (691#10).toNat) ∧ ((blkGet s_ValveVerdictsAndBankGuards_0 (0x30 + (11 : Fin 12).val)).state ≠ .fault)) := by
  refine ⟨?_, ?_, ?_, ?_, ?_, ?_, ?_, ?_, ?_, ?_, ?_, ?_⟩ <;> decide +kernel
theorem test_ValveVerdictsAndBankGuards_2 :
    (((629#10).toNat ≤ 690)) ∧
    (((629#10).toNat < 630) ∧ (((blkGet s_ValveVerdictsAndBankGuards_3 (0x30 + (11 : Fin 12).val)).state = .run ∨ (blkGet s_ValveVerdictsAndBankGuards_3 (0x30 + (11 : Fin 12).val)).state = .starting)) ∧ ((s_ValveVerdictsAndBankGuards_3.bank (11 : Fin 12).val).recharge = false) ∧ ((s_ValveVerdictsAndBankGuards_3.bank (11 : Fin 12).val).request = false)) ∧
    (((630 ≤ (691#10).toNat ∨ (s_ValveVerdictsAndBankGuards_0.bank (11 : Fin 12).val).recharge = true ∨ (s_ValveVerdictsAndBankGuards_0.bank (11 : Fin 12).val).request = true ∨ ((blkGet s_ValveVerdictsAndBankGuards_0 (0x30 + (11 : Fin 12).val)).state ≠ .run ∧ (blkGet s_ValveVerdictsAndBankGuards_0 (0x30 + (11 : Fin 12).val)).state ≠ .starting)))) ∧
    ((650 ≤ (691#10).toNat) ∧ ((s_ValveVerdictsAndBankGuards_4.bank (11 : Fin 12).val).recharge = true)) ∧
    (((691#10).toNat < 650 ∨ (s_ValveVerdictsAndBankGuards_0.bank (11 : Fin 12).val).recharge = false)) ∧
    (((629#10).toNat < 640) ∧ ((blkGet s_ValveVerdictsAndBankGuards_5 (0x30 + (11 : Fin 12).val)).state = .starting) ∧ ((s_ValveVerdictsAndBankGuards_5.bank (11 : Fin 12).val).recharge = true)) ∧
    ((640 ≤ (691#10).toNat ∨ (blkGet s_ValveVerdictsAndBankGuards_0 (0x30 + (11 : Fin 12).val)).state ≠ .starting ∨ (s_ValveVerdictsAndBankGuards_0.bank (11 : Fin 12).val).recharge = false)) ∧
    ((s_ValveVerdictsAndBankGuards_0.laneOk (0x30 + (11 : Fin 12).val) false = true) ∧ ((0 : Nat) / 8 ≠ (11 : Fin 12).val)) ∧
    ((s_ValveVerdictsAndBankGuards_0.locked (0x30 + (11 : Fin 12).val) = false)) := by
  refine ⟨?_, ?_, ?_, ?_, ?_, ?_, ?_, ?_, ?_⟩ <;> decide +kernel

def s_FansStartKickAndBlock_0 : State := fan47 { state := 1, edges := 1, cur := 100000, applied := 10000 } 16384
def s_FansStartKickAndBlock_1 : State := fan47n { state := 1, edges := 1, applied := 10000 } 16384
def s_FansStartKickAndBlock_2 : State := fan47 { state := 0 } 4096
def s_FansStartKickAndBlock_3 : State := fan47 { state := 0, applied := 10000, cur := 100000 } 4096
def s_FansStartKickAndBlock_4 : State := fan47n { state := 0, applied := 10000 } 4096
def s_FansStartKickAndBlock_5 : State := fan47 { state := 2, edges := 1, kick := 2 } 4096
def s_FansStartKickAndBlock_6 : State := up (fan47 { state := 2, edges := 1, kick := 3 } 4096)
def s_FansStartKickAndBlock_7 : State := fan47 { state := 3, goodFrom := some 1 } 8193
def s_FansStartKickAndBlock_8 : State := fan47 { state := 3, stallRun := 16 } 0
def s_FansStartKickAndBlock_9 : State := up (fan47 { state := 4, field := 0 } 0)
theorem test_FansStartKickAndBlock_1 :
    (((fanAt s_FansStartKickAndBlock_0 (47 : Fin 48).val).state = 1) ∧ ((fanAt s_FansStartKickAndBlock_0 (47 : Fin 48).val).start + 16384 ≤ s_FansStartKickAndBlock_0.time.count) ∧ ((fanAt s_FansStartKickAndBlock_0 (47 : Fin 48).val).edges + (fanAt s_FansStartKickAndBlock_0 (47 : Fin 48).val).tick.edges < 2) ∧ (fget s_FansStartKickAndBlock_0.leadRegs (F.FANG_CFG_MIN_DUTY ((47 : Fin 48).val / 16)) ≤ (fanAt s_FansStartKickAndBlock_0 (47 : Fin 48).val).applied) ∧ (fanStall s_FansStartKickAndBlock_0.leadRegs (47 : Fin 48).val (fanAt s_FansStartKickAndBlock_0 (47 : Fin 48).val) = true)) ∧
    (((fanAt s_FansStartKickAndBlock_1 (47 : Fin 48).val).state = 1) ∧ ((fanAt s_FansStartKickAndBlock_1 (47 : Fin 48).val).start + 16384 ≤ s_FansStartKickAndBlock_1.time.count) ∧ ((fanAt s_FansStartKickAndBlock_1 (47 : Fin 48).val).edges + (fanAt s_FansStartKickAndBlock_1 (47 : Fin 48).val).tick.edges < 2) ∧ (fget s_FansStartKickAndBlock_1.leadRegs (F.FANG_CFG_MIN_DUTY ((47 : Fin 48).val / 16)) ≤ (fanAt s_FansStartKickAndBlock_1 (47 : Fin 48).val).applied) ∧ (fanStall s_FansStartKickAndBlock_1.leadRegs (47 : Fin 48).val (fanAt s_FansStartKickAndBlock_1 (47 : Fin 48).val) = false)) ∧
    ((((fanAt s_FansStartKickAndBlock_2 (47 : Fin 48).val).state ≠ 1 ∨ s_FansStartKickAndBlock_2.time.count < (fanAt s_FansStartKickAndBlock_2 (47 : Fin 48).val).start + 16384 ∨ 2 ≤ (fanAt s_FansStartKickAndBlock_2 (47 : Fin 48).val).edges + (fanAt s_FansStartKickAndBlock_2 (47 : Fin 48).val).tick.edges ∨ (fanAt s_FansStartKickAndBlock_2 (47 : Fin 48).val).applied < fget s_FansStartKickAndBlock_2.leadRegs (F.FANG_CFG_MIN_DUTY ((47 : Fin 48).val / 16))))) ∧
    (((fanAt s_FansStartKickAndBlock_3 (47 : Fin 48).val).state = 0) ∧ ((fanAt s_FansStartKickAndBlock_3 (47 : Fin 48).val).tick.edges = 0) ∧ ((fanAt s_FansStartKickAndBlock_3 (47 : Fin 48).val).lastEdge + 4096 ≤ s_FansStartKickAndBlock_3.time.count) ∧ (fget s_FansStartKickAndBlock_3.leadRegs (F.FANG_CFG_MIN_DUTY ((47 : Fin 48).val / 16)) ≤ (fanAt s_FansStartKickAndBlock_3 (47 : Fin 48).val).applied) ∧ (fanStall s_FansStartKickAndBlock_3.leadRegs (47 : Fin 48).val (fanAt s_FansStartKickAndBlock_3 (47 : Fin 48).val) = true)) ∧
    (((fanAt s_FansStartKickAndBlock_4 (47 : Fin 48).val).state = 0) ∧ ((fanAt s_FansStartKickAndBlock_4 (47 : Fin 48).val).tick.edges = 0) ∧ ((fanAt s_FansStartKickAndBlock_4 (47 : Fin 48).val).lastEdge + 4096 ≤ s_FansStartKickAndBlock_4.time.count) ∧ (fget s_FansStartKickAndBlock_4.leadRegs (F.FANG_CFG_MIN_DUTY ((47 : Fin 48).val / 16)) ≤ (fanAt s_FansStartKickAndBlock_4 (47 : Fin 48).val).applied) ∧ (fanStall s_FansStartKickAndBlock_4.leadRegs (47 : Fin 48).val (fanAt s_FansStartKickAndBlock_4 (47 : Fin 48).val) = false)) ∧
    ((((fanAt s_FansStartKickAndBlock_2 (47 : Fin 48).val).state ≠ 0 ∨ (fanAt s_FansStartKickAndBlock_2 (47 : Fin 48).val).tick.edges ≠ 0 ∨ s_FansStartKickAndBlock_2.time.count < (fanAt s_FansStartKickAndBlock_2 (47 : Fin 48).val).lastEdge + 4096 ∨ (fanAt s_FansStartKickAndBlock_2 (47 : Fin 48).val).applied < fget s_FansStartKickAndBlock_2.leadRegs (F.FANG_CFG_MIN_DUTY ((47 : Fin 48).val / 16))))) ∧
    (((fanAt s_FansStartKickAndBlock_5 (47 : Fin 48).val).state = 2) ∧ ((fanAt s_FansStartKickAndBlock_5 (47 : Fin 48).val).start + 4096 ≤ s_FansStartKickAndBlock_5.time.count) ∧ ((fanAt s_FansStartKickAndBlock_5 (47 : Fin 48).val).edges + (fanAt s_FansStartKickAndBlock_5 (47 : Fin 48).val).tick.edges < 2) ∧ ((fanAt s_FansStartKickAndBlock_5 (47 : Fin 48).val).kick < 3)) ∧
    (((fanAt s_FansStartKickAndBlock_6 (47 : Fin 48).val).state = 2) ∧ ((fanAt s_FansStartKickAndBlock_6 (47 : Fin 48).val).start + 4096 ≤ s_FansStartKickAndBlock_6.time.count) ∧ ((fanAt s_FansStartKickAndBlock_6 (47 : Fin 48).val).edges + (fanAt s_FansStartKickAndBlock_6 (47 : Fin 48).val).tick.edges < 2) ∧ (3 ≤ (fanAt s_FansStartKickAndBlock_6 (47 : Fin 48).val).kick)) ∧
    ((((fanAt s_FansStartKickAndBlock_2 (47 : Fin 48).val).state ≠ 2 ∨ s_FansStartKickAndBlock_2.time.count < (fanAt s_FansStartKickAndBlock_2 (47 : Fin 48).val).start + 4096 ∨ 2 ≤ (fanAt s_FansStartKickAndBlock_2 (47 : Fin 48).val).edges + (fanAt s_FansStartKickAndBlock_2 (47 : Fin 48).val).tick.edges))) ∧
    (((fanAt s_FansStartKickAndBlock_7 (47 : Fin 48).val).state = 3) ∧ ((fanAt s_FansStartKickAndBlock_7 (47 : Fin 48).val).goodFrom.any (fun f => decide (f + 8192 ≤ s_FansStartKickAndBlock_7.time.count)) = true)) ∧
    ((((fanAt s_FansStartKickAndBlock_2 (47 : Fin 48).val).state ≠ 3 ∨ (fanAt s_FansStartKickAndBlock_2 (47 : Fin 48).val).goodFrom.any (fun f => decide (f + 8192 ≤ s_FansStartKickAndBlock_2.time.count)) = false))) ∧
    (((fanAt s_FansStartKickAndBlock_8 (47 : Fin 48).val).state = 3) ∧ (16 ≤ (fanAt s_FansStartKickAndBlock_8 (47 : Fin 48).val).stallRun)) := by
  refine ⟨?_, ?_, ?_, ?_, ?_, ?_, ?_, ?_, ?_, ?_, ?_, ?_⟩ <;> decide +kernel
theorem test_FansStartKickAndBlock_2 :
    ((((fanAt s_FansStartKickAndBlock_2 (47 : Fin 48).val).state ≠ 3 ∨ (fanAt s_FansStartKickAndBlock_2 (47 : Fin 48).val).stallRun < 16))) ∧
    ((s_FansStartKickAndBlock_2.laneOk (0x40 + (2 : Fin 3).val) false = true) ∧ ((47 : Fin 48).val = 16 * (2 : Fin 3).val + (15 : Fin 16).val) ∧ ((0 : Nat) / 16 ≠ (2 : Fin 3).val)) ∧
    ((s_FansStartKickAndBlock_9.laneOk (0x40 + (2 : Fin 3).val) false = true) ∧ ((47 : Fin 48).val = 16 * (2 : Fin 3).val + (15 : Fin 16).val) ∧ (bitOf (0x8000#16).toNat (15 : Fin 16).val = true) ∧ ((fanAt s_FansStartKickAndBlock_9 (47 : Fin 48).val).state = 4) ∧ (fieldOff (fanAt s_FansStartKickAndBlock_9 (47 : Fin 48).val).field = false)) ∧
    ((s_FansStartKickAndBlock_2.laneOk (0x40 + (2 : Fin 3).val) false = true) ∧ ((47 : Fin 48).val = 16 * (2 : Fin 3).val + (15 : Fin 16).val) ∧ ((fanAt s_FansStartKickAndBlock_2 (47 : Fin 48).val).state ≠ 4 ∨ bitOf (0x8000#16).toNat (15 : Fin 16).val = false)) := by
  refine ⟨?_, ?_, ?_, ?_⟩ <;> decide +kernel

def s_PumpsAndTheirBus_0 : State := blkAt 0x103 { state := .starting } (atTick 2048000 (row (fun r => { r with act := { r.act with grantTick := [none, none, none, some 0] } })))
def s_PumpsAndTheirBus_1 : State := blkAt 0x103 { state := .starting } (atTick 81919 (row (fun r => { r with act := { r.act with grantTick := [none, none, none, some 0] } })))
def s_PumpsAndTheirBus_2 : State := blkAt 0x103 { state := .stopping } (atTick 245760 (row (fun r => { r with act := { r.act with zeroTick := [none, none, none, some 0] } })))
def s_PumpsAndTheirBus_3 : State := blkAt 0x103 { state := .stopping } (atTick 245759 (row (fun r => { r with act := { r.act with zeroTick := [none, none, none, some 0] } })))
def s_PumpsAndTheirBus_4 : State := chp (fun c => { c with chosen := some (0x180, 64), mb := ⟨none, none, 0⟩ })
def s_PumpsAndTheirBus_5 : State := chp (fun c => { c with chosen := some (0x180, 64), mb := ⟨some (1, .status, 3), none, 0⟩ })
def s_PumpsAndTheirBus_6 : State := chp (fun c => { c with mb := { c.mb with out := some (1, .lossRead, 46), cmd := some ⟨3, .lossRead, 256, 200⟩ } })
def s_PumpsAndTheirBus_7 : State := chp (fun c => { c with mb := { c.mb with out := some (1, .write, 46), cmd := some ⟨3, .write, 256, 200⟩ } })
def s_PumpsAndTheirBus_8 : State := chp (fun c => { c with mb := { c.mb with out := some (1, .setLoss, 46), cmd := some ⟨3, .setLoss, 256, 200⟩ } })
def s_PumpsAndTheirBus_9 : State := chp (fun c => { c with mb := { c.mb with out := some (1, .readBack, 46), cmd := some ⟨3, .readBack, 256, 200⟩ } })
def s_PumpsAndTheirBus_10 : State := chp (fun c => { c with mb := { c.mb with out := some (1, .setLoss, 100), cmd := some ⟨3, .setLoss, 256, 200⟩ } })
theorem test_PumpsAndTheirBus_1 :
    (((blkGet s_PumpsAndTheirBus_0 0x48).safe = false) ∧ ((blkGet s_PumpsAndTheirBus_0 (0x100 + (3 : Fin 4).val)).state = .starting) ∧ ((s_PumpsAndTheirBus_0.lane LaneId.a).votes = true) ∧ ((lget none (s_PumpsAndTheirBus_0.lane s_PumpsAndTheirBus_0.lead).row.act.grantTick (3 : Fin 4).val).any (fun g => decide ((g + 8192 * fget s_PumpsAndTheirBus_0.leadRegs F.PUMP_START_TIME ≤ s_PumpsAndTheirBus_0.time.count))) = true)) ∧
    (((lget none (s_PumpsAndTheirBus_1.lane s_PumpsAndTheirBus_1.lead).row.act.grantTick (3 : Fin 4).val).any (fun g => decide (((blkGet s_PumpsAndTheirBus_1 0x48).safe = true ∨ (blkGet s_PumpsAndTheirBus_1 (0x100 + (3 : Fin 4).val)).state ≠ .starting ∨ s_PumpsAndTheirBus_1.time.count < g + 8192 * fget s_PumpsAndTheirBus_1.leadRegs F.PUMP_START_TIME))) = true)) ∧
    (((blkGet s_PumpsAndTheirBus_2 0x48).safe = false) ∧ ((blkGet s_PumpsAndTheirBus_2 (0x100 + (3 : Fin 4).val)).state = .stopping) ∧ ((lget none (s_PumpsAndTheirBus_2.lane s_PumpsAndTheirBus_2.lead).row.act.zeroTick (3 : Fin 4).val).any (fun z => decide ((z + 245760 ≤ s_PumpsAndTheirBus_2.time.count))) = true)) ∧
    (((lget none (s_PumpsAndTheirBus_3.lane s_PumpsAndTheirBus_3.lead).row.act.zeroTick (3 : Fin 4).val).any (fun z => decide (((blkGet s_PumpsAndTheirBus_3 0x48).safe = true ∨ (blkGet s_PumpsAndTheirBus_3 (0x100 + (3 : Fin 4).val)).state ≠ .stopping ∨ s_PumpsAndTheirBus_3.time.count < z + 245760))) = true)) ∧
    ((((2#16).toNat != 2 || (0#16).toNat < 100 || 500 < (0#16).toNat) = true) ∧ ((pumpAt s_PumpsAndTheirBus_0 (3 : Fin 4).val).lossBad = false)) ∧
    ((((2#16).toNat != 2 || (100#16).toNat < 100 || 500 < (100#16).toNat) = false ∨ (pumpAt s_PumpsAndTheirBus_0 (3 : Fin 4).val).lossBad = true)) ∧
    ((openUp.laneOk 0x48 true = true)) ∧
    (((s_PumpsAndTheirBus_4.chip (1 : Fin 2).val).mb.out = none) ∧ (((s_PumpsAndTheirBus_4.chip (1 : Fin 2).val).chosen).any (fun (_, seq) => decide ((seq % 64 = 0))) = true)) ∧
    ((((s_PumpsAndTheirBus_5.chip (1 : Fin 2).val).chosen).any (fun (_, seq) => decide (((seq % 64 ≠ 0 ∨ (s_PumpsAndTheirBus_5.chip (1 : Fin 2).val).mb.out.isSome = true)))) = true)) ∧
    (((s_PumpsAndTheirBus_0.chip (1 : Fin 2).val).chosen = none)) ∧
    (((s_PumpsAndTheirBus_0.chip (1 : Fin 2).val).mb.out = none)) ∧
    ((((s_PumpsAndTheirBus_5.chip (1 : Fin 2).val).mb.out).any (fun (i, kind, _) => decide ((i < 2) ∧ (kind = .status))) = true)) := by
  refine ⟨?_, ?_, ?_, ?_, ?_, ?_, ?_, ?_, ?_, ?_, ?_, ?_⟩ <;> decide +kernel
theorem test_PumpsAndTheirBus_2 :
    ((((s_PumpsAndTheirBus_6.chip (1 : Fin 2).val).mb.out).any (fun (i, kind, _) => decide ((i < 2) ∧ (kind ≠ .status))) = true)) ∧
    ((((s_PumpsAndTheirBus_6.chip (1 : Fin 2).val).mb.out).any (fun (i, kind, _) => decide ((i < 2) ∧ (kind = .lossRead ∨ kind = .readBack))) = true)) ∧
    ((((s_PumpsAndTheirBus_7.chip (1 : Fin 2).val).mb.out).any (fun (i, kind, _) => decide ((i < 2) ∧ (kind = .write))) = true)) ∧
    ((((s_PumpsAndTheirBus_8.chip (1 : Fin 2).val).mb.out).any (fun (i, kind, _) => decide ((i < 2) ∧ (kind = .setLoss))) = true)) ∧
    ((((s_PumpsAndTheirBus_9.chip (1 : Fin 2).val).mb.out).any (fun (i, kind, _) => decide ((i < 2) ∧ (kind = .readBack) ∧ (((s_PumpsAndTheirBus_9.chip (1 : Fin 2).val).mb.cmd).any (fun _ => decide (True)) = true))) = true)) ∧
    ((((s_PumpsAndTheirBus_8.chip (1 : Fin 2).val).mb.out).any (fun (i, kind, _) => decide ((i < 2) ∧ (kind ≠ .status) ∧ (kind ≠ .lossRead))) = true)) ∧
    ((((s_PumpsAndTheirBus_5.chip (1 : Fin 2).val).mb.out).any (fun (i, kind, _) => decide ((i < 2) ∧ (kind = .status ∨ kind = .lossRead))) = true)) ∧
    ((((s_PumpsAndTheirBus_10.chip (1 : Fin 2).val).mb.out).any (fun (i, kind, age) => decide ((i < 2) ∧ (mbWindow kind ≤ age) ∧ (kind ≠ .status) ∧ (kind ≠ .lossRead))) = true)) ∧
    ((((s_PumpsAndTheirBus_5.chip (1 : Fin 2).val).mb.out).any (fun (_, kind, age) => decide ((age < mbWindow kind))) = true)) := by
  refine ⟨?_, ?_, ?_, ?_, ?_, ?_, ?_, ?_, ?_⟩ <;> decide +kernel

def s_PlayaChipsReceiveChooseAndReset_0 : State := sendA id (chp (fun c => { c with auth := 0x280 }))
def s_PlayaChipsReceiveChooseAndReset_1 : State := sendA (fun f => { f with claim := 0x100 }) chp
def s_PlayaChipsReceiveChooseAndReset_2 : State := row (fun r => { r with act := { r.act with repIn := [(0, chipReport 0 chp)] } }) chp
def s_PlayaChipsReceiveChooseAndReset_3 : State := row (fun r => { r with loops := { r.loops with outs := [(⟨1, 3, 0x180, 9, 10000⟩ : LoopOutMsg)] } }) (setPump chp 3 { field := 0x4000 })
def s_PlayaChipsReceiveChooseAndReset_4 : State := row (fun r => { r with loops := { r.loops with outs := [(⟨1, 3, 0x180, 9, 10001⟩ : LoopOutMsg)] } }) (setPump chp 3 { field := 0x4000 })
def s_PlayaChipsReceiveChooseAndReset_5 : State := row (fun r => { r with loops := { r.loops with outs := [(⟨2, 47, 0x180, 9, 10000⟩ : LoopOutMsg)] } }) (setFan chp 47 { field := 0 })
def s_PlayaChipsReceiveChooseAndReset_6 : State := row (fun r => { r with loops := { r.loops with outs := [(⟨2, 47, 0x180, 9, 10001⟩ : LoopOutMsg)] } }) (setFan chp 47 { field := 0 })
def s_PlayaChipsReceiveChooseAndReset_7 : State := row (fun r => { r with loops := { r.loops with outs := [(⟨3, 2, 0x180, 9, 9000⟩ : LoopOutMsg)] } }) (setFan (setFan chp 47 { field := 0 }) 46 { field := 100 })
def s_PlayaChipsReceiveChooseAndReset_8 : State := row (fun r => { r with loops := { r.loops with outs := [(⟨1, 3, 0x180, 9, 9⟩ : LoopOutMsg)] } }) (chp)
def s_PlayaChipsReceiveChooseAndReset_9 : State := row (fun r => { r with loops := { r.loops with outs := [(⟨2, 47, 0x180, 9, 9⟩ : LoopOutMsg)] } }) (chp (fun c => { c with auth := 0x280 }))
def s_PlayaChipsReceiveChooseAndReset_10 : State := sendA id (chp (fun c => { c with powered := false }))
def s_PlayaChipsReceiveChooseAndReset_11 : State := chp (fun c => { c with rxA := some act0 })
def s_PlayaChipsReceiveChooseAndReset_12 : State := chp (fun c => { c with silent := 16383 })
def s_PlayaChipsReceiveChooseAndReset_13 : State := chp (fun c => { c with silent := 16384 })
theorem test_PlayaChipsReceiveChooseAndReset_1 :
    ((((sendA id chp).chip (1 : Fin 2).val).powered = true) ∧ ((((sendA id chp).lane LaneId.a).actOut).any (fun f => decide ((bitsOf f.claim 1 7 ≠ 0) ∧ (higherClaim ((sendA id chp).chip (1 : Fin 2).val).auth f.claim = false))) = true)) ∧
    (((s_PlayaChipsReceiveChooseAndReset_0.chip (1 : Fin 2).val).powered = true) ∧ (((s_PlayaChipsReceiveChooseAndReset_0.lane LaneId.a).actOut).any (fun f => decide ((bitsOf f.claim 1 7 ≠ 0) ∧ (higherClaim (s_PlayaChipsReceiveChooseAndReset_0.chip (1 : Fin 2).val).auth f.claim = true))) = true)) ∧
    (((s_PlayaChipsReceiveChooseAndReset_1.chip (1 : Fin 2).val).powered = true) ∧ (((s_PlayaChipsReceiveChooseAndReset_1.lane LaneId.a).actOut).any (fun f => decide ((bitsOf f.claim 1 7 = 0))) = true)) ∧
    (((s_PlayaChipsReceiveChooseAndReset_2.chip (1 : Fin 2).val).powered = true) ∧ (((s_PlayaChipsReceiveChooseAndReset_2.lane LaneId.a).row.act.repIn).any (fun x => decide ((x.1 ≠ (1 : Fin 2).val))) = true)) ∧
    (((s_PlayaChipsReceiveChooseAndReset_3.chip (1 : Fin 2).val).powered = true) ∧ ((3 : Fin 4).val / 2 = (1 : Fin 2).val) ∧ (fieldOff (pumpAt s_PlayaChipsReceiveChooseAndReset_3 (3 : Fin 4).val).field = false) ∧ (((s_PlayaChipsReceiveChooseAndReset_3.lane LaneId.a).row.loops.outs[(0#6).toNat]?).any (fun m => decide ((bitsOf m.claim 1 7 ≠ 0) ∧ (higherClaim (s_PlayaChipsReceiveChooseAndReset_3.chip (1 : Fin 2).val).auth m.claim = false) ∧ (m.destType = 1) ∧ (m.dest = (3 : Fin 4).val) ∧ (m.duty ≤ 10000))) = true)) ∧
    (((s_PlayaChipsReceiveChooseAndReset_4.chip (1 : Fin 2).val).powered = true) ∧ ((3 : Fin 4).val / 2 = (1 : Fin 2).val) ∧ (fieldOff (pumpAt s_PlayaChipsReceiveChooseAndReset_4 (3 : Fin 4).val).field = false) ∧ (((s_PlayaChipsReceiveChooseAndReset_4.lane LaneId.a).row.loops.outs[(0#6).toNat]?).any (fun m => decide ((bitsOf m.claim 1 7 ≠ 0) ∧ (higherClaim (s_PlayaChipsReceiveChooseAndReset_4.chip (1 : Fin 2).val).auth m.claim = false) ∧ (m.destType = 1) ∧ (m.dest = (3 : Fin 4).val) ∧ (10000 < m.duty) ∧ (m.duty < 16384))) = true)) ∧
    (((s_PlayaChipsReceiveChooseAndReset_5.chip (1 : Fin 2).val).powered = true) ∧ ((47 : Fin 48).val / 24 = (1 : Fin 2).val) ∧ (fieldOff (fanAt s_PlayaChipsReceiveChooseAndReset_5 (47 : Fin 48).val).field = false) ∧ (((s_PlayaChipsReceiveChooseAndReset_5.lane LaneId.a).row.loops.outs[(0#6).toNat]?).any (fun m => decide ((bitsOf m.claim 1 7 ≠ 0) ∧ (higherClaim (s_PlayaChipsReceiveChooseAndReset_5.chip (1 : Fin 2).val).auth m.claim = false) ∧ (m.destType = 2) ∧ (m.dest = (47 : Fin 48).val) ∧ (m.duty ≤ 10000))) = true)) ∧
    (((s_PlayaChipsReceiveChooseAndReset_6.chip (1 : Fin 2).val).powered = true) ∧ ((47 : Fin 48).val / 24 = (1 : Fin 2).val) ∧ (fieldOff (fanAt s_PlayaChipsReceiveChooseAndReset_6 (47 : Fin 48).val).field = false) ∧ (((s_PlayaChipsReceiveChooseAndReset_6.lane LaneId.a).row.loops.outs[(0#6).toNat]?).any (fun m => decide ((bitsOf m.claim 1 7 ≠ 0) ∧ (higherClaim (s_PlayaChipsReceiveChooseAndReset_6.chip (1 : Fin 2).val).auth m.claim = false) ∧ (m.destType = 2) ∧ (m.dest = (47 : Fin 48).val) ∧ (10000 < m.duty) ∧ (m.duty < 16384))) = true)) ∧
    (((s_PlayaChipsReceiveChooseAndReset_7.chip (1 : Fin 2).val).powered = true) ∧ ((47 : Fin 48).val / 16 = (2 : Fin 3).val ∧ (47 : Fin 48).val / 24 = (1 : Fin 2).val ∧ fieldOff (fanAt s_PlayaChipsReceiveChooseAndReset_7 (47 : Fin 48).val).field = false) ∧ (((s_PlayaChipsReceiveChooseAndReset_7.lane LaneId.a).row.loops.outs[(0#6).toNat]?).any (fun m => decide ((bitsOf m.claim 1 7 ≠ 0) ∧ (higherClaim (s_PlayaChipsReceiveChooseAndReset_7.chip (1 : Fin 2).val).auth m.claim = false) ∧ (m.destType = 3) ∧ (m.dest = (2 : Fin 3).val) ∧ (m.duty ≤ 10000))) = true)) ∧
    (((s_PlayaChipsReceiveChooseAndReset_7.chip (1 : Fin 2).val).powered = true) ∧ (¬ ((0 : Fin 48).val / 16 = (2 : Fin 3).val ∧ (0 : Fin 48).val / 24 = (1 : Fin 2).val ∧ fieldOff (fanAt s_PlayaChipsReceiveChooseAndReset_7 (0 : Fin 48).val).field = false)) ∧ (((s_PlayaChipsReceiveChooseAndReset_7.lane LaneId.a).row.loops.outs[(0#6).toNat]?).any (fun m => decide ((bitsOf m.claim 1 7 ≠ 0) ∧ (higherClaim (s_PlayaChipsReceiveChooseAndReset_7.chip (1 : Fin 2).val).auth m.claim = false) ∧ (m.destType = 3) ∧ (m.dest = (2 : Fin 3).val) ∧ (m.duty ≤ 10000))) = true)) ∧
    (((s_PlayaChipsReceiveChooseAndReset_8.chip (1 : Fin 2).val).powered = true) ∧ (((s_PlayaChipsReceiveChooseAndReset_8.lane LaneId.a).row.loops.outs[(0#6).toNat]?).any (fun m => decide ((bitsOf m.claim 1 7 ≠ 0) ∧ (higherClaim (s_PlayaChipsReceiveChooseAndReset_8.chip (1 : Fin 2).val).auth m.claim = false) ∧ (m.destType = 1 ∧ fieldOff (pumpAt s_PlayaChipsReceiveChooseAndReset_8 m.dest).field = true ∨ m.destType = 2 ∧ fieldOff (fanAt s_PlayaChipsReceiveChooseAndReset_8 m.dest).field = true))) = true)) ∧
    ((((s_PlayaChipsReceiveChooseAndReset_9.lane LaneId.a).row.loops.outs[(0#6).toNat]?).any (fun m => decide (((s_PlayaChipsReceiveChooseAndReset_9.chip (1 : Fin 2).val).powered = false ∨ bitsOf m.claim 1 7 = 0 ∨ higherClaim (s_PlayaChipsReceiveChooseAndReset_9.chip (1 : Fin 2).val).auth m.claim = true))) = true)) := by
  refine ⟨?_, ?_, ?_, ?_, ?_, ?_, ?_, ?_, ?_, ?_, ?_, ?_⟩ <;> decide +kernel
theorem test_PlayaChipsReceiveChooseAndReset_2 :
    (((s_PlayaChipsReceiveChooseAndReset_10.chip (1 : Fin 2).val).powered = false)) ∧
    (((s_PlayaChipsReceiveChooseAndReset_11.chip (1 : Fin 2).val).powered = true) ∧ ((47 : Fin 48).val / 24 = (1 : Fin 2).val) ∧ ((chipChoose (s_PlayaChipsReceiveChooseAndReset_11.chip (1 : Fin 2).val)).any (fun _ => decide (True)) = true)) ∧
    (((s_PlayaChipsReceiveChooseAndReset_11.chip (1 : Fin 2).val).powered = true) ∧ ((3 : Fin 4).val / 2 = (1 : Fin 2).val) ∧ ((chipChoose (s_PlayaChipsReceiveChooseAndReset_11.chip (1 : Fin 2).val)).any (fun _ => decide (True)) = true)) ∧
    (((s_PlayaChipsReceiveChooseAndReset_12.chip (1 : Fin 2).val).powered = true) ∧ (chipChoose (s_PlayaChipsReceiveChooseAndReset_12.chip (1 : Fin 2).val) = none) ∧ (16384 ≤ (s_PlayaChipsReceiveChooseAndReset_12.chip (1 : Fin 2).val).silent + 1) ∧ ((s_PlayaChipsReceiveChooseAndReset_12.chip (1 : Fin 2).val).wdog = false) ∧ ((47 : Fin 48).val / 24 = (1 : Fin 2).val)) ∧
    (((s_PlayaChipsReceiveChooseAndReset_12.chip (1 : Fin 2).val).powered = true) ∧ (chipChoose (s_PlayaChipsReceiveChooseAndReset_12.chip (1 : Fin 2).val) = none) ∧ (16384 ≤ (s_PlayaChipsReceiveChooseAndReset_12.chip (1 : Fin 2).val).silent + 1) ∧ ((s_PlayaChipsReceiveChooseAndReset_12.chip (1 : Fin 2).val).wdog = false) ∧ ((3 : Fin 4).val / 2 = (1 : Fin 2).val)) ∧
    ((16384 ≤ (s_PlayaChipsReceiveChooseAndReset_13.chip (1 : Fin 2).val).silent) ∧ ((s_PlayaChipsReceiveChooseAndReset_13.chip (1 : Fin 2).val).wdog = false) ∧ ((47 : Fin 48).val / 24 = (1 : Fin 2).val)) ∧
    ((16384 ≤ (s_PlayaChipsReceiveChooseAndReset_13.chip (1 : Fin 2).val).silent) ∧ ((s_PlayaChipsReceiveChooseAndReset_13.chip (1 : Fin 2).val).wdog = false) ∧ ((3 : Fin 4).val / 2 = (1 : Fin 2).val)) ∧
    ((((sendA id chp).chip (1 : Fin 2).val).silent < 16384 ∨ ((sendA id chp).chip (1 : Fin 2).val).wdog = true)) ∧
    ((((sendA id chp).chip (1 : Fin 2).val).powered = true) ∧ ((95 : Fin 96).val / 48 = (1 : Fin 2).val)) ∧
    ((((sendA id chp).chip (1 : Fin 2).val).powered = true) ∧ ((0 : Fin 96).val / 48 ≠ (1 : Fin 2).val)) ∧
    ((((sendA id chp).chip (1 : Fin 2).val).powered = true) ∧ ((47 : Fin 48).val / 24 = (1 : Fin 2).val)) ∧
    ((((sendA id chp).chip (1 : Fin 2).val).powered = true) ∧ ((0 : Fin 48).val / 24 ≠ (1 : Fin 2).val)) := by
  refine ⟨?_, ?_, ?_, ?_, ?_, ?_, ?_, ?_, ?_, ?_, ?_, ?_⟩ <;> decide +kernel
theorem test_PlayaChipsReceiveChooseAndReset_3 :
    ((((sendA id chp).chip (1 : Fin 2).val).powered = true) ∧ ((3 : Fin 4).val / 2 = (1 : Fin 2).val)) ∧
    ((((sendA id chp).chip (1 : Fin 2).val).powered = true) ∧ ((0 : Fin 4).val / 2 ≠ (1 : Fin 2).val)) ∧
    ((((sendA id chp).chip (1 : Fin 2).val).powered = true) ∧ ((11 : Fin 12).val / 6 = (1 : Fin 2).val)) := by
  refine ⟨?_, ?_, ?_⟩ <;> decide +kernel

def s_CaravanPortsAndLinks_0 : State := State.onCrvn (blkAt 273 { state := .starting } (blkAt 272 { state := .starting } (State.reset))) (fun c => { c with p0 := { c.p0 with woken := true }, p1 := { c.p1 with woken := true } })
def s_CaravanPortsAndLinks_1 : State := blkAt 0x70 { safe := true } (State.onCrvn (blkAt 273 { state := .starting } (blkAt 272 { state := .starting } (State.reset))) (fun c => { c with p0 := { c.p0 with woken := true }, p1 := { c.p1 with woken := true } }))
def s_CaravanPortsAndLinks_2 : State := State.onCrvn (blkAt 273 { state := .run } (blkAt 272 { state := .run } (State.reset))) (fun c => { c with relay := true })
def s_CaravanPortsAndLinks_3 : State := atTick 32 (State.onCrvn (blkAt 273 { state := .starting } (blkAt 272 { state := .run } (State.reset))) (fun c => { c with relay := true }))
def s_CaravanPortsAndLinks_4 : State := State.onCrvn (blkAt 273 { state := .starting } (blkAt 272 { state := .starting } (State.reset))) (fun c => { c with p1 := { c.p1 with waiting := true, waitTicks := 16 } })
def s_CaravanPortsAndLinks_5 : State := State.onCrvn (blkAt 273 { state := .run } (blkAt 272 { state := .run } (State.reset))) (fun c => { c with p1 := { c.p1 with goodRun := 4 } })
def s_CaravanPortsAndLinks_6 : State := fldAt (F.CRVN_PORT_DOWN_COUNT 1) 0xFFFF (State.onCrvn (blkAt 273 { state := .run } (blkAt 272 { state := .run } (State.reset))) (fun c => { c with p1 := { c.p1 with linkUp := true, missRun := 4 } }))
theorem test_CaravanPortsAndLinks_1 :
    ((portWoke s_CaravanPortsAndLinks_0 0 = true) ∧ (portWoke s_CaravanPortsAndLinks_0 1 = true) ∧ ((portState s_CaravanPortsAndLinks_0 0 = .starting ∨ portState s_CaravanPortsAndLinks_0 1 = .starting)) ∧ (crvnSafe s_CaravanPortsAndLinks_0 = false)) ∧
    ((portWoke s_CaravanPortsAndLinks_1 0 = true) ∧ (portWoke s_CaravanPortsAndLinks_1 1 = true) ∧ ((portState s_CaravanPortsAndLinks_1 0 = .starting ∨ portState s_CaravanPortsAndLinks_1 1 = .starting)) ∧ (crvnSafe s_CaravanPortsAndLinks_1 = true)) ∧
    ((portWoke s_CaravanPortsAndLinks_0 0 = true) ∧ (portWoke s_CaravanPortsAndLinks_0 1 = true) ∧ ((portState s_CaravanPortsAndLinks_0 0 = .starting ∨ portState s_CaravanPortsAndLinks_0 1 = .starting)) ∧ (((false) && false) = false)) ∧
    ((portWoke s_CaravanPortsAndLinks_0 0 = true) ∧ (portWoke s_CaravanPortsAndLinks_0 1 = true) ∧ ((portState s_CaravanPortsAndLinks_0 0 = .starting ∨ portState s_CaravanPortsAndLinks_0 1 = .starting)) ∧ ((false && (false)) = false)) ∧
    ((portWoke s_CaravanPortsAndLinks_2 0 = false ∨ portWoke s_CaravanPortsAndLinks_2 1 = false ∨ (portState s_CaravanPortsAndLinks_2 0 ≠ .starting ∧ portState s_CaravanPortsAndLinks_2 1 ≠ .starting))) ∧
    ((s_CaravanPortsAndLinks_2.crvn.relay = true) ∧ (portWoke s_CaravanPortsAndLinks_2 0 = true) ∧ (portWoke s_CaravanPortsAndLinks_2 1 = true)) ∧
    ((s_CaravanPortsAndLinks_0.crvn.relay = false ∨ portWoke s_CaravanPortsAndLinks_0 0 = false ∨ portWoke s_CaravanPortsAndLinks_0 1 = false)) ∧
    ((s_CaravanPortsAndLinks_0.time.count < s_CaravanPortsAndLinks_0.crvn.relayAt + 32)) ∧
    ((s_CaravanPortsAndLinks_3.crvn.relayAt + 32 ≤ s_CaravanPortsAndLinks_3.time.count) ∧ (portState s_CaravanPortsAndLinks_3 (1 : Fin 2).val = .starting ∧ s_CaravanPortsAndLinks_3.crvn.relay = true ∧ (s_CaravanPortsAndLinks_3.cport (1 : Fin 2).val).contact = false ∨ portState s_CaravanPortsAndLinks_3 (1 : Fin 2).val = .stopping) ∧ (portState s_CaravanPortsAndLinks_3 (1 - (1 : Fin 2).val) = .run)) ∧
    ((portState s_CaravanPortsAndLinks_2 (1 : Fin 2).val = .run) ∧ (portState s_CaravanPortsAndLinks_2 (1 - (1 : Fin 2).val) = .run)) ∧
    ((portState s_CaravanPortsAndLinks_0 (1 : Fin 2).val ≠ .run)) ∧
    (((s_CaravanPortsAndLinks_4.cport (1 : Fin 2).val).waiting = true) ∧ ((s_CaravanPortsAndLinks_4.cport (1 : Fin 2).val).waitTicks = 16)) := by
  refine ⟨?_, ?_, ?_, ?_, ?_, ?_, ?_, ?_, ?_, ?_, ?_, ?_⟩ <;> decide +kernel
theorem test_CaravanPortsAndLinks_2 :
    (((s_CaravanPortsAndLinks_0.cport (1 : Fin 2).val).waiting = false ∨ (s_CaravanPortsAndLinks_0.cport (1 : Fin 2).val).waitTicks ≠ 16)) ∧
    ((portHears s_CaravanPortsAndLinks_2 (1 : Fin 2).val hdr1)) ∧
    ((portState s_CaravanPortsAndLinks_2 (1 : Fin 2).val = .run) ∧ (({ hdr1 with version := 2#8 }).version ≠ 1 ∨ knownType ({ hdr1 with version := 2#8 }).typ.toNat = false)) ∧
    (((s_CaravanPortsAndLinks_5.cport (1 : Fin 2).val).linkUp = false) ∧ (portState s_CaravanPortsAndLinks_5 (1 : Fin 2).val = .run) ∧ (4 ≤ (s_CaravanPortsAndLinks_5.cport (1 : Fin 2).val).goodRun)) ∧
    (((s_CaravanPortsAndLinks_0.cport (1 : Fin 2).val).linkUp = true ∨ portState s_CaravanPortsAndLinks_0 (1 : Fin 2).val ≠ .run ∨ (s_CaravanPortsAndLinks_0.cport (1 : Fin 2).val).goodRun < 4)) ∧
    (((s_CaravanPortsAndLinks_6.cport (1 : Fin 2).val).linkUp = true) ∧ ((portState s_CaravanPortsAndLinks_6 (1 : Fin 2).val ≠ .run ∨ (s_CaravanPortsAndLinks_6.cport (1 : Fin 2).val).lockAll = false ∨ (s_CaravanPortsAndLinks_6.cport (1 : Fin 2).val).leaving = true ∨ 4 ≤ (s_CaravanPortsAndLinks_6.cport (1 : Fin 2).val).missRun))) ∧
    (((s_CaravanPortsAndLinks_0.cport (1 : Fin 2).val).linkUp = false ∨ (portState s_CaravanPortsAndLinks_0 (1 : Fin 2).val = .run ∧ (s_CaravanPortsAndLinks_0.cport (1 : Fin 2).val).lockAll = true ∧ (s_CaravanPortsAndLinks_0.cport (1 : Fin 2).val).leaving = false ∧ (s_CaravanPortsAndLinks_0.cport (1 : Fin 2).val).missRun < 4))) := by
  refine ⟨?_, ?_, ?_, ?_, ?_, ?_, ?_⟩ <;> decide +kernel

def s_CaravanDiscoversAndAdopts_0 : State := State.onCrvn (State.reset) (fun c => { c with p1 := { c.p1 with linkUp := true }, settle := some 8 })
def s_CaravanDiscoversAndAdopts_1 : State := State.onCrvn (ring) (fun c => { c with p0 := { c.p0 with linkUp := true } })
def s_CaravanDiscoversAndAdopts_2 : State := State.onCrvn (ring) (fun c => { c with p0 := { c.p0 with linkUp := true }, p1 := { c.p1 with linkUp := true }, seen := [(3, 0)] })
def s_CaravanDiscoversAndAdopts_3 : State := State.onCrvn (ring) (fun c => { c with disc := some ⟨0, true, false, none, none⟩ })
def s_CaravanDiscoversAndAdopts_4 : State := State.onCrvn (ring) (fun c => { c with lastAsg := some (5, 1) })
def s_CaravanDiscoversAndAdopts_5 : State := State.onCrvn (atTick 4) (fun c => { c with disc := some ⟨0, true, true, none, none⟩, fails := 7 })
theorem test_CaravanDiscoversAndAdopts_1 :
    ((discDue s_CaravanDiscoversAndAdopts_0 = true)) ∧
    ((discDue s_CaravanDiscoversAndAdopts_1 = false)) ∧
    ((portHears s_CaravanDiscoversAndAdopts_1 (1 : Fin 2).val hdr1) ∧ ((5#64).toNat ≠ ownUid s_CaravanDiscoversAndAdopts_1) ∧ ((seenNow s_CaravanDiscoversAndAdopts_1).any (fun x => decide (x.1 < (5#64).toNat)) = false) ∧ ((s_CaravanDiscoversAndAdopts_1.cport (1 - (1 : Fin 2).val)).linkUp = true) ∧ ((s_CaravanDiscoversAndAdopts_1.cport (1 - (1 : Fin 2).val)).line = none)) ∧
    ((portHears s_CaravanDiscoversAndAdopts_1 (0 : Fin 2).val hdr1) ∧ ((5#64).toNat ≠ ownUid s_CaravanDiscoversAndAdopts_1) ∧ ((seenNow s_CaravanDiscoversAndAdopts_1).any (fun x => decide (x.1 < (5#64).toNat)) = false) ∧ ((s_CaravanDiscoversAndAdopts_1.cport (1 - (0 : Fin 2).val)).linkUp = false) ∧ ((s_CaravanDiscoversAndAdopts_1.cport (0 : Fin 2).val).line = none)) ∧
    ((portHears s_CaravanDiscoversAndAdopts_2 (1 : Fin 2).val hdr1) ∧ ((5#64).toNat ≠ ownUid s_CaravanDiscoversAndAdopts_2) ∧ ((seenNow s_CaravanDiscoversAndAdopts_2).any (fun x => decide (x.1 < (5#64).toNat)) = true)) ∧
    ((portHears s_CaravanDiscoversAndAdopts_3 (1 : Fin 2).val hdr1) ∧ (ownUid s_CaravanDiscoversAndAdopts_3 < 2 ^ 64) ∧ ((s_CaravanDiscoversAndAdopts_3.crvn.disc).any (fun d => decide (((if (1 : Fin 2).val = 0 then d.west else d.east) = true))) = true)) ∧
    ((portHears s_CaravanDiscoversAndAdopts_1 (1 : Fin 2).val hdr1) ∧ ((5#64).toNat ≠ ownUid s_CaravanDiscoversAndAdopts_1) ∧ ((s_CaravanDiscoversAndAdopts_1.cport (1 - (1 : Fin 2).val)).linkUp = true) ∧ ((s_CaravanDiscoversAndAdopts_1.cport (1 - (1 : Fin 2).val)).line = none)) ∧
    ((portHears s_CaravanDiscoversAndAdopts_3 (0 : Fin 2).val hdr1) ∧ (ownUid s_CaravanDiscoversAndAdopts_3 < 2 ^ 64) ∧ ((s_CaravanDiscoversAndAdopts_3.crvn.disc).any (fun d => decide ((((!((if (0 : Fin 2).val = 0 then { d with endE := some ([⟨5, 0, false, 0, false, false, true, 0⟩, ⟨6, 0, false, 0, false, false, true, 0⟩, ⟨7, 0, false, 0, false, false, true, 0⟩] : List DiscEnt) } else { d with endW := some ([⟨5, 0, false, 0, false, false, true, 0⟩, ⟨6, 0, false, 0, false, false, true, 0⟩, ⟨7, 0, false, 0, false, false, true, 0⟩] : List DiscEnt) } : DiscRun)).east || ((if (0 : Fin 2).val = 0 then { d with endE := some ([⟨5, 0, false, 0, false, false, true, 0⟩, ⟨6, 0, false, 0, false, false, true, 0⟩, ⟨7, 0, false, 0, false, false, true, 0⟩] : List DiscEnt) } else { d with endW := some ([⟨5, 0, false, 0, false, false, true, 0⟩, ⟨6, 0, false, 0, false, false, true, 0⟩, ⟨7, 0, false, 0, false, false, true, 0⟩] : List DiscEnt) } : DiscRun)).endE.isSome) && (!((if (0 : Fin 2).val = 0 then { d with endE := some ([⟨5, 0, false, 0, false, false, true, 0⟩, ⟨6, 0, false, 0, false, false, true, 0⟩, ⟨7, 0, false, 0, false, false, true, 0⟩] : List DiscEnt) } else { d with endW := some ([⟨5, 0, false, 0, false, false, true, 0⟩, ⟨6, 0, false, 0, false, false, true, 0⟩, ⟨7, 0, false, 0, false, false, true, 0⟩] : List DiscEnt) } : DiscRun)).west || ((if (0 : Fin 2).val = 0 then { d with endE := some ([⟨5, 0, false, 0, false, false, true, 0⟩, ⟨6, 0, false, 0, false, false, true, 0⟩, ⟨7, 0, false, 0, false, false, true, 0⟩] : List DiscEnt) } else { d with endW := some ([⟨5, 0, false, 0, false, false, true, 0⟩, ⟨6, 0, false, 0, false, false, true, 0⟩, ⟨7, 0, false, 0, false, false, true, 0⟩] : List DiscEnt) } : DiscRun)).endW.isSome)) = true))) = true)) ∧
    ((portHears s_CaravanDiscoversAndAdopts_3 (1 : Fin 2).val hdr1) ∧ (ownUid s_CaravanDiscoversAndAdopts_3 < 2 ^ 64) ∧ ((s_CaravanDiscoversAndAdopts_3.crvn.disc).any (fun d => decide ((((!((if (1 : Fin 2).val = 0 then { d with endE := some ([⟨5, 0, false, 0, false, false, true, 0⟩, ⟨6, 0, false, 0, false, false, true, 0⟩, ⟨7, 0, false, 0, false, false, true, 0⟩] : List DiscEnt) } else { d with endW := some ([⟨5, 0, false, 0, false, false, true, 0⟩, ⟨6, 0, false, 0, false, false, true, 0⟩, ⟨7, 0, false, 0, false, false, true, 0⟩] : List DiscEnt) } : DiscRun)).east || ((if (1 : Fin 2).val = 0 then { d with endE := some ([⟨5, 0, false, 0, false, false, true, 0⟩, ⟨6, 0, false, 0, false, false, true, 0⟩, ⟨7, 0, false, 0, false, false, true, 0⟩] : List DiscEnt) } else { d with endW := some ([⟨5, 0, false, 0, false, false, true, 0⟩, ⟨6, 0, false, 0, false, false, true, 0⟩, ⟨7, 0, false, 0, false, false, true, 0⟩] : List DiscEnt) } : DiscRun)).endE.isSome) && (!((if (1 : Fin 2).val = 0 then { d with endE := some ([⟨5, 0, false, 0, false, false, true, 0⟩, ⟨6, 0, false, 0, false, false, true, 0⟩, ⟨7, 0, false, 0, false, false, true, 0⟩] : List DiscEnt) } else { d with endW := some ([⟨5, 0, false, 0, false, false, true, 0⟩, ⟨6, 0, false, 0, false, false, true, 0⟩, ⟨7, 0, false, 0, false, false, true, 0⟩] : List DiscEnt) } : DiscRun)).west || ((if (1 : Fin 2).val = 0 then { d with endE := some ([⟨5, 0, false, 0, false, false, true, 0⟩, ⟨6, 0, false, 0, false, false, true, 0⟩, ⟨7, 0, false, 0, false, false, true, 0⟩] : List DiscEnt) } else { d with endW := some ([⟨5, 0, false, 0, false, false, true, 0⟩, ⟨6, 0, false, 0, false, false, true, 0⟩, ⟨7, 0, false, 0, false, false, true, 0⟩] : List DiscEnt) } : DiscRun)).endW.isSome)) = false))) = true)) ∧
    ((portHears s_CaravanDiscoversAndAdopts_1 (1 : Fin 2).val hdr1) ∧ ((5#64).toNat ≠ ownUid s_CaravanDiscoversAndAdopts_1) ∧ (s_CaravanDiscoversAndAdopts_1.crvn.lastAsg ≠ some ((5#64).toNat, (1#16).toNat)) ∧ ((([⟨ownUid State.reset, 7, true⟩] : List AsgEnt).find? (fun e => e.uid == ownUid s_CaravanDiscoversAndAdopts_1)).any (fun a => decide ((a.assigned = true))) = true)) ∧
    ((portHears s_CaravanDiscoversAndAdopts_4 (1 : Fin 2).val hdr1) ∧ ((5#64).toNat ≠ ownUid s_CaravanDiscoversAndAdopts_4) ∧ (s_CaravanDiscoversAndAdopts_4.crvn.lastAsg = some ((5#64).toNat, (1#16).toNat))) ∧
    ((s_CaravanDiscoversAndAdopts_5.crvn.fails = 7) ∧ ((s_CaravanDiscoversAndAdopts_5.crvn.disc).any (fun d => decide ((d.tick + 4 ≤ s_CaravanDiscoversAndAdopts_5.time.count))) = true)) := by
  refine ⟨?_, ?_, ?_, ?_, ?_, ?_, ?_, ?_, ?_, ?_, ?_, ?_⟩ <;> decide +kernel
theorem test_CaravanDiscoversAndAdopts_2 :
    (((s_CaravanDiscoversAndAdopts_3.crvn.disc).any (fun d => decide ((s_CaravanDiscoversAndAdopts_3.time.count < d.tick + 4))) = true)) ∧
    ((s_CaravanDiscoversAndAdopts_0.crvn.disc = none)) ∧
    ((portState s_CaravanDiscoversAndAdopts_1 (1 : Fin 2).val = .run)) := by
  refine ⟨?_, ?_, ?_⟩ <;> decide +kernel

def s_CaravanCarriesReportsAndData_0 : State := fldAt F.CRVN_CFG_HALL_EN 1 (atTick 24 ring)
def s_CaravanCarriesReportsAndData_1 : State := fldAt F.CRVN_CFG_HALL_EN 1 (atTick 1 ring)
def s_CaravanCarriesReportsAndData_2 : State := State.onCrvn (ring) (fun c => { c with p0 := { c.p0 with linkUp := true }, p1 := { c.p1 with linkUp := true } })
def s_CaravanCarriesReportsAndData_3 : State := State.onCrvn (ring) (fun c => { c with rx := List.replicate 16 (4, []) })
def s_CaravanCarriesReportsAndData_4 : State := lockAt 0x70 ring
def s_CaravanCarriesReportsAndData_5 : State := State.onCrvn (ring) (fun c => { c with echo := some (4, 5, 2) })
def s_CaravanCarriesReportsAndData_6 : State := atTick 6 (State.onCrvn (ring) (fun c => { c with echo := some (4, 5, 2) }))
theorem test_CaravanCarriesReportsAndData_1 :
    ((s_CaravanCarriesReportsAndData_0.fld F.CRVN_CFG_HALL_EN = 1) ∧ (s_CaravanCarriesReportsAndData_0.time.tick = 0) ∧ (s_CaravanCarriesReportsAndData_0.crvn.hallSent ≠ some (s_CaravanCarriesReportsAndData_0.time.count / 8)) ∧ ((ownAddr s_CaravanCarriesReportsAndData_0).any (fun a => decide ((s_CaravanCarriesReportsAndData_0.time.frame % 64 = a))) = true)) ∧
    (((ownAddr s_CaravanCarriesReportsAndData_1 = none ∨ s_CaravanCarriesReportsAndData_1.time.tick ≠ 0 ∨ s_CaravanCarriesReportsAndData_1.fld F.CRVN_CFG_HALL_EN ≠ 1 ∨ ownAddr s_CaravanCarriesReportsAndData_1 ≠ some (s_CaravanCarriesReportsAndData_1.time.frame % 64) ∨ s_CaravanCarriesReportsAndData_1.crvn.hallSent = some (s_CaravanCarriesReportsAndData_1.time.count / 8)))) ∧
    ((portHears s_CaravanCarriesReportsAndData_0 (1 : Fin 2).val ({ hdrP with bcast := true })) ∧ (older16 ({ hdrP with bcast := true }).rgen.toNat (s_CaravanCarriesReportsAndData_0.fld F.CRVN_RGEN_RGEN) = false) ∧ (({ hdrP with bcast := true }).bcast = true) ∧ (ownAddr s_CaravanCarriesReportsAndData_0 ≠ some ({ hdrP with bcast := true }).src.toNat) ∧ ((3 : Nat) ≠ ({ hdrP with bcast := true }).src.toNat)) ∧
    ((portHears s_CaravanCarriesReportsAndData_2 (1 : Fin 2).val ({ hdrP with bcast := true })) ∧ (older16 ({ hdrP with bcast := true }).rgen.toNat (s_CaravanCarriesReportsAndData_2.fld F.CRVN_RGEN_RGEN) = false) ∧ (({ hdrP with bcast := true }).bcast = true) ∧ (ownAddr s_CaravanCarriesReportsAndData_2 ≠ some ({ hdrP with bcast := true }).src.toNat) ∧ (2 ≤ ({ hdrP with bcast := true }).ttl.toNat) ∧ ((s_CaravanCarriesReportsAndData_2.cport (1 - (1 : Fin 2).val)).linkUp = true) ∧ ((s_CaravanCarriesReportsAndData_2.cport (1 - (1 : Fin 2).val)).line = none)) ∧
    ((portHears s_CaravanCarriesReportsAndData_0 (1 : Fin 2).val ({ hdrP with bcast := true, ttl := 1#8 })) ∧ (older16 ({ hdrP with bcast := true, ttl := 1#8 }).rgen.toNat (s_CaravanCarriesReportsAndData_0.fld F.CRVN_RGEN_RGEN) = false) ∧ (({ hdrP with bcast := true, ttl := 1#8 }).bcast = true) ∧ (ownAddr s_CaravanCarriesReportsAndData_0 ≠ some ({ hdrP with bcast := true, ttl := 1#8 }).src.toNat) ∧ (({ hdrP with bcast := true, ttl := 1#8 }).ttl.toNat ≤ 1)) ∧
    ((portHears s_CaravanCarriesReportsAndData_0 (1 : Fin 2).val ({ hdrP with bcast := true, src := 3#6 })) ∧ (older16 ({ hdrP with bcast := true, src := 3#6 }).rgen.toNat (s_CaravanCarriesReportsAndData_0.fld F.CRVN_RGEN_RGEN) = false) ∧ (({ hdrP with bcast := true, src := 3#6 }).bcast = true) ∧ (ownAddr s_CaravanCarriesReportsAndData_0 = some ({ hdrP with bcast := true, src := 3#6 }).src.toNat)) ∧
    ((portHears s_CaravanCarriesReportsAndData_0 (1 : Fin 2).val hdrP) ∧ (forThisNode s_CaravanCarriesReportsAndData_0 hdrP) ∧ (s_CaravanCarriesReportsAndData_0.crvn.rx.length < 16)) ∧
    ((portHears s_CaravanCarriesReportsAndData_3 (1 : Fin 2).val hdrP) ∧ (forThisNode s_CaravanCarriesReportsAndData_3 hdrP) ∧ (16 ≤ s_CaravanCarriesReportsAndData_3.crvn.rx.length)) ∧
    ((portHears s_CaravanCarriesReportsAndData_2 (1 : Fin 2).val ({ hdrP with dst := 5#6 })) ∧ (older16 ({ hdrP with dst := 5#6 }).rgen.toNat (s_CaravanCarriesReportsAndData_2.fld F.CRVN_RGEN_RGEN) = false) ∧ (({ hdrP with dst := 5#6 }).bcast = false) ∧ (ownAddr s_CaravanCarriesReportsAndData_2 ≠ some ({ hdrP with dst := 5#6 }).dst.toNat) ∧ (ownAddr s_CaravanCarriesReportsAndData_2 ≠ some ({ hdrP with dst := 5#6 }).src.toNat) ∧ (2 ≤ ({ hdrP with dst := 5#6 }).ttl.toNat) ∧ ((s_CaravanCarriesReportsAndData_2.cport (1 - (1 : Fin 2).val)).linkUp = true) ∧ ((s_CaravanCarriesReportsAndData_2.cport (1 - (1 : Fin 2).val)).line = none)) ∧
    ((portHears s_CaravanCarriesReportsAndData_0 (1 : Fin 2).val ({ hdrP with rgen := 0xFFFF#16 })) ∧ (older16 ({ hdrP with rgen := 0xFFFF#16 }).rgen.toNat (s_CaravanCarriesReportsAndData_0.fld F.CRVN_RGEN_RGEN) = true)) ∧
    ((portState s_CaravanCarriesReportsAndData_0 (1 : Fin 2).val = .run)) ∧
    ((s_CaravanCarriesReportsAndData_0.locked 0x70 = false) ∧ (((0#10).toNat = 0 ∨ 512 < (0#10).toNat))) := by
  refine ⟨?_, ?_, ?_, ?_, ?_, ?_, ?_, ?_, ?_, ?_, ?_, ?_⟩ <;> decide +kernel
theorem test_CaravanCarriesReportsAndData_2 :
    ((State.reset.locked 0x70 = false) ∧ (1 ≤ (512#10).toNat) ∧ ((512#10).toNat ≤ 512) ∧ (ownAddr State.reset = none)) ∧
    ((s_CaravanCarriesReportsAndData_0.locked 0x70 = false) ∧ (1 ≤ (512#10).toNat) ∧ ((512#10).toNat ≤ 512) ∧ (ownAddr s_CaravanCarriesReportsAndData_0 ≠ none) ∧ (route s_CaravanCarriesReportsAndData_0 (9#6).toNat = none)) ∧
    ((s_CaravanCarriesReportsAndData_0.locked 0x70 = false) ∧ (1 ≤ (512#10).toNat) ∧ ((512#10).toNat ≤ 512) ∧ (ownAddr s_CaravanCarriesReportsAndData_0 ≠ none) ∧ ((route s_CaravanCarriesReportsAndData_0 (4#6).toNat).any (fun (w, _) => decide ((portState s_CaravanCarriesReportsAndData_0 (west2port w) = .run) ∧ ((s_CaravanCarriesReportsAndData_0.cport (west2port w)).line = none))) = true)) ∧
    ((s_CaravanCarriesReportsAndData_0.locked 0x70 = false) ∧ (1 ≤ (512#10).toNat) ∧ ((512#10).toNat ≤ 512) ∧ (ownAddr s_CaravanCarriesReportsAndData_0 ≠ none) ∧ (s_CaravanCarriesReportsAndData_0.crvn.order ≠ [])) ∧
    ((s_CaravanCarriesReportsAndData_0.locked 0x70 = false) ∧ (ownAddr s_CaravanCarriesReportsAndData_0 ≠ none) ∧ ((route s_CaravanCarriesReportsAndData_0 (4#6).toNat).any (fun (w, _) => decide ((portState s_CaravanCarriesReportsAndData_0 (west2port w) = .run) ∧ ((s_CaravanCarriesReportsAndData_0.cport (west2port w)).line = none))) = true)) ∧
    ((s_CaravanCarriesReportsAndData_0.locked 0x70 = false) ∧ (ownAddr s_CaravanCarriesReportsAndData_0 = none ∨ route s_CaravanCarriesReportsAndData_0 (9#6).toNat = none)) ∧
    ((s_CaravanCarriesReportsAndData_4.locked 0x70 = true)) ∧
    ((portHears s_CaravanCarriesReportsAndData_5 (1 : Fin 2).val hdrP) ∧ (forThisNode s_CaravanCarriesReportsAndData_5 hdrP) ∧ ((s_CaravanCarriesReportsAndData_5.crvn.echo).any (fun (z0_, z1_, _) => decide (z0_ = hdrP.src.toNat ∧ z1_ = (5#64).toNat ∧ True)) = true)) ∧
    ((portHears s_CaravanCarriesReportsAndData_0 (1 : Fin 2).val hdrP) ∧ (forThisNode s_CaravanCarriesReportsAndData_0 hdrP) ∧ (s_CaravanCarriesReportsAndData_0.crvn.echo.all (fun e => e.1 != hdrP.src.toNat || e.2.1 != (5#64).toNat) = true) ∧ ((route s_CaravanCarriesReportsAndData_0 hdrP.src.toNat).any (fun (w, _) => decide ((portState s_CaravanCarriesReportsAndData_0 (west2port w) = .run) ∧ ((s_CaravanCarriesReportsAndData_0.cport (west2port w)).line = none))) = true)) ∧
    (((s_CaravanCarriesReportsAndData_6.crvn.echo).any (fun (_, _, k) => decide ((k + 4 ≤ s_CaravanCarriesReportsAndData_6.time.count))) = true)) ∧
    (((s_CaravanCarriesReportsAndData_5.crvn.echo).any (fun (_, _, k) => decide ((s_CaravanCarriesReportsAndData_5.time.count < k + 4))) = true)) ∧
    ((s_CaravanCarriesReportsAndData_0.crvn.echo = none)) := by
  refine ⟨?_, ?_, ?_, ?_, ?_, ?_, ?_, ?_, ?_, ?_, ?_, ?_⟩ <;> decide +kernel

def s_JobsRunAndEnd_0 : State := xjob { state := 1 }
def s_JobsRunAndEnd_1 : State := xjob { state := 1 } 1 (fun x => { x with reload := 128 })
def s_JobsRunAndEnd_2 : State := xjob { state := 2, endCause := some 1 }
def s_JobsRunAndEnd_3 : State := xjob { state := 2, endCause := some 18 } 1 (fun x => { x with active := some { man0 with images := [⟨575, 8 * 1000, 3, 2, 0⟩] }, lp := [(1000, 9), (1001, 8)] })
def s_JobsRunAndEnd_4 : State := blkAt 0x8A {} (xjob { state := 2, endCause := some 1 })
def s_JobsRunAndEnd_5 : State := xjob { state := 2, endCause := some 3 }
theorem test_JobsRunAndEnd :
    ((mayStart s_JobsRunAndEnd_0 (1023 : Fin 1024).val = true) ∧ ((1022 : Nat) ≠ (1023 : Fin 1024).val) ∧ ((jobErgs (jobEnt s_JobsRunAndEnd_0 (1023 : Fin 1024).val)).any (ergBarred s_JobsRunAndEnd_0) = false)) ∧
    ((mayStart s_JobsRunAndEnd_0 (1023 : Fin 1024).val = true) ∧ (s_JobsRunAndEnd_0.x.errs = []) ∧ ((jobErgs (jobEnt s_JobsRunAndEnd_0 (1023 : Fin 1024).val)).any (ergBarred s_JobsRunAndEnd_0) = false) ∧ ((jobEnt s_JobsRunAndEnd_0 (1023 : Fin 1024).val).inList = 0 ∨ (s_JobsRunAndEnd_0.xjob (1023 : Fin 1024).val).staged = true) ∧ ((574 : Nat) ∉ jobTiles (jobEnt s_JobsRunAndEnd_0 (1023 : Fin 1024).val))) ∧
    ((mayStart s_JobsRunAndEnd_1 (1023 : Fin 1024).val = true) ∧ ((jobErgs (jobEnt s_JobsRunAndEnd_1 (1023 : Fin 1024).val)).any (ergBarred s_JobsRunAndEnd_1) = true)) ∧
    ((mayStart s_JobsRunAndEnd_0 (0 : Fin 1024).val = false)) ∧
    (((s_JobsRunAndEnd_2.xjob (1023 : Fin 1024).val).state = 2) ∧ ((s_JobsRunAndEnd_2.xjob (1023 : Fin 1024).val).restarted = false) ∧ (quadsRun s_JobsRunAndEnd_2 = true) ∧ ((1022 : Nat) ≠ (1023 : Fin 1024).val) ∧ (((s_JobsRunAndEnd_2.xjob (1023 : Fin 1024).val).endCause).any (fun c => decide ((c ≠ 3))) = true)) ∧
    (((s_JobsRunAndEnd_2.xjob (1023 : Fin 1024).val).state = 2) ∧ ((s_JobsRunAndEnd_2.xjob (1023 : Fin 1024).val).restarted = false) ∧ (quadsRun s_JobsRunAndEnd_2 = true) ∧ (s_JobsRunAndEnd_2.x.errs = []) ∧ ((jobEnt s_JobsRunAndEnd_2 (1023 : Fin 1024).val).inList = 0) ∧ (((s_JobsRunAndEnd_2.xjob (1023 : Fin 1024).val).endCause).any (fun c => decide ((c ≠ 3) ∧ (c ≠ 18))) = true)) ∧
    (((s_JobsRunAndEnd_3.xjob (1023 : Fin 1024).val).state = 2) ∧ ((s_JobsRunAndEnd_3.xjob (1023 : Fin 1024).val).restarted = false) ∧ (quadsRun s_JobsRunAndEnd_3 = true) ∧ (s_JobsRunAndEnd_3.x.errs = []) ∧ ((jobEnt s_JobsRunAndEnd_3 (1023 : Fin 1024).val).inList = 0) ∧ (((s_JobsRunAndEnd_3.xjob (1023 : Fin 1024).val).endCause).any (fun c => decide ((c ≠ 3) ∧ (c = 18) ∧ ((s_JobsRunAndEnd_3.x.active).any (fun _ => decide (True)) = true))) = true)) ∧
    (((s_JobsRunAndEnd_4.xjob (1023 : Fin 1024).val).state = 2) ∧ ((s_JobsRunAndEnd_4.xjob (1023 : Fin 1024).val).restarted = false) ∧ (quadsRun s_JobsRunAndEnd_4 = false) ∧ (((s_JobsRunAndEnd_4.xjob (1023 : Fin 1024).val).endCause).any (fun c => decide ((c ≠ 3))) = true)) ∧
    (((s_JobsRunAndEnd_5.xjob (1023 : Fin 1024).val).state = 2) ∧ ((574 : Nat) ∉ jobTiles (jobEnt s_JobsRunAndEnd_5 (1023 : Fin 1024).val)) ∧ (((s_JobsRunAndEnd_5.xjob (1023 : Fin 1024).val).endCause).any (fun c => decide (((c = 3 ∨ (s_JobsRunAndEnd_5.xjob (1023 : Fin 1024).val).restarted = true)))) = true)) ∧
    (((s_JobsRunAndEnd_5.xjob (1023 : Fin 1024).val).state = 2) ∧ ((jobList s_JobsRunAndEnd_5).any (fun k => decide (((jobEnt s_JobsRunAndEnd_5 k).after = (1023 : Fin 1024).val) ∧ ((s_JobsRunAndEnd_5.xjob k).state = 1) ∧ (((s_JobsRunAndEnd_5.xjob (1023 : Fin 1024).val).endCause).any (fun c => decide (((c = 3 ∨ (s_JobsRunAndEnd_5.xjob (1023 : Fin 1024).val).restarted = true)))) = true))) = true)) ∧
    (((s_JobsRunAndEnd_0.xjob (1023 : Fin 1024).val).endCause = none ∨ (s_JobsRunAndEnd_0.xjob (1023 : Fin 1024).val).state ≠ 2)) := by
  refine ⟨?_, ?_, ?_, ?_, ?_, ?_, ?_, ?_, ?_, ?_, ?_⟩ <;> decide +kernel

def s_SetsAreFittedArmedAndAdapted_0 : State := xUp (fun x => { x with fitting := some man0 })
def s_SetsAreFittedArmedAndAdapted_1 : State := fldAt F.XJOB_ARM_FRAME_FRAME 0 (xUp (fun x => { x with fitted := some man0 }))
def s_SetsAreFittedArmedAndAdapted_2 : State := fldAt F.XJOB_ARM_FRAME_FRAME 2 (xUp (fun x => { x with fitted := some man0 }))
def s_SetsAreFittedArmedAndAdapted_3 : State := xUp (fun x => { x with armed := some 2 })
def s_SetsAreFittedArmedAndAdapted_4 : State := xUp (fun x => { x with armed := some 1 })
def s_SetsAreFittedArmedAndAdapted_5 : State := lockAt 0x88 xUp
def s_SetsAreFittedArmedAndAdapted_6 : State := xUp (fun x => { x with fitting := some { man0 with img := factoryImage 0x20 } })
def s_SetsAreFittedArmedAndAdapted_7 : State := quads (xUp (fun x => { x with armed := some 1, posted := true, fitted := some { man0 with images := [(⟨575, 0, 0, 1, 0⟩ : TileImg)] } }))
def s_SetsAreFittedArmedAndAdapted_8 : State := xUp (fun x => { x with copyBack := some 0, active := some man0 })
def s_SetsAreFittedArmedAndAdapted_9 : State := quads (xUp (fun x => { x with armed := some 1, active := some man0, fitted := some { man0 with images := [(⟨575, 0, 0, 1, 0⟩ : TileImg)] }, posted := true, copying := true, copied := true }))
def s_SetsAreFittedArmedAndAdapted_10 : State := fldAt F.XJOB_ADAPT_EN 1 (quads (xUp (fun x => { x with shared := [(tableWord false + 4 * 1022, 4 + 0xFFFF * 65536 + 574 * 2 ^ 32 + 2 ^ 48), (tableWord false + 4 * 1022 + 3, 5 * 2 ^ 32), (tableWord false + 4 * 1023, 3 + 0xFFFF * 65536 + 575 * 2 ^ 32 + 2 ^ 48), (tableWord false + 4 * 1023 + 3, 5 * 2 ^ 32)], active := some { man0 with heads := [⟨5, 0, 0, 0, 0, 0, 9⟩] }, frameOn := true, posted := true, jobs := [(1022, { state := 1 }), (1023, { state := 1 })] })))
def s_SetsAreFittedArmedAndAdapted_11 : State := xjob { state := 2 } 4 (fun x => { x with adapting := true })
theorem test_SetsAreFittedArmedAndAdapted_1 :
    ((xUp.x.up = true) ∧ (xUp.locked 0x88 = false) ∧ (xUp.x.fitting = none) ∧ (xUp.x.armed = none) ∧ ((1023 : Nat) < 1024)) ∧
    ((s_SetsAreFittedArmedAndAdapted_0.x.up = true) ∧ (s_SetsAreFittedArmedAndAdapted_0.locked 0x88 = false) ∧ ((s_SetsAreFittedArmedAndAdapted_0.x.fitting ≠ none ∨ s_SetsAreFittedArmedAndAdapted_0.x.armed ≠ none))) ∧
    ((xUp.x.up = true) ∧ (xUp.locked 0x88 = false) ∧ (xUp.x.fitting = none) ∧ (xUp.x.armed = none) ∧ (xUp.x.fitted = none)) ∧
    ((s_SetsAreFittedArmedAndAdapted_1.x.up = true) ∧ (s_SetsAreFittedArmedAndAdapted_1.locked 0x88 = false) ∧ (s_SetsAreFittedArmedAndAdapted_1.x.fitting = none) ∧ (s_SetsAreFittedArmedAndAdapted_1.x.armed = none) ∧ (s_SetsAreFittedArmedAndAdapted_1.x.fitted ≠ none) ∧ (((s_SetsAreFittedArmedAndAdapted_1.fld F.XJOB_ARM_FRAME_FRAME + 2 ^ 32 - s_SetsAreFittedArmedAndAdapted_1.fld F.XJOB_FRAME_COUNT) % 2 ^ 32) < 2 ∨ 2 ^ 31 ≤ ((s_SetsAreFittedArmedAndAdapted_1.fld F.XJOB_ARM_FRAME_FRAME + 2 ^ 32 - s_SetsAreFittedArmedAndAdapted_1.fld F.XJOB_FRAME_COUNT) % 2 ^ 32))) ∧
    ((s_SetsAreFittedArmedAndAdapted_2.x.up = true) ∧ (s_SetsAreFittedArmedAndAdapted_2.locked 0x88 = false) ∧ (s_SetsAreFittedArmedAndAdapted_2.x.fitting = none) ∧ (s_SetsAreFittedArmedAndAdapted_2.x.armed = none) ∧ (s_SetsAreFittedArmedAndAdapted_2.x.fitted ≠ none) ∧ (2 ≤ ((s_SetsAreFittedArmedAndAdapted_2.fld F.XJOB_ARM_FRAME_FRAME + 2 ^ 32 - s_SetsAreFittedArmedAndAdapted_2.fld F.XJOB_FRAME_COUNT) % 2 ^ 32)) ∧ (((s_SetsAreFittedArmedAndAdapted_2.fld F.XJOB_ARM_FRAME_FRAME + 2 ^ 32 - s_SetsAreFittedArmedAndAdapted_2.fld F.XJOB_FRAME_COUNT) % 2 ^ 32) < 2 ^ 31)) ∧
    ((s_SetsAreFittedArmedAndAdapted_3.x.up = true) ∧ (s_SetsAreFittedArmedAndAdapted_3.locked 0x88 = false) ∧ ((s_SetsAreFittedArmedAndAdapted_3.x.armed).any (fun f => decide (((s_SetsAreFittedArmedAndAdapted_3.fld F.XJOB_FRAME_COUNT + 1) % 2 ^ 32 ≠ f))) = true)) ∧
    ((s_SetsAreFittedArmedAndAdapted_4.x.up = true) ∧ (s_SetsAreFittedArmedAndAdapted_4.locked 0x88 = false) ∧ ((s_SetsAreFittedArmedAndAdapted_4.x.armed).any (fun f => decide (((s_SetsAreFittedArmedAndAdapted_4.fld F.XJOB_FRAME_COUNT + 1) % 2 ^ 32 = f))) = true)) ∧
    ((State.reset.x.up = false)) ∧
    ((s_SetsAreFittedArmedAndAdapted_5.x.up = true) ∧ (s_SetsAreFittedArmedAndAdapted_5.locked 0x88 = true)) ∧
    (((s_SetsAreFittedArmedAndAdapted_6.x.fitting).any (fun m => decide (((fitCheck m ((eccTouches none (m.images.flatMap (fun g => (imgProg g).map (fun p => p.1))) s_SetsAreFittedArmedAndAdapted_6).1)).1 = 0))) = true)) ∧
    (((s_SetsAreFittedArmedAndAdapted_0.x.fitting).any (fun m => decide (((fitCheck m ((eccTouches none (m.images.flatMap (fun g => (imgProg g).map (fun p => p.1))) s_SetsAreFittedArmedAndAdapted_0).1)).1 ≠ 0))) = true)) ∧
    (((s_SetsAreFittedArmedAndAdapted_0.x.fitting).any (fun m => decide ((imgOk ((eccTouches none (m.images.flatMap (fun g => (imgProg g).map (fun p => p.1))) s_SetsAreFittedArmedAndAdapted_0).1) 0x20 m.img = false))) = true)) := by
  refine ⟨?_, ?_, ?_, ?_, ?_, ?_, ?_, ?_, ?_, ?_, ?_, ?_⟩ <;> decide +kernel
theorem test_SetsAreFittedArmedAndAdapted_2 :
    ((xUp.x.fitting = none)) ∧
    ((swapDueNext s_SetsAreFittedArmedAndAdapted_7 = true) ∧ (s_SetsAreFittedArmedAndAdapted_7.x.copyBack ≠ some (s_SetsAreFittedArmedAndAdapted_7.fld F.XJOB_FRAME_COUNT)) ∧ ((s_SetsAreFittedArmedAndAdapted_7.x.posted = true ∨ s_SetsAreFittedArmedAndAdapted_7.x.active = none)) ∧ (quadsRun s_SetsAreFittedArmedAndAdapted_7 = true) ∧ (s_SetsAreFittedArmedAndAdapted_7.x.copying = false) ∧ ((s_SetsAreFittedArmedAndAdapted_7.x.fitted).any (fun _ => decide (True)) = true)) ∧
    ((s_SetsAreFittedArmedAndAdapted_8.x.copyBack = some (s_SetsAreFittedArmedAndAdapted_8.fld F.XJOB_FRAME_COUNT)) ∧ ((s_SetsAreFittedArmedAndAdapted_8.x.active).any (fun _ => decide (True)) = true)) ∧
    ((swapDueNext xUp = false) ∧ (xUp.x.copyBack ≠ some (xUp.fld F.XJOB_FRAME_COUNT))) ∧
    ((swapDueNext s_SetsAreFittedArmedAndAdapted_9 = true) ∧ (s_SetsAreFittedArmedAndAdapted_9.x.copied = true) ∧ (quadsRun s_SetsAreFittedArmedAndAdapted_9 = true)) ∧
    ((swapDueNext s_SetsAreFittedArmedAndAdapted_4 = true) ∧ ((s_SetsAreFittedArmedAndAdapted_4.x.copied = false ∨ quadsRun s_SetsAreFittedArmedAndAdapted_4 = false))) ∧
    ((adaptAllowed s_SetsAreFittedArmedAndAdapted_10 = true) ∧ (quadsRun s_SetsAreFittedArmedAndAdapted_10 = true) ∧ ((jobList s_SetsAreFittedArmedAndAdapted_10).all (fun k => (jobEnt s_SetsAreFittedArmedAndAdapted_10 k).inList == 0) = true) ∧ ((jobList s_SetsAreFittedArmedAndAdapted_10).any (fun k => decide (((s_SetsAreFittedArmedAndAdapted_10.xjob k).state = 1) ∧ ((jobEnt s_SetsAreFittedArmedAndAdapted_10 k).after = 0xFFFF) ∧ ((jobErgs (jobEnt s_SetsAreFittedArmedAndAdapted_10 k)).any (ergBarred s_SetsAreFittedArmedAndAdapted_10) = false) ∧ ((nextPackage s_SetsAreFittedArmedAndAdapted_10).any (fun p => decide (((jobEnt s_SetsAreFittedArmedAndAdapted_10 k).head = p) ∧ ((s_SetsAreFittedArmedAndAdapted_10.x.active).any (fun m => decide (((jobEnt s_SetsAreFittedArmedAndAdapted_10 k).kind = (if headSteps m p ≤ (tget {} s_SetsAreFittedArmedAndAdapted_10.x.heads p).steps then 4 else 3)))) = true))) = true))) = true)) ∧
    ((adaptAllowed xUp = false)) ∧
    ((s_SetsAreFittedArmedAndAdapted_11.x.adapting = true) ∧ ((jobList s_SetsAreFittedArmedAndAdapted_11).any (fun j => decide ((jobAdapt (jobEnt s_SetsAreFittedArmedAndAdapted_11 j) = true) ∧ ((s_SetsAreFittedArmedAndAdapted_11.xjob j).state = 2))) = true)) ∧
    ((s_SetsAreFittedArmedAndAdapted_11.x.adapting = true) ∧ (¬((0 : Nat) ∈ jobList s_SetsAreFittedArmedAndAdapted_11 ∧ jobAdapt (jobEnt s_SetsAreFittedArmedAndAdapted_11 (0 : Nat)) = true ∧ (s_SetsAreFittedArmedAndAdapted_11.xjob (0 : Nat)).state = 2))) ∧
    ((xUp.x.adapting = false)) := by
  refine ⟨?_, ?_, ?_, ?_, ?_, ?_, ?_, ?_, ?_, ?_, ?_⟩ <;> decide +kernel

def s_ErgsCodewordsAndResets_0 : State := blkAt 0x87 { state := .starting, granted := true }
def s_ErgsCodewordsAndResets_1 : State := fldAt (F.ERG_STAT_AWAKE 7) 1
def s_ErgsCodewordsAndResets_2 : State := fldAt F.XECC_SCRUB_EN 1 (xUp (fun x => { x with scrub := 0 }) (State.reset))
def s_ErgsCodewordsAndResets_3 : State := fldAt F.XECC_SCRUB_EN 1 (xUp (fun x => { x with errs := [(xaTile + 32768 * 575 + 32767, 1)], scrub := 1023 }) (fldAt (F.ERG_STAT_AWAKE 7) 1))
def s_ErgsCodewordsAndResets_4 : State := fldAt F.XECC_SCRUB_EN 1 (xUp (fun x => { x with errs := [(xaSharedEnd - 1, 2)], scrub := (xaSharedEnd - 1 - xaShared) / 4096 }) (State.reset))
def s_ErgsCodewordsAndResets_5 : State := fldAt F.XECC_SCRUB_EN 1 (xUp (fun x => { x with errs := [(1023, 2)], scrub := 1 }) (quads State.reset))
def s_ErgsCodewordsAndResets_6 : State := fldAt F.XECC_SCRUB_EN 1 (xUp (fun x => { x with errs := [(xaTile + 32768 * 575 + 32767, 3)], scrub := 1023 }) (fldAt (F.ERG_STAT_AWAKE 7) 1))
def s_ErgsCodewordsAndResets_7 : State := fldAt F.XECC_SCRUB_EN 1 (xUp (fun x => { x with errs := [(xaSharedEnd - 1, 3)], scrub := (xaSharedEnd - 1 - xaShared) / 4096 }) (State.reset))
def s_ErgsCodewordsAndResets_8 : State := fldAt F.XECC_SCRUB_EN 1 (xUp (fun x => { x with errs := [(1023, 3)], scrub := 1 }) (quads State.reset))
def s_ErgsCodewordsAndResets_9 : State := xr (quads (xUp (fun x => { x with active := some man0, lp := [(1, 2)], shared := [(2, 3)] })))
theorem test_ErgsCodewordsAndResets_1 :
    (((blkGet s_ErgsCodewordsAndResets_0 (0x80 + (7 : Fin 8).val)).state = .starting) ∧ ((blkGet s_ErgsCodewordsAndResets_0 (0x80 + (7 : Fin 8).val)).granted = true)) ∧
    ((((blkGet s_ErgsCodewordsAndResets_0 (0x80 + (0 : Fin 8).val)).state ≠ .starting ∨ (blkGet s_ErgsCodewordsAndResets_0 (0x80 + (0 : Fin 8).val)).granted = false))) ∧
    ((s_ErgsCodewordsAndResets_1.fld (F.ERG_STAT_AWAKE (7 : Fin 8).val) = 1) ∧ ((blkGet s_ErgsCodewordsAndResets_1 (0x80 + (7 : Fin 8).val)).state ≠ .fault)) ∧
    ((s_ErgsCodewordsAndResets_0.fld (F.ERG_STAT_AWAKE (7 : Fin 8).val) = 0)) ∧
    ((s_ErgsCodewordsAndResets_2.x.up = true) ∧ (s_ErgsCodewordsAndResets_2.fld F.XECC_SCRUB_EN = 1) ∧ (s_ErgsCodewordsAndResets_2.x.errs = [])) ∧
    ((s_ErgsCodewordsAndResets_3.x.up = true) ∧ (s_ErgsCodewordsAndResets_3.fld F.XECC_SCRUB_EN = 1) ∧ ((match s_ErgsCodewordsAndResets_3.x.errs with | [r] => decide ((scrubHits s_ErgsCodewordsAndResets_3 s_ErgsCodewordsAndResets_3.x.scrub r.1 = true) ∧ (r.2 = 1 ∨ r.2 = 2) ∧ (xaMem r.1 = .tile)) | _ => false) = true)) ∧
    ((s_ErgsCodewordsAndResets_4.x.up = true) ∧ (s_ErgsCodewordsAndResets_4.fld F.XECC_SCRUB_EN = 1) ∧ ((match s_ErgsCodewordsAndResets_4.x.errs with | [r] => decide ((scrubHits s_ErgsCodewordsAndResets_4 s_ErgsCodewordsAndResets_4.x.scrub r.1 = true) ∧ (r.2 = 1 ∨ r.2 = 2) ∧ (xaMem r.1 = .shared)) | _ => false) = true)) ∧
    ((s_ErgsCodewordsAndResets_5.x.up = true) ∧ (s_ErgsCodewordsAndResets_5.fld F.XECC_SCRUB_EN = 1) ∧ ((match s_ErgsCodewordsAndResets_5.x.errs with | [r] => decide ((scrubHits s_ErgsCodewordsAndResets_5 s_ErgsCodewordsAndResets_5.x.scrub r.1 = true) ∧ (r.2 = 1 ∨ r.2 = 2) ∧ (xaMem r.1 = .lpddr)) | _ => false) = true)) ∧
    ((s_ErgsCodewordsAndResets_6.x.up = true) ∧ (s_ErgsCodewordsAndResets_6.fld F.XECC_SCRUB_EN = 1) ∧ ((match s_ErgsCodewordsAndResets_6.x.errs with | [r] => decide ((scrubHits s_ErgsCodewordsAndResets_6 s_ErgsCodewordsAndResets_6.x.scrub r.1 = true) ∧ (r.2 = 3) ∧ (xaMem r.1 = .tile)) | _ => false) = true)) ∧
    ((s_ErgsCodewordsAndResets_7.x.up = true) ∧ (s_ErgsCodewordsAndResets_7.fld F.XECC_SCRUB_EN = 1) ∧ ((match s_ErgsCodewordsAndResets_7.x.errs with | [r] => decide ((scrubHits s_ErgsCodewordsAndResets_7 s_ErgsCodewordsAndResets_7.x.scrub r.1 = true) ∧ (r.2 = 3) ∧ (xaMem r.1 = .shared)) | _ => false) = true)) ∧
    ((s_ErgsCodewordsAndResets_8.x.up = true) ∧ (s_ErgsCodewordsAndResets_8.fld F.XECC_SCRUB_EN = 1) ∧ ((match s_ErgsCodewordsAndResets_8.x.errs with | [r] => decide ((scrubHits s_ErgsCodewordsAndResets_8 s_ErgsCodewordsAndResets_8.x.scrub r.1 = true) ∧ (r.2 = 3) ∧ (xaMem r.1 = .lpddr)) | _ => false) = true)) ∧
    (((s_ErgsCodewordsAndResets_0.x.up = false ∨ s_ErgsCodewordsAndResets_0.fld F.XECC_SCRUB_EN = 0))) := by
  refine ⟨?_, ?_, ?_, ?_, ?_, ?_, ?_, ?_, ?_, ?_, ?_, ?_⟩ <;> decide +kernel
theorem test_ErgsCodewordsAndResets_2 :
    (((lockAt 0x8F).locked 0x8F = true)) ∧
    ((s_ErgsCodewordsAndResets_0.locked 0x8F = false) ∧ (s_ErgsCodewordsAndResets_0.presence = false)) ∧
    ((opn.locked 0x8F = false) ∧ (opn.presence = true)) ∧
    ((reachable s_ErgsCodewordsAndResets_9 0x88 = true) ∧ (s_ErgsCodewordsAndResets_9.locked 0x88 = false)) ∧
    ((reachable (lockAt 0x88 xr) 0x88 = true) ∧ ((lockAt 0x88 xr).locked 0x88 = true)) ∧
    ((reachable s_ErgsCodewordsAndResets_0 0x88 = false)) := by
  refine ⟨?_, ?_, ?_, ?_, ?_, ?_⟩ <;> decide +kernel

def s_FeedsHoldupAndTheLaneRail_0 : State := prt (fun p => { p with hTick := some 0 }) 384
def s_FeedsHoldupAndTheLaneRail_1 : State := { up with pwr := { (up).pwr with holdup := true } }
def s_FeedsHoldupAndTheLaneRail_2 : State := { prt (fun p => { p with hTick := some 0 }) 384 with pwr := { (prt (fun p => { p with hTick := some 0 }) 384).pwr with holdup := true } }
def s_FeedsHoldupAndTheLaneRail_3 : State := { up with pwr := { (up).pwr with seqSupply := true, vinA := 2100 } }
theorem test_FeedsHoldupAndTheLaneRail_1 :
    (((rails.lane LaneId.b).votes = false)) ∧
    (((up.lane LaneId.b).votes = true)) ∧
    (((1499#12).toNat < 1500) ∧ ((1499#12).toNat < 1500) ∧ (rails.pwr.laneRail = true) ∧ (rails.pwr.holdup = false) ∧ ((11 : Nat) < 12)) ∧
    (((1500 ≤ (1499#12).toNat ∨ 1500 ≤ (1499#12).toNat ∨ up.pwr.laneRail = false ∨ up.pwr.holdup = true))) ∧
    ((pastHoldup s_FeedsHoldupAndTheLaneRail_0.time.count (s_FeedsHoldupAndTheLaneRail_0.lane LaneId.b) = true)) ∧
    ((pastHoldup up.time.count (up.lane LaneId.b) = false)) ∧
    ((s_FeedsHoldupAndTheLaneRail_1.pwr.holdup = true) ∧ ((feedOk (1499#12).toNat = true ∨ feedOk (2500#12).toNat = true)) ∧ ((pastHoldup s_FeedsHoldupAndTheLaneRail_1.time.count s_FeedsHoldupAndTheLaneRail_1.laneA = false ∧ pastHoldup s_FeedsHoldupAndTheLaneRail_1.time.count s_FeedsHoldupAndTheLaneRail_1.laneB = false))) ∧
    ((s_FeedsHoldupAndTheLaneRail_2.pwr.holdup = true) ∧ ((feedOk (1499#12).toNat = true ∨ feedOk (2500#12).toNat = true)) ∧ ((pastHoldup s_FeedsHoldupAndTheLaneRail_2.time.count s_FeedsHoldupAndTheLaneRail_2.laneA = true ∨ pastHoldup s_FeedsHoldupAndTheLaneRail_2.time.count s_FeedsHoldupAndTheLaneRail_2.laneB = true))) ∧
    (((up.pwr.holdup = false ∨ (feedOk (1499#12).toNat = false ∧ feedOk (1499#12).toNat = false)))) ∧
    ((0x10 ≤ 0x7F) ∧ (0x7F < 0x80)) ∧
    (((feedOk (1499#12).toNat = true ∨ feedOk (2500#12).toNat = true))) ∧
    ((feedOk (1499#12).toNat = false) ∧ (feedOk (1499#12).toNat = false)) := by
  refine ⟨?_, ?_, ?_, ?_, ?_, ?_, ?_, ?_, ?_, ?_, ?_, ?_⟩ <;> decide +kernel
theorem test_FeedsHoldupAndTheLaneRail_2 :
    ((s_FeedsHoldupAndTheLaneRail_3.pwr.seqSupply = true) ∧ (s_FeedsHoldupAndTheLaneRail_3.pwr.laneRail = false) ∧ ((feedOk s_FeedsHoldupAndTheLaneRail_3.pwr.vinA = true ∨ feedOk s_FeedsHoldupAndTheLaneRail_3.pwr.vinB = true))) ∧
    (((up.pwr.seqSupply = false ∨ up.pwr.laneRail = true ∨ (feedOk up.pwr.vinA = false ∧ feedOk up.pwr.vinB = false)))) := by
  refine ⟨?_, ?_⟩ <;> decide +kernel

def s_PairFramesCarryPairing_0 : State := twn (fun w => { w with owner := true }) (ring up)
def s_PairFramesCarryPairing_1 : State := twn (fun w => { w with passive := true }) (ring (onA (core (fun c => { c with bootDone := true }))))
def s_PairFramesCarryPairing_2 : State := twn (fun w => { w with passive := true, accepted := true, chunks := 191 }) (ring)
def s_PairFramesCarryPairing_3 : State := twn (fun w => { w with passive := true, accepted := true, handing := true }) (ring)
def s_PairFramesCarryPairing_4 : State := twn (fun w => { w with owner := true, serving := true }) (ring)
def s_PairFramesCarryPairing_5 : State := fldAt F.CRVN_RGEN_RGEN 1 ring
def s_PairFramesCarryPairing_6 : State := fldAt F.CRVN_CFG_PAIR_EN 0 ring
theorem test_PairFramesCarryPairing_1 :
    ((pairHears s_PairFramesCarryPairing_0 (1 : Fin 2).val hdrP) ∧ (s_PairFramesCarryPairing_0.twin.owner = true) ∧ (s_PairFramesCarryPairing_0.laneA.core.merge = false) ∧ (s_PairFramesCarryPairing_0.laneB.core.merge = false) ∧ (s_PairFramesCarryPairing_0.laneA.core.linkDown = false) ∧ (s_PairFramesCarryPairing_0.laneB.core.linkDown = false) ∧ ((authLane s_PairFramesCarryPairing_0).any (fun id => decide (((s_PairFramesCarryPairing_0.lane id).core.stFail = false) ∧ ((route s_PairFramesCarryPairing_0 hdrP.src.toNat).any (fun (w, _) => decide ((portState s_PairFramesCarryPairing_0 (west2port w) = .run) ∧ ((s_PairFramesCarryPairing_0.cport (west2port w)).line = none))) = true))) = true)) ∧
    ((pairHears (ring up) (1 : Fin 2).val hdrP) ∧ ((authLane (ring up)).any (fun id => decide ((((ring up).twin.owner = false ∨ ((ring up).lane id).core.stFail = true ∨ (ring up).laneA.core.merge = true ∨ (ring up).laneB.core.merge = true ∨ (ring up).laneA.core.linkDown = true ∨ (ring up).laneB.core.linkDown = true)))) = true)) ∧
    ((pairHears ring (1 : Fin 2).val hdrP) ∧ (authLane ring = none)) ∧
    ((pairHears s_PairFramesCarryPairing_1 (1 : Fin 2).val hdrP) ∧ (s_PairFramesCarryPairing_1.twin.passive = true) ∧ (s_PairFramesCarryPairing_1.twin.accepted = false) ∧ ((s_PairFramesCarryPairing_1.lane LaneId.a).core.mode = .boot) ∧ ((s_PairFramesCarryPairing_1.lane LaneId.a).core.bootDone = true)) ∧
    ((pairHears s_PairFramesCarryPairing_1 (1 : Fin 2).val hdrP) ∧ (s_PairFramesCarryPairing_1.twin.passive = true) ∧ (s_PairFramesCarryPairing_1.twin.accepted = false) ∧ (((s_PairFramesCarryPairing_1.lane LaneId.b).core.mode ≠ .boot ∨ (s_PairFramesCarryPairing_1.lane LaneId.b).core.bootDone = false))) ∧
    ((pairHears s_PairFramesCarryPairing_0 (1 : Fin 2).val hdrP) ∧ ((s_PairFramesCarryPairing_0.twin.passive = false ∨ s_PairFramesCarryPairing_0.twin.accepted = true))) ∧
    ((pairHears s_PairFramesCarryPairing_2 (1 : Fin 2).val hdrP) ∧ (s_PairFramesCarryPairing_2.twin.passive = true) ∧ (s_PairFramesCarryPairing_2.twin.accepted = true) ∧ ((191#16).toNat = s_PairFramesCarryPairing_2.twin.chunks) ∧ ((191#16).toNat < 192)) ∧
    ((pairHears s_PairFramesCarryPairing_2 (1 : Fin 2).val hdrP) ∧ (s_PairFramesCarryPairing_2.twin.passive = true) ∧ (s_PairFramesCarryPairing_2.twin.accepted = true) ∧ (((192#16).toNat ≠ s_PairFramesCarryPairing_2.twin.chunks ∨ 192 ≤ (192#16).toNat))) ∧
    ((pairHears s_PairFramesCarryPairing_2 (1 : Fin 2).val hdrP) ∧ (s_PairFramesCarryPairing_2.twin.passive = true) ∧ (s_PairFramesCarryPairing_2.twin.accepted = true) ∧ (([] : List (Nat × Int)).all (pathAgrees (s_PairFramesCarryPairing_2.lane LaneId.a) LaneId.a) = true)) ∧
    ((pairHears s_PairFramesCarryPairing_2 (1 : Fin 2).val hdrP) ∧ (s_PairFramesCarryPairing_2.twin.passive = true) ∧ (s_PairFramesCarryPairing_2.twin.accepted = true) ∧ (([(0, 5)] : List (Nat × Int)).all (pathAgrees (s_PairFramesCarryPairing_2.lane LaneId.a) LaneId.a) = false)) ∧
    ((pairHears s_PairFramesCarryPairing_3 (1 : Fin 2).val hdrP) ∧ (s_PairFramesCarryPairing_3.twin.passive = true) ∧ (s_PairFramesCarryPairing_3.twin.accepted = true) ∧ (s_PairFramesCarryPairing_3.twin.handing = true)) ∧
    ((pairHears s_PairFramesCarryPairing_2 (1 : Fin 2).val hdrP) ∧ (s_PairFramesCarryPairing_2.twin.passive = true) ∧ (s_PairFramesCarryPairing_2.twin.accepted = true) ∧ (s_PairFramesCarryPairing_2.twin.handing = false)) := by
  refine ⟨?_, ?_, ?_, ?_, ?_, ?_, ?_, ?_, ?_, ?_, ?_, ?_⟩ <;> decide +kernel
theorem test_PairFramesCarryPairing_2 :
    ((pairHears s_PairFramesCarryPairing_0 (1 : Fin 2).val hdrP) ∧ ((s_PairFramesCarryPairing_0.twin.passive = false ∨ s_PairFramesCarryPairing_0.twin.accepted = false))) ∧
    ((pairHears s_PairFramesCarryPairing_4 (1 : Fin 2).val hdrP) ∧ (s_PairFramesCarryPairing_4.twin.owner = true) ∧ (s_PairFramesCarryPairing_4.twin.serving = true) ∧ (s_PairFramesCarryPairing_4.twin.hand = none)) ∧
    ((pairHears s_PairFramesCarryPairing_0 (1 : Fin 2).val hdrP) ∧ ((s_PairFramesCarryPairing_0.twin.owner = false ∨ s_PairFramesCarryPairing_0.twin.serving = false ∨ s_PairFramesCarryPairing_0.twin.hand ≠ none))) ∧
    ((portState State.reset (1 : Fin 2).val ≠ .run)) ∧
    ((portState s_PairFramesCarryPairing_0 (1 : Fin 2).val = .run)) ∧
    ((portState s_PairFramesCarryPairing_0 (1 : Fin 2).val = .run) ∧ ((({ hdrP with version := 2#8 }).version ≠ 1 ∨ knownType ({ hdrP with version := 2#8 }).typ.toNat = false))) ∧
    ((portHears s_PairFramesCarryPairing_5 (1 : Fin 2).val hdrP) ∧ (older16 hdrP.rgen.toNat (s_PairFramesCarryPairing_5.fld F.CRVN_RGEN_RGEN) = true)) ∧
    ((portHears s_PairFramesCarryPairing_6 (1 : Fin 2).val hdrP) ∧ (forThisNode s_PairFramesCarryPairing_6 hdrP) ∧ (pairFrom s_PairFramesCarryPairing_6 hdrP.src.toNat = false)) ∧
    ((portHears s_CaravanCarriesReportsAndData_2 (1 : Fin 2).val ({ hdrP with dst := 5#6 })) ∧ (older16 ({ hdrP with dst := 5#6 }).rgen.toNat (s_CaravanCarriesReportsAndData_2.fld F.CRVN_RGEN_RGEN) = false) ∧ (({ hdrP with dst := 5#6 }).bcast = false) ∧ (ownAddr s_CaravanCarriesReportsAndData_2 ≠ some ({ hdrP with dst := 5#6 }).dst.toNat) ∧ (ownAddr s_CaravanCarriesReportsAndData_2 ≠ some ({ hdrP with dst := 5#6 }).src.toNat) ∧ (2 ≤ ({ hdrP with dst := 5#6 }).ttl.toNat) ∧ ((s_CaravanCarriesReportsAndData_2.cport (1 - (1 : Fin 2).val)).linkUp = true) ∧ ((s_CaravanCarriesReportsAndData_2.cport (1 - (1 : Fin 2).val)).line = none)) := by
  refine ⟨?_, ?_, ?_, ?_, ?_, ?_, ?_, ?_, ?_⟩ <;> decide +kernel

def s_TheFieldHasOneOwner_0 : State := twn (fun w => { w with paired := true }) (openUp)
def s_TheFieldHasOneOwner_1 : State := fldAt F.PTP_STAT_LOCKED 1 (blkAt 0x78 { state := .run } (blkAt 0x79 { state := .run } (twn (fun w => { w with paired := true, peerNode := 4 }) (ring openUp))))
def s_TheFieldHasOneOwner_2 : State := twn (fun w => { w with paired := true, handing := true }) (openUp)
def s_TheFieldHasOneOwner_3 : State := twn (fun w => { w with waiting := true, highRun := 16384 }) (ring)
def s_TheFieldHasOneOwner_4 : State := twn (fun w => { w with passive := true, pathRun := 2048 }) (onA (core (fun c => { c with mode := .standby })) up)
def s_TheFieldHasOneOwner_5 : State := twn (fun w => { w with passive := true, accepted := true, peerOwn := true, missRun := 16, handing := true }) (ring)
def s_TheFieldHasOneOwner_6 : State := twn (fun w => { w with passive := true, slot := true }) (ring)
def s_TheFieldHasOneOwner_7 : State := twn (fun w => { w with owner := true, sentFinal := true, bTick := some 9 }) (atTick 9)
def s_TheFieldHasOneOwner_8 : State := twn (fun w => { w with owner := true, sentFinal := true, bTick := some 9 }) (atTick 9 (onA (core (fun c => { c with mode := .out })) up))
def s_TheFieldHasOneOwner_9 : State := twn (fun w => { w with passive := true, paired := true, handing := true, bFinal := true, bSeq := 9 }) (atTick 9)
def s_TheFieldHasOneOwner_10 : State := twn (fun w => { w with owner := true, lowRun := 8 }) (ring)
def s_TheFieldHasOneOwner_11 : State := twn (fun w => { w with owner := true, lowRun := 8, slot := true }) (ring)
def s_TheFieldHasOneOwner_12 : State := fldAt F.PRES_STAT_IN_SLOT 1
theorem test_TheFieldHasOneOwner_1 :
    ((openUp.laneOk 0x1C true = true) ∧ ((openUp.laneA.votes = true ∨ openUp.laneB.votes = true)) ∧ ((openUp.twin.paired = false ∨ openUp.twin.handing = true))) ∧
    ((s_TheFieldHasOneOwner_0.laneOk 0x1C true = true) ∧ ((s_TheFieldHasOneOwner_0.laneA.votes = true ∨ s_TheFieldHasOneOwner_0.laneB.votes = true)) ∧ (s_TheFieldHasOneOwner_0.twin.paired = true) ∧ (s_TheFieldHasOneOwner_0.twin.handing = false) ∧ (((blkGet s_TheFieldHasOneOwner_0 0x78).state ≠ .run ∨ (blkGet s_TheFieldHasOneOwner_0 0x79).state ≠ .run ∨ s_TheFieldHasOneOwner_0.fld F.PTP_STAT_LOCKED ≠ 1))) ∧
    ((s_TheFieldHasOneOwner_1.laneOk 0x1C true = true) ∧ ((s_TheFieldHasOneOwner_1.laneA.votes = true ∨ s_TheFieldHasOneOwner_1.laneB.votes = true)) ∧ (s_TheFieldHasOneOwner_1.twin.paired = true) ∧ (s_TheFieldHasOneOwner_1.twin.handing = false) ∧ ((blkGet s_TheFieldHasOneOwner_1 0x78).state = .run) ∧ ((blkGet s_TheFieldHasOneOwner_1 0x79).state = .run) ∧ (s_TheFieldHasOneOwner_1.fld F.PTP_STAT_LOCKED = 1) ∧ ((route s_TheFieldHasOneOwner_1 s_TheFieldHasOneOwner_1.twin.peerNode).any (fun (w, _) => decide ((portState s_TheFieldHasOneOwner_1 (west2port w) = .run) ∧ ((s_TheFieldHasOneOwner_1.cport (west2port w)).line = none))) = true)) ∧
    ((((lockAt 0x1C).laneOk 0x1C true = false ∨ ((lockAt 0x1C).laneA.votes = false ∧ (lockAt 0x1C).laneB.votes = false)))) ∧
    ((s_TheFieldHasOneOwner_2.laneOk 0x1C false = true) ∧ ((s_TheFieldHasOneOwner_2.laneA.votes = true ∨ s_TheFieldHasOneOwner_2.laneB.votes = true)) ∧ (s_TheFieldHasOneOwner_2.twin.handing = true)) ∧
    ((openUp.laneOk 0x1C false = true) ∧ ((openUp.laneA.votes = true ∨ openUp.laneB.votes = true)) ∧ (openUp.twin.handing = false)) ∧
    ((((lockAt 0x1C).laneOk 0x1C false = false ∨ ((lockAt 0x1C).laneA.votes = false ∧ (lockAt 0x1C).laneB.votes = false)))) ∧
    ((s_TheFieldHasOneOwner_3.twin.waiting = true) ∧ (s_TheFieldHasOneOwner_3.twin.peerOwn = false) ∧ (16384 ≤ s_TheFieldHasOneOwner_3.twin.highRun)) ∧
    (((openUp.twin.waiting = false ∨ openUp.twin.peerOwn = true ∨ openUp.twin.highRun < 16384))) ∧
    ((s_TheFieldHasOneOwner_4.twin.passive = true) ∧ (s_TheFieldHasOneOwner_4.laneA.core.mode = .standby) ∧ (s_TheFieldHasOneOwner_4.laneB.core.mode = .standby) ∧ (2048 ≤ s_TheFieldHasOneOwner_4.twin.pathRun)) ∧
    (((openUp.twin.passive = false ∨ openUp.laneA.core.mode ≠ .standby ∨ openUp.laneB.core.mode ≠ .standby ∨ openUp.twin.pathRun < 2048))) ∧
    ((s_TheFieldHasOneOwner_5.twin.passive = true) ∧ (s_TheFieldHasOneOwner_5.twin.accepted = true) ∧ (s_TheFieldHasOneOwner_5.twin.peerOwn = true) ∧ (16 ≤ s_TheFieldHasOneOwner_5.twin.missRun)) := by
  refine ⟨?_, ?_, ?_, ?_, ?_, ?_, ?_, ?_, ?_, ?_, ?_, ?_⟩ <;> decide +kernel
theorem test_TheFieldHasOneOwner_2 :
    (((openUp.twin.passive = false ∨ openUp.twin.accepted = false ∨ openUp.twin.peerOwn = false ∨ openUp.twin.missRun < 16))) ∧
    (((s_TheFieldHasOneOwner_2.twin.owner = true ∨ s_TheFieldHasOneOwner_2.twin.released = true ∨ s_TheFieldHasOneOwner_2.twin.paired = true))) ∧
    ((s_TheFieldHasOneOwner_3.twin.owner = false) ∧ (s_TheFieldHasOneOwner_3.twin.released = false) ∧ (s_TheFieldHasOneOwner_3.twin.paired = false) ∧ (s_TheFieldHasOneOwner_3.twin.waiting = true)) ∧
    ((openUp.twin.owner = false) ∧ (openUp.twin.released = false) ∧ (openUp.twin.paired = false) ∧ (openUp.twin.waiting = false)) ∧
    ((openUp.twin.owner = false) ∧ (openUp.twin.released = false) ∧ (openUp.twin.paired = false) ∧ (openUp.twin.passive = false)) ∧
    ((s_TheFieldHasOneOwner_6.twin.owner = false) ∧ (s_TheFieldHasOneOwner_6.twin.released = false) ∧ (s_TheFieldHasOneOwner_6.twin.paired = false) ∧ (s_TheFieldHasOneOwner_6.twin.passive = true) ∧ (s_TheFieldHasOneOwner_6.twin.slot = true)) ∧
    ((s_TheFieldHasOneOwner_4.twin.owner = false) ∧ (s_TheFieldHasOneOwner_4.twin.released = false) ∧ (s_TheFieldHasOneOwner_4.twin.paired = false) ∧ (s_TheFieldHasOneOwner_4.twin.passive = true) ∧ (s_TheFieldHasOneOwner_4.twin.slot = false)) ∧
    ((s_TheFieldHasOneOwner_7.twin.owner = true) ∧ (s_TheFieldHasOneOwner_7.twin.sentFinal = true) ∧ ((s_TheFieldHasOneOwner_7.lane LaneId.a).core.mode ≠ .out) ∧ ((s_TheFieldHasOneOwner_7.twin.bTick).any (fun b => decide ((b ≤ s_TheFieldHasOneOwner_7.time.count))) = true)) ∧
    ((s_TheFieldHasOneOwner_8.twin.owner = true) ∧ (s_TheFieldHasOneOwner_8.twin.sentFinal = true) ∧ ((s_TheFieldHasOneOwner_8.lane LaneId.a).core.mode = .out) ∧ ((s_TheFieldHasOneOwner_8.twin.bTick).any (fun b => decide ((b ≤ s_TheFieldHasOneOwner_8.time.count))) = true)) ∧
    ((s_TheFieldHasOneOwner_9.twin.owner = false) ∧ (s_TheFieldHasOneOwner_9.twin.passive = true) ∧ (s_TheFieldHasOneOwner_9.twin.paired = true) ∧ (s_TheFieldHasOneOwner_9.twin.handing = true) ∧ (s_TheFieldHasOneOwner_9.twin.bFinal = true) ∧ ((s_TheFieldHasOneOwner_9.seqNow = s_TheFieldHasOneOwner_9.twin.bSeq ∨ seqNewer s_TheFieldHasOneOwner_9.seqNow s_TheFieldHasOneOwner_9.twin.bSeq = true))) ∧
    (((openUp.twin.owner = false ∨ openUp.twin.sentFinal = false ∨ openUp.twin.bTick.all (fun b => decide (openUp.time.count < b)) = true)) ∧ ((openUp.twin.passive = false ∨ openUp.twin.paired = false ∨ openUp.twin.handing = false ∨ openUp.twin.bFinal = false ∨ (openUp.seqNow ≠ openUp.twin.bSeq ∧ seqNewer openUp.seqNow openUp.twin.bSeq = false)))) ∧
    ((s_TheFieldHasOneOwner_10.twin.owner = true) ∧ (s_TheFieldHasOneOwner_10.twin.lowRun = 8) ∧ (s_TheFieldHasOneOwner_10.twin.slot = false ∨ s_TheFieldHasOneOwner_10.twin.tookAt.any (fun t => decide (s_TheFieldHasOneOwner_10.time.count ≤ t + 16)) = true)) := by
  refine ⟨?_, ?_, ?_, ?_, ?_, ?_, ?_, ?_, ?_, ?_, ?_, ?_⟩ <;> decide +kernel
theorem test_TheFieldHasOneOwner_3 :
    ((s_TheFieldHasOneOwner_11.twin.owner = true) ∧ (s_TheFieldHasOneOwner_11.twin.lowRun = 8) ∧ (s_TheFieldHasOneOwner_11.twin.slot = true) ∧ (s_TheFieldHasOneOwner_11.twin.tookAt.any (fun t => decide (s_TheFieldHasOneOwner_11.time.count ≤ t + 16)) = false)) ∧
    (((openUp.twin.owner = false ∨ openUp.twin.lowRun ≠ 8))) ∧
    ((s_TheFieldHasOneOwner_12.fld F.PRES_STAT_IN_SLOT = 1)) ∧
    ((openUp.fld F.PRES_STAT_IN_SLOT = 0)) := by
  refine ⟨?_, ?_, ?_, ?_⟩ <;> decide +kernel

def s_FlitsAreTakenInSequence_0 : State := { xr with ucie := { xr.ucie with m0 := { xr.ucie.m0 with up := false }, m1 := { xr.ucie.m1 with up := false } } }
def s_FlitsAreTakenInSequence_1 : State := { xr with ucie := { xr.ucie with m1 := { xr.ucie.m1 with naks := [0, 0, 0, 0, 0, 0, 0] } } }
def s_FlitsAreTakenInSequence_2 : State := { xr with ucie := { xr.ucie with memCpl := List.replicate 256 ⟨9, 0, [], false, 0⟩ } }
def s_FlitsAreTakenInSequence_3 : State := { xr with ucie := { xr.ucie with regCpl := [⟨0, 0, [1, 2, 3, 4], false, 0⟩] } }
def s_FlitsAreTakenInSequence_4 : State := { xr with ucie := { xr.ucie with memCpl := [⟨0, 0, List.replicate 224 1, false, 0⟩] } }
def s_FlitsAreTakenInSequence_5 : State := { xr with ucie := { xr.ucie with memCpl := [⟨0, 0, List.replicate 225 1, false, 0⟩] } }
theorem test_FlitsAreTakenInSequence_1 :
    ((flitTaken xr true flt.mod.val flt) ∧ ((7#8).toNat ≤ 7)) ∧
    ((flitTaken xr true flt.mod.val flt) ∧ (7 < (8#8).toNat)) ∧
    (((s_FlitsAreTakenInSequence_0.umod flt.mod.val).up = false)) ∧
    (((xr.umod ({ flt with crcOk := false }).mod.val).up = true) ∧ (({ flt with crcOk := false }).crcOk = false) ∧ (((xr.umod ({ flt with crcOk := false }).mod.val).naks.filter (fun t => decide ((xr.umod ({ flt with crcOk := false }).mod.val).flits + 1 < t + 1024))).length < 7)) ∧
    (((s_FlitsAreTakenInSequence_1.umod ({ flt with crcOk := false }).mod.val).up = true) ∧ (({ flt with crcOk := false }).crcOk = false) ∧ (7 ≤ ((s_FlitsAreTakenInSequence_1.umod ({ flt with crcOk := false }).mod.val).naks.filter (fun t => decide ((s_FlitsAreTakenInSequence_1.umod ({ flt with crcOk := false }).mod.val).flits + 1 < t + 1024))).length)) ∧
    (((xr.umod ({ flt with fseq := 1#12 }).mod.val).up = true) ∧ (({ flt with fseq := 1#12 }).crcOk = true) ∧ (({ flt with fseq := 1#12 }).fseq.toNat ≠ ((if true then (xr.umod ({ flt with fseq := 1#12 }).mod.val).ackX else (xr.umod ({ flt with fseq := 1#12 }).mod.val).ackH) + 1) % 4096)) ∧
    ((flt.mod.val ≠ flitPlace xr none)) ∧
    (((({ flt with mod := 0, crcOk := false }).crcOk = false ∨ ({ flt with mod := 0, crcOk := false }).fseq.toNat ≠ ((xr.umod ({ flt with mod := 0, crcOk := false }).mod.val).ackH + 1) % 4096)) ∧ (({ flt with mod := 0, crcOk := false }).mod.val = flitPlace xr none)) ∧
    ((flt.mod.val ≠ flitPlace xr (some (BitVec.ofNat 40 (8 * xaShared)).toNat))) ∧
    (((({ flt with crcOk := false }).crcOk = false ∨ ({ flt with crcOk := false }).fseq.toNat ≠ ((xr.umod ({ flt with crcOk := false }).mod.val).ackH + 1) % 4096)) ∧ (({ flt with crcOk := false }).mod.val = flitPlace xr (some (BitVec.ofNat 40 (8 * xaShared + 256)).toNat))) ∧
    (((({ flt with mod := 0, crcOk := false }).crcOk = false ∨ ({ flt with mod := 0, crcOk := false }).fseq.toNat ≠ ((xr.umod ({ flt with mod := 0, crcOk := false }).mod.val).ackX + 1) % 4096)) ∧ (({ flt with mod := 0, crcOk := false }).mod.val = flitPlace xr none)) ∧
    ((flitTaken xr false (flitPlace xr none) (⟨0, true, 0#8, 0#12, 0#12, false, 0#8⟩ : FlitHdr)) ∧ (isXPage (0x8FFFC#20).toNat = true)) := by
  refine ⟨?_, ?_, ?_, ?_, ?_, ?_, ?_, ?_, ?_, ?_, ?_, ?_⟩ <;> decide +kernel
theorem test_FlitsAreTakenInSequence_2 :
    ((flitTaken xr false (flitPlace xr none) (⟨0, true, 0#8, 0#12, 0#12, false, 0#8⟩ : FlitHdr)) ∧ (isXPage (0x7FFFC#20).toNat = false)) ∧
    ((flitTaken xr false (flitPlace xr (some (BitVec.ofNat 40 (8 * xaShared + 256)).toNat)) flt) ∧ (((0#16).toNat % 32 ≠ 0 ∨ (0#16).toNat = 0 ∨ 4096 < (0#16).toNat))) ∧
    ((flitTaken s_FlitsAreTakenInSequence_2 false (flitPlace s_FlitsAreTakenInSequence_2 (some (BitVec.ofNat 40 (8 * xaShared + 256)).toNat)) flt) ∧ ((4096#16).toNat % 32 = 0) ∧ ((4096#16).toNat ≠ 0) ∧ ((4096#16).toNat ≤ 4096) ∧ (256 ≤ s_FlitsAreTakenInSequence_2.ucie.out.length + s_FlitsAreTakenInSequence_2.ucie.memCpl.length)) ∧
    ((flitTaken xr false (flitPlace xr (some (BitVec.ofNat 40 (8 * xaShared + 256)).toNat)) flt) ∧ ((4096#16).toNat % 32 = 0) ∧ ((4096#16).toNat ≠ 0) ∧ ((4096#16).toNat ≤ 4096) ∧ (sharedAccess xr (BitVec.ofNat 40 (8 * xaShared + 256)).toNat (4096#16).toNat)) ∧
    ((flitTaken xr false (flitPlace xr (some (BitVec.ofNat 40 (8 * xaShared + 256)).toNat)) flt) ∧ ((([] : List (BitVec 8)).length % 32 ≠ 0 ∨ ([] : List (BitVec 8)).length = 0 ∨ 224 < ([] : List (BitVec 8)).length))) ∧
    ((flitTaken s_FlitsAreTakenInSequence_2 false (flitPlace s_FlitsAreTakenInSequence_2 (some (BitVec.ofNat 40 (8 * xaShared + 256)).toNat)) flt) ∧ ((List.replicate 224 7#8).length % 32 = 0) ∧ ((List.replicate 224 7#8).length ≠ 0) ∧ ((List.replicate 224 7#8).length ≤ 224) ∧ (256 ≤ s_FlitsAreTakenInSequence_2.ucie.out.length + s_FlitsAreTakenInSequence_2.ucie.memCpl.length)) ∧
    ((flitTaken xr false (flitPlace xr (some (BitVec.ofNat 40 (8 * xaShared + 256)).toNat)) flt) ∧ ((List.replicate 224 7#8).length % 32 = 0) ∧ ((List.replicate 224 7#8).length ≠ 0) ∧ ((List.replicate 224 7#8).length ≤ 224) ∧ (sharedAccess xr (BitVec.ofNat 40 (8 * xaShared + 256)).toNat (List.replicate 224 7#8).length) ∧ ((27 : Nat) < (List.replicate 224 7#8).length / 8)) ∧
    ((flitTaken xr false (flitPlace xr (some (BitVec.ofNat 40 (8 * xaShared + 256)).toNat)) flt) ∧ ((List.replicate 224 7#8).length % 32 = 0) ∧ ((List.replicate 224 7#8).length ≠ 0) ∧ ((List.replicate 224 7#8).length ≤ 224) ∧ (sharedAccess xr (BitVec.ofNat 40 (8 * xaShared + 256)).toNat (List.replicate 224 7#8).length) ∧ (xaShared ≤ (xaShared + 100)) ∧ ((xaShared + 100) < xaSharedEnd) ∧ (((xaShared + 100) < (BitVec.ofNat 40 (8 * xaShared + 256)).toNat / 8 ∨ (BitVec.ofNat 40 (8 * xaShared + 256)).toNat / 8 + (List.replicate 224 7#8).length / 8 ≤ (xaShared + 100)))) ∧
    ((flitTaken xr true (flitPlace xr none) (⟨0, true, 0#8, 0#12, 0#12, false, 0#8⟩ : FlitHdr)) ∧ (xr.ucie.regCpl.find? (fun c => c.tag == (⟨0, true, 0#8, 0#12, 0#12, false, 0#8⟩ : FlitHdr).tag.toNat) = none)) ∧
    ((flitTaken s_FlitsAreTakenInSequence_3 true (flitPlace s_FlitsAreTakenInSequence_3 none) (⟨0, true, 0#8, 0#12, 0#12, false, 0#8⟩ : FlitHdr)) ∧ ((s_FlitsAreTakenInSequence_3.ucie.regCpl.find? (fun c => c.tag == (⟨0, true, 0#8, 0#12, 0#12, false, 0#8⟩ : FlitHdr).tag.toNat)).any (fun _ => decide (True)) = true)) ∧
    ((flitTaken xr true (flitPlace xr none) (⟨0, true, 0#8, 0#12, 0#12, false, 0#8⟩ : FlitHdr)) ∧ (0x80 ≤ (0x8F#8).toNat) ∧ ((0x8F#8).toNat ≤ 0x8F)) ∧
    ((flitTaken xr true (flitPlace xr none) (⟨0, true, 0#8, 0#12, 0#12, false, 0#8⟩ : FlitHdr)) ∧ (((0x7F#8).toNat < 0x80 ∨ 0x8F < (0x7F#8).toNat))) := by
  refine ⟨?_, ?_, ?_, ?_, ?_, ?_, ?_, ?_, ?_, ?_, ?_, ?_⟩ <;> decide +kernel
theorem test_FlitsAreTakenInSequence_3 :
    ((flitTaken xr true (flitPlace xr (cplXa xr (⟨0, true, 0#8, 0#12, 0#12, false, 0#8⟩ : FlitHdr).tag.toNat)) (⟨0, true, 0#8, 0#12, 0#12, false, 0#8⟩ : FlitHdr)) ∧ (xr.ucie.memCpl.find? (fun c => c.tag == (⟨0, true, 0#8, 0#12, 0#12, false, 0#8⟩ : FlitHdr).tag.toNat) = none)) ∧
    ((flitTaken s_FlitsAreTakenInSequence_4 true (flitPlace s_FlitsAreTakenInSequence_4 (cplXa s_FlitsAreTakenInSequence_4 (⟨0, true, 0#8, 0#12, 0#12, false, 0#8⟩ : FlitHdr).tag.toNat)) (⟨0, true, 0#8, 0#12, 0#12, false, 0#8⟩ : FlitHdr)) ∧ ((s_FlitsAreTakenInSequence_4.ucie.memCpl.find? (fun c => c.tag == (⟨0, true, 0#8, 0#12, 0#12, false, 0#8⟩ : FlitHdr).tag.toNat)).any (fun c => decide ((c.data.length ≤ 224))) = true)) ∧
    ((flitTaken s_FlitsAreTakenInSequence_5 true (flitPlace s_FlitsAreTakenInSequence_5 (cplXa s_FlitsAreTakenInSequence_5 (⟨0, true, 0#8, 0#12, 0#12, false, 0#8⟩ : FlitHdr).tag.toNat)) (⟨0, true, 0#8, 0#12, 0#12, false, 0#8⟩ : FlitHdr)) ∧ ((s_FlitsAreTakenInSequence_5.ucie.memCpl.find? (fun c => c.tag == (⟨0, true, 0#8, 0#12, 0#12, false, 0#8⟩ : FlitHdr).tag.toNat)).any (fun c => decide ((224 < c.data.length))) = true)) ∧
    ((flt.mod.val ≠ flitPlace xr (cplXa xr flt.tag.toNat))) ∧
    ((({ flt with mod := 0, crcOk := false }).mod.val = flitPlace xr (cplXa xr ({ flt with mod := 0, crcOk := false }).tag.toNat)) ∧ ((({ flt with mod := 0, crcOk := false }).crcOk = false ∨ ({ flt with mod := 0, crcOk := false }).fseq.toNat ≠ ((xr.umod ({ flt with mod := 0, crcOk := false }).mod.val).ackX + 1) % 4096))) ∧
    (((xr.umod (1 : Fin 2).val).up = true)) ∧
    (((s_FlitsAreTakenInSequence_0.umod (1 : Fin 2).val).up = false)) := by
  refine ⟨?_, ?_, ?_, ?_, ?_, ?_, ?_⟩ <;> decide +kernel

def s_TheLinkTheClockAndThePorts_0 : State := { xr with ucie := { xr.ucie with m0 := { xr.ucie.m0 with up := false }, m1 := { xr.ucie.m1 with up := true } } }
def s_TheLinkTheClockAndThePorts_1 : State := blkAt 0x90 { state := .run }
def s_TheLinkTheClockAndThePorts_2 : State := { xr with ucie := { xr.ucie with out := [⟨5, 0, false, [], 32⟩] } }
def s_TheLinkTheClockAndThePorts_3 : State := { xr with ucie := { xr.ucie with memCpl := [⟨5, 0, [1, 2], false, 0⟩] } }
def s_TheLinkTheClockAndThePorts_4 : State := fldAt F.PTP_STAT_GM 0 { { State.reset with eth1 := { State.reset.eth1 with link := true } } with ptp := ⟨15, 0, 0⟩ }
def s_TheLinkTheClockAndThePorts_5 : State := fldAt F.PTP_STAT_GM 0 { { State.reset with eth1 := { State.reset.eth1 with link := true } } with ptp := ⟨0, 3, 0⟩ }
def s_TheLinkTheClockAndThePorts_6 : State := fldAt F.PTP_STAT_GM 0 { { State.reset with eth1 := { State.reset.eth1 with link := true } } with ptp := ⟨0, 0, 32768⟩ }
def s_TheLinkTheClockAndThePorts_7 : State := fldAt F.PTP_STAT_GM 1 { State.reset with eth1 := { State.reset.eth1 with link := true } }
def s_TheLinkTheClockAndThePorts_8 : State := blkAt 0x79 { state := .run }
def s_TheLinkTheClockAndThePorts_9 : State := { State.reset with eth1 := { State.reset.eth1 with missRun := 4 } }
theorem test_TheLinkTheClockAndThePorts_1 :
    (((xr.umod (1 : Fin 2).val).up = true) ∧ ((xr.umod (1 - (1 : Fin 2).val)).up = true)) ∧
    (((s_TheLinkTheClockAndThePorts_0.umod (1 : Fin 2).val).up = true) ∧ ((s_TheLinkTheClockAndThePorts_0.umod (1 - (1 : Fin 2).val)).up = false)) ∧
    (((s_TheLinkTheClockAndThePorts_0.umod (0 : Fin 2).val).up = false) ∧ ((blkGet s_TheLinkTheClockAndThePorts_0 0x90).state = .off)) ∧
    (((s_TheLinkTheClockAndThePorts_1.umod (1 : Fin 2).val).up = false) ∧ ((blkGet s_TheLinkTheClockAndThePorts_1 0x90).state ≠ .off)) ∧
    (((blkGet s_TheLinkTheClockAndThePorts_1 0x90).state ≠ .off)) ∧
    (((s_TheLinkTheClockAndThePorts_2.ucie.out.find? (fun m => m.tag == (5#8).toNat)).any (fun _ => decide (True)) = true)) ∧
    ((s_TheLinkTheClockAndThePorts_3.ucie.out.find? (fun m => m.tag == (5#8).toNat) = none) ∧ ((s_TheLinkTheClockAndThePorts_3.ucie.memCpl.find? (fun c => c.tag == (5#8).toNat)).any (fun _ => decide (True)) = true)) ∧
    ((xr.ucie.out.find? (fun m => m.tag == (5#8).toNat) = none) ∧ (xr.ucie.memCpl.find? (fun c => c.tag == (5#8).toNat) = none)) ∧
    (((s_TheLinkTheClockAndThePorts_4.eth (1 : Fin 2).val).link = true) ∧ (s_TheLinkTheClockAndThePorts_4.fld F.PTP_STAT_GM = 0) ∧ (15 ≤ s_TheLinkTheClockAndThePorts_4.ptp.goodRun) ∧ (-50 ≤ (50 : Int)) ∧ ((50 : Int) ≤ 50)) ∧
    (((s_TheLinkTheClockAndThePorts_5.eth (1 : Fin 2).val).link = true) ∧ (s_TheLinkTheClockAndThePorts_5.fld F.PTP_STAT_GM = 0) ∧ (3 ≤ s_TheLinkTheClockAndThePorts_5.ptp.badRun) ∧ (((501 : Int) < -500 ∨ 500 < (501 : Int)))) ∧
    (((s_TheLinkTheClockAndThePorts_6.eth (1 : Fin 2).val).link = true) ∧ (s_TheLinkTheClockAndThePorts_6.fld F.PTP_STAT_GM = 0) ∧ ((s_TheLinkTheClockAndThePorts_6.ptp.goodRun < 15 ∨ (50 : Int) < -50 ∨ 50 < (50 : Int))) ∧ ((s_TheLinkTheClockAndThePorts_6.ptp.badRun < 3 ∨ (-500 ≤ (50 : Int) ∧ (50 : Int) ≤ 500)))) ∧
    (((s_TheLinkTheClockAndThePorts_7.eth (1 : Fin 2).val).link = true) ∧ (s_TheLinkTheClockAndThePorts_7.fld F.PTP_STAT_GM = 1)) := by
  refine ⟨?_, ?_, ?_, ?_, ?_, ?_, ?_, ?_, ?_, ?_, ?_, ?_⟩ <;> decide +kernel
theorem test_TheLinkTheClockAndThePorts_2 :
    ((s_TheLinkTheClockAndThePorts_6.fld F.PTP_STAT_GM = 0) ∧ (32768 ≤ s_TheLinkTheClockAndThePorts_6.ptp.since)) ∧
    (((xr.fld F.PTP_STAT_GM ≠ 0 ∨ xr.ptp.since < 32768))) ∧
    (((s_TheLinkTheClockAndThePorts_6.eth (1 : Fin 2).val).link = true) ∧ ((s_TheLinkTheClockAndThePorts_6.fld F.PTP_CFG_ROLE = 1 ∨ (s_TheLinkTheClockAndThePorts_6.fld F.PTP_CFG_ROLE = 2 ∧ true = true)))) ∧
    (((s_TheLinkTheClockAndThePorts_7.eth (1 : Fin 2).val).link = true) ∧ ((s_TheLinkTheClockAndThePorts_7.fld F.PTP_CFG_ROLE ≠ 1 ∧ (s_TheLinkTheClockAndThePorts_7.fld F.PTP_CFG_ROLE ≠ 2 ∨ false = false))) ∧ (s_TheLinkTheClockAndThePorts_7.fld F.PTP_STAT_GM = 1)) ∧
    (((s_TheLinkTheClockAndThePorts_6.eth (1 : Fin 2).val).link = true) ∧ ((s_TheLinkTheClockAndThePorts_6.fld F.PTP_CFG_ROLE ≠ 1 ∧ (s_TheLinkTheClockAndThePorts_6.fld F.PTP_CFG_ROLE ≠ 2 ∨ false = false))) ∧ (s_TheLinkTheClockAndThePorts_6.fld F.PTP_STAT_GM = 0)) ∧
    (((xr.eth (1 : Fin 2).val).link = false) ∧ ((blkGet xr (0x78 + (1 : Fin 2).val)).state ≠ .run)) ∧
    (((s_TheLinkTheClockAndThePorts_8.eth (1 : Fin 2).val).link = false) ∧ ((blkGet s_TheLinkTheClockAndThePorts_8 (0x78 + (1 : Fin 2).val)).state = .run)) ∧
    ((4 ≤ (s_TheLinkTheClockAndThePorts_9.eth (1 : Fin 2).val).missRun)) ∧
    (((xr.eth (1 : Fin 2).val).missRun < 4)) := by
  refine ⟨?_, ?_, ?_, ?_, ?_, ?_, ?_, ?_, ?_⟩ <;> decide +kernel

def s_RedfishAnswersAndAsksTheLanes_0 : State := hrv (fun h => { h with redfish := true, up := true, bank := 0 }) (State.reset)
def s_RedfishAnswersAndAsksTheLanes_1 : State := hrv (fun h => { h with redfish := true, up := true, bank := 0 }) (row (fun r => { r with caps := { r.caps with nrack := 24, nslot := List.replicate 24 96 } }))
def s_RedfishAnswersAndAsksTheLanes_2 : State := hrv (fun h => { h with redfish := true, up := false }) (row (fun r => { r with caps := { r.caps with nrack := 24, nslot := List.replicate 24 96 } }))
def s_RedfishAnswersAndAsksTheLanes_3 : State := hrv (fun h => { h with redfish := true, up := true, subs := [⟨4, 7, 0xFFFFFF⟩] }) (State.reset)
def s_RedfishAnswersAndAsksTheLanes_4 : State := hrv (fun h => { h with redfish := true, up := true, subs := [⟨4, 7, 0xFFFFFF⟩], sent := [(4, 1, 23)] }) (onA (fun l => { l with pub := fset l.pub F.CAPC_OFF_RACKS 0x800000 }) up)
def s_RedfishAnswersAndAsksTheLanes_5 : State := hrv (fun h => { h with redfish := true, up := true, bank := 1 }) (State.reset)
theorem test_RedfishAnswersAndAsksTheLanes_1 :
    ((s_RedfishAnswersAndAsksTheLanes_0.herv.redfish = true) ∧ ((redBody s_RedfishAnswersAndAsksTheLanes_0 (.root : RedRes)).any (fun _ => decide (True)) = true)) ∧
    ((s_RedfishAnswersAndAsksTheLanes_0.herv.redfish = true) ∧ (redBody s_RedfishAnswersAndAsksTheLanes_0 (.budget 23 : RedRes) = none)) ∧
    ((s_RedfishAnswersAndAsksTheLanes_1.herv.redfish = true) ∧ (rackConf s_RedfishAnswersAndAsksTheLanes_1 (23 : Fin 24).val = true) ∧ (s_RedfishAnswersAndAsksTheLanes_1.herv.up = true) ∧ (s_RedfishAnswersAndAsksTheLanes_1.herv.reqs = []) ∧ (s_RedfishAnswersAndAsksTheLanes_1.fld F.SYS_MBOX_STAT_BUSY = 0)) ∧
    ((s_RedfishAnswersAndAsksTheLanes_2.herv.redfish = true) ∧ (rackConf s_RedfishAnswersAndAsksTheLanes_2 (23 : Fin 24).val = true) ∧ ((s_RedfishAnswersAndAsksTheLanes_2.herv.up = false ∨ s_RedfishAnswersAndAsksTheLanes_2.fld F.SYS_MBOX_STAT_BUSY = 1))) ∧
    ((s_RedfishAnswersAndAsksTheLanes_0.herv.redfish = true) ∧ (rackConf s_RedfishAnswersAndAsksTheLanes_0 (23 : Fin 24).val = false)) ∧
    ((s_RedfishAnswersAndAsksTheLanes_1.herv.redfish = true) ∧ (slotConf s_RedfishAnswersAndAsksTheLanes_1 (23 : Fin 24).val (95 : Fin 96).val = true) ∧ (s_RedfishAnswersAndAsksTheLanes_1.herv.up = true) ∧ (s_RedfishAnswersAndAsksTheLanes_1.herv.reqs = []) ∧ (s_RedfishAnswersAndAsksTheLanes_1.fld F.SYS_MBOX_STAT_BUSY = 0)) ∧
    ((s_RedfishAnswersAndAsksTheLanes_2.herv.redfish = true) ∧ (slotConf s_RedfishAnswersAndAsksTheLanes_2 (23 : Fin 24).val (95 : Fin 96).val = true) ∧ ((s_RedfishAnswersAndAsksTheLanes_2.herv.up = false ∨ s_RedfishAnswersAndAsksTheLanes_2.fld F.SYS_MBOX_STAT_BUSY = 1))) ∧
    ((s_RedfishAnswersAndAsksTheLanes_0.herv.redfish = true) ∧ (slotConf s_RedfishAnswersAndAsksTheLanes_0 (23 : Fin 24).val (95 : Fin 96).val = false)) ∧
    ((s_RedfishAnswersAndAsksTheLanes_0.herv.redfish = true)) ∧
    ((s_RedfishAnswersAndAsksTheLanes_3.herv.redfish = true) ∧ (s_RedfishAnswersAndAsksTheLanes_3.herv.subs.any (fun x => x.id == (4 : Nat)) = true)) ∧
    ((s_RedfishAnswersAndAsksTheLanes_0.herv.redfish = true) ∧ (s_RedfishAnswersAndAsksTheLanes_0.herv.subs.any (fun x => x.id == (4 : Nat)) = false)) ∧
    ((s_RedfishAnswersAndAsksTheLanes_4.herv.redfish = true) ∧ (bitOf (clrBits (fget (s_RedfishAnswersAndAsksTheLanes_4.lane s_RedfishAnswersAndAsksTheLanes_4.lead).pub F.CAPC_OFF_RACKS) s_RedfishAnswersAndAsksTheLanes_4.herv.relayed) (23 : Fin 24).val = true) ∧ ((s_RedfishAnswersAndAsksTheLanes_4.herv.subs).any (fun x => decide ((bitOf x.kinds 0 = true) ∧ (bitOf x.racks (23 : Fin 24).val = true))) = true)) := by
  refine ⟨?_, ?_, ?_, ?_, ?_, ?_, ?_, ?_, ?_, ?_, ?_, ?_⟩ <;> decide +kernel
theorem test_RedfishAnswersAndAsksTheLanes_2 :
    ((s_RedfishAnswersAndAsksTheLanes_0.herv.redfish = true) ∧ (s_RedfishAnswersAndAsksTheLanes_0.herv.bank = 0) ∧ (imgKind (([] : List (BitVec 8)).map BitVec.toNat) = 0)) ∧
    ((s_RedfishAnswersAndAsksTheLanes_5.herv.redfish = true) ∧ (s_RedfishAnswersAndAsksTheLanes_5.herv.bank ≠ 0) ∧ (imgKind (([] : List (BitVec 8)).map BitVec.toNat) = 0)) ∧
    ((s_RedfishAnswersAndAsksTheLanes_0.herv.redfish = true) ∧ (imgKind (((factoryImage 1).map (BitVec.ofNat 8)).map BitVec.toNat) = 1)) ∧
    ((s_RedfishAnswersAndAsksTheLanes_0.herv.redfish = true) ∧ (imgKind (((factoryImage 0x10).map (BitVec.ofNat 8)).map BitVec.toNat) = 0x10) ∧ (imgOk s_RedfishAnswersAndAsksTheLanes_0 0x10 (((factoryImage 0x10).map (BitVec.ofNat 8)).map BitVec.toNat) = true)) ∧
    ((s_RedfishAnswersAndAsksTheLanes_0.herv.redfish = true) ∧ (imgKind (([0x4F#8, 0x58#8, 0x49#8, 0x4D#8, 0x10#8]).map BitVec.toNat) = 0x10) ∧ (imgOk s_RedfishAnswersAndAsksTheLanes_0 0x10 (([0x4F#8, 0x58#8, 0x49#8, 0x4D#8, 0x10#8]).map BitVec.toNat) = false)) ∧
    ((s_RedfishAnswersAndAsksTheLanes_0.herv.redfish = true) ∧ ((imgKind (([0x4F#8, 0x58#8, 0x49#8, 0x4D#8, 2#8]).map BitVec.toNat) = 2 ∨ imgKind (([0x4F#8, 0x58#8, 0x49#8, 0x4D#8, 2#8]).map BitVec.toNat) = 0x20))) ∧
    ((s_RedfishAnswersAndAsksTheLanes_0.herv.redfish = true) ∧ (imgKind (([0x4F#8, 0x58#8, 0x49#8, 0x4D#8, 9#8]).map BitVec.toNat) ≠ 0) ∧ (imgKind (([0x4F#8, 0x58#8, 0x49#8, 0x4D#8, 9#8]).map BitVec.toNat) ≠ 1) ∧ (imgKind (([0x4F#8, 0x58#8, 0x49#8, 0x4D#8, 9#8]).map BitVec.toNat) ≠ 2) ∧ (imgKind (([0x4F#8, 0x58#8, 0x49#8, 0x4D#8, 9#8]).map BitVec.toNat) ≠ 0x10) ∧ (imgKind (([0x4F#8, 0x58#8, 0x49#8, 0x4D#8, 9#8]).map BitVec.toNat) ≠ 0x20)) ∧
    ((State.reset.herv.redfish = false)) := by
  refine ⟨?_, ?_, ?_, ?_, ?_, ?_, ?_, ?_⟩ <;> decide +kernel

def s_HerviAndXoideBoot_0 : State := hrv (fun h => { h with img0 := none }) rails
def s_HerviAndXoideBoot_1 : State := hrv (fun h => { h with img0 := none, img1 := none }) rails
def s_HerviAndXoideBoot_2 : State := hrv (fun h => { h with trial := some 0 }) (atTick 491520)
def s_HerviAndXoideBoot_3 : State := hrv (fun h => { h with trial := some 0 }) (atTick 491519)
def s_HerviAndXoideBoot_4 : State := hrv (fun h => { h with redfish := true, up := true, xNew := some [5] }) (State.reset)
theorem test_HerviAndXoideBoot :
    ((rails.herv.up = false) ∧ ((rails.pwr.pkgRail = true ∨ (rails.pwr.laneRail = true ∧ rails.pwr.holdup = false))) ∧ (0 < rails.sec.meas.length) ∧ ((hervImg rails.herv rails.herv.bank).any (fun i => decide ((imgOk rails 0 i = true))) = true)) ∧
    ((s_HerviAndXoideBoot_0.herv.up = false) ∧ ((s_HerviAndXoideBoot_0.pwr.pkgRail = true ∨ (s_HerviAndXoideBoot_0.pwr.laneRail = true ∧ s_HerviAndXoideBoot_0.pwr.holdup = false))) ∧ (imgTaken s_HerviAndXoideBoot_0 0 (hervImg s_HerviAndXoideBoot_0.herv s_HerviAndXoideBoot_0.herv.bank) = false) ∧ (0 < s_HerviAndXoideBoot_0.sec.meas.length) ∧ ((hervImg s_HerviAndXoideBoot_0.herv (1 - s_HerviAndXoideBoot_0.herv.bank)).any (fun i => decide ((imgOk s_HerviAndXoideBoot_0 0 i = true))) = true)) ∧
    ((s_HerviAndXoideBoot_1.herv.up = false) ∧ ((s_HerviAndXoideBoot_1.pwr.pkgRail = true ∨ (s_HerviAndXoideBoot_1.pwr.laneRail = true ∧ s_HerviAndXoideBoot_1.pwr.holdup = false))) ∧ (imgTaken s_HerviAndXoideBoot_1 0 (hervImg s_HerviAndXoideBoot_1.herv s_HerviAndXoideBoot_1.herv.bank) = false) ∧ (imgTaken s_HerviAndXoideBoot_1 0 (hervImg s_HerviAndXoideBoot_1.herv (1 - s_HerviAndXoideBoot_1.herv.bank)) = false)) ∧
    (((State.reset.herv.up = true ∨ (State.reset.pwr.pkgRail = false ∧ (State.reset.pwr.laneRail = false ∨ State.reset.pwr.holdup = true))))) ∧
    ((s_HerviAndXoideBoot_2.herv.redfish = false) ∧ ((s_HerviAndXoideBoot_2.herv.trial).any (fun t => decide ((t + 491520 ≤ s_HerviAndXoideBoot_2.time.count))) = true)) ∧
    (((s_HerviAndXoideBoot_3.herv.trial).any (fun t => decide (((s_HerviAndXoideBoot_3.time.count < t + 491520 ∨ s_HerviAndXoideBoot_3.herv.redfish = true)))) = true)) ∧
    ((rails.herv.trial = none)) ∧
    ((s_RedfishAnswersAndAsksTheLanes_0.x.up = false) ∧ (s_RedfishAnswersAndAsksTheLanes_0.herv.up = true) ∧ (1 < s_RedfishAnswersAndAsksTheLanes_0.sec.meas.length) ∧ ((s_RedfishAnswersAndAsksTheLanes_0.herv.xNew.or s_RedfishAnswersAndAsksTheLanes_0.herv.xOld).any (fun i => decide ((imgOk s_RedfishAnswersAndAsksTheLanes_0 1 i = true))) = true)) ∧
    ((s_RedfishAnswersAndAsksTheLanes_0.x.up = false) ∧ (s_RedfishAnswersAndAsksTheLanes_0.herv.up = true) ∧ ((blkGet s_RedfishAnswersAndAsksTheLanes_0 (0x80 + (7 : Fin 8).val)).state = .off) ∧ ((s_RedfishAnswersAndAsksTheLanes_0.herv.xNew.or s_RedfishAnswersAndAsksTheLanes_0.herv.xOld).any (fun i => decide ((imgOk s_RedfishAnswersAndAsksTheLanes_0 1 i = true))) = true)) ∧
    ((s_HerviAndXoideBoot_4.x.up = false) ∧ (s_HerviAndXoideBoot_4.herv.up = true) ∧ (imgTaken s_HerviAndXoideBoot_4 1 (s_HerviAndXoideBoot_4.herv.xNew.or s_HerviAndXoideBoot_4.herv.xOld) = false)) ∧
    (((rails.x.up = true ∨ rails.herv.up = false))) := by
  refine ⟨?_, ?_, ?_, ?_, ?_, ?_, ?_, ?_, ?_, ?_, ?_⟩ <;> decide +kernel

def s_SecurityCommandsNeedTheirProofs_0 : State := scy (fun x => { x with tamper := true }) opn
def s_SecurityCommandsNeedTheirProofs_1 : State := fus F.FUSE_OWNER_STAT_ENROLLED 15 (opn)
def s_SecurityCommandsNeedTheirProofs_2 : State := signed 1 (owned opn)
def s_SecurityCommandsNeedTheirProofs_3 : State := fus F.FUSE_OWNER_STAT_ENROLLED 1 (opn)
def s_SecurityCommandsNeedTheirProofs_4 : State := signed 2 (owned opn)
def s_SecurityCommandsNeedTheirProofs_5 : State := fldAt (F.SEC_ARG 0) 5 (signed 5 (owned opn))
def s_SecurityCommandsNeedTheirProofs_6 : State := fldAt (F.SEC_ARG 0) 2 (opn)
def s_SecurityCommandsNeedTheirProofs_7 : State := fus F.FUSE_DBG_KILL_BLOWN 63 opn
def s_SecurityCommandsNeedTheirProofs_8 : State := { opn with pwr := { (opn).pwr with supplyLow := true } }
def s_SecurityCommandsNeedTheirProofs_9 : State := scy (fun x => { x with att := some ⟨List.replicate 8 5, 0⟩ }) 
def s_SecurityCommandsNeedTheirProofs_10 : State := hrv (fun h => { h with reqs := [⟨2, [], true⟩] }) (scy (fun x => { x with att := some ⟨List.replicate 8 5, 0⟩ }) )
def s_SecurityCommandsNeedTheirProofs_11 : State := scy (fun x => { x with blows := [(1, 0), (5, 3)] }) (atTick 64 rails)
def s_SecurityCommandsNeedTheirProofs_12 : State := scy (fun x => { x with blows := [(5, 3)], dbg := 63 }) (atTick 70 (rails up))
theorem test_SecurityCommandsNeedTheirProofs_1 :
    (((lockAt 0xA0).locked 0xA0 = true)) ∧
    ((State.reset.locked 0xA0 = false) ∧ (State.reset.presence = false)) ∧
    ((s_SecurityCommandsNeedTheirProofs_0.locked 0xA0 = false) ∧ (s_SecurityCommandsNeedTheirProofs_0.presence = true) ∧ ((s_SecurityCommandsNeedTheirProofs_0.sec.tamper = true ∨ s_SecurityCommandsNeedTheirProofs_0.panS.tamper = true))) ∧
    ((opn.locked 0xA0 = false) ∧ (opn.presence = true) ∧ (opn.sec.tamper = false) ∧ (opn.panS.tamper = false) ∧ (opn.fuse F.FUSE_OWNER_STAT_ENROLLED = 0)) ∧
    ((s_SecurityCommandsNeedTheirProofs_1.locked 0xA0 = false) ∧ (s_SecurityCommandsNeedTheirProofs_1.presence = true) ∧ (s_SecurityCommandsNeedTheirProofs_1.sec.tamper = false) ∧ (s_SecurityCommandsNeedTheirProofs_1.panS.tamper = false) ∧ (s_SecurityCommandsNeedTheirProofs_1.fuse F.FUSE_OWNER_STAT_ENROLLED = 15)) ∧
    ((s_SecurityCommandsNeedTheirProofs_2.locked 0xA0 = false) ∧ (s_SecurityCommandsNeedTheirProofs_2.presence = true) ∧ (s_SecurityCommandsNeedTheirProofs_2.sec.tamper = false) ∧ (s_SecurityCommandsNeedTheirProofs_2.panS.tamper = false) ∧ (s_SecurityCommandsNeedTheirProofs_2.fuse F.FUSE_OWNER_STAT_ENROLLED ≠ 0) ∧ (s_SecurityCommandsNeedTheirProofs_2.fuse F.FUSE_OWNER_STAT_ENROLLED ≠ 15) ∧ (((activeOwner s_SecurityCommandsNeedTheirProofs_2).isSome && tokenOk 1 (secArg s_SecurityCommandsNeedTheirProofs_2) (BitVec.ofNat 3072 factoryModulus).toNat s_SecurityCommandsNeedTheirProofs_2) = true) ∧ (((upto 4).find? (fun k => !bitOf (s_SecurityCommandsNeedTheirProofs_2.fuse F.FUSE_OWNER_STAT_ENROLLED) k)).any (fun _ => decide (True)) = true)) ∧
    ((s_SecurityCommandsNeedTheirProofs_3.locked 0xA0 = false) ∧ (s_SecurityCommandsNeedTheirProofs_3.presence = true) ∧ (s_SecurityCommandsNeedTheirProofs_3.sec.tamper = false) ∧ (s_SecurityCommandsNeedTheirProofs_3.panS.tamper = false) ∧ (s_SecurityCommandsNeedTheirProofs_3.fuse F.FUSE_OWNER_STAT_ENROLLED ≠ 0) ∧ (s_SecurityCommandsNeedTheirProofs_3.fuse F.FUSE_OWNER_STAT_ENROLLED ≠ 15) ∧ (((activeOwner s_SecurityCommandsNeedTheirProofs_3).isSome && tokenOk 1 (secArg s_SecurityCommandsNeedTheirProofs_3) (BitVec.ofNat 3072 factoryModulus).toNat s_SecurityCommandsNeedTheirProofs_3) = false)) ∧
    ((s_SecurityCommandsNeedTheirProofs_4.locked 0xA0 = false) ∧ (s_SecurityCommandsNeedTheirProofs_4.presence = true) ∧ (s_SecurityCommandsNeedTheirProofs_4.sec.tamper = false) ∧ (s_SecurityCommandsNeedTheirProofs_4.panS.tamper = false) ∧ (((activeOwner s_SecurityCommandsNeedTheirProofs_4).isSome && tokenOk 2 ((s_SecurityCommandsNeedTheirProofs_4.fld (F.SEC_ARG 0) % 256) :: List.replicate 31 0) (BitVec.ofNat 3072 factoryModulus).toNat s_SecurityCommandsNeedTheirProofs_4) = true) ∧ ((s_SecurityCommandsNeedTheirProofs_4.fld (F.SEC_ARG 0) % 256) < 4) ∧ (bitOf (s_SecurityCommandsNeedTheirProofs_4.fuse F.FUSE_OWNER_STAT_ENROLLED) (s_SecurityCommandsNeedTheirProofs_4.fld (F.SEC_ARG 0) % 256) = true) ∧ ((3 : Fin 4).val ≠ (s_SecurityCommandsNeedTheirProofs_4.fld (F.SEC_ARG 0) % 256))) ∧
    ((s_SecurityCommandsNeedTheirProofs_5.locked 0xA0 = false) ∧ (s_SecurityCommandsNeedTheirProofs_5.presence = true) ∧ (s_SecurityCommandsNeedTheirProofs_5.sec.tamper = false) ∧ (s_SecurityCommandsNeedTheirProofs_5.panS.tamper = false) ∧ (((activeOwner s_SecurityCommandsNeedTheirProofs_5).isSome && tokenOk 2 ((s_SecurityCommandsNeedTheirProofs_5.fld (F.SEC_ARG 0) % 256) :: List.replicate 31 0) (BitVec.ofNat 3072 factoryModulus).toNat s_SecurityCommandsNeedTheirProofs_5) = true) ∧ ((4 ≤ (s_SecurityCommandsNeedTheirProofs_5.fld (F.SEC_ARG 0) % 256) ∨ bitOf (s_SecurityCommandsNeedTheirProofs_5.fuse F.FUSE_OWNER_STAT_ENROLLED) (s_SecurityCommandsNeedTheirProofs_5.fld (F.SEC_ARG 0) % 256) = false))) ∧
    ((opn.locked 0xA0 = false) ∧ (opn.presence = true) ∧ (opn.sec.tamper = false) ∧ (opn.panS.tamper = false) ∧ (((activeOwner opn).isSome && tokenOk 2 ((opn.fld (F.SEC_ARG 0) % 256) :: List.replicate 31 0) (BitVec.ofNat 3072 factoryModulus).toNat opn) = false)) ∧
    (((signed 3 opn).locked 0xA0 = false) ∧ ((signed 3 opn).presence = true) ∧ (tokenOk 3 (List.replicate 32 0) (BitVec.ofNat 3072 factoryModulus).toNat (signed 3 opn) = true)) ∧
    ((s_SecurityCommandsNeedTheirProofs_0.locked 0xA0 = false) ∧ (s_SecurityCommandsNeedTheirProofs_0.presence = true) ∧ (tokenOk 3 (List.replicate 32 0) (BitVec.ofNat 3072 factoryModulus).toNat s_SecurityCommandsNeedTheirProofs_0 = false)) := by
  refine ⟨?_, ?_, ?_, ?_, ?_, ?_, ?_, ?_, ?_, ?_, ?_, ?_⟩ <;> decide +kernel
theorem test_SecurityCommandsNeedTheirProofs_2 :
    ((s_SecurityCommandsNeedTheirProofs_0.locked 0xA0 = false) ∧ (s_SecurityCommandsNeedTheirProofs_0.presence = true) ∧ (([0, 1, 2, 0x10, 0x20]).any (fun j => decide ((((s_SecurityCommandsNeedTheirProofs_0.fld (F.SEC_ARG 0) % 256) ≠ 2 ∨ s_SecurityCommandsNeedTheirProofs_0.laneA.votes = true ∨ s_SecurityCommandsNeedTheirProofs_0.laneB.votes = true)) ∧ (j ≠ (s_SecurityCommandsNeedTheirProofs_0.fld (F.SEC_ARG 0) % 256)) ∧ ((svnRunning s_SecurityCommandsNeedTheirProofs_0 (s_SecurityCommandsNeedTheirProofs_0.fld (F.SEC_ARG 0) % 256)).any (fun _ => decide (True)) = true))) = true)) ∧
    ((s_SecurityCommandsNeedTheirProofs_5.locked 0xA0 = false) ∧ (s_SecurityCommandsNeedTheirProofs_5.presence = true) ∧ (svnRunning s_SecurityCommandsNeedTheirProofs_5 (s_SecurityCommandsNeedTheirProofs_5.fld (F.SEC_ARG 0) % 256) = none)) ∧
    ((s_SecurityCommandsNeedTheirProofs_6.locked 0xA0 = false) ∧ (s_SecurityCommandsNeedTheirProofs_6.presence = true) ∧ (s_SecurityCommandsNeedTheirProofs_6.laneA.votes = false) ∧ (s_SecurityCommandsNeedTheirProofs_6.laneB.votes = false) ∧ ((s_SecurityCommandsNeedTheirProofs_6.fld (F.SEC_ARG 0) % 256) = 2)) ∧
    ((s_SecurityCommandsNeedTheirProofs_0.locked 0xA0 = false) ∧ (s_SecurityCommandsNeedTheirProofs_0.presence = true) ∧ (killed s_SecurityCommandsNeedTheirProofs_0 (1 : Fin 2).val = false)) ∧
    ((s_SecurityCommandsNeedTheirProofs_7.locked 0xA0 = false) ∧ (s_SecurityCommandsNeedTheirProofs_7.presence = true) ∧ (killed s_SecurityCommandsNeedTheirProofs_7 (1 : Fin 2).val = true)) ∧
    ((s_SecurityCommandsNeedTheirProofs_8.locked 0xA0 = false) ∧ (s_SecurityCommandsNeedTheirProofs_8.presence = true) ∧ (s_SecurityCommandsNeedTheirProofs_8.pwr.supplyLow = true)) ∧
    ((s_SecurityCommandsNeedTheirProofs_0.locked 0xA0 = false) ∧ (s_SecurityCommandsNeedTheirProofs_0.presence = true) ∧ (s_SecurityCommandsNeedTheirProofs_0.pwr.supplyLow = false)) ∧
    ((s_SecurityCommandsNeedTheirProofs_9.locked 0xA0 = false) ∧ (s_SecurityCommandsNeedTheirProofs_9.sec.att ≠ none)) ∧
    ((State.reset.locked 0xA0 = false) ∧ (State.reset.sec.att = none)) ∧
    ((s_SecurityCommandsNeedTheirProofs_9.lsecA.signLeft = 0) ∧ (s_SecurityCommandsNeedTheirProofs_9.lsecB.signLeft = 0) ∧ (s_SecurityCommandsNeedTheirProofs_9.lsecA.playaLeft = 0) ∧ (s_SecurityCommandsNeedTheirProofs_9.lsecB.playaLeft = 0) ∧ (s_SecurityCommandsNeedTheirProofs_9.herv.reqs.all (fun r => r.src != 2) = true) ∧ ((s_SecurityCommandsNeedTheirProofs_9.sec.att).any (fun a => decide ((a.nonce.length = 8))) = true)) ∧
    (((s_SecurityCommandsNeedTheirProofs_10.lsecA.playaLeft ≠ 0 ∨ s_SecurityCommandsNeedTheirProofs_10.lsecB.playaLeft ≠ 0 ∨ (s_SecurityCommandsNeedTheirProofs_10.lsecA.signLeft ≠ 0 ∧ laneSigns s_SecurityCommandsNeedTheirProofs_10.laneA = true) ∨ (s_SecurityCommandsNeedTheirProofs_10.lsecB.signLeft ≠ 0 ∧ laneSigns s_SecurityCommandsNeedTheirProofs_10.laneB = true) ∨ s_SecurityCommandsNeedTheirProofs_10.herv.reqs.any (fun r => r.src == 2) = true)) ∧ ((s_SecurityCommandsNeedTheirProofs_10.sec.att).any (fun _ => decide (True)) = true)) ∧
    (((lockAt 0xA0).sec.att = none)) := by
  refine ⟨?_, ?_, ?_, ?_, ?_, ?_, ?_, ?_, ?_, ?_, ?_, ?_⟩ <;> decide +kernel
theorem test_SecurityCommandsNeedTheirProofs_3 :
    ((s_SecurityCommandsNeedTheirProofs_11.sec.blows.any (fun x => x.1 == (1 : Fin 6).val && x.2 + 64 ≤ s_SecurityCommandsNeedTheirProofs_11.time.count) = true) ∧ ((if (1 : Fin 6).val < 2 then s_SecurityCommandsNeedTheirProofs_11.pwr.pkgRail else s_SecurityCommandsNeedTheirProofs_11.pwr.laneRail) = true) ∧ ((5 : Fin 6) ≠ (1 : Fin 6))) ∧
    ((s_SecurityCommandsNeedTheirProofs_11.sec.blows.any (fun x => x.1 == (1 : Fin 6).val && x.2 + 64 ≤ s_SecurityCommandsNeedTheirProofs_11.time.count) = true) ∧ ((if (1 : Fin 6).val < 2 then s_SecurityCommandsNeedTheirProofs_11.pwr.pkgRail else s_SecurityCommandsNeedTheirProofs_11.pwr.laneRail) = true) ∧ ((1 : Fin 6).val < 2)) ∧
    ((s_SecurityCommandsNeedTheirProofs_12.sec.blows.any (fun x => x.1 == (5 : Fin 6).val && x.2 + 64 ≤ s_SecurityCommandsNeedTheirProofs_12.time.count) = true) ∧ ((if (5 : Fin 6).val < 2 then s_SecurityCommandsNeedTheirProofs_12.pwr.pkgRail else s_SecurityCommandsNeedTheirProofs_12.pwr.laneRail) = true) ∧ (2 ≤ (5 : Fin 6).val)) ∧
    ((((lockAt 0xA0).sec.blows.any (fun x => x.1 == (5 : Fin 6).val && x.2 + 64 ≤ (lockAt 0xA0).time.count) = false ∨ (if (5 : Fin 6).val < 2 then (lockAt 0xA0).pwr.pkgRail else (lockAt 0xA0).pwr.laneRail) = false))) := by
  refine ⟨?_, ?_, ?_, ?_⟩ <;> decide +kernel

def s_LaneSecurityCommands_0 : State := pin (fun x => { x with closed := true }) openUp
def s_LaneSecurityCommands_1 : State := onA (core (fun c => { c with mode := .out })) openUp
def s_LaneSecurityCommands_2 : State := onB (core (fun c => { c with mode := .out })) openUp
theorem test_LaneSecurityCommands :
    ((s_LaneSecurityCommands_0.laneOk 0x19 true = true) ∧ ((s_LaneSecurityCommands_0.laneA.votes = true ∨ s_LaneSecurityCommands_0.laneB.votes = true)) ∧ (s_LaneSecurityCommands_0.laneA.votes = true)) ∧
    ((s_LaneSecurityCommands_1.laneOk 0x19 true = true) ∧ ((s_LaneSecurityCommands_1.laneA.votes = true ∨ s_LaneSecurityCommands_1.laneB.votes = true)) ∧ (s_LaneSecurityCommands_1.laneA.votes = false)) ∧
    ((s_LaneSecurityCommands_0.laneOk 0x19 true = true) ∧ ((s_LaneSecurityCommands_0.laneA.votes = true ∨ s_LaneSecurityCommands_0.laneB.votes = true)) ∧ (s_LaneSecurityCommands_0.laneB.votes = true)) ∧
    ((s_LaneSecurityCommands_2.laneOk 0x19 true = true) ∧ ((s_LaneSecurityCommands_2.laneA.votes = true ∨ s_LaneSecurityCommands_2.laneB.votes = true)) ∧ (s_LaneSecurityCommands_2.laneB.votes = false)) ∧
    ((s_LaneSecurityCommands_0.laneOk 0x19 false = true) ∧ ((s_LaneSecurityCommands_0.laneA.votes = true ∨ s_LaneSecurityCommands_0.laneB.votes = true)) ∧ (laneSigns s_LaneSecurityCommands_0.laneA = true)) ∧
    ((s_LaneSecurityCommands_0.laneOk 0x19 false = true) ∧ ((s_LaneSecurityCommands_0.laneA.votes = true ∨ s_LaneSecurityCommands_0.laneB.votes = true)) ∧ (laneSigns s_LaneSecurityCommands_0.laneB = true)) ∧
    ((s_LaneSecurityCommands_1.laneOk 0x19 false = true) ∧ ((s_LaneSecurityCommands_1.laneA.votes = true ∨ s_LaneSecurityCommands_1.laneB.votes = true)) ∧ (laneSigns s_LaneSecurityCommands_1.laneA = false)) ∧
    ((s_LaneSecurityCommands_2.laneOk 0x19 false = true) ∧ ((s_LaneSecurityCommands_2.laneA.votes = true ∨ s_LaneSecurityCommands_2.laneB.votes = true)) ∧ (laneSigns s_LaneSecurityCommands_2.laneB = false)) ∧
    (((up.laneOk 0x19 true = false ∨ (up.laneA.votes = false ∧ up.laneB.votes = false)))) ∧
    (((opn.laneOk 0x19 false = false ∨ (opn.laneA.votes = false ∧ opn.laneB.votes = false)))) := by
  refine ⟨?_, ?_, ?_, ?_, ?_, ?_, ?_, ?_, ?_, ?_⟩ <;> decide +kernel

def s_TheServicePanel_0 : State := pan (fun p => { p with press := 24574 }) (State.reset)
theorem test_TheServicePanel :
    (((lockAt 0xA1).locked 0xA1 = true)) ∧
    ((s_TheServicePanel_0.locked 0xA1 = false)) := by
  refine ⟨?_, ?_⟩ <;> decide +kernel

def s_TheEventRecorder_0 : State := mrc (fun m => { m with queue := List.replicate 512 (occ0, State.reset.time) })
def s_TheEventRecorder_1 : State := mrc (fun m => { m with queue := List.replicate 511 (occ0, State.reset.time) })
def s_TheEventRecorder_2 : State := mrc (fun m => { m with running := true, entries := [ent0] })
def s_TheEventRecorder_3 : State := mrc (fun m => { m with running := true, entries := [{ ent0 with count := 0xFFFF }] })
def s_TheEventRecorder_4 : State := mrc (fun m => { m with running := true })
def s_TheEventRecorder_5 : State := mrc (fun m => { m with running := true, entries := List.replicate 256 { ent0 with unit := 9 } })
def s_TheEventRecorder_6 : State := fldAt F.REC_CTRL_AUTO 1
theorem test_TheEventRecorder_1 :
    ((512 ≤ s_TheEventRecorder_0.mrec.queue.length) ∧ (s_TheEventRecorder_0.mrec.running = false)) ∧
    ((s_TheEventRecorder_1.mrec.queue.length < 512) ∧ (s_TheEventRecorder_1.mrec.running = false)) ∧
    ((s_TheEventRecorder_2.mrec.running = true) ∧ (s_TheEventRecorder_2.mrec.queue = []) ∧ ((s_TheEventRecorder_2.mrec.entries.find? (fun e => e.lseq == 0 && entryKey (⟨ev0.cls % 8, ev0.origin % 8, ev0.unit % 256, ev0.sub % 65536, ev0.op % 65536, 0x10000 + ev0.code, ev0.arg % 2 ^ 64⟩) e)).any (fun e => decide ((e.count < 0xFFFF))) = true)) ∧
    ((s_TheEventRecorder_3.mrec.running = true) ∧ (s_TheEventRecorder_3.mrec.queue = []) ∧ (s_TheEventRecorder_3.mrec.entries.length < 32768) ∧ ((s_TheEventRecorder_3.mrec.entries.find? (fun e => e.lseq == 0 && entryKey (⟨ev0.cls % 8, ev0.origin % 8, ev0.unit % 256, ev0.sub % 65536, ev0.op % 65536, 0x10000 + ev0.code, ev0.arg % 2 ^ 64⟩) e)).any (fun e => decide ((0xFFFF ≤ e.count))) = true)) ∧
    ((s_TheEventRecorder_4.mrec.running = true) ∧ (s_TheEventRecorder_4.mrec.queue = []) ∧ ((s_TheEventRecorder_4.mrec.entries.filter (fun e => e.opened && e.lseq == 0)).length < 256) ∧ (s_TheEventRecorder_4.mrec.entries.find? (fun e => e.lseq == 0 && entryKey (⟨ev0.cls % 8, ev0.origin % 8, ev0.unit % 256, ev0.sub % 65536, ev0.op % 65536, 0x10000 + ev0.code, ev0.arg % 2 ^ 64⟩) e) = none)) ∧
    ((s_TheEventRecorder_5.mrec.running = true) ∧ (s_TheEventRecorder_5.mrec.queue = []) ∧ (256 ≤ (s_TheEventRecorder_5.mrec.entries.filter (fun e => e.opened && e.lseq == 0)).length) ∧ (s_TheEventRecorder_5.mrec.entries.length < 32768) ∧ (s_TheEventRecorder_5.mrec.entries.find? (fun e => e.lseq == 0 && entryKey (⟨ev0.cls % 8, ev0.origin % 8, ev0.unit % 256, ev0.sub % 65536, ev0.op % 65536, 0x10000 + ev0.code, ev0.arg % 2 ^ 64⟩) e) = none)) ∧
    ((rails.pwr.pkgRail = true) ∧ (rails.mrec.queue = [])) ∧
    ((s_TheEventRecorder_1.pwr.pkgRail = false)) ∧
    ((s_TheEventRecorder_2.locked 0xB0 = false) ∧ ((s_TheEventRecorder_2.mrec.entries.find? (fun e => e.seq == (0#32).toNat)).any (fun _ => decide (True)) = true)) ∧
    ((s_TheEventRecorder_1.locked 0xB0 = false) ∧ (s_TheEventRecorder_1.mrec.entries.find? (fun e => e.seq == (0#32).toNat) = none)) ∧
    (((lockAt 0xB0).locked 0xB0 = true)) ∧
    ((s_TheEventRecorder_1.fld F.REC_CTRL_AUTO ≠ 1)) := by
  refine ⟨?_, ?_, ?_, ?_, ?_, ?_, ?_, ?_, ?_, ?_, ?_, ?_⟩ <;> decide +kernel
theorem test_TheEventRecorder_2 :
    ((s_TheEventRecorder_6.fld F.REC_CTRL_AUTO = 1) ∧ (s_TheEventRecorder_6.locked 0xB0 = false)) := by
  decide +kernel

def s_InventoryAndLaneUpdates_0 : State := fldAt F.INV_SEL_KIND 2 (fldAt F.INV_SEL_INDEX 0 (opn))
def s_InventoryAndLaneUpdates_1 : State := fldAt F.INV_SEL_KIND 5 (fldAt F.INV_SEL_INDEX 95 (opn))
def s_InventoryAndLaneUpdates_2 : State := fwd' (fun f => { f with phase := 0 }) (openUp)
def s_InventoryAndLaneUpdates_3 : State := fwd' (fun f => { f with phase := 2 }) (openUp)
def s_InventoryAndLaneUpdates_4 : State := fwd' (fun f => { f with phase := 1 }) (row (rfld (lupdFld F.LUPD_OFF_OFF .b) (0x2FFFFC / 4 - 6)) opn)
def s_InventoryAndLaneUpdates_5 : State := fwd' (fun f => { f with phase := 1 }) (row (rfld (lupdFld F.LUPD_OFF_OFF .b) (0x2FFFFC / 4 - 5)) opn)
def s_InventoryAndLaneUpdates_6 : State := fwd' (fun f => { f with phase := 3 }) (openUp)
def s_InventoryAndLaneUpdates_7 : State := fwd' (fun f => { f with phase := 3 }) (onA (core (fun c => { c with rot := { c.rot with clear := true } })) openUp)
def s_InventoryAndLaneUpdates_8 : State := fwd' (fun f => { f with b1 := ⟨[]⟩, b0 := ⟨[]⟩ }) (openUp)
def s_InventoryAndLaneUpdates_9 : State := fwd' (fun f => { f with phase := 5 }) (openUp)
def s_InventoryAndLaneUpdates_10 : State := fwd' (fun f => { f with phase := 2, b1 := ⟨tset 0 (packWords 0 (factoryImage 2)) 0 5⟩ }) (openUp)
def s_InventoryAndLaneUpdates_11 : State := fwd' (fun f => { f with phase := 2, b1 := ⟨tset 0 (packWords 0 (factoryImage 2)) 100 5⟩ }) (openUp)
def s_InventoryAndLaneUpdates_12 : State := fwd' (fun f => { f with phase := 2, b1 := ⟨tset 0 (packWords 0 (factoryImage 2)) 208 5⟩ }) (openUp)
def s_InventoryAndLaneUpdates_13 : State := fus F.FUSE_SVN_SEIF 1 (fwd' (fun f => { f with b1 := ⟨packWords 0 (factoryImage 2)⟩, phase := 2 }) (openUp))
def s_InventoryAndLaneUpdates_14 : State := fwd' (fun f => { f with trial := some 0 }) (onB (core (fun c => { c with mode := .boot })) (atTick 29491200))
def s_InventoryAndLaneUpdates_15 : State := fwd' (fun f => { f with trial := some 0 }) (onB (core (fun c => { c with mode := .boot })) (atTick 29491199))
theorem test_InventoryAndLaneUpdates_1 :
    (((lockAt 0xB1).locked 0xB1 = true)) ∧
    ((State.reset.locked 0xB1 = false) ∧ (State.reset.presence = false)) ∧
    ((s_InventoryAndLaneUpdates_0.locked 0xB1 = false) ∧ (s_InventoryAndLaneUpdates_0.presence = true) ∧ ((s_InventoryAndLaneUpdates_0.fld F.INV_SEL_KIND < 3 ∨ invCount (s_InventoryAndLaneUpdates_0.fld F.INV_SEL_KIND) ≤ s_InventoryAndLaneUpdates_0.fld F.INV_SEL_INDEX))) ∧
    ((s_InventoryAndLaneUpdates_1.locked 0xB1 = false) ∧ (s_InventoryAndLaneUpdates_1.presence = true) ∧ (3 ≤ s_InventoryAndLaneUpdates_1.fld F.INV_SEL_KIND) ∧ (s_InventoryAndLaneUpdates_1.fld F.INV_SEL_INDEX < invCount (s_InventoryAndLaneUpdates_1.fld F.INV_SEL_KIND)) ∧ ((invKeys).any (fun q => decide ((q ≠ ((s_InventoryAndLaneUpdates_1.fld F.INV_SEL_KIND), (s_InventoryAndLaneUpdates_1.fld F.INV_SEL_INDEX))))) = true)) ∧
    ((s_InventoryAndLaneUpdates_2.laneOk (lupdPage LaneId.b) false = true) ∧ ((s_InventoryAndLaneUpdates_2.laneA.votes = true ∨ s_InventoryAndLaneUpdates_2.laneB.votes = true)) ∧ ((s_InventoryAndLaneUpdates_2.fw LaneId.b).phase ≠ 2) ∧ ((s_InventoryAndLaneUpdates_2.fw LaneId.b).phase ≠ 5)) ∧
    ((s_InventoryAndLaneUpdates_3.laneOk (lupdPage LaneId.b) false = true) ∧ ((s_InventoryAndLaneUpdates_3.laneA.votes = true ∨ s_InventoryAndLaneUpdates_3.laneB.votes = true)) ∧ (((s_InventoryAndLaneUpdates_3.fw LaneId.b).phase = 2 ∨ (s_InventoryAndLaneUpdates_3.fw LaneId.b).phase = 5))) ∧
    ((s_InventoryAndLaneUpdates_4.laneOk (lupdPage LaneId.b) false = true) ∧ ((s_InventoryAndLaneUpdates_4.laneA.votes = true ∨ s_InventoryAndLaneUpdates_4.laneB.votes = true)) ∧ ((s_InventoryAndLaneUpdates_4.fw LaneId.b).phase = 1) ∧ ((fget s_InventoryAndLaneUpdates_4.leadRegs (lupdFld F.LUPD_OFF_OFF LaneId.b) + (3 : Fin 7).val) ≤ 0x2FFFFC / 4) ∧ ((0 : Nat) ≠ (fget s_InventoryAndLaneUpdates_4.leadRegs (lupdFld F.LUPD_OFF_OFF LaneId.b) + (3 : Fin 7).val))) ∧
    ((s_InventoryAndLaneUpdates_2.laneOk (lupdPage LaneId.b) false = true) ∧ ((s_InventoryAndLaneUpdates_2.laneA.votes = true ∨ s_InventoryAndLaneUpdates_2.laneB.votes = true)) ∧ ((s_InventoryAndLaneUpdates_2.fw LaneId.b).phase ≠ 1) ∧ ((fget s_InventoryAndLaneUpdates_2.leadRegs (lupdFld F.LUPD_OFF_OFF LaneId.b) + (3 : Fin 7).val) ≤ 0x2FFFFC / 4)) ∧
    ((s_InventoryAndLaneUpdates_5.laneOk (lupdPage LaneId.b) false = true) ∧ ((s_InventoryAndLaneUpdates_5.laneA.votes = true ∨ s_InventoryAndLaneUpdates_5.laneB.votes = true)) ∧ (0x2FFFFC / 4 < (fget s_InventoryAndLaneUpdates_5.leadRegs (lupdFld F.LUPD_OFF_OFF LaneId.b) + (6 : Fin 7).val))) ∧
    ((s_InventoryAndLaneUpdates_4.laneOk (lupdPage LaneId.b) false = true) ∧ ((s_InventoryAndLaneUpdates_4.laneA.votes = true ∨ s_InventoryAndLaneUpdates_4.laneB.votes = true)) ∧ ((s_InventoryAndLaneUpdates_4.fw LaneId.b).phase = 1)) ∧
    ((s_InventoryAndLaneUpdates_2.laneOk (lupdPage LaneId.b) false = true) ∧ ((s_InventoryAndLaneUpdates_2.laneA.votes = true ∨ s_InventoryAndLaneUpdates_2.laneB.votes = true)) ∧ ((s_InventoryAndLaneUpdates_2.fw LaneId.b).phase ≠ 1)) ∧
    ((s_InventoryAndLaneUpdates_2.laneOk (lupdPage LaneId.b) false = true) ∧ ((s_InventoryAndLaneUpdates_2.laneA.votes = true ∨ s_InventoryAndLaneUpdates_2.laneB.votes = true)) ∧ (((s_InventoryAndLaneUpdates_2.fw LaneId.b).phase ≠ 3 ∨ (s_InventoryAndLaneUpdates_2.lane LaneId.b).core.mode ≠ .standby))) := by
  refine ⟨?_, ?_, ?_, ?_, ?_, ?_, ?_, ?_, ?_, ?_, ?_, ?_⟩ <;> decide +kernel
theorem test_InventoryAndLaneUpdates_2 :
    ((s_InventoryAndLaneUpdates_6.laneOk (lupdPage LaneId.b) false = true) ∧ ((s_InventoryAndLaneUpdates_6.laneA.votes = true ∨ s_InventoryAndLaneUpdates_6.laneB.votes = true)) ∧ ((s_InventoryAndLaneUpdates_6.fw LaneId.b).phase = 3) ∧ ((s_InventoryAndLaneUpdates_6.lane LaneId.b).core.mode = .standby) ∧ (((s_InventoryAndLaneUpdates_6.lane (otherLane LaneId.b)).core.mode ≠ .authority ∨ (s_InventoryAndLaneUpdates_6.lane (otherLane LaneId.b)).core.rot.clear = false))) ∧
    ((s_InventoryAndLaneUpdates_7.laneOk (lupdPage LaneId.b) false = true) ∧ ((s_InventoryAndLaneUpdates_7.laneA.votes = true ∨ s_InventoryAndLaneUpdates_7.laneB.votes = true)) ∧ ((s_InventoryAndLaneUpdates_7.fw LaneId.b).phase = 3) ∧ ((s_InventoryAndLaneUpdates_7.lane LaneId.b).core.mode = .standby) ∧ ((s_InventoryAndLaneUpdates_7.lane (otherLane LaneId.b)).core.mode = .authority) ∧ ((s_InventoryAndLaneUpdates_7.lane (otherLane LaneId.b)).core.rot.clear = true)) ∧
    ((s_InventoryAndLaneUpdates_2.laneOk (lupdPage LaneId.b) false = true) ∧ ((s_InventoryAndLaneUpdates_2.laneA.votes = true ∨ s_InventoryAndLaneUpdates_2.laneB.votes = true)) ∧ (((s_InventoryAndLaneUpdates_2.lane LaneId.b).core.mode = .standby ∨ (s_InventoryAndLaneUpdates_2.lane LaneId.b).core.mode = .out)) ∧ (imgOk s_InventoryAndLaneUpdates_2 2 (bankImage (fwOther (s_InventoryAndLaneUpdates_2.fw LaneId.b))) = true)) ∧
    ((s_InventoryAndLaneUpdates_8.laneOk (lupdPage LaneId.b) false = true) ∧ ((s_InventoryAndLaneUpdates_8.laneA.votes = true ∨ s_InventoryAndLaneUpdates_8.laneB.votes = true)) ∧ (((s_InventoryAndLaneUpdates_8.lane LaneId.b).core.mode = .standby ∨ (s_InventoryAndLaneUpdates_8.lane LaneId.b).core.mode = .out)) ∧ (imgOk s_InventoryAndLaneUpdates_8 2 (bankImage (fwOther (s_InventoryAndLaneUpdates_8.fw LaneId.b))) = false)) ∧
    ((s_InventoryAndLaneUpdates_2.laneOk (lupdPage LaneId.a) false = true) ∧ ((s_InventoryAndLaneUpdates_2.laneA.votes = true ∨ s_InventoryAndLaneUpdates_2.laneB.votes = true)) ∧ ((s_InventoryAndLaneUpdates_2.lane LaneId.a).core.mode ≠ .standby) ∧ ((s_InventoryAndLaneUpdates_2.lane LaneId.a).core.mode ≠ .out)) ∧
    ((s_InventoryAndLaneUpdates_2.laneOk (lupdPage LaneId.b) false = true) ∧ ((s_InventoryAndLaneUpdates_2.laneA.votes = true ∨ s_InventoryAndLaneUpdates_2.laneB.votes = true)) ∧ ((s_InventoryAndLaneUpdates_2.fw LaneId.b).phase ≠ 5)) ∧
    ((s_InventoryAndLaneUpdates_9.laneOk (lupdPage LaneId.b) false = true) ∧ ((s_InventoryAndLaneUpdates_9.laneA.votes = true ∨ s_InventoryAndLaneUpdates_9.laneB.votes = true)) ∧ ((s_InventoryAndLaneUpdates_9.fw LaneId.b).phase = 5)) ∧
    (((State.reset.laneOk (lupdPage LaneId.b) false = false ∨ (State.reset.laneA.votes = false ∧ State.reset.laneB.votes = false)))) ∧
    (((s_InventoryAndLaneUpdates_10.fw LaneId.b).phase = 2) ∧ (imgForm 2 (bankImage (fwOther (s_InventoryAndLaneUpdates_10.fw LaneId.b))) = false)) ∧
    (((s_InventoryAndLaneUpdates_11.fw LaneId.b).phase = 2) ∧ (imgForm 2 (bankImage (fwOther (s_InventoryAndLaneUpdates_11.fw LaneId.b))) = true) ∧ (imgSigned s_InventoryAndLaneUpdates_11 (bankImage (fwOther (s_InventoryAndLaneUpdates_11.fw LaneId.b))) = false)) ∧
    (((s_InventoryAndLaneUpdates_12.fw LaneId.b).phase = 2) ∧ (imgForm 2 (bankImage (fwOther (s_InventoryAndLaneUpdates_12.fw LaneId.b))) = true) ∧ (imgSigned s_InventoryAndLaneUpdates_12 (bankImage (fwOther (s_InventoryAndLaneUpdates_12.fw LaneId.b))) = true) ∧ (imgDigestOk (bankImage (fwOther (s_InventoryAndLaneUpdates_12.fw LaneId.b))) = false)) ∧
    (((s_InventoryAndLaneUpdates_13.fw LaneId.b).phase = 2) ∧ (imgForm 2 (bankImage (fwOther (s_InventoryAndLaneUpdates_13.fw LaneId.b))) = true) ∧ (imgSigned s_InventoryAndLaneUpdates_13 (bankImage (fwOther (s_InventoryAndLaneUpdates_13.fw LaneId.b))) = true) ∧ (imgDigestOk (bankImage (fwOther (s_InventoryAndLaneUpdates_13.fw LaneId.b))) = true) ∧ ((imgSvn (bankImage (fwOther (s_InventoryAndLaneUpdates_13.fw LaneId.b))) < svnFloor s_InventoryAndLaneUpdates_13 2 ∨ 64 < imgSvn (bankImage (fwOther (s_InventoryAndLaneUpdates_13.fw LaneId.b)))))) := by
  refine ⟨?_, ?_, ?_, ?_, ?_, ?_, ?_, ?_, ?_, ?_, ?_, ?_⟩ <;> decide +kernel
theorem test_InventoryAndLaneUpdates_3 :
    (((s_InventoryAndLaneUpdates_3.fw LaneId.b).phase = 2) ∧ (imgOk s_InventoryAndLaneUpdates_3 2 (bankImage (fwOther (s_InventoryAndLaneUpdates_3.fw LaneId.b))) = true)) ∧
    (((State.reset.fw LaneId.b).phase ≠ 2)) ∧
    (((s_InventoryAndLaneUpdates_14.lane LaneId.b).core.mode.decides = false) ∧ (((s_InventoryAndLaneUpdates_14.fw LaneId.b).trial).any (fun t => decide ((t + 29491200 ≤ s_InventoryAndLaneUpdates_14.time.count))) = true)) ∧
    ((((s_InventoryAndLaneUpdates_15.fw LaneId.b).trial).any (fun t => decide (((s_InventoryAndLaneUpdates_15.time.count < t + 29491200 ∨ (s_InventoryAndLaneUpdates_15.lane LaneId.b).core.mode.decides = true)))) = true)) ∧
    (((State.reset.fw LaneId.b).trial = none)) := by
  refine ⟨?_, ?_, ?_, ?_, ?_⟩ <;> decide +kernel

def s_StepRunsTheFrontCommand_0 : State := { State.reset with pending := [.packageRailLoss, .packageRailLoss] }
theorem test_StepRunsTheFrontCommand :
    (((match s_StepRunsTheFrontCommand_0.pending with | _ :: _ => decide (True) | _ => false) = true)) ∧
    ((State.reset.pending = [])) := by
  refine ⟨?_, ?_⟩ <;> decide +kernel

theorem test_EveryWaitingCommandCompletes :
    (((match s_StepRunsTheFrontCommand_0.pending with | _ :: _ => decide (True) | _ => false) = true)) := by
  decide +kernel

theorem test_MemoryWordsReadBack :
    ((xaMem (0 : Nat) ≠ .none)) ∧
    (((1 : Nat) ≠ (0 : Nat))) ∧
    ((xaMem xaLpEnd = .none)) ∧
    ((State.reset.x.inject = none) ∧ (xaMem (0 : Nat) ≠ .none)) := by
  refine ⟨?_, ?_, ?_, ?_⟩ <;> decide +kernel

def s_TheLedgerBoundsEveryAdmission_0 : State := (let s := rails up; { s with gov := { s.gov with raised := [⟨⟨.lane, 1⟩, 0, false⟩, ⟨⟨.pump, 3⟩, 0, true⟩, ⟨⟨.lpddr, 4⟩, 0, false⟩, ⟨⟨.erg, 7⟩, 0, false⟩, ⟨⟨.eth, 1⟩, 0, false⟩] } })
theorem test_TheLedgerBoundsEveryAdmission :
    (((((let s := rails up; { s with gov := { s.gov with raised := [⟨⟨.lane, 1⟩, 0, false⟩, ⟨⟨.pump, 3⟩, 0, true⟩, ⟨⟨.lpddr, 4⟩, 0, false⟩, ⟨⟨.erg, 7⟩, 0, false⟩, ⟨⟨.eth, 1⟩, 0, false⟩] } })).gov).admitted = [])) ∧
    (((s_TheLedgerBoundsEveryAdmission_0.gov.raised).any (fun r => decide ((r.bypass = true))) = true)) := by
  refine ⟨?_, ?_⟩ <;> decide +kernel

/-! ### Clauses that rest on a CRC -/

theorem calNextCrc_eq : crc32 (calBody calNext) = calNextCrc := by unfold calNextCrc; rfl
theorem test_calCheck_passes : calCheck calOk = 0 := by
  have hc : stgCrc calOk = calNextCrc := by unfold stgCrc; rw [stgWord_calOk]; unfold calImg; exact if_pos (by decide)
  have hb : crc32 (calBody calImg) = calNextCrc := by rw [calBody_calImg, calNextCrc_eq]
  have h1 : ¬ (calImg 0 ≠ 0x4C41434F ∨ calImg 1 % 256 ≠ 1) := by decide +kernel
  have h2 : ¬ (calImg 2 ≠ calLen) := by decide +kernel
  have h4 : ¬ (calImg 1 / 65536 ≠ 7 ∨ ¬ (upto 7).all (fun i => calImg (calRecAt (i + 1) - 1) == (i + 1) + 65536 * calRecCount (i + 1))) := by decide +kernel
  have h5 : ¬ (¬ (upto 7).all (fun i => (upto (calRecCount (i + 1))).all (fun n =>
      calEntryOk (i + 1) (fun j => calImg (calRecAt (i + 1) + calRecWords (i + 1) * n + j))))) := by decide +kernel
  have h6 : ¬ (¬ calOk.foreign ∧ ¬ (upto 4).all (fun i => calImg (4 + i) == moduleSerial i)) := by decide +kernel
  have h7 : ¬ (calImg 3 ≠ (calGen calOk + 1) % 2 ^ 32) := by decide +kernel
  unfold calCheck
  simp only [stgWord_calOk, hc, hb]
  rw [if_neg h1, if_neg h2, if_neg (by simp), if_neg h4, if_neg h5, if_neg h6, if_neg h7]

theorem bWord_nil (j k : Nat) : bWord ⟨[], []⟩ j k = 0 := rfl
theorem bankCheckLoop_nil (rf : RegFile) (j : Nat) : bankCheckLoop rf ⟨[], []⟩ j = 0 := by
  have hs : ∀ k, bS ⟨[], []⟩ j k = 0 := fun _ => by unfold bS; rw [bWord_nil]; rfl
  have hb : ∀ lo w, bitsOf 0 lo w = 0 := by intro lo w; simp [bitsOf]
  have hc : ∀ a b, destClash 0 a 0 b = false := by intro a b; simp [destClash]
  have hsd : srcDisabled rf 0 = false := by simp [srcDisabled]
  have hn : bLutN ⟨[], []⟩ j = 0 := by unfold bLutN; rw [bWord_nil]; exact hb _ _
  simp only [bankCheckLoop, bDestType, bLutEn, bPvSrc, bSpSrc, bFfSrc, bDiv, bPhase, bDest, bWord_nil, hs, hb, hc, hsd]
  rw [if_neg (by decide), if_neg (by decide), if_neg (fun h => absurd h.1 (by decide)), if_neg (by rw [hn]; simp [upto]), if_neg (by decide),
    if_neg (by simp), if_neg (by decide), if_neg (fun h => absurd h.1 (by decide))]
theorem bankCheckFrom_nil (rf : RegFile) (l : List Nat) : (bankCheckFrom rf ⟨[], []⟩ l).1 = 0 := by
  induction l with
  | nil => rfl
  | cons j js ih => unfold bankCheckFrom; simp only [bankCheckLoop_nil, if_true]; exact ih
def s_crc (crc : Nat) : State := row (rfld F.LENG_SWAP_CRC crc)
/-- The hypotheses of SWAP's clauses but the last. -/
def swapReady (s : State) : Prop :=
  s.laneOk 0x13 false = true ∧ s.laneA.votes = true ∧ s.laneA.row.loops.checkDue = none ∧ bankArmed s.laneA.row.loops = false ∧
    (bankCheckFrom s.laneA.row.regs s.laneA.row.loops.edit (upto 64)).1 = 0
theorem test_LoopBanksSwapCrc :
    (∃ s, swapReady s ∧ bankCrc s.laneA.row.loops.edit = fget s.laneA.row.regs F.LENG_SWAP_CRC) ∧
    (∃ s, swapReady s ∧ bankCrc s.laneA.row.loops.edit ≠ fget s.laneA.row.regs F.LENG_SWAP_CRC) := by
  have hr : ∀ c, swapReady (s_crc c) := fun c => ⟨by
    have h : up.locked 0x13 = false := by decide +kernel
    have h' : (s_crc c).locked 0x13 = false := h
    unfold State.laneOk; rw [h']; rfl, rfl, rfl, rfl, bankCheckFrom_nil ..⟩
  have hf : ∀ c, fget (s_crc c).laneA.row.regs F.LENG_SWAP_CRC = c % 2 ^ 32 := fun c => fget_fset_same _ _ _ (by decide)
  have h32 : bankCrc ⟨[], []⟩ < 2 ^ 32 := crc32_lt _
  refine ⟨⟨s_crc (bankCrc ⟨[], []⟩), hr _, ?_⟩, ⟨s_crc (bankCrc ⟨[], []⟩ + 1), hr _, ?_⟩⟩
  · rw [hf, Nat.mod_eq_of_lt h32]; rfl
  · rw [hf]
    show bankCrc ⟨[], []⟩ ≠ _
    generalize bankCrc ⟨[], []⟩ = b at h32
    omega

/-! ### The governor -/

/-- An idle governor with a lane and a valve waiting. -/
def govW (f : GovSt → GovSt := id) : State := { State.reset with gov := f { GovSt.init with raised := [⟨⟨.lane, 1⟩, 0, false⟩, ⟨⟨.erg, 7⟩, 0, true⟩] } }
theorem test_TheLedgerBoundsEveryAdmission_admits :
    let s := govW; ∃ t, Sys2Proof.Machine.exec (.governorCycle 1200#12) s = .next t ∧
      (t.gov.admitted.any (fun a => decide (a.item = ⟨.lane, 1⟩)) && s.gov.admitted.all (fun b => decide (b.item ≠ ⟨.lane, 1⟩)) &&
        s.gov.raised.all (fun r => !r.bypass || decide (r.item ≠ ⟨.lane, 1⟩)) && s.gov.raised.any (fun r => r.bypass)) = true := ⟨_, rfl, by decide +kernel⟩
theorem test_HoldFollowsTheMeasuredCurrent :
    let s := govW (fun g => { g with overRun := 15 }); ∃ t, Sys2Proof.Machine.exec (.governorCycle 1201#12) s = .next t ∧
      (t.gov.hold && t.gov.admitted.any (fun a => decide (a.item = ⟨.lane, 1⟩)) && s.gov.admitted.isEmpty && s.gov.raised.all (fun r => !r.bypass || decide (r.item ≠ ⟨.lane, 1⟩))) = true :=
  ⟨_, rfl, by decide +kernel⟩

/-! ### Operands a sender cannot give are refused -/

def seg0 : MapSeg := ⟨1, 0x30, 2303, 0, 1, 1, 512, 1, 8, 0, 0, List.replicate 16 0, List.replicate 512 0, none⟩
def job0 : JobEnt := ⟨1, true, 0xFFFF, 575, 1, 9, 1, 0, 2304, 1, 0, 0, 0⟩
theorem test_wf_refuses :
    ([Instr.inrushRequest ⟨.erg, 8⟩, .grant ⟨.lane, 2⟩, .surgeWindowEnd ⟨.lpddr, 5⟩, .powerEvalInterval 256 0, .powerEvalInterval 0 256, .ergThermalStop 256,
      .droopDetect .xoide 65536 0, .droopDetect .hervi 0 65536, .playaTickBoundary 0 [] [0, 0, 0, 0, 0, 0], .playaTickBoundary 0 (List.replicate 24 256) (List.replicate 6 0),
      .playaTickBoundary 0 (List.replicate 24 0) (List.replicate 6 1024), .playaTickBoundary 1 (List.replicate 24 0) [0], .sensorSample .a 0 0 (.edges 2 5 4),
      .mapSegment 0 { seg0 with version := 256 }, .mapSegment 0 { seg0 with typ := 256 }, .mapSegment 0 { seg0 with endpoint := 65536 }, .mapSegment 0 { seg0 with mapSeq := 2 ^ 32 },
      .mapSegment 0 { seg0 with seg := 256 }, .mapSegment 0 { seg0 with segLast := 256 }, .mapSegment 0 { seg0 with npoints := 65536 }, .mapSegment 0 { seg0 with flags := 256 },
      .mapSegment 0 { seg0 with hotspots := 256 }, .mapSegment 0 { seg0 with sec := 2 ^ 32 }, .mapSegment 0 { seg0 with ns := 2 ^ 32 }, .mapSegment 0 { seg0 with summary := List.replicate 17 0 },
      .mapSegment 0 { seg0 with points := List.replicate 513 0 }, .mapSegment 0 { seg0 with summary := [65536] }, .mapSegment 0 { seg0 with points := [65536] },
      .mapSegment 0 { seg0 with tag := some 65536 }, .moveVerdict 0 (.dip 4096 0) 0, .moveVerdict 0 (.dip 0 4096) 0, .moveVerdict 0 (.kink 256 0 0 0) 0,
      .tachEdge (.pump 0) (2 ^ 64), .modbusReply 0 true false [0, 0, 0, 0, 0, 0, 0], .modbusReply 0 true false [65536],
      .redfishUnsubscribe (2 ^ 32), .ptpSync 0 0 ⟨2 ^ 32, 0⟩, .memWr flt 0 (List.replicate 225 0#8)]).all (fun c => !c.wf) = true := by decide +kernel
theorem test_wf_refuses_lists :
    ([Instr.xjobLoad { man0 with setId := 2 ^ 32 }, .xjobLoad { man0 with img := [256] }, .xjobLoad { man0 with jobs := List.replicate 1025 job0 },
      .xjobLoad { man0 with jobs := [{ job0 with kind := 16 }] }, .xjobLoad { man0 with jobs := [{ job0 with tileFirst := 65536 }] }, .xjobLoad { man0 with jobs := [{ job0 with head := 65536 }] },
      .disc 0 true hdrP 0 0 [], .disc 0 true hdrP 0 0 (List.replicate 65 ⟨0, 0, false, 0, false, false, false, 0⟩), .disc 0 true hdrP 0 0 [⟨2 ^ 64, 0, false, 0, false, false, false, 0⟩],
      .discEnd 0 true hdrP 0 0 [⟨0, 64, false, 0, false, false, false, 0⟩], .discEnd 0 true hdrP 0 0 [⟨0, 0, false, 0, false, false, false, 65536⟩],
      .assign 0 true hdrP 0 0 false [], .assign 0 true hdrP 0 0 false [⟨0, 64, true⟩], .pairInput 0 true hdrP .a [(256, 0)], .hall 0 true hdrP [0#8], .data 0 true hdrP [], .data 0 true hdrP (List.replicate 513 0#8),
      .eventOccurrence { ev0 with cls := 8 }, .eventOccurrence { ev0 with origin := 8 }, .eventOccurrence { ev0 with unit := 256 }, .eventOccurrence { ev0 with sub := 65536 },
      .eventOccurrence { ev0 with op := 65536 }, .eventOccurrence { ev0 with arg := 2 ^ 64 }]).all (fun c => !c.wf) = true := by decide +kernel
theorem test_wf_accepts :
    ([Instr.inrushRequest ⟨.erg, 7⟩, .powerEvalInterval 255 255, .playaTickBoundary 0 (List.replicate 24 255) (List.replicate 6 1023), .mapSegment 0 seg0, .xjobLoad { man0 with jobs := [job0] },
      .moveVerdict 0 (.kink 255 0 0 0) 0, .eventOccurrence ev0]).all (fun c => c.wf) = true := by decide +kernel
theorem test_EveryStepKeepsTheRowClock : clockOk State.reset ∧ ∃ t, Sys2Proof.Machine.step State.reset = .next t := ⟨by decide +kernel, State.reset, rfl⟩

/-! ### Worked examples of the spec -/

/-- R75: 0581h, not the old 0541h, falls to 0681h after the takeover (the example of the lane chapter). -/
theorem test_claims_order : claimOf .a 5 .authority = 0x580 ∧ claimOf .b 5 .standby = 0x541 ∧ claimOf .b 6 .authority = 0x681 ∧ claimOf .a 6 .standby = 0x640 ∧
    higherClaim 0x681 0x580 = true ∧ higherClaim 0x580 0x541 = true ∧ higherClaim 0x580 0x681 = false := by decide +kernel
/-- The ledger of the governor's example: port 1 in its surge and ten recharges, five quadrants joining, their surges over, erg 0 joining. -/
def exLedger (q : Nat) (e : List GovAdm) : Nat :=
  govLedger { GovSt.init with admitted := ⟨⟨.eth, 1⟩, 1⟩ :: (upto 10).map (fun b => ⟨⟨.valve, b⟩, 0⟩) ++ (upto 5).map (fun n => ⟨⟨.lpddr, n⟩, q⟩) ++ e }
theorem test_ledger_example : exLedger 1 [] = 685 ∧ exLedger 0 [] = 560 ∧ exLedger 0 [⟨⟨.erg, 0⟩, 1⟩] = 720 := by decide +kernel
/-- The ceilings of the cap example, in 0.25 W from degrees in Q32: 3 °C below the limit gives 1,900 W, and 0.5 °C 1,816.5 W however the quotient is
rounded (R98). -/
theorem test_cap_example : capAdj 7200 (3 * 65536) 300 = 7600 ∧ capAdj 7200 32768 300 = 7266 := by
  refine ⟨by decide +kernel, ?_⟩
  have h : qdiv (32768 * 10000) ((max 1 300 : Nat) : Int) = 1092266 ∨ qdiv (32768 * 10000) ((max 1 300 : Nat) : Int) = 1092267 := by
    unfold qdiv; rw [if_neg (by decide)]; split
    · exact Or.inr (by decide)
    · exact Or.inl (by decide)
  unfold capAdj
  rcases h with h | h <;> rw [h] <;> decide
/-- Summary codes of the hot-spot example: 4C40h is 88.50 °C, 4C20h is 88.25 °C. -/
theorem test_hot_codes : 10 * hotCode 0x4C40 = 885 * 65536 ∧ 100 * hotCode 0x4C20 = 8825 * 65536 := by decide +kernel
/-- The skip band of the fan example: 40 % inside 38–42 % is applied as 42 %, and a fall from 45 % stops at 42 %. -/
theorem test_skip_band : skipUp [(3800, 4200)] 4000 = 4200 ∧ skipUp [(3800, 4200)] 4500 = 4500 ∧ skipUp [(3800, 4200)] (max 4200 (4500 - 500)) = 4200 ∧
    skipUp [(3800, 4200)] 3800 = 3800 := by decide +kernel

end Sys2Proof.Tests
end

namespace Sys2Proof.Machine
open Sys2Proof

/-! ### Views that do not see the registers, Xoide, the recorder or the ingest buffers -/

/-- A view of the state that does not see the module's registers. -/
def OffRegs {β : Type} (v : State → β) : Prop := ∀ (s : State) rf, v { s with regs := rf } = v s
/-- A view that does not see Xoide's record. -/
def OffX {β : Type} (v : State → β) : Prop := ∀ (s : State) x, v { s with x := x } = v s
/-- A view that does not see the main recorder. -/
def OffMrec {β : Type} (v : State → β) : Prop := ∀ (s : State) m, v { s with mrec := m } = v s
/-- A view that does not see the ingest buffers. -/
def OffIngest {β : Type} (v : State → β) : Prop := ∀ (s : State) g, v { s with ingest := g } = v s

section
variable {β : Type} {v : State → β}

theorem OffRegs.setFld (h : OffRegs v) (s : State) (f : Fld) (n : Nat) : v (s.setFld f n) = v s := h s _
theorem OffRegs.satFld (h : OffRegs v) (s : State) (f : Fld) (n : Nat) : v (s.satFld f n) = v s := h s _
theorem OffRegs.irq (h : OffRegs v) (s : State) (p b : Nat) : v (s.irq p b) = v s := h s _
theorem OffX.onX (h : OffX v) (s : State) (f : XoideSt → XoideSt) : v (s.onX f) = v s := h s _
theorem OffX.setTile (h : OffX v) (s : State) (t : Nat) (x : Tile) : v (s.setTile t x) = v s := h s _
theorem OffX.modJob (h : OffX v) (s : State) (j : Nat) (f : JobRun → JobRun) : v (s.modJob j f) = v s := h s _
theorem OffMrec.note (h : OffMrec v) (hr : OffRegs v) (s : State) (og cls u sub code arg : Nat) : v (s.note og cls u sub code arg) = v s :=
  occ_keeps v (fun s rf m => (h { s with regs := rf } m).trans (hr s rf)) s _
/-- The record of an access to an unassigned word (kind 4h) is in registers alone. -/
theorem OffRegs.ueNote_unassigned (h : OffRegs v) (job : Option Nat) (w : Nat) (s : State) : v (ueNote job w 4 s) = v s := by
  unfold ueNote
  dsimp only
  rw [if_pos rfl]
  simp only [h.setFld]
end

/-! ### Xoide's memories: reading after a write (R166–R168) -/

/-- Reading another key does not depend on the default the write was normalised against. -/
theorem tget_tset_ne {α : Type} [DecidableEq α] (d d' : α) (t : Tbl α) {j k : Nat} (x : α) (h : k ≠ j) :
    tget d (tset d' t j x) k = tget d t k := by
  unfold tset
  split
  · exact tget_tdel_other d t h
  · exact tget_tput_other d t x h

/-- The four points of a word after a write of the word. -/
theorem tget_ptsPut (t : Tbl Nat) (i v m : Nat) :
    tget 0xFFFF (ptsPut t i v) m = if m / 4 = i then v / 2 ^ (16 * (m % 4)) % 65536 else tget 0xFFFF t m := by
  have e : ptsPut t i v = tset 0xFFFF (tset 0xFFFF (tset 0xFFFF (tset 0xFFFF t (4 * i) (v / 2 ^ (16 * 0) % 65536)) (4 * i + 1)
      (v / 2 ^ (16 * 1) % 65536)) (4 * i + 2) (v / 2 ^ (16 * 2) % 65536)) (4 * i + 3) (v / 2 ^ (16 * 3) % 65536) := rfl
  rw [e]
  simp only [tget_tset]
  by_cases h : m / 4 = i
  · rw [if_pos h]
    have hm : m % 4 = 0 ∨ m % 4 = 1 ∨ m % 4 = 2 ∨ m % 4 = 3 := by omega
    have hs : m = 4 * i + m % 4 := by omega
    rcases hm with h0 | h0 | h0 | h0 <;> rw [h0] at hs ⊢ <;> simp [hs]
  · rw [if_neg h, if_neg (by omega), if_neg (by omega), if_neg (by omega), if_neg (by omega)]

theorem ptsGet_eq (t : Tbl Nat) (i : Nat) : ptsGet t i = tget 0xFFFF t (4 * i) % 65536 + 2 ^ 16 * (tget 0xFFFF t (4 * i + 1) % 65536) +
    2 ^ 32 * (tget 0xFFFF t (4 * i + 2) % 65536) + 2 ^ 48 * (tget 0xFFFF t (4 * i + 3) % 65536) := by
  have e : ptsGet t i = nsum [tget 0xFFFF t (4 * i) % 65536 * 2 ^ (16 * 0), tget 0xFFFF t (4 * i + 1) % 65536 * 2 ^ (16 * 1),
      tget 0xFFFF t (4 * i + 2) % 65536 * 2 ^ (16 * 2), tget 0xFFFF t (4 * i + 3) % 65536 * 2 ^ (16 * 3)] := rfl
  rw [e]
  simp only [nsum]
  omega

theorem ptsGet_ptsPut_same (t : Tbl Nat) (i v : Nat) : ptsGet (ptsPut t i v) i = v % 2 ^ 64 := by
  rw [ptsGet_eq]
  simp only [tget_ptsPut, show 4 * i / 4 = i by omega, show (4 * i + 1) / 4 = i by omega, show (4 * i + 2) / 4 = i by omega,
    show (4 * i + 3) / 4 = i by omega, show 4 * i % 4 = 0 by omega, show (4 * i + 1) % 4 = 1 by omega, show (4 * i + 2) % 4 = 2 by omega,
    show (4 * i + 3) % 4 = 3 by omega, if_true]
  omega

theorem ptsGet_ptsPut_other (t : Tbl Nat) {i j : Nat} (v : Nat) (h : j ≠ i) : ptsGet (ptsPut t i v) j = ptsGet t j := by
  simp only [ptsGet_eq, tget_ptsPut, show 4 * j / 4 = j by omega, show (4 * j + 1) / 4 = j by omega, show (4 * j + 2) / 4 = j by omega,
    show (4 * j + 3) / 4 = j by omega, if_neg h]

theorem tile_setTile_same (s : State) (t : Nat) (x : Tile) : (s.setTile t x).tile t = x := tget_tset_same _ _ _ _
theorem tile_setTile_other (s : State) {t v : Nat} (x : Tile) (h : v ≠ t) : (s.setTile t x).tile v = s.tile v := tget_tset_other _ _ _ h

/-- What a word reads rests on the memories and the ingest buffers alone. -/
theorem xaGet_congr {s u : State} (hlp : u.x.lp = s.x.lp) (hh : u.x.hist = s.x.hist) (hd : u.x.dhist = s.x.dhist) (hs : u.x.shared = s.x.shared)
    (ht : ∀ t, (u.tile t).sram = (s.tile t).sram) (hi : u.ingest = s.ingest) (w : Nat) : xaGet u w = xaGet s w := by
  unfold xaGet
  simp only [hlp, hh, hd, hs, ht, hi]

/-- The word just stored (R166–R168). -/
theorem xaGet_xaPut_same (s : State) (w v : Nat) (hv : v < 2 ^ 64) (hw : xaMem w ≠ .none) : xaGet (xaPut s w v) w = v := by
  unfold xaPut
  cases hm : xaMem w with
  | none => exact absurd hm hw
  | tile => simp only [xaGet, hm, tile_setTile_same, tget_tset_same]
  | shared =>
    dsimp only
    by_cases h1 : w - xaShared < ingWords
    · simp only [if_pos h1, xaGet, hm, ptsGet_ptsPut_same, Nat.mod_eq_of_lt hv]
    · by_cases h2 : w - xaShared < 2 * ingWords
      · simp only [if_neg h1, if_pos h2, xaGet, hm, ptsGet_ptsPut_same, Nat.mod_eq_of_lt hv]
      · simp only [if_neg h1, if_neg h2, xaGet, hm, State.onX, tget_tset_same]
  | lpddr =>
    dsimp only
    by_cases h1 : w < histEnd
    · rw [if_pos h1]
      cases ht : tget none s.x.hist (w / ingWords) with
      | some t => simp only [xaGet, hm, if_pos h1, State.onX, tget_tput_same, ptsGet_ptsPut_same, Nat.mod_eq_of_lt hv]
      | none => simp only [xaGet, hm, if_pos h1, lpPut, State.onX, ht, tget_tset_same]
    · rw [if_neg h1]
      by_cases h2 : decBase ≤ w ∧ w < decEnd
      · rw [if_pos h2]
        cases ht : tget none s.x.dhist ((w - decBase) / decWords) with
        | some t => simp only [xaGet, hm, if_neg h1, if_pos h2, State.onX, tget_tput_same, tget_tset_same]
        | none => simp only [xaGet, hm, if_neg h1, if_pos h2, lpPut, State.onX, ht, tget_tset_same]
      · simp only [xaGet, hm, if_neg h1, if_neg h2, lpPut, State.onX, tget_tset_same]

/-! What each place a word can be stored in leaves of the other words. -/

theorem mod_ne_of_div_eq {a b : Nat} (n : Nat) (h : a ≠ b) (hd : a / n = b / n) : a % n ≠ b % n := by
  intro hm
  exact h (by rw [← Nat.div_add_mod a n, ← Nat.div_add_mod b n, hd, hm])
theorem xaTile_le {w : Nat} (h : xaMem w = .tile) : xaTile ≤ w := by
  unfold xaMem at h
  split at h
  · cases h
  · split at h
    · cases h
    · split at h
      · next htile => exact htile.1
      · cases h
theorem xaShared_le {w : Nat} (h : xaMem w = .shared) : xaShared ≤ w := by
  unfold xaMem at h
  split at h
  · cases h
  · split at h
    · next hshared => exact hshared.1
    · split at h <;> cases h

section
variable (s : State) {w j : Nat} (v : Nat) (h : j ≠ w)
include h

/-- LPDDR6 that holds no history. -/
theorem xaGet_lpPut_other : xaGet (lpPut w v s) j = xaGet s j := by
  unfold xaGet
  dsimp only [lpPut, State.onX, State.tile]
  rw [tget_tset_other _ _ _ h]
/-- A slot of the full-rate history (R168). -/
theorem xaGet_histPut_other {t : Tbl Nat} (ht : tget none s.x.hist (w / ingWords) = some t) :
    xaGet (s.onX (fun x => { x with hist := tput x.hist (w / ingWords) (some (ptsPut t (w % ingWords) v)) })) j = xaGet s j := by
  unfold xaGet
  dsimp only [State.onX, State.tile]
  by_cases hd : j / ingWords = w / ingWords
  · rw [hd, tget_tput_same, ht]
    dsimp only
    rw [ptsGet_ptsPut_other _ _ (mod_ne_of_div_eq _ h hd)]
  · rw [tget_tput_other _ _ _ hd]
/-- A slot of the decimated history (R168). -/
theorem xaGet_dhistPut_other {t : Tbl Nat} (hw : decBase ≤ w) (ht : tget none s.x.dhist ((w - decBase) / decWords) = some t) :
    xaGet (s.onX (fun x => { x with dhist := tput x.dhist ((w - decBase) / decWords) (some
      (tset (decDef ((w - decBase) % decWords)) t ((w - decBase) % decWords) v)) })) j = xaGet s j := by
  unfold xaGet
  dsimp only [State.onX, State.tile]
  by_cases hd : (j - decBase) / decWords = (w - decBase) / decWords
  · rw [hd, tget_tput_same, ht]
    dsimp only
    by_cases hb : decBase ≤ j ∧ j < decEnd
    · have hne : j - decBase ≠ w - decBase := by omega
      rw [tget_tset_ne _ _ _ _ (mod_ne_of_div_eq decWords hne hd)]
    · simp only [if_neg hb]
  · rw [tget_tput_other _ _ _ hd]
/-- Shared SRAM beyond the ingest buffers. -/
theorem xaGet_sharedPut_other (hw : xaMem w = .shared) :
    xaGet (s.onX (fun x => { x with shared := tset 0 x.shared (w - xaShared) v })) j = xaGet s j := by
  unfold xaGet
  dsimp only [State.onX, State.tile]
  cases hj : xaMem j with
  | shared =>
    have hne : j - xaShared ≠ w - xaShared := by have := xaShared_le hw; have := xaShared_le hj; omega
    dsimp only
    rw [tget_tset_other _ _ _ hne]
  | _ => rfl
/-- The first ingest buffer. -/
theorem xaGet_buf0Put_other (hw : xaMem w = .shared) :
    xaGet { s with ingest := { s.ingest with buf0 := ptsPut s.ingest.buf0 (w - xaShared) v } } j = xaGet s j := by
  unfold xaGet
  dsimp only [State.tile]
  cases hj : xaMem j with
  | shared =>
    have hne : j - xaShared ≠ w - xaShared := by have := xaShared_le hw; have := xaShared_le hj; omega
    dsimp only
    rw [ptsGet_ptsPut_other _ _ hne]
  | _ => rfl
/-- The second ingest buffer. -/
theorem xaGet_buf1Put_other (hw : xaMem w = .shared) (hb : ¬ w - xaShared < ingWords) :
    xaGet { s with ingest := { s.ingest with buf1 := ptsPut s.ingest.buf1 (w - xaShared - ingWords) v } } j = xaGet s j := by
  unfold xaGet
  dsimp only [State.tile]
  cases hj : xaMem j with
  | shared =>
    dsimp only
    by_cases hi : j - xaShared < ingWords
    · simp only [if_pos hi]
    · have hne : j - xaShared - ingWords ≠ w - xaShared - ingWords := by have := xaShared_le hw; have := xaShared_le hj; omega
      rw [ptsGet_ptsPut_other _ _ hne]
  | _ => rfl
/-- A tile's SRAM. -/
theorem xaGet_tilePut_other (hw : xaMem w = .tile) (x : Tile) (hx : x = s.tile ((w - xaTile) / 32768)) :
    xaGet (s.setTile ((w - xaTile) / 32768) { x with sram := tset 0 x.sram (w % 32768) v }) j = xaGet s j := by
  unfold xaGet
  cases hj : xaMem j with
  | tile =>
    have hwt := xaTile_le hw
    have hjt := xaTile_le hj
    have haligned : xaTile % 32768 = 0 := by decide
    dsimp only
    by_cases ht : (j - xaTile) / 32768 = (w - xaTile) / 32768
    · have hne : j % 32768 ≠ w % 32768 := by omega
      rw [ht, tile_setTile_same, hx]
      exact tget_tset_other _ _ _ hne
    · rw [tile_setTile_other _ _ ht]
  | _ => rfl
/-- A stored word leaves every other word of every memory (R166–R168). -/
theorem xaGet_xaPut_other : xaGet (xaPut s w v) j = xaGet s j := by
  unfold xaPut
  cases hm : xaMem w with
  | none => rfl
  | tile => exact xaGet_tilePut_other s v h hm _ rfl
  | shared =>
    dsimp only
    split
    · exact xaGet_buf0Put_other s v h hm
    · next hbuf0 =>
      split
      · exact xaGet_buf1Put_other s v h hm hbuf0
      · exact xaGet_sharedPut_other s v h hm
  | lpddr =>
    dsimp only
    split
    · cases ht : tget none s.x.hist (w / ingWords) with
      | none => exact xaGet_lpPut_other s v h
      | some t => exact xaGet_histPut_other s v h ht
    · split
      · next hdec =>
        cases ht : tget none s.x.dhist ((w - decBase) / decWords) with
        | none => exact xaGet_lpPut_other s v h
        | some t => exact xaGet_dhistPut_other s v h hdec.1 ht
      · exact xaGet_lpPut_other s v h
end

/-- Storing a word touches no codeword's error and no armed injection. -/
theorem xaPut_errs (s : State) (w v : Nat) : (xaPut s w v).x.errs = s.x.errs ∧ (xaPut s w v).x.inject = s.x.inject := by
  unfold xaPut
  cases xaMem w with
  | lpddr =>
    dsimp only
    split
    · cases tget none s.x.hist (w / ingWords) <;> exact ⟨rfl, rfl⟩
    · split
      · cases tget none s.x.dhist ((w - decBase) / decWords) <;> exact ⟨rfl, rfl⟩
      · exact ⟨rfl, rfl⟩
  | shared =>
    dsimp only
    split
    · exact ⟨rfl, rfl⟩
    · split <;> exact ⟨rfl, rfl⟩
  | tile => exact ⟨rfl, rfl⟩
  | none => exact ⟨rfl, rfl⟩

/-- A fresh codeword changes the stored errors and the armed injection, and nothing else. -/
theorem xaFresh_frame (p : Nat → Bool) (s : State) : xaFresh p s = s.onX (fun x => { x with errs := (xaFresh p s).x.errs, inject := (xaFresh p s).x.inject }) := by
  unfold xaFresh
  dsimp only
  cases hi : (s.onX fun x => { x with errs := List.filter (fun e => !p e.1) x.errs }).x.inject with
  | none => rfl
  | some q => dsimp only; split <;> rfl
theorem xaGet_xaFresh (p : Nat → Bool) (s : State) (w : Nat) : xaGet (xaFresh p s) w = xaGet s w := by
  rw [xaFresh_frame]
  exact xaGet_congr rfl rfl rfl rfl (fun _ => rfl) rfl w

theorem tget_filter_ne (t : Tbl Nat) (w j : Nat) : tget 0 (t.filter (fun e => !(e.1 == w))) j = if j = w then 0 else tget 0 t j := by
  induction t with
  | nil => simp
  | cons e r ih =>
    obtain ⟨k, v⟩ := e
    by_cases hk : k = w
    · subst hk
      by_cases hj : j = k
      · subst hj; simpa [tget] using ih
      · simpa [tget, Ne.symm hj, hj] using ih
    · by_cases hj : k = j
      · subst hj; simp [tget, hk]
      · simpa [tget, hk, hj] using ih
theorem xaFresh_errs_other (s : State) {w j : Nat} (h : j ≠ w) : tget 0 (xaFresh (fun x => x == w) s).x.errs j = tget 0 s.x.errs j := by
  unfold xaFresh
  dsimp only
  cases hi : (s.onX fun x => { x with errs := List.filter (fun e => !(e.1 == w)) x.errs }).x.inject with
  | none => exact (tget_filter_ne s.x.errs w j).trans (if_neg h)
  | some q =>
    obtain ⟨iw, mem, bits, af⟩ := q
    dsimp only
    split
    · next hc =>
      have hw : iw = w := by simpa using hc.1
      exact (tget_tset_other 0 _ _ (hw ▸ h)).trans ((tget_filter_ne s.x.errs w j).trans (if_neg h))
    · exact (tget_filter_ne s.x.errs w j).trans (if_neg h)
theorem xaFresh_errs_same (s : State) (w : Nat) (h : s.x.inject = none) : tget 0 (xaFresh (fun x => x == w) s).x.errs w = 0 := by
  have hx : (s.onX fun x => { x with errs := List.filter (fun e => !(e.1 == w)) x.errs }).x.inject = none := h
  unfold xaFresh
  dsimp only
  rw [hx]
  exact (tget_filter_ne s.x.errs w w).trans (if_pos rfl)

theorem xaWrite_assigned {w : Nat} (v : Nat) (s : State) (h : xaMem w ≠ .none) : xaWrite w v s = xaFresh (fun x => x == w) (xaPut s w (v % 2 ^ 64)) := by
  unfold xaWrite
  cases hm : xaMem w with
  | none => exact absurd hm h
  | _ => rfl
theorem xaWrite_unassigned {w : Nat} (v : Nat) (s : State) (h : xaMem w = .none) : xaWrite w v s = ueNote none w 4 s := by
  unfold xaWrite; rw [h]

theorem xaGet_xaWrite_same (w v : Nat) (s : State) (h : xaMem w ≠ .none) : xaGet (xaWrite w v s) w = v % 2 ^ 64 := by
  rw [xaWrite_assigned v s h, xaGet_xaFresh, xaGet_xaPut_same s w _ (Nat.mod_lt _ (by decide)) h]
theorem xaGet_xaWrite_unassigned {w : Nat} (v : Nat) (s : State) (h : xaMem w = .none) (j : Nat) : xaGet (xaWrite w v s) j = xaGet s j := by
  rw [xaWrite_unassigned v s h]
  exact OffRegs.ueNote_unassigned (v := fun s => xaGet s j) (fun _ _ => rfl) none w s
theorem xaGet_xaWrite_other {w j : Nat} (v : Nat) (s : State) (h : j ≠ w) : xaGet (xaWrite w v s) j = xaGet s j := by
  by_cases hw : xaMem w = .none
  · exact xaGet_xaWrite_unassigned v s hw j
  · rw [xaWrite_assigned v s hw, xaGet_xaFresh, xaGet_xaPut_other s _ h]
theorem xaWrite_errs_other {w j : Nat} (v : Nat) (s : State) (h : j ≠ w) : tget 0 (xaWrite w v s).x.errs j = tget 0 s.x.errs j := by
  by_cases hw : xaMem w = .none
  · rw [xaWrite_unassigned v s hw]
    exact OffRegs.ueNote_unassigned (v := fun s => tget 0 s.x.errs j) (fun _ _ => rfl) none w s
  · rw [xaWrite_assigned v s hw, xaFresh_errs_other _ h, (xaPut_errs s w _).1]
theorem xaWrite_errs_same (w v : Nat) (s : State) (hi : s.x.inject = none) (hw : xaMem w ≠ .none) : tget 0 (xaWrite w v s).x.errs w = 0 := by
  rw [xaWrite_assigned v s hw]
  exact xaFresh_errs_same _ w ((xaPut_errs s w _).2.trans hi)

/-- Settles O56: the word written reads back, and the write rules of data and of codewords leave every other word. -/
theorem memoryWordsReadBack : Obligations.MemoryWordsReadBack := by
  unfold Obligations.MemoryWordsReadBack
  intro w v s
  exact ⟨xaGet_xaWrite_same w v s, fun _ h => xaGet_xaWrite_other v s h, xaGet_xaWrite_unassigned v s, fun _ h => xaWrite_errs_other v s h,
    xaWrite_errs_same w v s⟩

end Sys2Proof.Machine

namespace Sys2Proof.Machine
open Sys2Proof

/-! ### Fields beside one another -/

/-- Two fields that share no bit: of different registers, or side by side in one. -/
def Fld.Apart (f g : Fld) : Prop := g.off ≠ f.off ∨ f.lo + f.w ≤ g.lo ∨ g.lo + g.w ≤ f.lo

theorem fld_setFld_apart (s : State) {f g : Fld} (v : Nat) (hf : f.lo + f.w ≤ 32) (h : f.Apart g) : (s.setFld f v).fld g = s.fld g := by
  by_cases ho : g.off = f.off
  · exact State.fld_setFld_beside s f g v ho hf (h.resolve_left (fun hn => hn ho))
  · exact State.fld_setFld_other s f g v ho
theorem fld_satFld_apart (s : State) {f g : Fld} (n : Nat) (hf : f.lo + f.w ≤ 32) (h : f.Apart g) : (s.satFld f n).fld g = s.fld g :=
  fld_setFld_apart s _ hf h
theorem fld_lt (s : State) (f : Fld) : s.fld f < 2 ^ f.w := Nat.mod_lt _ (Nat.two_pow_pos _)
/-- A counter that saturates (R32). -/
theorem fld_satFld_same (s : State) {f : Fld} (n : Nat) (hf : f.lo + f.w ≤ 32) : (s.satFld f n).fld f = min (2 ^ f.w - 1) (s.fld f + n) := by
  have hpos := Nat.two_pow_pos f.w
  refine (State.fld_setFld_same s f _ hf).trans ?_
  show satAdd (2 ^ f.w - 1) (s.fld f) n % 2 ^ f.w = _
  unfold satAdd
  split
  · rw [Nat.mod_eq_of_lt (by omega)]; omega
  · rw [Nat.mod_eq_of_lt (by omega)]; omega

/-- A fold whose every step over the list keeps a view keeps it. -/
theorem foldl_keeps_mem {α β : Type} (v : State → β) (g : State → α → State) (l : List α) (h : ∀ s, ∀ a ∈ l, v (g s a) = v s) (s : State) :
    v (l.foldl g s) = v s := by
  induction l generalizing s with
  | nil => rfl
  | cons a l ih => rw [List.foldl_cons, ih (fun s b hb => h s b (List.mem_cons_of_mem _ hb)), h s a (List.mem_cons_self ..)]

/-! ### Fields after the updates that pass through page headers and the recorder -/

/-- An interrupt bit touches its page header alone, and no register of a block's own. -/
theorem fld_irq (s : State) (p b : Nat) {f : Fld} (h : 0x100 ≤ f.off % 0x1000) : (s.irq p b).fld f = s.fld f := by
  have hne : f.off ≠ hdrIrq p := by unfold hdrIrq; omega
  unfold State.fld fget
  rw [show (s.irq p b).regs = regIrq s.regs p b from rfl, rget_regIrq_other _ _ _ hne]

theorem fld_irq_if (c : Prop) [Decidable c] (s : State) (p b : Nat) {f : Fld} (h : 0x100 ≤ f.off % 0x1000) :
    (if c then s.irq p b else s).fld f = s.fld f := by
  split
  · exact fld_irq s p b h
  · rfl

/-- The registers a report to the recorder never touches: a block's own, of every page but the recorder's (R31, R343). -/
def OffReport (f : Fld) : Prop := 0x100 ≤ f.off % 0x1000 ∧ f.off / 0x1000 ≠ 0xB0

section
variable {f : Fld} (h : OffReport f)
include h

theorem fld_lastSeq (s : State) (p : Nat) (x : Word) : State.fld { s with regs := rset s.regs (hdrLastSeq p) x } f = s.fld f := by
  obtain ⟨hown, -⟩ := h
  unfold State.fld fget
  rw [rget_rset_other _ _ (by unfold hdrLastSeq; omega)]
theorem fld_setFld_recorder {g : Fld} (s : State) (n : Nat) (hg : g.off / 0x1000 = 0xB0) : (s.setFld g n).fld f = s.fld f :=
  State.fld_setFld_other s g f n (fun e => h.2 (e ▸ hg))
theorem fld_recShow (s : State) : (recShow s).fld f = s.fld f := by
  unfold recShow
  dsimp only
  rw [foldl_keeps_mem (fun s => s.fld f)]
  · simp only [fld_setFld_recorder h _ _ (g := F.REC_HEAD_SEQ) rfl, fld_setFld_recorder h _ _ (g := F.REC_TAIL_SEQ) rfl,
      fld_setFld_recorder h _ _ (g := F.REC_OLDEST_OPEN_SEQ) rfl, fld_setFld_recorder h _ _ (g := F.REC_FIFO_DEPTH) rfl,
      fld_setFld_recorder h _ _ (g := F.REC_FIFO_PEAK) rfl, fld_setFld_recorder h _ _ (g := F.REC_EVICT_UNREAD) rfl,
      fld_setFld_recorder h _ _ (g := F.REC_EVICT_OPEN) rfl]
  · intro s c hc
    have hc8 : c < 8 := List.mem_range.1 hc
    have hpage : ∀ k, k < 0xF80 → (0xB0000 + k + 0x10 * c) / 0x1000 = 0xB0 := by omega
    rw [fld_setFld_recorder h _ _ (g := F.REC_CLASS_LOST_HI c) (hpage 0x18C (by decide)),
      fld_setFld_recorder h _ _ (g := F.REC_CLASS_LOST_LO c) (hpage 0x188 (by decide)),
      fld_setFld_recorder h _ _ (g := F.REC_CLASS_EVENTS_HI c) (hpage 0x184 (by decide)),
      fld_setFld_recorder h _ _ (g := F.REC_CLASS_EVENTS_LO c) (hpage 0x180 (by decide))]
theorem fld_mainProcess (o : Occ) (t : TimeSt) (s : State) : (mainProcess o t s).fld f = s.fld f := by
  unfold mainProcess
  dsimp only
  rw [fld_irq_if _ _ _ _ h.1, fld_irq_if _ _ _ _ h.1]
  split
  · exact fld_lastSeq h _ _ _
  · rfl
theorem fld_mainDrain (s : State) : (mainDrain s).fld f = s.fld f := by
  unfold mainDrain
  split
  · exact foldl_keeps (fun s => s.fld f) (fun s (x : Occ × TimeSt) => mainProcess x.1 x.2 s) (fun s x => fld_mainProcess h x.1 x.2 s) s.mrec.queue _
  · rfl
theorem fld_mainTake (o : Occ) (s : State) : (mainTake o s).fld f = s.fld f := by
  unfold mainTake
  dsimp only
  split
  · exact fld_irq _ _ _ h.1
  · rfl
/-- A report to the recorder leaves the blocks' own registers (R343, R347). -/
theorem fld_note (s : State) (og cls u sub code arg : Nat) : (s.note og cls u sub code arg).fld f = s.fld f := by
  unfold State.note State.occ
  rw [fld_recShow h, fld_mainDrain h, fld_mainTake h]
end

end Sys2Proof.Machine

namespace Sys2Proof.Machine
open Sys2Proof

/-! ### Tiles, jobs and the flags of an erg -/

@[simp] theorem xjob_modJob_same (s : State) (j : Nat) (f : JobRun → JobRun) : (s.modJob j f).xjob j = f (s.xjob j) := tget_tset_same _ _ _ _

theorem tile_modJob (s : State) (j : Nat) (f : JobRun → JobRun) (t : Nat) : (s.modJob j f).tile t = s.tile t := rfl
theorem xjob_setTile (s : State) (t : Nat) (x : Tile) (j : Nat) : (s.setTile t x).xjob j = s.xjob j := rfl
theorem fld_modJob (s : State) (j : Nat) (f : JobRun → JobRun) (g : Fld) : (s.modJob j f).fld g = s.fld g := rfl

/-- The first cause to end a run stays (R183). -/
def endedBy (cause : Nat) (r : JobRun) : JobRun := if r.endCause.isSome then r else { r with endCause := some cause }
theorem runEnd_eq (j cause : Nat) (s : State) : runEnd j cause s = s.modJob j (endedBy cause) := rfl
theorem endedBy_first {r : JobRun} (cause : Nat) (h : r.endCause = none) : (endedBy cause r).endCause = some cause := by
  unfold endedBy; rw [h]; rfl

theorem OffRegs.ergFlags {β : Type} {v : State → β} (h : OffRegs v) (t fl : Nat) (s : State) : v (ergFlags t fl s) = v s := by
  unfold Machine.ergFlags
  dsimp only
  split
  · rfl
  · exact (h.irq _ _ _).trans (h s _)

/-- A one-bit field is the bit of its register. -/
theorem fld_bit (s : State) (off b : Nat) : s.fld ⟨off, b, 1⟩ = ((rget s.regs off).toNat.testBit b).toNat :=
  (Nat.toNat_testBit _ _).symm
/-- The bits of ERG_FLAGS after flags are set (R147, R158, R160). -/
theorem ergFlags_bit (t fl b : Nat) (s : State) (hb : b < 6) : (ergFlags t fl s).fld ⟨0x80104 + 0x1000 * (t / 72), b, 1⟩ =
    ((rget s.regs (0x80104 + 0x1000 * (t / 72))).toNat.testBit b || fl.testBit b).toNat := by
  unfold ergFlags
  dsimp only
  split
  · next h0 => rw [fld_bit, h0, Nat.zero_testBit, Bool.or_false]
  · have h64 : (64 : Nat) = 2 ^ 6 := rfl
    rw [fld_irq _ _ _ (by dsimp only; omega), fld_bit]
    dsimp only [F.ERG_FLAGS_INVALID]
    rw [rget_rset_same, BitVec.toNat_or, Nat.testBit_or, BitVec.toNat_ofNat, Nat.mod_eq_of_lt (by omega), h64, Nat.testBit_mod_two_pow]
    simp [hb]
theorem ergFlags_sets {t fl b : Nat} (s : State) (hb : b < 6) (hf : fl.testBit b = true) :
    (ergFlags t fl s).fld ⟨0x80104 + 0x1000 * (t / 72), b, 1⟩ = 1 := by
  rw [ergFlags_bit t fl b s hb, hf, Bool.or_true]; rfl
theorem ergFlags_holds {t fl b : Nat} {s : State} (hb : b < 6) (h : s.fld ⟨0x80104 + 0x1000 * (t / 72), b, 1⟩ = 1) :
    (ergFlags t fl s).fld ⟨0x80104 + 0x1000 * (t / 72), b, 1⟩ = 1 := by
  rw [fld_bit] at h
  rw [ergFlags_bit t fl b s hb, Bool.toNat_eq_one.1 h, Bool.true_or]; rfl
theorem ergFlags_other (t fl : Nat) (s : State) {f : Fld} (hf : 0x100 ≤ f.off % 0x1000) (h : f.off ≠ 0x80104 + 0x1000 * (t / 72)) :
    (ergFlags t fl s).fld f = s.fld f := by
  unfold ergFlags
  dsimp only
  split
  · rfl
  · rw [fld_irq _ _ _ hf]
    unfold State.fld fget
    exact congrArg (fun x => bitsOf (BitVec.toNat x) f.lo f.w) (rget_rset_other s.regs _ h)

/-- A register of an erg's page is out of the recorder's reach. -/
theorem offReport_erg {f : Fld} {t : Nat} (ht : t < 576) (k : Nat) (hk : 0x100 ≤ k ∧ k < 0x1000) (h : f.off = 0x80000 + k + 0x1000 * (t / 72)) : OffReport f := by
  unfold OffReport; omega

/-! ### An illegal instruction (R147) -/

/-- What an illegal instruction at a program address leaves in the erg's registers and the recorder. -/
def illegalNoted (t pc : Nat) (s : State) : State :=
  ((((ergFlags t 16 s).setFld (F.ERG_ILLEGAL_PC (t / 72)) pc).setFld (F.ERG_ILLEGAL_TILE (t / 72)) (t % 72)).irq (0x80 + t / 72) 10).note
    1 5 (0x80 + t / 72) (t % 72) Ev.ergIllegal pc
theorem tileIllegal_eq (t : Nat) (s : State) : tileIllegal t s =
    (illegalNoted t (s.tile t).pc (s.setTile t { s.tile t with stopped := true })).modJob (s.tile t).job (endedBy 3) := rfl
theorem illegalNoted_keeps {β : Type} {v : State → β} (hr : OffRegs v) (hm : OffMrec v) (t pc : Nat) (s : State) : v (illegalNoted t pc s) = v s := by
  unfold illegalNoted
  rw [hm.note hr, hr.irq, hr.setFld, hr.setFld, hr.ergFlags]

section
variable {t : Nat} (ht : t < 576) (pc : Nat) (s : State)
include ht

theorem illegalNoted_flag : (illegalNoted t pc s).fld (F.ERG_FLAGS_ILLEGAL (t / 72)) = 1 := by
  unfold illegalNoted
  rw [fld_note (offReport_erg ht 0x104 (by decide) rfl), fld_irq _ _ _ (by dsimp only [F.ERG_FLAGS_ILLEGAL]; omega),
    State.fld_setFld_other _ _ _ _ (by dsimp only [F.ERG_FLAGS_ILLEGAL, F.ERG_ILLEGAL_TILE]; omega),
    State.fld_setFld_other _ _ _ _ (by dsimp only [F.ERG_FLAGS_ILLEGAL, F.ERG_ILLEGAL_PC]; omega)]
  exact ergFlags_sets s (by decide) (by decide)
theorem illegalNoted_pc : (illegalNoted t pc s).fld (F.ERG_ILLEGAL_PC (t / 72)) = pc % 2048 := by
  unfold illegalNoted
  rw [fld_note (offReport_erg ht 0x110 (by decide) rfl), fld_irq _ _ _ (by dsimp only [F.ERG_ILLEGAL_PC]; omega),
    State.fld_setFld_beside _ (F.ERG_ILLEGAL_TILE (t / 72)) (F.ERG_ILLEGAL_PC (t / 72)) _ rfl (Nat.le_of_ble_eq_true rfl)
      (.inr (Nat.le_of_ble_eq_true rfl))]
  exact State.fld_setFld_same _ _ _ (Nat.le_of_ble_eq_true rfl)
theorem illegalNoted_tile : (illegalNoted t pc s).fld (F.ERG_ILLEGAL_TILE (t / 72)) = t % 72 := by
  unfold illegalNoted
  rw [fld_note (offReport_erg ht 0x110 (by decide) rfl), fld_irq _ _ _ (by dsimp only [F.ERG_ILLEGAL_TILE]; omega)]
  exact (State.fld_setFld_same _ _ _ (Nat.le_of_ble_eq_true rfl)).trans (Nat.mod_eq_of_lt (by dsimp only [F.ERG_ILLEGAL_TILE]; omega))
end

/-- Beside Xoide's record, the registers and the recorder nothing changes. -/
def beyondXoide (s : State) : State := { s with x := XoideSt.init, regs := [], mrec := MainRec.init }
theorem frame_of_beyondXoide {s u : State} (h : beyondXoide u = beyondXoide s) : u = { s with x := u.x, regs := u.regs, mrec := u.mrec } := by
  cases u; cases s; simp only [beyondXoide, State.mk.injEq] at h; simp only [State.mk.injEq]; simp_all

/-- An illegal instruction stops its tile, is recorded with its tile and program address, and ends the run with cause 3 (R147, R183). -/
theorem tileIllegal_spec {t : Nat} (ht : t < 576) {s : State} (hj : (s.xjob (s.tile t).job).endCause = none) :
    (tileIllegal t s).tile t = { s.tile t with stopped := true } ∧ otherTiles s (tileIllegal t s) t ∧
      (tileIllegal t s).fld (F.ERG_FLAGS_ILLEGAL (t / 72)) = 1 ∧ (tileIllegal t s).fld (F.ERG_ILLEGAL_PC (t / 72)) = (s.tile t).pc % 2048 ∧
      (tileIllegal t s).fld (F.ERG_ILLEGAL_TILE (t / 72)) = t % 72 ∧ ((tileIllegal t s).xjob (s.tile t).job).endCause = some 3 ∧
      tileIllegal t s = { s with x := (tileIllegal t s).x, regs := (tileIllegal t s).regs, mrec := (tileIllegal t s).mrec } := by
  have htiles : ∀ v, (tileIllegal t s).tile v = (s.setTile t { s.tile t with stopped := true }).tile v := by
    intro v
    rw [tileIllegal_eq, tile_modJob]
    exact illegalNoted_keeps (v := fun s => s.tile v) (fun _ _ => rfl) (fun _ _ => rfl) ..
  refine ⟨(htiles t).trans (tile_setTile_same ..), fun v hv => (htiles v).trans (tile_setTile_other _ _ hv), ?_, ?_, ?_, ?_, frame_of_beyondXoide ?_⟩
  · rw [tileIllegal_eq, fld_modJob, illegalNoted_flag ht]
  · rw [tileIllegal_eq, fld_modJob, illegalNoted_pc ht]
  · rw [tileIllegal_eq, fld_modJob, illegalNoted_tile ht]
  · rw [tileIllegal_eq, xjob_modJob_same]
    refine endedBy_first 3 (Eq.trans (congrArg JobRun.endCause ?_) hj)
    exact illegalNoted_keeps (v := fun s => s.xjob _) (fun _ _ => rfl) (fun _ _ => rfl) ..
  · rw [tileIllegal_eq, OffX.modJob (v := beyondXoide) (fun _ _ => rfl), illegalNoted_keeps (v := beyondXoide) (fun _ _ => rfl) (fun _ _ => rfl)]
    exact OffX.setTile (v := beyondXoide) (fun _ _ => rfl) ..

/-! ### A residue mismatch, and an interval out of order (R158, R160, R183) -/

/-- What a mismatch of a half at a program address leaves in the erg's registers and the recorder. -/
def residueNoted (t half pc job : Nat) (s : State) : State :=
  ((((((ergFlags t 32 s).satFld (F.ERG_RESIDUE_COUNT (t / 72)) 1).setFld (F.ERG_RESIDUE_TILE (t / 72)) (t % 72)).setFld
    (F.ERG_RESIDUE_HALF (t / 72)) half).setFld (F.ERG_RESIDUE_JOB_JOB (t / 72)) job).irq (0x80 + t / 72) 9).note
    1 5 (0x80 + t / 72) (t % 72) Ev.ergResidue pc
/-- A tile after a mismatch: it issues nothing, and what was outstanding at the first one is to be replayed. -/
def mismatched (x : Tile) : Tile := { x with stopped := true, replay := if x.replay.isEmpty then x.outst else x.replay }
/-- A run after a mismatch: the second of a run ends it. -/
def secondEnds (r : JobRun) : JobRun :=
  if 2 ≤ r.mism + 1 then endedBy 1 { r with mism := r.mism + 1 } else { r with mism := r.mism + 1 }

theorem residueHit_eq (t half pc : Nat) (s : State) : residueHit t half pc s =
    (let u := (residueNoted t half pc (s.tile t).job (s.setTile t (mismatched (s.tile t)))).modJob (s.tile t).job (fun r => { r with mism := r.mism + 1 })
     if 2 ≤ (u.xjob (s.tile t).job).mism then u.modJob (s.tile t).job (endedBy 1) else u) := rfl
theorem residueNoted_keeps {β : Type} {v : State → β} (hr : OffRegs v) (hm : OffMrec v) (t half pc job : Nat) (s : State) :
    v (residueNoted t half pc job s) = v s := by
  unfold residueNoted
  rw [hm.note hr, hr.irq, hr.setFld, hr.setFld, hr.setFld, hr.satFld, hr.ergFlags]
/-- What sees neither registers, jobs nor the recorder sees the stopped tile alone. -/
theorem residueHit_keeps {β : Type} {v : State → β} (hr : OffRegs v) (hm : OffMrec v) (hj : ∀ s j f, v (State.modJob s j f) = v s)
    (t half pc : Nat) (s : State) : v (residueHit t half pc s) = v (s.setTile t (mismatched (s.tile t))) := by
  rw [residueHit_eq]
  dsimp only
  split
  · rw [hj, hj, residueNoted_keeps hr hm]
  · rw [hj, residueNoted_keeps hr hm]
theorem residueHit_fld (t half pc : Nat) (s : State) (f : Fld) :
    (residueHit t half pc s).fld f = (residueNoted t half pc (s.tile t).job (s.setTile t (mismatched (s.tile t)))).fld f := by
  rw [residueHit_eq]
  dsimp only
  split
  · rw [fld_modJob, fld_modJob]
  · rw [fld_modJob]
theorem residueHit_xjob (t half pc : Nat) (s : State) : (residueHit t half pc s).xjob (s.tile t).job = secondEnds (s.xjob (s.tile t).job) := by
  have hx : (residueNoted t half pc (s.tile t).job (s.setTile t (mismatched (s.tile t)))).xjob (s.tile t).job = s.xjob (s.tile t).job :=
    residueNoted_keeps (v := fun u => u.xjob (s.tile t).job) (fun _ _ => rfl) (fun _ _ => rfl) ..
  rw [residueHit_eq]
  dsimp only
  rw [xjob_modJob_same, hx]
  unfold secondEnds
  split
  · rw [xjob_modJob_same, xjob_modJob_same, hx]
  · rw [xjob_modJob_same, hx]
theorem residueHit_tile (t half pc : Nat) (s : State) (v : Nat) : (residueHit t half pc s).tile v = (s.setTile t (mismatched (s.tile t))).tile v :=
  residueHit_keeps (v := fun s => s.tile v) (fun _ _ => rfl) (fun _ _ => rfl) (fun _ _ _ => rfl) t half pc s
theorem residueHit_beyond (t half pc : Nat) (s : State) : beyondXoide (residueHit t half pc s) = beyondXoide s :=
  residueHit_keeps (v := beyondXoide) (fun _ _ => rfl) (fun _ _ => rfl) (fun _ _ _ => rfl) t half pc s

section
variable {t : Nat} (ht : t < 576) (half pc job : Nat) (s : State)
include ht

/-- The other flags of the erg and the counts stand beside those written. -/
theorem residueNoted_flag {b : Nat} (hb : b < 6) (h : b = 5 ∨ s.fld ⟨0x80104 + 0x1000 * (t / 72), b, 1⟩ = 1) :
    (residueNoted t half pc job s).fld ⟨0x80104 + 0x1000 * (t / 72), b, 1⟩ = 1 := by
  unfold residueNoted
  rw [fld_note (offReport_erg ht 0x104 (by decide) rfl), fld_irq _ _ _ (by dsimp only; omega),
    State.fld_setFld_other _ _ _ _ (by dsimp only [F.ERG_RESIDUE_JOB_JOB]; omega),
    State.fld_setFld_other _ _ _ _ (by dsimp only [F.ERG_RESIDUE_HALF]; omega),
    State.fld_setFld_other _ _ _ _ (by dsimp only [F.ERG_RESIDUE_TILE]; omega),
    fld_satFld_apart _ _ (Nat.le_of_ble_eq_true rfl) (.inl (by dsimp only [F.ERG_RESIDUE_COUNT]; omega))]
  rcases h with rfl | h
  · exact ergFlags_sets s hb (by decide)
  · exact ergFlags_holds hb h
theorem residueNoted_count : (residueNoted t half pc job s).fld (F.ERG_RESIDUE_COUNT (t / 72)) = min 65535 (s.fld (F.ERG_RESIDUE_COUNT (t / 72)) + 1) := by
  unfold residueNoted
  rw [fld_note (offReport_erg ht 0x108 (by decide) rfl), fld_irq _ _ _ (by dsimp only [F.ERG_RESIDUE_COUNT]; omega),
    State.fld_setFld_other _ (F.ERG_RESIDUE_JOB_JOB _) _ _ (by dsimp only [F.ERG_RESIDUE_COUNT, F.ERG_RESIDUE_JOB_JOB]; omega),
    fld_setFld_apart _ (f := F.ERG_RESIDUE_HALF _) _ (Nat.le_of_ble_eq_true rfl) (.inr (.inr (Nat.le_of_ble_eq_true rfl))),
    fld_setFld_apart _ (f := F.ERG_RESIDUE_TILE _) _ (Nat.le_of_ble_eq_true rfl) (.inr (.inr (Nat.le_of_ble_eq_true rfl))),
    fld_satFld_same _ _ (Nat.le_of_ble_eq_true rfl),
    ergFlags_other _ _ _ (by dsimp only [F.ERG_RESIDUE_COUNT]; omega) (by dsimp only [F.ERG_RESIDUE_COUNT]; omega)]
  rfl
theorem residueNoted_tile : (residueNoted t half pc job s).fld (F.ERG_RESIDUE_TILE (t / 72)) = t % 72 := by
  unfold residueNoted
  rw [fld_note (offReport_erg ht 0x108 (by decide) rfl), fld_irq _ _ _ (by dsimp only [F.ERG_RESIDUE_TILE]; omega),
    State.fld_setFld_other _ (F.ERG_RESIDUE_JOB_JOB _) _ _ (by dsimp only [F.ERG_RESIDUE_TILE, F.ERG_RESIDUE_JOB_JOB]; omega),
    fld_setFld_apart _ (f := F.ERG_RESIDUE_HALF _) _ (Nat.le_of_ble_eq_true rfl) (.inr (.inr (Nat.le_of_ble_eq_true rfl)))]
  exact (State.fld_setFld_same _ _ _ (Nat.le_of_ble_eq_true rfl)).trans (Nat.mod_eq_of_lt (by dsimp only [F.ERG_RESIDUE_TILE]; omega))
theorem residueNoted_half : (residueNoted t half pc job s).fld (F.ERG_RESIDUE_HALF (t / 72)) = half % 4 := by
  unfold residueNoted
  rw [fld_note (offReport_erg ht 0x108 (by decide) rfl), fld_irq _ _ _ (by dsimp only [F.ERG_RESIDUE_HALF]; omega),
    State.fld_setFld_other _ (F.ERG_RESIDUE_JOB_JOB _) _ _ (by dsimp only [F.ERG_RESIDUE_HALF, F.ERG_RESIDUE_JOB_JOB]; omega)]
  exact State.fld_setFld_same _ _ _ (Nat.le_of_ble_eq_true rfl)
theorem residueNoted_job : (residueNoted t half pc job s).fld (F.ERG_RESIDUE_JOB_JOB (t / 72)) = job % 65536 := by
  unfold residueNoted
  rw [fld_note (offReport_erg ht 0x10C (by decide) rfl), fld_irq _ _ _ (by dsimp only [F.ERG_RESIDUE_JOB_JOB]; omega)]
  exact State.fld_setFld_same _ _ _ (Nat.le_of_ble_eq_true rfl)
end

/-- A mismatch of a half (R160): the tile stops, the erg's registers and the recorder show it, and the second of a run ends it. -/
theorem residueHit_spec {t : Nat} (ht : t < 576) (half : Fin 4) (pc : Nat) (s : State) {u : State} (hu : residueHit t half.val pc s = u) :
    u.tile t = mismatched (s.tile t) ∧ otherTiles s u t ∧ u.fld (F.ERG_FLAGS_RESIDUE (t / 72)) = 1 ∧
      u.fld (F.ERG_RESIDUE_COUNT (t / 72)) = (if s.fld (F.ERG_RESIDUE_COUNT (t / 72)) = 65535 then 65535 else s.fld (F.ERG_RESIDUE_COUNT (t / 72)) + 1) ∧
      u.fld (F.ERG_RESIDUE_TILE (t / 72)) = t % 72 ∧ u.fld (F.ERG_RESIDUE_HALF (t / 72)) = half.val ∧
      u.fld (F.ERG_RESIDUE_JOB_JOB (t / 72)) = (s.tile t).job % 65536 ∧ u.xjob (s.tile t).job = secondEnds (s.xjob (s.tile t).job) ∧
      beyondXoide u = beyondXoide s := by
  subst hu
  have hcount : s.fld (F.ERG_RESIDUE_COUNT (t / 72)) < 65536 := fld_lt s _
  refine ⟨(residueHit_tile ..).trans (tile_setTile_same ..), fun v hv => (residueHit_tile ..).trans (tile_setTile_other _ _ hv), ?_, ?_, ?_, ?_, ?_,
    residueHit_xjob .., residueHit_beyond ..⟩
  · exact (residueHit_fld ..).trans (residueNoted_flag ht _ _ _ _ (by decide) (.inl rfl))
  · rw [residueHit_fld, residueNoted_count ht, show (s.setTile t (mismatched (s.tile t))).fld _ = s.fld (F.ERG_RESIDUE_COUNT (t / 72)) from rfl]
    split <;> omega
  · rw [residueHit_fld, residueNoted_tile ht]
  · rw [residueHit_fld, residueNoted_half ht, Nat.mod_eq_of_lt half.isLt]
  · rw [residueHit_fld, residueNoted_job ht]

theorem endedBy_mism (cause : Nat) (r : JobRun) : (endedBy cause r).mism = r.mism := by
  unfold endedBy
  split <;> rfl
theorem secondEnds_mism (r : JobRun) : (secondEnds r).mism = r.mism + 1 := by
  unfold secondEnds
  split
  · exact endedBy_mism 1 _
  · rfl
theorem secondEnds_endCause (r : JobRun) : (secondEnds r).endCause = if r.endCause = none ∧ 1 ≤ r.mism then some 1 else r.endCause := by
  unfold secondEnds endedBy
  cases h : r.endCause with
  | none => by_cases h2 : 1 ≤ r.mism <;> simp [h2]
  | some c => simp

/-! ### Verdicts and replay (R160, R161, R182) -/

theorem memServe_idle {s : State} (h : s.ucie.out = []) : memServe s = s := by unfold memServe; rw [h]; rfl

theorem residueVerdict_none {t half : Nat} {s : State} (ok : Bool) (h : (s.tile t).outst.find? (fun o => o.half == half) = none) :
    residueVerdict t half ok s = s := by
  unfold residueVerdict
  dsimp only
  rw [h]
/-- A tile whose oldest result of a half has its verdict. -/
def retired (o : OutRes) (x : Tile) : Tile := { x with outst := x.outst.erase o, verd := max x.verd o.due }
/-- The verdict of the oldest outstanding result of a half retires it. -/
theorem residueVerdict_some {t half : Nat} {s : State} {o : OutRes} (ok : Bool) (h : (s.tile t).outst.find? (fun o => o.half == half) = some o) :
    residueVerdict t half ok s = (let u := if ok then s else residueHit t half o.pc s
      memServe (u.setTile t (retired o (u.tile t)))) := by
  unfold residueVerdict
  dsimp only
  rw [h]
  rfl

/-- A verdict that does not match (R160), with no access of Hervi waiting: the result is retired as well. -/
theorem residueVerdict_bad {t : Nat} (ht : t < 576) (half : Fin 4) {s : State} {o : OutRes} (hout : s.ucie.out = [])
    (h : (s.tile t).outst.find? (fun o => o.half == half.val) = some o) :
    ∃ u, residueVerdict t half.val false s = u ∧ otherTiles s u t ∧ u.tile t = {
        s.tile t with
        stopped := true, outst := (s.tile t).outst.erase o, verd := max (s.tile t).verd o.due,
        replay := (if (s.tile t).replay.isEmpty then (s.tile t).outst else (s.tile t).replay) } ∧
      u.fld (F.ERG_FLAGS_RESIDUE (t / 72)) = 1 ∧
      u.fld (F.ERG_RESIDUE_COUNT (t / 72)) = (if s.fld (F.ERG_RESIDUE_COUNT (t / 72)) = 65535 then 65535 else s.fld (F.ERG_RESIDUE_COUNT (t / 72)) + 1) ∧
      u.fld (F.ERG_RESIDUE_TILE (t / 72)) = t % 72 ∧ u.fld (F.ERG_RESIDUE_HALF (t / 72)) = half.val ∧
      u.fld (F.ERG_RESIDUE_JOB_JOB (t / 72)) = (s.tile t).job % 65536 ∧
      (u.xjob (s.tile t).job).mism = (s.xjob (s.tile t).job).mism + 1 ∧
      (u.xjob (s.tile t).job).endCause =
        (if (s.xjob (s.tile t).job).endCause = none ∧ 1 ≤ (s.xjob (s.tile t).job).mism then some 1 else (s.xjob (s.tile t).job).endCause) ∧
      u = { s with x := u.x, regs := u.regs, mrec := u.mrec } := by
  have hrun := residueVerdict_some false h
  dsimp only at hrun
  rw [if_neg Bool.false_ne_true] at hrun
  generalize hu : residueHit t half.val o.pc s = u at hrun
  obtain ⟨htile, hother, hflag, hcount, hnum, hhalf, hjob, hxjob, hbeyond⟩ := residueHit_spec ht half o.pc s hu
  have hidle : u.ucie.out = [] := (congrArg (fun s : State => s.ucie.out) hbeyond).trans hout
  rw [memServe_idle (s := State.setTile ..) hidle, htile] at hrun
  refine ⟨_, hrun, fun v hv => (tile_setTile_other _ _ hv).trans (hother v hv), tile_setTile_same .., hflag, hcount, hnum, hhalf, hjob, ?_, ?_,
    frame_of_beyondXoide hbeyond⟩
  · rw [xjob_setTile, hxjob, secondEnds_mism]
  · rw [xjob_setTile, hxjob, secondEnds_endCause]

/-- A tile that re-issues what was outstanding: 8 cycles after the last verdict, in program order (R182). -/
def reissued (x : Tile) : Tile :=
  let base := max x.cyc x.verd + 8
  let pcs := (x.replay.map (fun o => o.pc)).eraseDups
  { x with stopped := false, replay := [], cyc := base + pcs.length, orderBad := none,
           outst := x.replay.map (fun (o : OutRes) => { o with due := base + (pcs.takeWhile (fun p => p != o.pc)).length + o.lat }) }
theorem reissued_job (x : Tile) : (reissued x).job = x.job := rfl
/-- The state once a tile has re-issued: the job counts the replay. -/
def afterReplay (t : Nat) (s : State) : State :=
  (s.setTile t (reissued (s.tile t))).modJob (s.tile t).job (fun r => { r with replays := min 255 (r.replays + 1) })

theorem replayOp_eq (t : Nat) (s : State) : replayOp t s =
    (let x := s.tile t
     if x.stopped && x.outst.isEmpty && (!x.replay.isEmpty || x.orderBad.isSome) && (s.xjob x.job).endCause.isNone then
       match x.orderBad with
       | some (h, pc) => orderHit t h pc (afterReplay t s)
       | none => afterReplay t s
     else s) := rfl
theorem replayOp_idle {t : Nat} {s : State} (h : (s.tile t).stopped = false ∨ (s.tile t).outst ≠ [] ∨ (s.tile t).replay = [] ∧ (s.tile t).orderBad = none ∨
    (s.xjob (s.tile t).job).endCause ≠ none) : replayOp t s = s := by
  rw [replayOp_eq]
  dsimp only
  rw [if_neg]
  rcases h with h | h | ⟨h, h'⟩ | h <;> simp_all

section
variable {t : Nat} {s : State} (hs : (s.tile t).stopped = true) (ho : (s.tile t).outst = []) (he : (s.xjob (s.tile t).job).endCause = none)
include hs ho he

theorem replayOp_inOrder (hr : (s.tile t).replay ≠ []) (hb : (s.tile t).orderBad = none) : replayOp t s = afterReplay t s := by
  rw [replayOp_eq]
  dsimp only
  rw [if_pos (by simp [hs, ho, he, hr]), hb]
theorem replayOp_outOfOrder {half pc : Nat} (hb : (s.tile t).orderBad = some (half, pc)) : replayOp t s = orderHit t half pc (afterReplay t s) := by
  rw [replayOp_eq]
  dsimp only
  rw [if_pos (by simp [hs, ho, he, hb]), hb]
end

theorem afterReplay_tile (t : Nat) (s : State) : (afterReplay t s).tile t = reissued (s.tile t) := tile_setTile_same ..
theorem afterReplay_others (t : Nat) (s : State) : otherTiles s (afterReplay t s) t := fun _ hv => tile_setTile_other _ _ hv
theorem afterReplay_xjob (t : Nat) (s : State) : (afterReplay t s).xjob (s.tile t).job =
    { s.xjob (s.tile t).job with replays := min 255 ((s.xjob (s.tile t).job).replays + 1) } := xjob_modJob_same ..

/-- An order check of a half that failed (R158): BOUND_ORDER, and the rest as a residue mismatch. -/
theorem orderHit_spec {t : Nat} (ht : t < 576) (half pc : Nat) (s : State) :
    otherTiles s (orderHit t half pc s) t ∧ (orderHit t half pc s).tile t = mismatched { s.tile t with orderBad := some (half, pc) } ∧
      (orderHit t half pc s).fld (F.ERG_FLAGS_BOUND_ORDER (t / 72)) = 1 ∧ (orderHit t half pc s).xjob (s.tile t).job = secondEnds (s.xjob (s.tile t).job) ∧
      beyondXoide (orderHit t half pc s) = beyondXoide s := by
  have hkeep : ∀ v, (ergFlags t 8 (s.setTile t { s.tile t with orderBad := some (half, pc) })).tile v =
      (s.setTile t { s.tile t with orderBad := some (half, pc) }).tile v := fun v => OffRegs.ergFlags (v := fun s => s.tile v) (fun _ _ => rfl) ..
  have htile := (hkeep t).trans (tile_setTile_same ..)
  unfold orderHit
  refine ⟨fun v hv => ?_, ?_, ?_, ?_, ?_⟩
  · rw [residueHit_tile, tile_setTile_other _ _ hv, hkeep, tile_setTile_other _ _ hv]
  · rw [residueHit_tile, tile_setTile_same, htile]
  · rw [residueHit_fld]
    exact residueNoted_flag ht _ _ _ _ (by decide) (.inr (ergFlags_sets (b := 3) _ (by decide) (by decide)))
  · have hrun := residueHit_xjob t half pc (ergFlags t 8 (s.setTile t { s.tile t with orderBad := some (half, pc) }))
    rw [htile] at hrun
    rw [hrun]
    exact congrArg secondEnds (OffRegs.ergFlags (v := fun u => u.xjob (s.tile t).job) (fun _ _ => rfl) ..)
  · rw [residueHit_beyond, OffRegs.ergFlags (v := beyondXoide) (fun _ _ => rfl), OffX.setTile (v := beyondXoide) (fun _ _ => rfl)]

end Sys2Proof.Machine

namespace Sys2Proof.Machine
open Sys2Proof

/-! ### Reads of clean codewords, and the fetch of an instruction (R147, R170) -/

/-- Every word of a tile's SRAM is assigned (R166). -/
theorem xaMem_tile {t : Nat} (ht : t < 576) (a : Nat) : xaMem (xaTile + 32768 * t + a % 32768) = .tile := by
  unfold xaMem xaTileEnd xaLpEnd xaShared xaSharedEnd xaTile
  rw [if_neg (by omega), if_neg (by omega), if_pos (by omega)]
theorem xaMem_ne_lpddr_of_le {w : Nat} (h : xaTile ≤ w) : xaMem w ≠ .lpddr := by
  have hlow : ¬ w < xaLpEnd := by unfold xaTile at h; unfold xaLpEnd; omega
  unfold xaMem
  rw [if_neg hlow]
  split
  · decide
  · split <;> decide

theorem eccTouch_unassigned {w : Nat} (job : Option Nat) (s : State) (h : xaMem w = .none) : eccTouch job w s = (ueNote job w 4 s, true) := by
  unfold eccTouch; rw [h]
/-- With no codeword in error a read delivers every word, and records only the unassigned ones (R170). -/
theorem eccTouches_clean {β : Type} {v : State → β} (hr : OffRegs v) (job : Option Nat) (ws : List Nat) {s : State} (he : s.x.errs = []) :
    v (eccTouches job ws s).1 = v s ∧ (eccTouches job ws s).2 = true := by
  have hfold : ∀ (l : List Nat) (a : State × Bool), (∀ w ∈ l, xaMem w = .none) →
      v (l.foldl (fun a w => let b := eccTouch job w a.1; (b.1, a.2 && b.2)) a).1 = v a.1 ∧
        (l.foldl (fun a w => let b := eccTouch job w a.1; (b.1, a.2 && b.2)) a).2 = a.2 := by
    intro l
    induction l with
    | nil => exact fun a _ => ⟨rfl, rfl⟩
    | cons w l ih =>
      intro a h
      have hw := eccTouch_unassigned job a.1 (h w (List.mem_cons_self ..))
      obtain ⟨h1, h2⟩ := ih (ueNote job w 4 a.1, a.2) (fun x hx => h x (List.mem_cons_of_mem _ hx))
      rw [List.foldl_cons]
      dsimp only
      rw [hw, Bool.and_true]
      exact ⟨h1.trans (hr.ueNote_unassigned job w a.1), h2⟩
  refine hfold _ (s, true) (fun w hw => ?_)
  have hf := (List.mem_filter.1 hw).2
  rw [he] at hf
  simpa using hf
theorem eccTouches_assigned (job : Option Nat) {ws : List Nat} {s : State} (he : s.x.errs = []) (hw : ∀ w ∈ ws, xaMem w ≠ .none) :
    eccTouches job ws s = (s, true) := by
  have hnil : ws.filter (fun w => tget 0 s.x.errs w != 0 || xaMem w == .none) = [] := by
    refine List.filter_eq_nil_iff.2 (fun w h => ?_)
    rw [he]
    simpa using hw w h
  unfold eccTouches
  rw [hnil]
  rfl
theorem tileRead_clean {t : Nat} (ht : t < 576) (l : List Nat) {s : State} (he : s.x.errs = []) : tileRead t l s = (s, true) := by
  have hclean : eccTouches (some (s.tile t).job) (tileWords t l) s = (s, true) := by
    refine eccTouches_assigned _ he (fun w hw => ?_)
    obtain ⟨a, -, rfl⟩ := List.mem_map.1 hw
    rw [xaMem_tile ht]
    decide
  unfold tileRead
  dsimp only
  rw [hclean]
  rfl

theorem tileReady_run {t : Nat} {s : State} (h : tileReady t s = true) : (s.xjob (s.tile t).job).endCause = none := by
  unfold tileReady at h
  simp only [Bool.and_eq_true] at h
  exact Option.isNone_iff_eq_none.1 h.2

/-- What the command of an opcode does on a tile that may issue: the fetched word is illegal, or of that opcode, or of another. -/
theorem tileExec_fetched {t : Nat} (ht : t < 576) {s : State} (he : s.x.errs = []) (hr : tileReady t s = true) (opc : Nat) (f : XIns → Nat → State → State) :
    tileExec opc t f s = if !xLegal (xIns (tileWord s t)) then tileIllegal t s
      else if (xIns (tileWord s t)).opc = opc then f (xIns (tileWord s t)) (tileWord s t) s else s := by
  unfold tileExec
  rw [hr, tileRead_clean ht _ he]
  rfl
theorem tileExec_illegal {t : Nat} (ht : t < 576) {s : State} (he : s.x.errs = []) (hr : tileReady t s = true)
    (hl : xLegal (xIns (tileWord s t)) = false) (opc : Nat) (f : XIns → Nat → State → State) : tileExec opc t f s = tileIllegal t s := by
  rw [tileExec_fetched ht he hr, hl]
  rfl
theorem tileExec_opc {t opc : Nat} {i : XIns} (ht : t < 576) {s : State} (h : tileFetches s t opc i) (f : XIns → Nat → State → State) :
    tileExec opc t f s = f i (tileWord s t) s := by
  obtain ⟨he, hr, rfl, hl, hopc⟩ := h
  rw [tileExec_fetched ht he hr, show xLegal (xIns (tileWord s t)) = true from hl, show (xIns (tileWord s t)).opc = opc from hopc, if_pos rfl]
  rfl

/-! ### Copying words (R161, R179) -/

/-- A view that sees no word of Xoide's memories, no codeword's error and no register. -/
structure OffWords {β : Type} (v : State → β) : Prop where
  regs : OffRegs v
  ingest : OffIngest v
  mem : ∀ (s : State) lp hist dhist shared, v { s with x := { s.x with lp := lp, hist := hist, dhist := dhist, shared := shared } } = v s
  sram : ∀ (s : State) t m, v (s.setTile t { s.tile t with sram := m }) = v s
  errs : ∀ (s : State) e i, v { s with x := { s.x with errs := e, inject := i } } = v s

section
variable {β : Type} {v : State → β}

theorem OffWords.xaPut (h : OffWords v) (s : State) (w d : Nat) : v (xaPut s w d) = v s := by
  have hlp : ∀ (s : State) w d, v (lpPut w d s) = v s := fun s w d => h.mem s _ s.x.hist s.x.dhist s.x.shared
  unfold Machine.xaPut
  cases xaMem w with
  | none => rfl
  | tile => exact h.sram s _ _
  | shared =>
    dsimp only
    split
    · exact h.ingest s _
    · split
      · exact h.ingest s _
      · exact h.mem s s.x.lp s.x.hist s.x.dhist _
  | lpddr =>
    dsimp only
    split
    · cases tget none s.x.hist (w / ingWords) with
      | none => exact hlp s w d
      | some t => exact h.mem s s.x.lp _ s.x.dhist s.x.shared
    · split
      · cases tget none s.x.dhist ((w - decBase) / decWords) with
        | none => exact hlp s w d
        | some t => exact h.mem s s.x.lp s.x.hist _ s.x.shared
      · exact hlp s w d
theorem OffWords.xaFresh (h : OffWords v) (p : Nat → Bool) (s : State) : v (xaFresh p s) = v s := by
  rw [xaFresh_frame]
  exact h.errs s _ _
theorem OffWords.xaWriteBy (h : OffWords v) (job : Option Nat) (w d : Nat) (s : State) : v (xaWriteBy job w d s) = v s := by
  unfold Machine.xaWriteBy
  split
  · exact h.regs.ueNote_unassigned job w s
  · next hw => rw [xaWrite_assigned d s hw, h.xaFresh, h.xaPut]
end

theorem xaGet_xaWriteBy_same (job : Option Nat) {w : Nat} (d : Nat) (s : State) (h : xaMem w ≠ .none) : xaGet (xaWriteBy job w d s) w = d % 2 ^ 64 := by
  unfold xaWriteBy
  rw [if_neg h, xaGet_xaWrite_same w d s h]
theorem xaGet_xaWriteBy_other (job : Option Nat) {w j : Nat} (d : Nat) (s : State) (h : j ≠ w) : xaGet (xaWriteBy job w d s) j = xaGet s j := by
  unfold xaWriteBy
  split
  · exact OffRegs.ueNote_unassigned (v := fun s => xaGet s j) (fun _ _ => rfl) job w s
  · exact xaGet_xaWrite_other d s h

/-- Words a to a + n − 1 written one after the other. -/
def copyWords (job : Option Nat) (src dst n : Nat) (s : State) : State := (upto n).foldl (fun s k => xaWriteBy job (dst + k) (xaGet s (src + k)) s) s
theorem copyWords_succ (job : Option Nat) (src dst n : Nat) (s : State) : copyWords job src dst (n + 1) s =
    xaWriteBy job (dst + n) (xaGet (copyWords job src dst n s) (src + n)) (copyWords job src dst n s) := by
  unfold copyWords upto
  rw [List.range_succ, List.foldl_append]
  rfl

section
variable (job : Option Nat) (src dst : Nat)

theorem copyWords_keeps {β : Type} {v : State → β} (h : OffWords v) (n : Nat) (s : State) : v (copyWords job src dst n s) = v s := by
  induction n with
  | zero => rfl
  | succ n ih => rw [copyWords_succ, h.xaWriteBy, ih]
theorem xaGet_copyWords_outside (n : Nat) (s : State) {w : Nat} (h : w < dst ∨ dst + n ≤ w) : xaGet (copyWords job src dst n s) w = xaGet s w := by
  induction n with
  | zero => rfl
  | succ n ih => rw [copyWords_succ, xaGet_xaWriteBy_other _ _ _ (by omega), ih (by omega)]
/-- Where source and destination share no word, each assigned word of the destination takes its word of the source. -/
theorem xaGet_copyWords {n k : Nat} (s : State) (hk : k < n) (hd : src + n ≤ dst ∨ dst + n ≤ src) (hm : xaMem (dst + k) ≠ .none)
    (hv : xaGet s (src + k) < 2 ^ 64) : xaGet (copyWords job src dst n s) (dst + k) = xaGet s (src + k) := by
  induction n with
  | zero => omega
  | succ n ih =>
    rw [copyWords_succ]
    by_cases hkn : k = n
    · subst hkn
      rw [xaGet_xaWriteBy_same _ _ _ hm, xaGet_copyWords_outside _ _ _ _ _ (by omega), Nat.mod_eq_of_lt hv]
    · rw [xaGet_xaWriteBy_other _ _ _ (by omega)]
      exact ih (by omega) (by omega)
end

theorem lpMoved_elsewhere (job : Option Nat) (write : Bool) {w : Nat} (n : Nat) (s : State) (h : xaMem w ≠ .lpddr) : lpMoved job write w n s = s := by
  unfold lpMoved
  exact if_neg (fun hc => h hc.1)
/-- A copy that touches no LPDDR6 and meets no codeword in error (R179). -/
theorem xaCopy_clean (job : Option Nat) {src dst : Nat} (n : Nat) {s : State} (he : s.x.errs = []) (hs : xaMem src ≠ .lpddr) (hd : xaMem dst ≠ .lpddr) :
    xaCopy job src dst n s = (copyWords job src dst n (eccTouches job ((upto n).map (fun k => src + k)) s).1, true) := by
  unfold xaCopy
  dsimp only
  rw [if_pos (eccTouches_clean (v := State.time) (fun _ _ => rfl) job _ he).2, lpMoved_elsewhere _ _ _ _ hd, lpMoved_elsewhere _ _ _ _ hs]
  rfl

/-! ### Activity and energy (R67) -/

/-- A view that does not see the energy account. -/
def OffSpend {β : Type} (v : State → β) : Prop := ∀ (s : State) a b jobs, v { s with x := { s.x with eInt := a, eFrame := b, jobs := jobs } } = v s

section
variable {β : Type} {v : State → β}

theorem OffSpend.xSpend (h : OffSpend v) (job : Option Nat) (units : Nat) (s : State) : v (xSpend job units s) = v s := by
  have hen : ∀ a b, v (s.onX (fun x => { x with eInt := a, eFrame := b })) = v s := fun a b => h s a b s.x.jobs
  unfold Machine.xSpend
  cases job with
  | none => exact hen _ _
  | some j => exact h s _ _ _
theorem OffRegs.ergAct (h : OffRegs v) (lo hi : Nat → Fld) (n k : Nat) (s : State) : v (ergAct lo hi n k s) = v s := by
  unfold Machine.ergAct
  dsimp only
  rw [h.setFld, h.setFld]
theorem OffSpend.sramAct (h : OffSpend v) (hr : OffRegs v) (t words : Nat) (s : State) : v (sramAct t words s) = v s := by
  unfold Machine.sramAct
  rw [h.xSpend, hr.ergAct]
end

/-! ### Transfers of a tile (R161, R165, R179) -/

/-- The tile after a transfer: issued in cycle `st`, its engine busy for 32 bytes a cycle (R139, R163). -/
def afterXfer (st len : Nat) (y : Tile) : Tile := tileNext { y with cyc := st + 1, xferFree := max y.xferFree st + ceilDiv len 32 }
theorem afterXfer_sram (st len : Nat) (y : Tile) : (afterXfer st len y).sram = y.sram := rfl
theorem afterXfer_xferFree (st len : Nat) (y : Tile) : (afterXfer st len y).xferFree = max y.xferFree st + ceilDiv len 32 := rfl
/-- The cycle a transfer may start in: not before the last verdict of the tile it carries data out of, in the same job (R161). -/
def xferStart (out : Bool) (t w : Nat) (s : State) : Nat :=
  max (s.tile t).cyc ((xferSrc out t w).elim 0 (fun u => if (s.tile u).job = (s.tile t).job then (s.tile u).verd else 0))
/-- Where a transfer reads from and writes to. -/
def xferFrom (out : Bool) (t : Nat) (d : XDesc) : Nat := if out then xaTile + 32768 * t + d.loc else d.xa / 8
def xferTo (out : Bool) (t : Nat) (d : XDesc) : Nat := if out then d.xa / 8 else xaTile + 32768 * t + d.loc
/-- The state once a transfer has copied its words. -/
def xferCopied (out : Bool) (t : Nat) (d : XDesc) (s : State) : State :=
  copyWords (some (s.tile t).job) (xferFrom out t d) (xferTo out t d) (d.len / 8)
    (eccTouches (some (s.tile t).job) ((upto (d.len / 8)).map (fun k => xferFrom out t d + k)) s).1
/-- Activity and energy of a transfer (R67). -/
def xferSpent (t job w len : Nat) (s : State) : State :=
  sramAct t (len / 8 + 4) (xSpend (some job) (2500 * len + (if xaMem w = .shared then 3000 * len else 0))
    (ergAct F.ERG_ACT_NET_LO F.ERG_ACT_NET_HI (t / 72) len s))

/-- A view of a tile beside its SRAM. -/
def besideSram (t : Nat) (s : State) : Tile := { s.tile t with sram := [] }
theorem besideSram_offWords (t : Nat) : OffWords (besideSram t) where
  regs := fun _ _ => rfl
  ingest := fun _ _ => rfl
  mem := fun _ _ _ _ _ => rfl
  sram := fun s u m => by
    unfold besideSram
    by_cases h : t = u
    · subst h; rw [tile_setTile_same]
    · rw [tile_setTile_other _ _ h]
  errs := fun _ _ _ => rfl
theorem tile_of_besideSram {t : Nat} {s u : State} (h : besideSram t u = besideSram t s) : (u.tile t).pc = (s.tile t).pc ∧
    (u.tile t).xferFree = (s.tile t).xferFree ∧ (u.tile t).acc = (s.tile t).acc ∧ (u.tile t).regs = (s.tile t).regs := by
  simp only [besideSram, Tile.mk.injEq] at h
  simp only [h, and_self]
/-- Beside Xoide's record, the registers and the ingest buffers nothing changes. -/
def beyondMemories (s : State) : State := { s with x := XoideSt.init, regs := [], ingest := Ingest.init }
theorem beyondMemories_offWords : OffWords beyondMemories :=
  ⟨fun _ _ => rfl, fun _ _ => rfl, fun _ _ _ _ _ => rfl, fun _ _ _ => rfl, fun _ _ _ => rfl⟩
theorem frame_of_beyondMemories {s u : State} (h : beyondMemories u = beyondMemories s) : u = { s with x := u.x, regs := u.regs, ingest := u.ingest } := by
  cases u; cases s; simp only [beyondMemories, State.mk.injEq] at h; simp only [State.mk.injEq]; simp_all

theorem xferSpent_keeps {β : Type} {v : State → β} (h : OffSpend v) (hr : OffRegs v) (t job w len : Nat) (s : State) : v (xferSpent t job w len s) = v s := by
  unfold xferSpent
  rw [h.sramAct hr, h.xSpend, hr.ergAct]
theorem tile_xferSpent (t job w len : Nat) (s : State) (k : Nat) : (xferSpent t job w len s).tile k = s.tile k :=
  xferSpent_keeps (v := fun s => s.tile k) (fun _ _ _ _ => rfl) (fun _ _ => rfl) ..
theorem xaGet_xferSpent (t job w len : Nat) (s : State) (k : Nat) : xaGet (xferSpent t job w len s) k = xaGet s k :=
  xferSpent_keeps (v := fun s => xaGet s k) (fun _ _ _ _ => rfl) (fun _ _ => rfl) ..

section
variable (out : Bool) (t : Nat) (d : XDesc) {s : State} (he : s.x.errs = [])
include he

theorem xferCopied_keeps {β : Type} {v : State → β} (h : OffWords v) : v (xferCopied out t d s) = v s := by
  unfold xferCopied
  rw [copyWords_keeps _ _ _ h, (eccTouches_clean h.regs _ _ he).1]
theorem xaGet_touched (job : Option Nat) (ws : List Nat) (w : Nat) : xaGet (eccTouches job ws s).1 w = xaGet s w :=
  (eccTouches_clean (v := fun s => xaGet s w) (fun _ _ => rfl) job ws he).1
theorem xaGet_xferCopied {k : Nat} (hk : k < d.len / 8)
    (ha : xferFrom out t d + d.len / 8 ≤ xferTo out t d ∨ xferTo out t d + d.len / 8 ≤ xferFrom out t d) (hm : xaMem (xferTo out t d + k) ≠ .none)
    (hv : xaGet s (xferFrom out t d + k) < 2 ^ 64) : xaGet (xferCopied out t d s) (xferTo out t d + k) = xaGet s (xferFrom out t d + k) := by
  unfold xferCopied
  rw [xaGet_copyWords _ _ _ _ hk ha hm (by rw [xaGet_touched he]; exact hv), xaGet_touched he]
theorem xaGet_xferCopied_outside {w : Nat} (h : w < xferTo out t d ∨ xferTo out t d + d.len / 8 ≤ w) : xaGet (xferCopied out t d s) w = xaGet s w := by
  unfold xferCopied
  rw [xaGet_copyWords_outside _ _ _ _ _ h, xaGet_touched he]
end
/-- A tile stored with its SRAM as it was changes no word. -/
theorem xaGet_setTile (s : State) {t : Nat} {y : Tile} (h : y.sram = (s.tile t).sram) (w : Nat) : xaGet (s.setTile t y) w = xaGet s w := by
  refine xaGet_congr (s := s) (u := s.setTile t y) rfl rfl rfl rfl (fun k => ?_) rfl w
  by_cases hk : k = t
  · rw [hk, tile_setTile_same, h]
  · rw [tile_setTile_other _ _ hk]
theorem xferStart_congr {s u : State} (out : Bool) (t w : Nat) (h : ∀ k, besideSram k u = besideSram k s) : xferStart out t w u = xferStart out t w s := by
  have hjob : ∀ k, (u.tile k).job = (s.tile k).job := fun k => show (besideSram k u).job = (besideSram k s).job by rw [h]
  have hverd : ∀ k, (u.tile k).verd = (s.tile k).verd := fun k => show (besideSram k u).verd = (besideSram k s).verd by rw [h]
  have hcyc : (u.tile t).cyc = (s.tile t).cyc := show (besideSram t u).cyc = (besideSram t s).cyc by rw [h]
  unfold xferStart
  simp only [hjob, hverd, hcyc]

section
variable {t : Nat} (ht : t < 576) {s : State} (he : s.x.errs = []) (out : Bool) (i : XIns) (word : Nat)
  {d : XDesc} (hd : d = xDesc (s.tile t) (addrA (s.tile t) i 0))
include ht he hd

/-- A transfer to or from LPDDR6 is an illegal instruction (R179). -/
theorem xferOp_lpddr (hl : xaMem (d.xa / 8) = .lpddr) : xferOp out t i word s = tileIllegal t s := by
  unfold xferOp
  dsimp only
  rw [tileRead_clean ht _ he, ← hd]
  exact if_pos hl
section
variable (hl : xaMem (d.xa / 8) ≠ .lpddr)
include hl

/-- A transfer waits while the tile it carries data out of has a verdict outstanding (R161). -/
theorem xferOp_held (hh : xferHeld out t (d.xa / 8) s = true) : xferOp out t i word s = s := by
  unfold xferOp
  dsimp only
  rw [tileRead_clean ht _ he, ← hd, if_neg (by simp), if_neg hl]
  exact if_pos hh
/-- A transfer whose far tile's erg is neither in RUN nor in STOPPING ends the run with cause 4 (R165, R183). -/
theorem xferOp_closed (hh : xferHeld out t (d.xa / 8) s = false) (hf : farOk s (d.xa / 8) = false) : xferOp out t i word s = runEnd (s.tile t).job 4 s := by
  unfold xferOp
  dsimp only
  rw [tileRead_clean ht _ he, ← hd, if_neg (by simp), if_neg hl, hh, if_neg (by decide), hf]
  rfl

/-- A transfer that may go copies its words, and then counts as issued (R161, R163, R179). -/
theorem xferOp_copies (hh : xferHeld out t (d.xa / 8) s = false) (hf : farOk s (d.xa / 8) = true) : xferOp out t i word s =
    xferSpent t (s.tile t).job (d.xa / 8) d.len ((xferCopied out t d s).setTile t
      (afterXfer (xferStart out t (d.xa / 8) (xferCopied out t d s)) d.len ((xferCopied out t d s).tile t))) := by
  have hloc : xaMem (xaTile + 32768 * t + d.loc) ≠ .lpddr := xaMem_ne_lpddr_of_le (by omega)
  unfold xferOp
  dsimp only
  rw [tileRead_clean ht _ he, ← hd, if_neg (by simp), if_neg hl, hh, if_neg (by decide), hf, if_neg (by decide)]
  have hcopy : (if out then xaCopy (some (s.tile t).job) (xaTile + 32768 * t + d.loc) (d.xa / 8) (d.len / 8) s
      else xaCopy (some (s.tile t).job) (d.xa / 8) (xaTile + 32768 * t + d.loc) (d.len / 8) s) = (xferCopied out t d s, true) := by
    cases out with
    | true => exact xaCopy_clean _ _ he hloc hl
    | false => exact xaCopy_clean _ _ he hl hloc
  dsimp only
  rw [hcopy, if_neg (by simp)]
  unfold xferStart
  generalize xferCopied out t d s = c
  cases xferSrc out t (d.xa / 8) <;> rfl

/-- XLD and XST copy the words their descriptor names (R161, R179). -/
theorem xferOp_spec (hh : xferHeld out t (d.xa / 8) s = false) (hf : farOk s (d.xa / 8) = true) {src dst st : Nat} (hsrc : src = xferFrom out t d)
    (hdst : dst = xferTo out t d) (hst : st = xferStart out t (d.xa / 8) s) :
    ∃ u, xferOp out t i word s = u ∧ (u.tile t).pc = ((s.tile t).pc + 1) % 2048 ∧ (u.tile t).cyc = st + 1 ∧
      (u.tile t).xferFree = max (s.tile t).xferFree st + ceilDiv d.len 32 ∧ (u.tile t).acc = (s.tile t).acc ∧ (u.tile t).regs = (s.tile t).regs ∧
      (∀ k, k < d.len / 8 → xaMem (dst + k) ≠ .none → xaGet s (src + k) < 2 ^ 64 → (src + d.len / 8 ≤ dst ∨ dst + d.len / 8 ≤ src) →
        xaGet u (dst + k) = xaGet s (src + k)) ∧
      (∀ w, w < dst ∨ dst + d.len / 8 ≤ w → xaGet u w = xaGet s w) ∧ u = { s with x := u.x, regs := u.regs, ingest := u.ingest } := by
  subst hsrc hdst hst
  have hbeside : ∀ k, besideSram k (xferCopied out t d s) = besideSram k s := fun k => xferCopied_keeps out t d he (besideSram_offWords k)
  obtain ⟨hpc, hfree, hacc, hregs⟩ := tile_of_besideSram (hbeside t)
  have hrun := xferOp_copies ht he out i word hd hl hh hf
  rw [xferStart_congr out t _ hbeside] at hrun
  have hget : ∀ w, xaGet (xferSpent t (s.tile t).job (d.xa / 8) d.len ((xferCopied out t d s).setTile t
      (afterXfer (xferStart out t (d.xa / 8) s) d.len ((xferCopied out t d s).tile t)))) w = xaGet (xferCopied out t d s) w := by
    intro w
    rw [xaGet_xferSpent, xaGet_setTile _ (afterXfer_sram ..)]
  refine ⟨_, hrun, ?_, ?_, ?_, ?_, ?_, fun k hk hm hv ha => (hget _).trans (xaGet_xferCopied out t d he hk ha hm hv),
    fun w hw => (hget w).trans (xaGet_xferCopied_outside out t d he hw), frame_of_beyondMemories ?_⟩
  · rw [tile_xferSpent, tile_setTile_same, ← hpc]; rfl
  · rw [tile_xferSpent, tile_setTile_same]; rfl
  · rw [tile_xferSpent, tile_setTile_same, afterXfer_xferFree, hfree]
  · rw [tile_xferSpent, tile_setTile_same, ← hacc]; rfl
  · rw [tile_xferSpent, tile_setTile_same, ← hregs]; rfl
  · rw [xferSpent_keeps (v := beyondMemories) (fun _ _ _ _ => rfl) (fun _ _ => rfl), OffX.setTile (v := beyondMemories) (fun _ _ => rfl),
      xferCopied_keeps out t d he beyondMemories_offWords]
end
end

end Sys2Proof.Machine

namespace Sys2Proof.Machine
open Sys2Proof

/-! ### The clauses of O36 -/

section
variable {t : Fin 576} {i : XIns} {s : State}

/-- Every command of a tile whose fetched word is illegal, and a transfer to or from LPDDR6, ends as `tileIllegal` says (R147, R179). -/
theorem exec_illegal (he : s.x.errs = []) (hr : tileReady t.val s = true) (hi : i = xIns (tileWord s t.val)) {c : Instr}
    (hc : (c = Instr.nop t ∧ xLegal i = false) ∨ (c = Instr.mm t ∧ xLegal i = false) ∨ (c = Instr.ldw t ∧ xLegal i = false) ∨
      (c = Instr.vadd t ∧ xLegal i = false) ∨ (c = Instr.vfma t ∧ xLegal i = false) ∨ (c = Instr.vexp t ∧ xLegal i = false) ∨
      (c = Instr.vrsum t ∧ xLegal i = false) ∨ (c = Instr.cvt t ∧ xLegal i = false) ∨
      (c = Instr.xld t ∧ (xLegal i = false ∨ i.opc = 0x3E ∧ xaMem ((xDesc (s.tile t.val) (addrA (s.tile t.val) i 0)).xa / 8) = .lpddr)) ∨
      (c = Instr.xst t ∧ (xLegal i = false ∨ i.opc = 0x3F ∧ xaMem ((xDesc (s.tile t.val) (addrA (s.tile t.val) i 0)).xa / 8) = .lpddr))) :
    exec c s = .next (tileIllegal t.val s) := by
  subst hi
  have hill : ∀ (c : Instr) opc f, exec c s = .next (tileExec opc t.val f s) → xLegal (xIns (tileWord s t.val)) = false →
      exec c s = .next (tileIllegal t.val s) := fun c opc f harm hl => by rw [harm, tileExec_illegal t.isLt he hr hl]
  have hlp : ∀ out opc, (xIns (tileWord s t.val)).opc = opc →
      xaMem ((xDesc (s.tile t.val) (addrA (s.tile t.val) (xIns (tileWord s t.val)) 0)).xa / 8) = .lpddr →
      tileExec opc t.val (xferOp out t.val) s = tileIllegal t.val s := by
    intro out opc ho hm
    rw [tileExec_fetched t.isLt he hr, if_pos ho, xferOp_lpddr t.isLt he out _ _ rfl hm, ite_self]
  rcases hc with ⟨rfl, hl⟩ | ⟨rfl, hl⟩ | ⟨rfl, hl⟩ | ⟨rfl, hl⟩ | ⟨rfl, hl⟩ | ⟨rfl, hl⟩ | ⟨rfl, hl⟩ | ⟨rfl, hl⟩ | ⟨rfl, hl | ⟨ho, hm⟩⟩ |
    ⟨rfl, hl | ⟨ho, hm⟩⟩
  · exact hill _ _ _ rfl hl
  · exact hill _ _ _ rfl hl
  · exact hill _ _ _ rfl hl
  · exact hill _ _ _ rfl hl
  · exact hill _ _ _ rfl hl
  · exact hill _ _ _ rfl hl
  · exact hill _ _ _ rfl hl
  · exact hill _ _ _ rfl hl
  · exact hill _ _ _ rfl hl
  · exact congrArg Host.Outcome.next (hlp false 0x3E ho hm)
  · exact hill _ _ _ rfl hl
  · exact congrArg Host.Outcome.next (hlp true 0x3F ho hm)

/-- XLD and XST run the transfer of their direction. -/
theorem exec_xfer {out : Bool} {c : Instr} (hf : tileFetches s t.val (if out then 0x3F else 0x3E) i)
    (hc : (c = Instr.xld t ∧ out = false) ∨ (c = Instr.xst t ∧ out = true)) : exec c s = .next (xferOp out t.val i (tileWord s t.val) s) := by
  rcases hc with ⟨rfl, rfl⟩ | ⟨rfl, rfl⟩
  · exact congrArg Host.Outcome.next (tileExec_opc t.isLt hf _)
  · exact congrArg Host.Outcome.next (tileExec_opc t.isLt hf _)
end

/-- Settles O36: each clause is the rule of the operation its commands come to. -/
theorem transfersVerdictsAndReplay : Obligations.TransfersVerdictsAndReplay := by
  unfold Obligations.TransfersVerdictsAndReplay
  intro t i s
  refine ⟨?illegal, ?transfer, ?verdict, ?noResult, ?replay, ?noReplay⟩
  case illegal =>
    intro he hr hi c hc
    exact ⟨_, exec_illegal he hr hi hc, tileIllegal_spec t.isLt (tileReady_run hr)⟩
  case transfer =>
    intro d hd hl out hf c hc
    have he := hf.1
    have hrun := tileReady_run hf.2.1
    refine ⟨fun hh => ?_, fun hh hfar => ?_, fun hh hfar src hsrc dst hdst st hst => ?_⟩
    · rw [exec_xfer hf hc, xferOp_held t.isLt he out i _ hd hl hh]
    · refine ⟨_, (exec_xfer hf hc).trans (congrArg _ (xferOp_closed t.isLt he out i _ hd hl hh hfar)), rfl, ?_, rfl⟩
      rw [runEnd_eq, xjob_modJob_same, endedBy_first 4 hrun]
    · obtain ⟨u, hu, h⟩ := xferOp_spec t.isLt he out i (tileWord s t.val) hd hl hh hfar hsrc hdst hst
      exact ⟨u, (exec_xfer hf hc).trans (congrArg _ hu), h⟩
  case verdict =>
    intro half o ho
    refine ⟨congrArg Host.Outcome.next (residueVerdict_some true ho), fun hout => ?_⟩
    obtain ⟨u, hu, h⟩ := residueVerdict_bad t.isLt half hout ho
    exact ⟨u, congrArg Host.Outcome.next hu, h⟩
  case noResult => exact fun half ok h => congrArg Host.Outcome.next (residueVerdict_none ok h)
  case replay =>
    intro hs ho he
    refine ⟨?_, fun half pc hb => ?_⟩
    · rintro pcs rfl hr hb
      refine ⟨_, congrArg Host.Outcome.next (replayOp_inOrder hs ho he hr hb), afterReplay_others _ _, ?_, ?_, rfl⟩
      · rw [afterReplay_tile]
        unfold reissued
        rw [← hb]
      · rw [afterReplay_xjob]
    · obtain ⟨hother, htile, hflag, hjob, hbeyond⟩ := orderHit_spec t.isLt half pc (afterReplay t.val s)
      rw [afterReplay_tile, reissued_job, afterReplay_xjob] at hjob
      rw [afterReplay_tile] at htile
      refine ⟨_, congrArg Host.Outcome.next (replayOp_outOfOrder hs ho he hb), fun v hv => (hother v hv).trans (afterReplay_others t.val s v hv),
        ?_, ?_, hflag, ?_, frame_of_beyondXoide hbeyond⟩
      · rw [htile]; rfl
      · rw [htile]; rfl
      · rw [hjob, secondEnds_mism]
  case noReplay => exact fun h => congrArg Host.Outcome.next (replayOp_idle h)

end Sys2Proof.Machine

namespace Sys2Proof.Machine
open Sys2Proof

/-! ### What the clocks, the ledger and self-refresh leave of the registers -/

theorem fld_stopCost (s : State) (k : Nat) (f : Fld) : (s.stopCost k).fld f = s.fld f := by
  unfold State.stopCost
  split <;> rfl
theorem fld_withdraw (s : State) (k : Nat) (f : Fld) : (s.withdraw k).fld f = s.fld f := by
  unfold State.withdraw
  split <;> rfl
theorem withdraw_blk (s : State) (k : Nat) : (s.withdraw k).blk = s.blk := by
  unfold State.withdraw
  split <;> rfl
theorem OffBlocks.withdraw {β : Type} {v : State → β} (h : OffBlocks v) (s : State) (k : Nat) : v (s.withdraw k) = v s := by
  unfold State.withdraw
  split
  · exact h.gov ..
  · rfl

/-- The registers of an erg's own (R138): neither a clock register nor a quadrant's XMEM_STAT. -/
def OffClocks (f : Fld) : Prop := f.off ≠ 0x1100 ∧ f.off ≠ 0x1104 ∧ f.off % 0x1000 ≠ 0x104

theorem fld_domRun {f : Fld} (h : OffClocks f) (n : Nat) (on : Bool) (s : State) : (domRun n on s).fld f = s.fld f := by
  obtain ⟨hlo, hhi, -⟩ := h
  unfold domRun
  split
  · rfl
  · split
    · exact State.fld_setFld_other _ _ _ _ hlo
    · exact State.fld_setFld_other _ _ _ _ hhi
theorem fld_quadRest {f : Fld} (h : OffClocks f) (q : Nat) (s : State) : (quadRest q s).fld f = s.fld f := by
  unfold quadRest
  dsimp only
  rw [fld_stopCost, State.fld_setFld_other _ _ _ _ (by have := h.2.2; dsimp only [F.XMEM_STAT_SR]; omega), fld_domRun h]
  rfl
theorem fld_xoideRest {f : Fld} (h : OffClocks f) (s : State) : (xoideRest s).fld f = s.fld f := by
  unfold xoideRest
  split
  · rw [foldl_keeps (fun s => s.fld f), fld_domRun h]
    intro s q
    split
    · exact fld_quadRest h q s
    · rfl
  · rfl

section
variable (n : Nat) (s : State)

theorem offClocks_ergStat {f : Fld} (h : f.off = 0x80100 + 0x1000 * n) : OffClocks f := by
  unfold OffClocks
  omega
theorem fld_ergRest_awake : (ergRest n s).fld (F.ERG_STAT_AWAKE n) = 0 := by
  unfold ergRest
  dsimp only
  rw [fld_stopCost]
  exact State.fld_setFld_same _ _ _ (Nat.le_of_ble_eq_true rfl)
/-- An erg going to sleep leaves the other fields of its ERG_STAT. -/
theorem fld_ergRest_beside {f : Fld} (ho : f.off = 0x80100 + 0x1000 * n) (h : 4 ≤ f.lo) : (ergRest n s).fld f = s.fld f := by
  unfold ergRest
  dsimp only
  rw [fld_stopCost, fld_setFld_apart _ (f := F.ERG_STAT_AWAKE n) (g := f) _ (Nat.le_of_ble_eq_true rfl) (.inr (.inl h)), fld_domRun (offClocks_ergStat n ho)]
  rfl
theorem fld_ergAwake_awake : (ergAwake n s).fld (F.ERG_STAT_AWAKE n) = 1 := by
  unfold ergAwake
  rw [fld_domRun (offClocks_ergStat n rfl)]
  exact State.fld_setFld_same _ _ _ (Nat.le_of_ble_eq_true rfl)
theorem fld_ergAwake_beside {f : Fld} (ho : f.off = 0x80100 + 0x1000 * n) (h : 4 ≤ f.lo) : (ergAwake n s).fld f = s.fld f := by
  unfold ergAwake
  rw [fld_domRun (offClocks_ergStat n ho), fld_setFld_apart _ (f := F.ERG_STAT_AWAKE n) (g := f) _ (Nat.le_of_ble_eq_true rfl) (.inr (.inl h)), fld_domRun (offClocks_ergStat n ho)]
/-- An erg that goes to sleep, awake or not, sleeps. -/
theorem fld_ergAsleep_awake : (ergAsleep n s).fld (F.ERG_STAT_AWAKE n) = 0 := by
  have hbit : s.fld (F.ERG_STAT_AWAKE n) < 2 := fld_lt s _
  unfold ergAsleep
  split
  · rw [fld_xoideRest (offClocks_ergStat n rfl), fld_ergRest_awake]
  · next h => exact (show s.fld (F.ERG_STAT_AWAKE n) = 0 by omega)

theorem ergRest_x : (ergRest n s).x = s.x := by
  unfold ergRest State.stopCost
  dsimp only
  split <;> simp
theorem ergAwake_x : (ergAwake n s).x = s.x := by unfold ergAwake; simp
end

/-! ### An erg starts, and fails (R53, R165) -/

/-- An erg's new state and its page's interrupt. -/
def ergMoved (n : Nat) (st : BState) (s : State) : State := (blkSet s (0x80 + n) { blkGet s (0x80 + n) with state := st }).irq (0x80 + n) 0

section
variable {n : Nat} (hn : n < 8) (s : State)
include hn

omit hn in
theorem ergMoved_fld (st : BState) {f : Fld} (h : 0x100 ≤ f.off % 0x1000) : (ergMoved n st s).fld f = s.fld f := fld_irq _ _ _ h
omit hn in
theorem ergMoved_safe (st : BState) : (blkGet (ergMoved n st s) (0x80 + n)).safe = (blkGet s (0x80 + n)).safe := by
  unfold ergMoved
  rw [blkGet_of_blk (State.irq_blk _ _ _), blkGet_blkSet_same]
/-- A block of Xoide's ergs that changes state: its page's interrupt, and what an erg does on entering the state. -/
theorem blkMove_erg {st : BState} (h : (blkGet s (0x80 + n)).state ≠ st) : blkMove s (0x80 + n) st =
    if st = .fault then (xEnter (0x80 + n) st (ergMoved n st s)).irq (0x80 + n) 1 else xEnter (0x80 + n) st (ergMoved n st s) := by
  have hinv : ∀ u, invMove (0x80 + n) st u = u := by
    intro u
    unfold invMove
    rw [if_neg (by omega), if_neg (by omega)]
  have hpage : keyPage (0x80 + n) = 0x80 + n := by unfold keyPage; rw [if_pos (by omega)]
  have hbank : ¬ (0x30 ≤ 0x80 + n ∧ 0x80 + n ≤ 0x3B) := by omega
  have hport : ¬ (0x80 + n = 0x110 ∨ 0x80 + n = 0x111) := by omega
  have heth : ¬ (0x80 + n = 0x78 ∨ 0x80 + n = 0x79) := by omega
  have hucie : ¬ 0x80 + n = 0x90 := by omega
  unfold blkMove
  dsimp only
  rw [if_neg h, hinv, hpage, if_neg hbank, if_neg hport, if_neg heth, if_neg hucie]
  rfl
theorem xEnter_run (s : State) : xEnter (0x80 + n) .run s = (if (blkGet s (0x80 + n)).safe then ergRest n s else ergAwake n s).onX
    (fun x => { x with reloadNew := if x.active.isSome then setBitN x.reloadNew n else x.reloadNew }) := by
  unfold xEnter
  rw [if_pos (by omega)]
  dsimp only
  rw [Nat.add_sub_cancel_left]
theorem xEnter_fault (s : State) : xEnter (0x80 + n) .fault s = ergAsleep n s := by
  unfold xEnter
  rw [if_pos (by omega)]
  dsimp only
  rw [Nat.add_sub_cancel_left]
theorem blockFault_erg (h : (blkGet s (0x80 + n)).state ≠ .fault) :
    blockFault (0x80 + n) s = ((blkMove s (0x80 + n) .fault).withdraw (0x80 + n)).stopCost (0x80 + n) := by
  have hport : ∀ u, portSync (0x80 + n) u = u := by
    intro u
    unfold portSync
    rw [if_neg (by omega)]
  have htrain : ∀ u, trainFail (0x80 + n) u = u := by
    intro u
    unfold trainFail
    rw [if_neg (by omega)]
  have hxoide : 0x80 ≤ 0x80 + n ∧ 0x80 + n ≤ 0x8E := by omega
  have hpump : ¬ (0x100 ≤ 0x80 + n ∧ 0x80 + n < 0x104) := by omega
  have hcrvn : ¬ (0x80 + n = 0x110 ∨ 0x80 + n = 0x111) := by omega
  unfold blockFault
  dsimp only
  rw [if_neg h, hport, htrain, ite_self, if_pos hxoide, if_neg hpump, if_neg hcrvn]

/-- An erg that starts is in RUN, awake unless FORCE_SAFE holds (R35, R165). -/
theorem ergStart_spec (h : (blkGet s (0x80 + n)).state = .starting) {u : State} (hu : blkMove s (0x80 + n) .run = u) :
    (blkGet u (0x80 + n)).state = .run ∧ u.fld (F.ERG_STAT_AWAKE n) = (if (blkGet s (0x80 + n)).safe then 0 else 1) ∧
      u.fld (F.ERG_STAT_START_FAIL n) = s.fld (F.ERG_STAT_START_FAIL n) ∧ u.x.tiles = s.x.tiles := by
  have hstate : (blkGet u (0x80 + n)).state = .run := by rw [← hu, blkMove_state _ _ _ _ (by omega), if_pos rfl]
  have hrun := blkMove_erg hn s (st := .run) (by rw [h]; decide)
  rw [hu, if_neg (by decide), xEnter_run hn, ergMoved_safe] at hrun
  have hfail := ergMoved_fld (n := n) s .run (f := F.ERG_STAT_START_FAIL n) (by dsimp only [F.ERG_STAT_START_FAIL]; omega)
  have hx : (ergMoved n .run s).x = s.x := rfl
  generalize ergMoved n .run s = m at hrun hfail hx
  refine ⟨hstate, ?_⟩
  rw [← hfail, ← hx]
  cases hs : (blkGet s (0x80 + n)).safe with
  | true =>
    rw [hs, if_pos rfl] at hrun
    rw [hrun]
    exact ⟨fld_ergRest_awake n m, fld_ergRest_beside n m (f := F.ERG_STAT_START_FAIL n) rfl (Nat.le_of_ble_eq_true rfl),
      show (ergRest n m).x.tiles = m.x.tiles by rw [ergRest_x]⟩
  | false =>
    rw [hs, if_neg Bool.false_ne_true] at hrun
    rw [hrun]
    exact ⟨fld_ergAwake_awake n m, fld_ergAwake_beside n m (f := F.ERG_STAT_START_FAIL n) rfl (Nat.le_of_ble_eq_true rfl),
      show (ergAwake n m).x.tiles = m.x.tiles by rw [ergAwake_x]⟩
/-- An erg that fails is in FAULT and its clock stops (R33, R53). -/
theorem ergFault_spec (h : (blkGet s (0x80 + n)).state ≠ .fault) :
    (blkGet (blockFault (0x80 + n) s) (0x80 + n)).state = .fault ∧ (blockFault (0x80 + n) s).fld (F.ERG_STAT_AWAKE n) = 0 := by
  have hmove := blkMove_erg hn s h
  rw [if_pos rfl, xEnter_fault hn] at hmove
  rw [blockFault_erg hn s h]
  constructor
  · rw [state_of_blk (stopCost_blk ..), state_of_blk (withdraw_blk ..), blkMove_state _ _ _ _ (by omega), if_pos rfl]
  · rw [fld_stopCost, fld_withdraw, hmove, fld_irq _ _ _ (by dsimp only [F.ERG_STAT_AWAKE]; omega), fld_ergAsleep_awake]
theorem OffBlocks.blockFault_erg {β : Type} {v : State → β} (hv : OffBlocks v) : v (blockFault (0x80 + n) s) = v s := by
  by_cases h : (blkGet s (0x80 + n)).state = .fault
  · unfold blockFault
    rw [if_pos h]
  · rw [Machine.blockFault_erg hn s h, hv.stopCost, hv.withdraw, hv.blkMove]
end

end Sys2Proof.Machine

namespace Sys2Proof.Machine
open Sys2Proof

/-! ### The commands of an erg's start and of its PLL (R165) -/

theorem ergStarted_idle {n : Nat} {s : State} (bad : Option (Fin 72))
    (h : (blkGet s (0x80 + n)).state ≠ .starting ∨ (blkGet s (0x80 + n)).granted = false) : ergStarted n bad s = s := by
  unfold ergStarted
  dsimp only
  rw [if_pos (h.imp_right (fun hg => by rw [hg]; decide))]
theorem ergStarted_tested {n : Nat} {s : State} (h : (blkGet s (0x80 + n)).state = .starting) (hg : (blkGet s (0x80 + n)).granted = true) :
    ergStarted n none s = blkMove s (0x80 + n) .run := by
  unfold ergStarted
  dsimp only
  rw [if_neg (by rw [h, hg]; decide)]
theorem ergStarted_failed {n : Nat} {s : State} (l : Fin 72) (h : (blkGet s (0x80 + n)).state = .starting)
    (hg : (blkGet s (0x80 + n)).granted = true) : ergStarted n (some l) s =
    (((blockFault (0x80 + n) s).setFld (F.ERG_STAT_START_FAIL n) 1).setFld (F.ERG_STAT_BAD_TILE n) l.val).setFld (F.ERG_STAT_FAULT_CAUSE n) 2 := by
  unfold ergStarted
  dsimp only
  rw [if_neg (by rw [h, hg]; decide)]

section
variable {n : Nat} (hn : n < 8) (s : State)
include hn

/-- An erg whose test found a tile that failed: FAULT, with the tile and cause 2. -/
theorem ergStarted_failed_spec (l : Fin 72) (h : (blkGet s (0x80 + n)).state = .starting) (hg : (blkGet s (0x80 + n)).granted = true) :
    ∃ u, ergStarted n (some l) s = u ∧ (blkGet u (0x80 + n)).state = .fault ∧ u.fld (F.ERG_STAT_START_FAIL n) = 1 ∧
      u.fld (F.ERG_STAT_BAD_TILE n) = l.val ∧ u.fld (F.ERG_STAT_FAULT_CAUSE n) = 2 ∧ u.fld (F.ERG_STAT_AWAKE n) = 0 ∧
      u.laneA = s.laneA ∧ u.laneB = s.laneB ∧ u.time = s.time := by
  obtain ⟨hstate, hawake⟩ := ergFault_spec hn s (by rw [h]; decide)
  have hlaneA := OffBlocks.blockFault_erg (v := State.laneA) hn s (fun _ _ _ _ _ _ _ _ _ _ _ _ => rfl)
  have hlaneB := OffBlocks.blockFault_erg (v := State.laneB) hn s (fun _ _ _ _ _ _ _ _ _ _ _ _ => rfl)
  have htime := OffBlocks.blockFault_erg (v := State.time) hn s (fun _ _ _ _ _ _ _ _ _ _ _ _ => rfl)
  refine ⟨_, ergStarted_failed l h hg, ?_⟩
  generalize blockFault (0x80 + n) s = m at *
  have hl := l.isLt
  refine ⟨?_, ?_, ?_, State.fld_setFld_same _ _ _ (Nat.le_of_ble_eq_true rfl), ?_, ?_⟩
  · rw [state_of_blk (State.setFld_blk _ _ _), state_of_blk (State.setFld_blk _ _ _), state_of_blk (State.setFld_blk _ _ _)]
    exact hstate
  · rw [fld_setFld_apart _ (f := F.ERG_STAT_FAULT_CAUSE n) (g := F.ERG_STAT_START_FAIL n) _ (Nat.le_of_ble_eq_true rfl)
      (.inr (.inr (Nat.le_of_ble_eq_true rfl))), fld_setFld_apart _ (f := F.ERG_STAT_BAD_TILE n) (g := F.ERG_STAT_START_FAIL n) _
      (Nat.le_of_ble_eq_true rfl) (.inr (.inr (Nat.le_of_ble_eq_true rfl)))]
    exact State.fld_setFld_same _ _ _ (Nat.le_of_ble_eq_true rfl)
  · rw [fld_setFld_apart _ (f := F.ERG_STAT_FAULT_CAUSE n) (g := F.ERG_STAT_BAD_TILE n) _ (Nat.le_of_ble_eq_true rfl)
      (.inr (.inr (Nat.le_of_ble_eq_true rfl)))]
    exact (State.fld_setFld_same _ _ _ (Nat.le_of_ble_eq_true rfl)).trans (Nat.mod_eq_of_lt (by dsimp only [F.ERG_STAT_BAD_TILE]; omega))
  · rw [fld_setFld_apart _ (f := F.ERG_STAT_FAULT_CAUSE n) (g := F.ERG_STAT_AWAKE n) _ (Nat.le_of_ble_eq_true rfl)
      (.inr (.inr (Nat.le_of_ble_eq_true rfl))), fld_setFld_apart _ (f := F.ERG_STAT_BAD_TILE n) (g := F.ERG_STAT_AWAKE n) _
      (Nat.le_of_ble_eq_true rfl) (.inr (.inr (Nat.le_of_ble_eq_true rfl))),
      fld_setFld_apart _ (f := F.ERG_STAT_START_FAIL n) (g := F.ERG_STAT_AWAKE n) _ (Nat.le_of_ble_eq_true rfl)
      (.inr (.inr (Nat.le_of_ble_eq_true rfl)))]
    exact hawake
  · rw [State.setFld_laneA, State.setFld_laneA, State.setFld_laneA, State.setFld_laneB, State.setFld_laneB, State.setFld_laneB, State.setFld_time,
      State.setFld_time, State.setFld_time]
    exact ⟨hlaneA, hlaneB, htime⟩
/-- An awake erg that loses its PLL: FAULT, with cause 1. -/
theorem ergUnlock_spec (ha : s.fld (F.ERG_STAT_AWAKE n) = 1) (h : (blkGet s (0x80 + n)).state ≠ .fault) :
    ∃ u, ergUnlock n s = u ∧ (blkGet u (0x80 + n)).state = .fault ∧ u.fld (F.ERG_STAT_FAULT_CAUSE n) = 1 ∧ u.fld (F.ERG_STAT_AWAKE n) = 0 ∧
      u.laneA = s.laneA ∧ u.laneB = s.laneB ∧ u.time = s.time := by
  obtain ⟨hstate, hawake⟩ := ergFault_spec hn s h
  have hlaneA := OffBlocks.blockFault_erg (v := State.laneA) hn s (fun _ _ _ _ _ _ _ _ _ _ _ _ => rfl)
  have hlaneB := OffBlocks.blockFault_erg (v := State.laneB) hn s (fun _ _ _ _ _ _ _ _ _ _ _ _ => rfl)
  have htime := OffBlocks.blockFault_erg (v := State.time) hn s (fun _ _ _ _ _ _ _ _ _ _ _ _ => rfl)
  have hreport : ∀ {f : Fld}, f.off = 0x80100 + 0x1000 * n → OffReport f := by
    intro f hf
    unfold OffReport
    omega
  have hu : ergUnlock n s = ((blockFault (0x80 + n) s).setFld (F.ERG_STAT_FAULT_CAUSE n) 1).note 1 5 (0x80 + n) 0xFFFF Ev.ergFault 1 := by
    unfold ergUnlock
    rw [if_pos ha]
  refine ⟨_, hu, ?_⟩
  generalize blockFault (0x80 + n) s = m at *
  refine ⟨?_, ?_, ?_, ?_⟩
  · rw [state_of_blk (State.note_blk ..), state_of_blk (State.setFld_blk _ _ _)]
    exact hstate
  · rw [fld_note (hreport rfl)]
    exact State.fld_setFld_same _ _ _ (Nat.le_of_ble_eq_true rfl)
  · rw [fld_note (hreport rfl), fld_setFld_apart _ (f := F.ERG_STAT_FAULT_CAUSE n) (g := F.ERG_STAT_AWAKE n) _ (Nat.le_of_ble_eq_true rfl)
      (.inr (.inr (Nat.le_of_ble_eq_true rfl)))]
    exact hawake
  · rw [State.note_laneA, State.note_laneB, State.note_time, State.setFld_laneA, State.setFld_laneB, State.setFld_time]
    exact ⟨hlaneA, hlaneB, htime⟩
end
theorem ergUnlock_asleep {n : Nat} {s : State} (h : s.fld (F.ERG_STAT_AWAKE n) = 0) : ergUnlock n s = s := by
  unfold ergUnlock
  rw [if_neg (by rw [h]; decide)]

end Sys2Proof.Machine

namespace Sys2Proof.Machine
open Sys2Proof

/-! ### Bytes moved and the energy account (R67, R173) -/

/-- A view that does not see the energy of the interval and of the frame. -/
def OffEnergy {β : Type} (v : State → β) : Prop := ∀ (s : State) a b, v { s with x := { s.x with eInt := a, eFrame := b } } = v s

section
variable {β : Type} {v : State → β}

theorem OffEnergy.lpCount (h : OffEnergy v) (hr : OffRegs v) (write : Bool) (w n : Nat) (s : State) : v (lpCount none write w n s) = v s := by
  unfold Machine.lpCount
  refine foldl_keeps v _ (fun s b => ?_) _ s
  dsimp only
  refine (h (State.setFld ..) _ _).trans ?_
  rw [hr.setFld, hr.setFld]
theorem OffEnergy.lpMoved (h : OffEnergy v) (hr : OffRegs v) (write : Bool) (w n : Nat) (s : State) : v (lpMoved none write w n s) = v s := by
  unfold Machine.lpMoved
  split
  · exact h.lpCount hr write w n s
  · rfl
theorem OffEnergy.scrubReads (h : OffEnergy v) (hr : OffRegs v) (n : Nat) (s : State) : v (scrubReads n s) = v s := by
  unfold Machine.scrubReads
  refine foldl_keeps v _ (fun s k => ?_) _ s
  dsimp only
  split
  · exact h.lpMoved hr ..
  · rfl
end

theorem fld_xSpend (job : Option Nat) (units : Nat) (s : State) (f : Fld) : (xSpend job units s).fld f = s.fld f :=
  OffSpend.xSpend (v := fun s => s.fld f) (fun _ _ _ _ => rfl) job units s

/-- A register that is no XMEM_BYTES of a quadrant (R173). -/
def OffBytes (f : Fld) : Prop := ∀ q, q < 5 → f.off ≠ 0x8A110 + 0x1000 * q ∧ f.off ≠ 0x8A114 + 0x1000 * q

section
variable {f : Fld} (h : OffBytes f)
include h

theorem fld_lpCount (write : Bool) (w n : Nat) (s : State) : (lpCount none write w n s).fld f = s.fld f := by
  unfold lpCount
  refine foldl_keeps (fun s => s.fld f) _ (fun s b => ?_) _ s
  have hq := h (b % 80 % 5) (by omega)
  dsimp only
  rw [fld_xSpend, State.fld_setFld_other _ (F.XMEM_BYTES_HI_COUNT _) f _ hq.2, State.fld_setFld_other _ (F.XMEM_BYTES_LO_COUNT _) f _ hq.1]
theorem fld_lpMoved (write : Bool) (w n : Nat) (s : State) : (lpMoved none write w n s).fld f = s.fld f := by
  unfold lpMoved
  split
  · exact fld_lpCount h write w n s
  · rfl
theorem fld_scrubReads (n : Nat) (s : State) : (scrubReads n s).fld f = s.fld f := by
  unfold scrubReads
  refine foldl_keeps (fun s => s.fld f) _ (fun s k => ?_) _ s
  dsimp only
  split
  · exact fld_lpMoved h ..
  · rfl
end

/-! ### Errors counted and recorded (R170) -/

section
variable {β : Type} {v : State → β}

theorem OffRegs.ceNote (h : OffRegs v) (w : Nat) (s : State) : v (ceNote w s) = v s := by
  unfold Machine.ceNote
  cases xaMem w with
  | tile => exact h.satFld ..
  | shared => exact h.satFld ..
  | lpddr => exact (h.satFld ..).trans (h.satFld ..)
  | none => rfl

/-- What an uncorrectable read shows in XECC_UE_ADDR. -/
def ueShown (job : Option Nat) (w kind : Nat) (s : State) : State :=
  ((((s.setFld F.XECC_UE_ADDR_LO_XA (8 * w % 2 ^ 32)).setFld F.XECC_UE_ADDR_HI_XA_HI (8 * w / 2 ^ 32)).setFld F.XECC_UE_ADDR_HI_KIND kind).setFld
    F.XECC_UE_ADDR_HI_JOB (job.getD 0)).setFld F.XECC_UE_ADDR_HI_BY_JOB (b2n job.isSome)
/-- The counters of uncorrectable words. -/
def ueCounted (w : Nat) (s : State) : State :=
  match xaMem w with
  | .tile => s.satFld F.XECC_TSRAM_UE 1
  | .shared => s.satFld F.XECC_SHARED_UE 1
  | .lpddr => ((s.satFld F.XECC_LPDDR6_UE 1).satFld (F.XMEM_ERR_UE (xaQuad w)) 1).irq (0x8A + xaQuad w) 8
  | .none => s
theorem ueNote_recorded (job : Option Nat) (w : Nat) {kind : Nat} (s : State) (h : kind ≠ 4) : ueNote job w kind s =
    ueCounted w (((ueShown job w kind s).irq 0x8F 8).note 1 5 0x8F (job.getD 0xFFFF) Ev.xeccUe (8 * w)) := by
  unfold ueNote ueCounted
  dsimp only
  rw [if_neg h]
  cases xaMem w <;> rfl
theorem OffRegs.ueCounted (h : OffRegs v) (w : Nat) (s : State) : v (ueCounted w s) = v s := by
  unfold Machine.ueCounted
  cases xaMem w with
  | tile => exact h.satFld ..
  | shared => exact h.satFld ..
  | lpddr => exact (h.irq ..).trans ((h.satFld ..).trans (h.satFld ..))
  | none => rfl
theorem OffMrec.ueNote (h : OffMrec v) (hr : OffRegs v) (job : Option Nat) (w kind : Nat) (s : State) : v (ueNote job w kind s) = v s := by
  by_cases h4 : kind = 4
  · rw [h4, hr.ueNote_unassigned]
  · rw [ueNote_recorded job w s h4, hr.ueCounted, h.note hr, hr.irq]
    unfold ueShown
    rw [hr.setFld, hr.setFld, hr.setFld, hr.setFld, hr.setFld]
end

/-- One or two wrong bits: corrected, counted and written back (R170, R171). -/
theorem eccTouch_corrects (job : Option Nat) {w : Nat} {s : State} (hw : xaMem w ≠ .none) (he : tget 0 s.x.errs w = 1 ∨ tget 0 s.x.errs w = 2) :
    eccTouch job w s = (ceNote w (s.onX (fun x => { x with errs := tset 0 x.errs w 0 })), true) := by
  unfold eccTouch
  cases hm : xaMem w with
  | none => exact absurd hm hw
  | _ => rcases he with he | he <;> rw [he] <;> rfl
/-- Three wrong bits: recorded as kind 1h, and not delivered (R170). -/
theorem eccTouch_uncorrectable (job : Option Nat) {w : Nat} {s : State} (hw : xaMem w ≠ .none) (he : tget 0 s.x.errs w = 3) :
    eccTouch job w s = (ueNote job w 1 s, false) := by
  unfold eccTouch
  cases hm : xaMem w with
  | none => exact absurd hm hw
  | _ => dsimp only; rw [he]; rfl

/-! ### The scrub of a frame (R171) -/

/-- The scrub goes on to its next position, and counts a pass at the last one. -/
def scrubEnd (n : Nat) (s : State) : State :=
  let s := s.onX (fun x => { x with scrub := (n + 1) % scrubPass })
  if n + 1 = scrubPass then s.satFld F.XECC_SCRUB_PASSES 1 else s
/-- A word the scrub reads: one that is corrected is written back. -/
def scrubTouched (w : Nat) (s : State) : State :=
  let r := eccTouch none w s
  if tget 0 r.1.x.errs w = tget 0 s.x.errs w then r.1 else lpMoved none true w 1 r.1

theorem scrubFrame_enabled {s : State} (h : s.fld F.XECC_SCRUB_EN = 1) : scrubFrame s =
    scrubEnd s.x.scrub ((s.x.errs.filter (fun e => scrubHits s s.x.scrub e.1)).foldl (fun s e => scrubTouched e.1 s) (scrubReads s.x.scrub s)) := by
  unfold scrubFrame
  rw [if_neg (by rw [h]; decide)]
  rfl
theorem scrubFrame_clean {s : State} (h : s.fld F.XECC_SCRUB_EN = 1) (he : s.x.errs = []) : scrubFrame s = scrubEnd s.x.scrub (scrubReads s.x.scrub s) := by
  rw [scrubFrame_enabled h, he, List.filter_nil, List.foldl_nil]
theorem scrubFrame_hit {s : State} (h : s.fld F.XECC_SCRUB_EN = 1) {r : Nat × Nat} (he : s.x.errs = [r]) (hr : scrubHits s s.x.scrub r.1 = true) :
    scrubFrame s = scrubEnd s.x.scrub (scrubTouched r.1 (scrubReads s.x.scrub s)) := by
  rw [scrubFrame_enabled h, he, List.filter_cons, if_pos hr, List.filter_nil, List.foldl_cons, List.foldl_nil]
theorem scrubHits_assigned {s : State} {n w : Nat} (h : scrubHits s n w = true) : xaMem w ≠ .none := by
  intro hm
  unfold scrubHits at h
  rw [hm] at h
  exact Bool.false_ne_true h

theorem scrubEnd_x (n : Nat) (s : State) : (scrubEnd n s).x = { s.x with scrub := (n + 1) % scrubPass } := by
  unfold scrubEnd
  dsimp only
  split <;> rfl
theorem fld_scrubEnd (n : Nat) (s : State) {f : Fld} (h : Fld.Apart F.XECC_SCRUB_PASSES f) : (scrubEnd n s).fld f = s.fld f := by
  unfold scrubEnd
  dsimp only
  split
  · exact fld_satFld_apart (s.onX _) _ (by decide) h
  · rfl
theorem fld_scrubEnd_passes (n : Nat) (s : State) : (scrubEnd n s).fld F.XECC_SCRUB_PASSES =
    if n + 1 = scrubPass then min 65535 (s.fld F.XECC_SCRUB_PASSES + 1) else s.fld F.XECC_SCRUB_PASSES := by
  unfold scrubEnd
  dsimp only
  split
  · exact fld_satFld_same (s.onX _) _ (by decide)
  · rfl
theorem scrubEnd_keeps {β : Type} {v : State → β} (hr : OffRegs v) (hx : OffX v) (n : Nat) (s : State) : v (scrubEnd n s) = v s := by
  unfold scrubEnd
  dsimp only
  split
  · rw [hr.satFld, hx.onX]
  · exact hx.onX s _

/-- What the scrub of a word can touch of Xoide: the stored errors and the energy account. -/
theorem scrubTouched_keeps {β : Type} {v : State → β} (hr : OffRegs v) (hm : OffMrec v) (hen : OffEnergy v)
    (he : ∀ (s : State) e, v (s.onX (fun x => { x with errs := e })) = v s) (w : Nat) (s : State) : v (scrubTouched w s) = v s := by
  have htouch : v (eccTouch none w s).1 = v s := by
    obtain ⟨t, ht, hrun⟩ := eccTouch_cases none w s
    have hvt : v t = v s := by
      rcases ht with rfl | rfl
      · rfl
      · exact (hr.ceNote w _).trans (he s _)
    rcases hrun with hrun | ⟨k, hrun⟩
    · rw [hrun, hvt]
    · rw [hrun, hm.ueNote hr, hvt]
  unfold scrubTouched
  dsimp only
  split
  · exact htouch
  · rw [hen.lpMoved hr, htouch]
theorem scrubTouched_corrects {w : Nat} {s : State} (hw : xaMem w ≠ .none) (he : tget 0 s.x.errs w = 1 ∨ tget 0 s.x.errs w = 2) :
    scrubTouched w s = lpMoved none true w 1 (ceNote w (s.onX (fun x => { x with errs := tset 0 x.errs w 0 }))) := by
  have herr : (ceNote w (s.onX (fun x => { x with errs := tset 0 x.errs w 0 }))).x.errs = tset 0 s.x.errs w 0 :=
    OffRegs.ceNote (v := fun s => s.x.errs) (fun _ _ => rfl) w _
  unfold scrubTouched
  rw [eccTouch_corrects none hw he]
  dsimp only
  rw [herr, tget_tset_same, if_neg (by omega)]
theorem scrubTouched_uncorrectable {w : Nat} {s : State} (hw : xaMem w ≠ .none) (he : tget 0 s.x.errs w = 3) : scrubTouched w s = ueNote none w 1 s := by
  have herr : (ueNote none w 1 s).x.errs = s.x.errs := OffMrec.ueNote (v := fun s => s.x.errs) (fun _ _ => rfl) (fun _ _ => rfl) none w 1 s
  unfold scrubTouched
  rw [eccTouch_uncorrectable none hw he]
  dsimp only
  rw [herr, if_pos rfl]

/-! The counters a scrubbed word moves. -/

theorem xaQuad_lt (w : Nat) : xaQuad w < 5 := Nat.mod_lt _ (by decide)
theorem fld_ceNote_tile {w : Nat} (s : State) (h : xaMem w = .tile) : (ceNote w s).fld F.XECC_TSRAM_CE = min 65535 (s.fld F.XECC_TSRAM_CE + 1) := by
  unfold ceNote
  rw [h]
  exact fld_satFld_same s 1 (by decide)
theorem fld_ceNote_shared {w : Nat} (s : State) (h : xaMem w = .shared) : (ceNote w s).fld F.XECC_SHARED_CE = min 65535 (s.fld F.XECC_SHARED_CE + 1) := by
  unfold ceNote
  rw [h]
  exact fld_satFld_same s 1 (by decide)
theorem fld_ceNote_lpddr {w : Nat} (s : State) (h : xaMem w = .lpddr) : (ceNote w s).fld F.XECC_LPDDR6_CE = min 65535 (s.fld F.XECC_LPDDR6_CE + 1) := by
  have hq := xaQuad_lt w
  unfold ceNote
  rw [h]
  dsimp only
  rw [fld_satFld_apart _ (f := F.XMEM_ERR_CE _) _ (Nat.le_of_ble_eq_true rfl) (.inl (by dsimp only [F.XECC_LPDDR6_CE, F.XMEM_ERR_CE]; omega))]
  exact fld_satFld_same s 1 (by decide)

theorem offReport_xecc {f : Fld} (h : 0x8F100 ≤ f.off ∧ f.off < 0x90000) : OffReport f := by
  unfold OffReport
  omega
theorem offBytes_xecc {f : Fld} (h : 0x8F100 ≤ f.off ∧ f.off < 0x90000) : OffBytes f := by
  intro q hq
  omega

section
variable (w : Nat) (s : State)

/-- A counter and the address of an uncorrectable word stand apart. -/
theorem fld_ueCounted {f : Fld} (hf : 0x8F110 ≤ f.off ∧ f.off < 0x90000) : (ueCounted w s).fld f = s.fld f := by
  have hq := xaQuad_lt w
  unfold ueCounted
  cases xaMem w with
  | tile => exact fld_satFld_apart s _ (by decide) (.inl (by dsimp only [F.XECC_TSRAM_UE]; omega))
  | shared => exact fld_satFld_apart s _ (by decide) (.inl (by dsimp only [F.XECC_SHARED_UE]; omega))
  | lpddr =>
    dsimp only
    rw [fld_irq _ _ _ (by omega), fld_satFld_apart _ (f := F.XMEM_ERR_UE _) _ (Nat.le_of_ble_eq_true rfl) (.inl (by dsimp only [F.XMEM_ERR_UE]; omega))]
    exact fld_satFld_apart s _ (by decide) (.inl (by dsimp only [F.XECC_LPDDR6_UE]; omega))
  | none => rfl
/-- Beyond the address and kind, what is shown of an uncorrectable word leaves every register of its page. -/
theorem fld_ueShown (job : Option Nat) (kind : Nat) {f : Fld} (hlo : f.off ≠ 0x8F110) (hhi : f.off ≠ 0x8F114) : (ueShown job w kind s).fld f = s.fld f := by
  unfold ueShown
  rw [State.fld_setFld_other _ F.XECC_UE_ADDR_HI_BY_JOB f _ hhi, State.fld_setFld_other _ F.XECC_UE_ADDR_HI_JOB f _ hhi,
    State.fld_setFld_other _ F.XECC_UE_ADDR_HI_KIND f _ hhi, State.fld_setFld_other _ F.XECC_UE_ADDR_HI_XA_HI f _ hhi,
    State.fld_setFld_other _ F.XECC_UE_ADDR_LO_XA f _ hlo]
theorem fld_ueShown_xa (job : Option Nat) (kind : Nat) : (ueShown job w kind s).fld F.XECC_UE_ADDR_LO_XA = 8 * w % 2 ^ 32 := by
  unfold ueShown
  rw [State.fld_setFld_other _ F.XECC_UE_ADDR_HI_BY_JOB _ _ (by decide), State.fld_setFld_other _ F.XECC_UE_ADDR_HI_JOB _ _ (by decide),
    State.fld_setFld_other _ F.XECC_UE_ADDR_HI_KIND _ _ (by decide), State.fld_setFld_other _ F.XECC_UE_ADDR_HI_XA_HI _ _ (by decide)]
  exact (State.fld_setFld_same _ _ _ (by decide)).trans (Nat.mod_mod _ _)
theorem fld_ueShown_kind (job : Option Nat) : (ueShown job w 1 s).fld F.XECC_UE_ADDR_HI_KIND = 1 := by
  unfold ueShown
  rw [State.fld_setFld_beside _ F.XECC_UE_ADDR_HI_BY_JOB F.XECC_UE_ADDR_HI_KIND _ rfl (by decide) (by decide),
    State.fld_setFld_beside _ F.XECC_UE_ADDR_HI_JOB F.XECC_UE_ADDR_HI_KIND _ rfl (by decide) (by decide)]
  exact State.fld_setFld_same _ _ _ (by decide)
theorem fld_ueShown_noJob (kind : Nat) : (ueShown none w kind s).fld F.XECC_UE_ADDR_HI_BY_JOB = 0 := by
  unfold ueShown
  exact State.fld_setFld_same _ _ _ (by decide)

/-- The recorder's part of an uncorrectable word, in the registers of XECC. -/
theorem fld_ueNote {f : Fld} (hf : 0x8F110 ≤ f.off ∧ f.off < 0x90000) : (ueNote none w 1 s).fld f = (ueShown none w 1 s).fld f := by
  rw [ueNote_recorded none w s (by decide), fld_ueCounted w _ hf, fld_note (offReport_xecc (by omega)), fld_irq _ _ _ (by omega)]
/-- The recorder's part, in the counters of XECC. -/
theorem fld_ueRecorded {f : Fld} (hf : 0x8F100 ≤ f.off ∧ f.off < 0x8F110) :
    (((ueShown none w 1 s).irq 0x8F 8).note 1 5 0x8F 0xFFFF Ev.xeccUe (8 * w)).fld f = s.fld f := by
  rw [fld_note (offReport_xecc (by omega)), fld_irq _ _ _ (by omega), fld_ueShown w s none 1 (by omega) (by omega)]
theorem fld_ueNote_tile (h : xaMem w = .tile) : (ueNote none w 1 s).fld F.XECC_TSRAM_UE = min 65535 (s.fld F.XECC_TSRAM_UE + 1) := by
  rw [ueNote_recorded none w s (by decide), ← fld_ueRecorded w s (f := F.XECC_TSRAM_UE) (by decide)]
  unfold ueCounted
  rw [h]
  exact fld_satFld_same _ 1 (by decide)
theorem fld_ueNote_shared (h : xaMem w = .shared) : (ueNote none w 1 s).fld F.XECC_SHARED_UE = min 65535 (s.fld F.XECC_SHARED_UE + 1) := by
  rw [ueNote_recorded none w s (by decide), ← fld_ueRecorded w s (f := F.XECC_SHARED_UE) (by decide)]
  unfold ueCounted
  rw [h]
  exact fld_satFld_same _ 1 (by decide)
theorem fld_ueNote_lpddr (h : xaMem w = .lpddr) : (ueNote none w 1 s).fld F.XECC_LPDDR6_UE = min 65535 (s.fld F.XECC_LPDDR6_UE + 1) := by
  have hq := xaQuad_lt w
  rw [ueNote_recorded none w s (by decide), ← fld_ueRecorded w s (f := F.XECC_LPDDR6_UE) (by decide)]
  unfold ueCounted
  rw [h]
  dsimp only
  rw [fld_irq _ _ _ (by decide), fld_satFld_apart _ (f := F.XMEM_ERR_UE _) _ (Nat.le_of_ble_eq_true rfl)
    (.inl (by dsimp only [F.XECC_LPDDR6_UE, F.XMEM_ERR_UE]; omega))]
  exact fld_satFld_same _ 1 (by decide)
end

/-! The clauses of a frame's scrub. -/

/-- A view of Xoide beside the stored errors, the scrub's position and the energy account. -/
def besideScrub (s : State) : XoideSt := { s.x with errs := [], scrub := 0, eInt := 0, eFrame := 0 }
theorem frame_of_besideScrub {s u : State} (h : besideScrub u = besideScrub s) :
    u.x = { s.x with errs := u.x.errs, scrub := u.x.scrub, eInt := u.x.eInt, eFrame := u.x.eFrame } := by
  unfold besideScrub at h
  generalize u.x = y at *
  generalize s.x = x at *
  cases y; cases x; simp only [XoideSt.mk.injEq] at h; simp only [XoideSt.mk.injEq]; simp_all
/-- Beside Xoide's record and the registers nothing changes. -/
def beyondXRegs (s : State) : State := { s with x := XoideSt.init, regs := [] }
theorem frame_of_beyondXRegs {s u : State} (h : beyondXRegs u = beyondXRegs s) : u = { s with x := u.x, regs := u.regs } := by
  cases u; cases s; simp only [beyondXRegs, State.mk.injEq] at h; simp only [State.mk.injEq]; simp_all

section
variable {s : State} (hen : s.fld F.XECC_SCRUB_EN = 1)
include hen

/-- With no codeword in error the scrub only reads on (R171, R173). -/
theorem scrubFrame_clean_spec (he : s.x.errs = []) {u : State} (hu : scrubFrame s = u) :
    u.x = { s.x with scrub := (s.x.scrub + 1) % 67108860, eInt := u.x.eInt, eFrame := u.x.eFrame } ∧
      u.fld F.XECC_SCRUB_PASSES = (if s.x.scrub = 67108859 then min 65535 (s.fld F.XECC_SCRUB_PASSES + 1) else s.fld F.XECC_SCRUB_PASSES) ∧
      u = { s with x := u.x, regs := u.regs } := by
  have hreads : beyondXRegs (scrubReads s.x.scrub s) = beyondXRegs s := OffEnergy.scrubReads (v := beyondXRegs) (fun _ _ _ => rfl) (fun _ _ => rfl) _ s
  have hx : ({ (scrubReads s.x.scrub s).x with eInt := 0, eFrame := 0 } : XoideSt) = { s.x with eInt := 0, eFrame := 0 } :=
    OffEnergy.scrubReads (v := fun s : State => ({ s.x with eInt := 0, eFrame := 0 } : XoideSt)) (fun _ _ _ => rfl) (fun _ _ => rfl) _ s
  have hpass : (scrubReads s.x.scrub s).fld F.XECC_SCRUB_PASSES = s.fld F.XECC_SCRUB_PASSES := fld_scrubReads (offBytes_xecc (by decide)) _ s
  rw [← hu, scrubFrame_clean hen he]
  generalize scrubReads s.x.scrub s = m at *
  refine ⟨?_, ?_, frame_of_beyondXRegs ?_⟩
  · rw [scrubEnd_x]
    generalize m.x = y at *
    generalize s.x = x at *
    cases y; cases x; simp only [XoideSt.mk.injEq] at hx; simp only [XoideSt.mk.injEq]; simp_all [scrubPass]
  · rw [fld_scrubEnd_passes, hpass]
    have hlast : s.x.scrub + 1 = scrubPass ↔ s.x.scrub = 67108859 := by unfold scrubPass; omega
    simp only [hlast]
  · rw [scrubEnd_keeps (v := beyondXRegs) (fun _ _ => rfl) (fun _ _ => rfl), hreads]
end

theorem tget_singleton (r : Nat × Nat) : tget 0 [r] r.1 = r.2 := if_pos rfl
theorem tset_singleton (r : Nat × Nat) : tset 0 [r] r.1 0 = [] := by
  unfold tset
  rw [if_pos rfl]
  exact if_pos rfl

/-- A field of XECC beside the counter of passes. -/
abbrev XeccField (f : Fld) : Prop := 0x8F100 ≤ f.off ∧ f.off < 0x8F118
theorem fld_scrubEnd_xecc (n : Nat) (s : State) {f : Fld} (h : XeccField f) : (scrubEnd n s).fld f = s.fld f :=
  fld_scrubEnd n s (.inl (by dsimp only [F.XECC_SCRUB_PASSES]; omega))

section
variable {s : State} {r : Nat × Nat} (he : s.x.errs = [r]) (hw : xaMem r.1 ≠ .none)
include he hw

/-- One or two wrong bits in the word the scrub meets: the stored error goes, and its memory counts it. -/
theorem scrubTouched_corrected_spec (h : r.2 = 1 ∨ r.2 = 2) : (scrubTouched r.1 s).x.errs = [] ∧
    (xaMem r.1 = .tile → (scrubTouched r.1 s).fld F.XECC_TSRAM_CE = min 65535 (s.fld F.XECC_TSRAM_CE + 1)) ∧
    (xaMem r.1 = .shared → (scrubTouched r.1 s).fld F.XECC_SHARED_CE = min 65535 (s.fld F.XECC_SHARED_CE + 1)) ∧
    (xaMem r.1 = .lpddr → (scrubTouched r.1 s).fld F.XECC_LPDDR6_CE = min 65535 (s.fld F.XECC_LPDDR6_CE + 1)) := by
  rw [scrubTouched_corrects hw (by rw [he, tget_singleton]; exact h)]
  refine ⟨?_, fun hm => ?_, fun hm => ?_, fun hm => ?_⟩
  · rw [OffEnergy.lpMoved (v := fun s : State => s.x.errs) (fun _ _ _ => rfl) (fun _ _ => rfl),
      OffRegs.ceNote (v := fun s : State => s.x.errs) (fun _ _ => rfl)]
    exact (congrArg (fun e => tset 0 e r.1 0) he).trans (tset_singleton r)
  · exact (fld_lpMoved (offBytes_xecc (by decide)) ..).trans (fld_ceNote_tile _ hm)
  · exact (fld_lpMoved (offBytes_xecc (by decide)) ..).trans (fld_ceNote_shared _ hm)
  · exact (fld_lpMoved (offBytes_xecc (by decide)) ..).trans (fld_ceNote_lpddr _ hm)
/-- Three wrong bits: the word stays as it is, its address is shown, and its memory counts it. -/
theorem scrubTouched_uncorrectable_spec (h : r.2 = 3) : (scrubTouched r.1 s).x.errs = [r] ∧
    (scrubTouched r.1 s).fld F.XECC_UE_ADDR_LO_XA = 8 * r.1 % 2 ^ 32 ∧ (scrubTouched r.1 s).fld F.XECC_UE_ADDR_HI_KIND = 1 ∧
    (scrubTouched r.1 s).fld F.XECC_UE_ADDR_HI_BY_JOB = 0 ∧
    (xaMem r.1 = .tile → (scrubTouched r.1 s).fld F.XECC_TSRAM_UE = min 65535 (s.fld F.XECC_TSRAM_UE + 1)) ∧
    (xaMem r.1 = .shared → (scrubTouched r.1 s).fld F.XECC_SHARED_UE = min 65535 (s.fld F.XECC_SHARED_UE + 1)) ∧
    (xaMem r.1 = .lpddr → (scrubTouched r.1 s).fld F.XECC_LPDDR6_UE = min 65535 (s.fld F.XECC_LPDDR6_UE + 1)) := by
  rw [scrubTouched_uncorrectable hw (by rw [he, tget_singleton]; exact h)]
  refine ⟨?_, ?_, ?_, ?_, fld_ueNote_tile _ _, fld_ueNote_shared _ _, fld_ueNote_lpddr _ _⟩
  · rw [OffMrec.ueNote (v := fun s : State => s.x.errs) (fun _ _ => rfl) (fun _ _ => rfl)]
    exact he
  · rw [fld_ueNote _ _ (by decide), fld_ueShown_xa]
  · rw [fld_ueNote _ _ (by decide), fld_ueShown_kind]
  · rw [fld_ueNote _ _ (by decide), fld_ueShown_noJob]
end

/-- The scrub meets a word whose codeword holds an error (R170, R171). -/
theorem scrubFrame_hit_spec {s : State} (hen : s.fld F.XECC_SCRUB_EN = 1) {r : Nat × Nat} (he : s.x.errs = [r])
    (hr : scrubHits s s.x.scrub r.1 = true) {u : State} (hu : scrubFrame s = u) : u.x.scrub = (s.x.scrub + 1) % 67108860 ∧
    (r.2 = 1 ∨ r.2 = 2 → u.x.errs = [] ∧
      (xaMem r.1 = .tile → u.fld F.XECC_TSRAM_CE = min 65535 (s.fld F.XECC_TSRAM_CE + 1)) ∧
      (xaMem r.1 = .shared → u.fld F.XECC_SHARED_CE = min 65535 (s.fld F.XECC_SHARED_CE + 1)) ∧
      (xaMem r.1 = .lpddr → u.fld F.XECC_LPDDR6_CE = min 65535 (s.fld F.XECC_LPDDR6_CE + 1))) ∧
    (r.2 = 3 → u.x.errs = [r] ∧ u.fld F.XECC_UE_ADDR_LO_XA = 8 * r.1 % 2 ^ 32 ∧ u.fld F.XECC_UE_ADDR_HI_KIND = 1 ∧ u.fld F.XECC_UE_ADDR_HI_BY_JOB = 0 ∧
      (xaMem r.1 = .tile → u.fld F.XECC_TSRAM_UE = min 65535 (s.fld F.XECC_TSRAM_UE + 1)) ∧
      (xaMem r.1 = .shared → u.fld F.XECC_SHARED_UE = min 65535 (s.fld F.XECC_SHARED_UE + 1)) ∧
      (xaMem r.1 = .lpddr → u.fld F.XECC_LPDDR6_UE = min 65535 (s.fld F.XECC_LPDDR6_UE + 1))) ∧
    u.x = { s.x with errs := u.x.errs, scrub := u.x.scrub, eInt := u.x.eInt, eFrame := u.x.eFrame } ∧
    u = { s with x := u.x, regs := u.regs, mrec := u.mrec } := by
  have hw := scrubHits_assigned hr
  have hreads : ∀ {f : Fld}, OffBytes f → (scrubReads s.x.scrub s).fld f = s.fld f := fun hf => fld_scrubReads hf _ s
  have herrs : (scrubReads s.x.scrub s).x.errs = [r] :=
    (OffEnergy.scrubReads (v := fun s : State => s.x.errs) (fun _ _ _ => rfl) (fun _ _ => rfl) _ s).trans he
  have hbeside : besideScrub (scrubReads s.x.scrub s) = besideScrub s := OffEnergy.scrubReads (v := besideScrub) (fun _ _ _ => rfl) (fun _ _ => rfl) _ s
  have hbeyond : beyondXoide (scrubReads s.x.scrub s) = beyondXoide s := OffEnergy.scrubReads (v := beyondXoide) (fun _ _ _ => rfl) (fun _ _ => rfl) _ s
  rw [← hu, scrubFrame_hit hen he hr]
  generalize scrubReads s.x.scrub s = m at *
  have hx := scrubEnd_x s.x.scrub (scrubTouched r.1 m)
  refine ⟨by rw [hx]; rfl, fun h => ?_, fun h => ?_, frame_of_besideScrub ?_, frame_of_beyondXoide ?_⟩
  · obtain ⟨herr, htile, hshared, hlpddr⟩ := scrubTouched_corrected_spec herrs hw h
    rw [hreads (offBytes_xecc (by decide))] at htile hshared hlpddr
    rw [hx, fld_scrubEnd_xecc _ _ (by decide), fld_scrubEnd_xecc _ _ (by decide), fld_scrubEnd_xecc _ _ (by decide)]
    exact ⟨herr, htile, hshared, hlpddr⟩
  · obtain ⟨herr, hxa, hkind, hjob, htile, hshared, hlpddr⟩ := scrubTouched_uncorrectable_spec herrs hw h
    rw [hreads (offBytes_xecc (by decide))] at htile hshared hlpddr
    rw [hx, fld_scrubEnd_xecc _ _ (by decide), fld_scrubEnd_xecc _ _ (by decide), fld_scrubEnd_xecc _ _ (by decide),
      fld_scrubEnd_xecc _ _ (by decide), fld_scrubEnd_xecc _ _ (by decide), fld_scrubEnd_xecc _ _ (by decide)]
    exact ⟨herr, hxa, hkind, hjob, htile, hshared, hlpddr⟩
  · refine Eq.trans ?_ ((scrubTouched_keeps (v := besideScrub) (fun _ _ => rfl) (fun _ _ => rfl) (fun _ _ _ => rfl) (fun _ _ => rfl) r.1 m).trans hbeside)
    unfold besideScrub
    rw [hx]
  · rw [scrubEnd_keeps (v := beyondXoide) (fun _ _ => rfl) (fun _ _ => rfl),
      scrubTouched_keeps (v := beyondXoide) (fun _ _ => rfl) (fun _ _ => rfl) (fun _ _ _ => rfl) (fun _ _ => rfl), hbeyond]

end Sys2Proof.Machine

namespace Sys2Proof.Machine
open Sys2Proof

/-! ### An injection is armed (R169, XECC_INJECT) -/

theorem injectArm_spec (hi : BitVec 8) (s : State) : 
    (injectArm hi.toNat s).x = { s.x with inject := some ((s.fld F.XECC_INJECT_XA_LO_XA + 2 ^ 32 * hi.toNat) / 8, s.fld F.XECC_INJECT_MEM,
      s.fld F.XECC_INJECT_BITS, s.fld F.XECC_INJECT_AF == 1) } ∧
    (injectArm hi.toNat s).fld F.XECC_INJECT_XA_HI_XA = hi.toNat ∧
    injectArm hi.toNat s = { s with x := (injectArm hi.toNat s).x, regs := (injectArm hi.toNat s).regs } := by
  have hlt : hi.toNat < 256 := hi.isLt
  have hfld : ∀ f : Fld, f.off ≠ 0x8F124 → (s.setFld F.XECC_INJECT_XA_HI_XA hi.toNat).fld f = s.fld f := fun f hf => State.fld_setFld_other s _ f _ hf
  refine ⟨?_, (State.fld_setFld_same s F.XECC_INJECT_XA_HI_XA _ (by decide)).trans (Nat.mod_eq_of_lt hlt), rfl⟩
  unfold injectArm
  dsimp only [State.onX]
  rw [hfld F.XECC_INJECT_XA_LO_XA (by decide), hfld F.XECC_INJECT_MEM (by decide), hfld F.XECC_INJECT_BITS (by decide),
    hfld F.XECC_INJECT_AF (by decide), Nat.mod_eq_of_lt hlt, State.setFld_x]

/-! ### Xoide back to reset (R58, R312, R359) -/

/-- A view that does not see the operating points. -/
def OffOpp {β : Type} (v : State → β) : Prop := ∀ (s : State) x h, v { s with xopp := x, hopp := h } = v s

theorem OffRegs.oppShow {β : Type} {v : State → β} (h : OffRegs v) (s : State) : v (oppShow s) = v s := by
  unfold Machine.oppShow
  dsimp only
  rw [h.setFld, h.setFld, foldl_keeps v _ (fun s n => h.setFld ..), h.setFld, h.setFld, h.setFld, h.setFld, h.setFld, h.setFld]
theorem OffOpp.supplyLims {β : Type} {v : State → β} (h : OffOpp v) (s : State) : v (supplyLims s) = v s := h s _ _

theorem tget_tclear {α : Type} (d : α) (t : Tbl α) {lo hi k : Nat} (h : lo ≤ k ∧ k < hi) : tget d (tclear t lo hi) k = d := by
  induction t with
  | nil => rfl
  | cons e r ih =>
    obtain ⟨j, v⟩ := e
    unfold tclear at ih ⊢
    rw [List.filter_cons]
    split
    · next hj =>
      have hjk : j ≠ k := by
        rintro rfl
        simp only [Bool.or_eq_true, decide_eq_true_eq] at hj
        omega
      exact (if_neg hjk).trans ih
    · exact ih

/-- Xoide's record after a reset; `keep` says that LPDDR6 is held in self-refresh. -/
def clearedX (keep : Bool) (x : XoideSt) : XoideSt :=
  { XoideSt.init with lp := if keep then x.lp else [], hist := if keep then x.hist else [], dhist := if keep then x.dhist else [],
                      errs := if keep then x.errs.filter (fun e => xaMem e.1 == .lpddr) else [] }
/-- What a reset of Xoide leaves, its registers and operating points aside. -/
theorem xoideClear_view {β : Type} {v : State → β} (hr : OffRegs v) (ho : OffOpp v) (keep : Bool) (s : State) : v (xoideClear keep s) =
    v { s with blk := tclear s.blk 0x80 0x90, gov := govDropXoide s.gov, x := clearedX keep s.x, ingest := .init, ucie := ucieLost s.ucie } := by
  have hclk : ((upto 14).foldl (fun s k => domRun (20 + k) false s) s) = { s with regs := ((upto 14).foldl (fun s k => domRun (20 + k) false s) s).regs } := by
    have hkeep : ({ (upto 14).foldl (fun s k => domRun (20 + k) false s) s with regs := [] } : State) = { s with regs := [] } := by
      refine foldl_keeps (fun s : State => ({ s with regs := [] } : State)) _ (fun s k => ?_) _ s
      unfold domRun
      split
      · rfl
      · split <;> rfl
    generalize List.foldl _ s (upto 14) = m at *
    cases m; cases s; simp only [State.mk.injEq] at hkeep; simp only [State.mk.injEq]; simp_all
  unfold xoideClear
  dsimp only
  rw [hr.oppShow, ho.supplyLims]
  generalize List.foldl _ s (upto 14) = m at *
  rw [hclk]
  exact (hr { s with blk := tclear s.blk 0x80 0x90, gov := govDropXoide s.gov, x := clearedX keep s.x, ingest := .init, ucie := ucieLost s.ucie, xopp := .xoide } _).trans
    (ho { s with blk := tclear s.blk 0x80 0x90, gov := govDropXoide s.gov, x := clearedX keep s.x, ingest := .init, ucie := ucieLost s.ucie } _ _)

/-- Quadrants held in self-refresh. -/
def heldRefresh (l : List Nat) (s : State) : State := l.foldl (fun s q => s.setFld (F.XMEM_STAT_SR q) 1) s
theorem heldRefresh_keeps {β : Type} {v : State → β} (h : OffRegs v) (l : List Nat) (s : State) : v (heldRefresh l s) = v s :=
  foldl_keeps v _ (fun _ _ => h.setFld ..) l s
theorem fld_heldRefresh {l : List Nat} {q : Nat} (s : State) (h : q ∈ l ∨ s.fld (F.XMEM_STAT_SR q) = 1) :
    (heldRefresh l s).fld (F.XMEM_STAT_SR q) = 1 := by
  induction l generalizing s with
  | nil => exact h.resolve_left (by simp)
  | cons a l ih =>
    refine ih _ ?_
    by_cases ha : q = a
    · subst ha
      exact .inr (State.fld_setFld_same _ _ _ (Nat.le_of_ble_eq_true rfl))
    · refine h.imp (fun hq => (List.mem_cons.1 hq).resolve_left ha) (fun hs => ?_)
      rw [State.fld_setFld_other _ _ _ _ (by dsimp only [F.XMEM_STAT_SR]; omega)]
      exact hs

/-- Hervi keeps the active set's manifest to load it again. -/
def setKept (s : State) : State := { s with herv := { s.herv with xset := match s.x.active with | some m => some m | none => s.herv.xset } }
theorem xoideReset_eq (s : State) : xoideReset s =
    heldRefresh ((upto 5).filter (fun q => (blkGet s (0x8A + q)).state == .run)) (xoideClear true (setKept s)) := rfl
theorem xoideReset_view {β : Type} {v : State → β} (hr : OffRegs v) (ho : OffOpp v) (s : State) : v (xoideReset s) =
    v { setKept s with blk := tclear s.blk 0x80 0x90, gov := govDropXoide s.gov, x := clearedX true s.x, ingest := .init, ucie := ucieLost s.ucie } := by
  rw [xoideReset_eq, heldRefresh_keeps hr, xoideClear_view hr ho]
  rfl

/-- Every access Hervi has out stays out under its tag, with an address nothing answers (R312). -/
theorem ucieLost_out (u : UcieSt) {m : MemAcc} (hm : m ∈ u.out) : (ucieLost u).out.any (fun x => x.tag == m.tag && x.xa == xaLost) = true := by
  refine List.any_eq_true.2 ⟨{ m with xa := xaLost }, ?_, by simp⟩
  exact List.mem_map.2 ⟨m, List.mem_append_left _ hm, rfl⟩

/-- A reset of Xoide (R312, R359). -/
theorem xoideReset_spec (s : State) :
    (xoideReset s).x = { XoideSt.init with lp := s.x.lp, hist := s.x.hist, dhist := s.x.dhist, errs := s.x.errs.filter (fun e => xaMem e.1 == .lpddr) } ∧
      (∀ k : Fin 16, blkGet (xoideReset s) (0x80 + k.val) = {}) ∧
      (∀ q : Fin 5, (blkGet s (0x8A + q.val)).state = .run → (xoideReset s).fld (F.XMEM_STAT_SR q.val) = 1) ∧
      (xoideReset s).herv = { s.herv with xset := (if s.x.active.isSome then s.x.active else s.herv.xset) } ∧ (xoideReset s).ucie.memCpl = [] ∧
      (∀ m ∈ s.ucie.out, (xoideReset s).ucie.out.any (fun x => x.tag == m.tag && x.xa == xaLost) = true) ∧
      (xoideReset s).laneA = s.laneA ∧ (xoideReset s).laneB = s.laneB ∧ (xoideReset s).mrec = s.mrec ∧ (xoideReset s).time = s.time := by
  have hucie : (xoideReset s).ucie = ucieLost s.ucie := xoideReset_view (v := State.ucie) (fun _ _ => rfl) (fun _ _ _ => rfl) s
  have hblk : (xoideReset s).blk = tclear s.blk 0x80 0x90 := xoideReset_view (v := State.blk) (fun _ _ => rfl) (fun _ _ _ => rfl) s
  refine ⟨xoideReset_view (v := State.x) (fun _ _ => rfl) (fun _ _ _ => rfl) s, fun k => ?_, fun q hq => ?_, ?_, ?_, fun m hm => ?_,
    xoideReset_view (v := State.laneA) (fun _ _ => rfl) (fun _ _ _ => rfl) s, xoideReset_view (v := State.laneB) (fun _ _ => rfl) (fun _ _ _ => rfl) s,
    xoideReset_view (v := State.mrec) (fun _ _ => rfl) (fun _ _ _ => rfl) s, xoideReset_view (v := State.time) (fun _ _ => rfl) (fun _ _ _ => rfl) s⟩
  · unfold blkGet
    rw [hblk]
    have hk : 0x80 ≤ 0x80 + k.val ∧ 0x80 + k.val < 0x90 := by have := k.isLt; omega
    exact tget_tclear {} s.blk hk
  · rw [xoideReset_eq]
    exact fld_heldRefresh _ (.inl (List.mem_filter.2 ⟨List.mem_range.2 q.isLt, by rw [hq]; rfl⟩))
  · rw [xoideReset_view (v := State.herv) (fun _ _ => rfl) (fun _ _ _ => rfl)]
    dsimp only [setKept]
    cases s.x.active <;> rfl
  · rw [hucie]; rfl
  · rw [hucie]
    exact ucieLost_out s.ucie hm

/-! ### The package rail is lost (R58, R358) -/

/-- What goes with the package rail beside Xoide and the Hervi cores, registers aside. -/
def railGone (s : State) : State :=
  { s with pwr := { s.pwr with pkgRail := false }, ucie := .init, blk := tclear s.blk 0x90 0x91, hopp := .hervi,
           herv := { s.herv with sram := [], halted := false, xset := none },
           mrec := { s.mrec with entries := [], head := 1, queue := [], peak := 0, events := List.replicate 8 0, lost := List.replicate 8 0,
                                 lastCursor := 0, unread := 0, running := false, seenA := List.replicate 8 0, seenB := List.replicate 8 0,
                                 seenSh := List.replicate 8 0 },
           mbox := { s.mbox with flight := none }, sec := { s.sec with dbg := s.sec.dbg / 4 * 4 } }
theorem OffRegs.panShow {β : Type} {v : State → β} (h : OffRegs v) (s : State) : v (panShow s) = v s := by
  unfold Machine.panShow
  extract_lets p s₁ s₂ s₃ s₄ s₅
  refine (h s₅ _).trans ?_
  simp only [s₅, s₄, s₃, s₂, s₁, h.setFld]
theorem pkgLoss_eq (s : State) : ∃ rf, pkgLoss s =
    oppShow (supplyLims (recShow (ownerShow (panShow { railGone (xoideClear false (hervDown s)) with regs := rf })))) := by
  unfold pkgLoss
  generalize xoideClear false (hervDown s) = m
  exact ⟨_, rfl⟩
theorem pkgLoss_view {β : Type} {v : State → β} (hr : OffRegs v) (ho : OffOpp v) (s : State) : v (pkgLoss s) = v (railGone (xoideClear false (hervDown s))) := by
  obtain ⟨rf, h⟩ := pkgLoss_eq s
  unfold ownerShow at h
  rw [h, hr.oppShow, ho.supplyLims, recShow_keeps v (fun s rf => hr s rf), hr.setFld, hr.panShow]
  exact hr _ rf
/-- Xoide, Hervi and the rail all gone, registers and operating points aside. -/
def packageGone (s : State) : State :=
  railGone { hervDown s with blk := tclear s.blk 0x80 0x90, gov := govDropXoide s.gov, x := XoideSt.init, ingest := .init, ucie := ucieLost s.ucie }
theorem pkgLoss_eq_packageGone {β : Type} {v : State → β} (hr : OffRegs v) (ho : OffOpp v) (hr' : OffRegs fun t => v (railGone t))
    (ho' : OffOpp fun t => v (railGone t)) (s : State) : v (pkgLoss s) = v (packageGone s) :=
  (pkgLoss_view hr ho s).trans (xoideClear_view hr' ho' false (hervDown s))

/-- The governor forgets every ramp of the ergs and of LPDDR6. -/
theorem govDropXoide_admitted (g : GovSt) {a : GovAdm} (h : a ∈ (govDropXoide g).admitted) : a.item.cls ≠ .erg ∧ a.item.cls ≠ .lpddr := by
  obtain ⟨-, hk⟩ := List.mem_filter.1 h
  simpa using hk

/-- The loss of the package rail (R58, R358). -/
theorem pkgLoss_spec (s : State) : (pkgLoss s).pwr.pkgRail = false ∧ (pkgLoss s).x = XoideSt.init ∧ (pkgLoss s).herv.up = false ∧
    (pkgLoss s).herv.redfish = false ∧ (pkgLoss s).herv.sram = [] ∧ (pkgLoss s).herv.img0 = s.herv.img0 ∧ (pkgLoss s).herv.img1 = s.herv.img1 ∧
    (pkgLoss s).mrec.entries = [] ∧ (pkgLoss s).mrec.running = false ∧ (pkgLoss s).laneA = s.laneA ∧ (pkgLoss s).laneB = s.laneB ∧
    (pkgLoss s).time = s.time ∧ (pkgLoss s).pwr.laneRail = s.pwr.laneRail ∧
    (∀ a ∈ (pkgLoss s).gov.admitted, a.item.cls ≠ .erg ∧ a.item.cls ≠ .lpddr) := by
  have hpwr := pkgLoss_eq_packageGone (v := State.pwr) (fun _ _ => rfl) (fun _ _ _ => rfl) (fun _ _ => rfl) (fun _ _ _ => rfl) s
  have hherv := pkgLoss_eq_packageGone (v := State.herv) (fun _ _ => rfl) (fun _ _ _ => rfl) (fun _ _ => rfl) (fun _ _ _ => rfl) s
  have hmrec := pkgLoss_eq_packageGone (v := State.mrec) (fun _ _ => rfl) (fun _ _ _ => rfl) (fun _ _ => rfl) (fun _ _ _ => rfl) s
  have hgov := pkgLoss_eq_packageGone (v := State.gov) (fun _ _ => rfl) (fun _ _ _ => rfl) (fun _ _ => rfl) (fun _ _ _ => rfl) s
  refine ⟨by rw [hpwr]; rfl, ?_, by rw [hherv]; rfl, by rw [hherv]; rfl, by rw [hherv]; rfl, by rw [hherv]; rfl, by rw [hherv]; rfl,
    by rw [hmrec]; rfl, by rw [hmrec]; rfl, ?_, ?_, ?_, by rw [hpwr]; rfl, fun a ha => ?_⟩
  · exact pkgLoss_eq_packageGone (v := State.x) (fun _ _ => rfl) (fun _ _ _ => rfl) (fun _ _ => rfl) (fun _ _ _ => rfl) s
  · exact pkgLoss_eq_packageGone (v := State.laneA) (fun _ _ => rfl) (fun _ _ _ => rfl) (fun _ _ => rfl) (fun _ _ _ => rfl) s
  · exact pkgLoss_eq_packageGone (v := State.laneB) (fun _ _ => rfl) (fun _ _ _ => rfl) (fun _ _ => rfl) (fun _ _ _ => rfl) s
  · exact pkgLoss_eq_packageGone (v := State.time) (fun _ _ => rfl) (fun _ _ _ => rfl) (fun _ _ => rfl) (fun _ _ _ => rfl) s
  · rw [hgov] at ha
    exact govDropXoide_admitted s.gov ha

end Sys2Proof.Machine

namespace Sys2Proof.Machine
open Sys2Proof

/-- The three answers to a write that arms an injection (R32, R169). -/
theorem execXeccInjectArm_cases (hi : BitVec 8) (s : State) :
    (s.locked 0x8F = true → execXeccInjectArm hi s = .next (s.refuse 0x8F 4)) ∧
    (s.locked 0x8F = false → s.presence = false → execXeccInjectArm hi s = .next (s.refuse 0x8F 2)) ∧
    (s.locked 0x8F = false → s.presence = true → execXeccInjectArm hi s = .next (injectArm hi.toNat s)) := by
  unfold execXeccInjectArm
  refine ⟨fun hl => ?_, fun hl hp => ?_, fun hl hp => ?_⟩ <;> simp [*]
/-- The three answers to a write of RST_REQ on page 088 (R30, R32, R312). -/
theorem xoideResetWrite_cases (s : State) :
    (reachable s 0x88 = true → s.locked 0x88 = false → xoideResetWrite s = xoideReset s) ∧
    (reachable s 0x88 = true → s.locked 0x88 = true → xoideResetWrite s = s.refuse 0x88 4) ∧
    (reachable s 0x88 = false → xoideResetWrite s = busErr s 0x88008 true) := by
  unfold xoideResetWrite
  refine ⟨fun hr hl => ?_, fun hr hl => ?_, fun hr => ?_⟩ <;> simp [*]
theorem execScrub_up {s : State} (h : s.x.up = true) : execScrub s = .next (scrubFrame s) := congrArg Host.Outcome.next (if_pos h)
theorem execScrub_idle {s : State} (h : s.x.up = false ∨ s.fld F.XECC_SCRUB_EN = 0) : execScrub s = .next s := by
  unfold execScrub
  refine congrArg Host.Outcome.next ?_
  rcases h with hup | hen
  · exact if_neg (by rw [hup]; decide)
  · rw [show scrubFrame s = s from if_pos hen, ite_self]

/-- Settles O39: each command's own function is followed through the blocks of an erg, the scrub's one word, or the view of what a loss leaves. -/
theorem ergsCodewordsAndResets : Obligations.ErgsCodewordsAndResets := by
  unfold Obligations.ErgsCodewordsAndResets
  intro s
  obtain ⟨hreset, hlocked, hdown⟩ := xoideResetWrite_cases s
  refine ⟨fun n h hg => ⟨?_, fun l => ?_⟩, fun n bad h => congrArg Host.Outcome.next (ergStarted_idle bad h), fun n ha h => ?_,
    fun n h => congrArg Host.Outcome.next (ergUnlock_asleep h), fun hup hen => ⟨fun he => ⟨_, execScrub_up hup, scrubFrame_clean_spec hen he rfl⟩,
      fun r he hr => ⟨_, execScrub_up hup, scrubFrame_hit_spec hen he hr rfl⟩⟩, execScrub_idle, fun hi => ?_,
    fun hr hl => ⟨_, congrArg Host.Outcome.next (hreset hr hl), xoideReset_spec s⟩, fun hr hl => congrArg Host.Outcome.next (hlocked hr hl),
    fun hr => congrArg Host.Outcome.next (hdown hr), _, rfl, pkgLoss_spec s⟩
  · obtain ⟨hrun, hawake, hfail, htiles⟩ := ergStart_spec n.isLt s h rfl
    exact ⟨_, congrArg Host.Outcome.next (ergStarted_tested h hg), hrun, hawake, hfail,
      OffBlocks.blkMove (v := State.laneA) (fun _ _ _ _ _ _ _ _ _ _ _ _ => rfl) s _ _,
      OffBlocks.blkMove (v := State.laneB) (fun _ _ _ _ _ _ _ _ _ _ _ _ => rfl) s _ _,
      OffBlocks.blkMove (v := State.time) (fun _ _ _ _ _ _ _ _ _ _ _ _ => rfl) s _ _, htiles⟩
  · obtain ⟨u, hu, hspec⟩ := ergStarted_failed_spec n.isLt s l h hg
    exact ⟨u, congrArg Host.Outcome.next hu, hspec⟩
  · obtain ⟨u, hu, hspec⟩ := ergUnlock_spec n.isLt s ha h
    exact ⟨u, congrArg Host.Outcome.next hu, hspec⟩
  · obtain ⟨hl, hp, hok⟩ := execXeccInjectArm_cases hi s
    exact ⟨hl, hp, fun h₁ h₂ => ⟨_, hok h₁ h₂, injectArm_spec hi s⟩⟩

end Sys2Proof.Machine

namespace Sys2Proof.Machine
open Sys2Proof

/-! ### The header commands of a page that answers (R31, R32, R47) -/

theorem execIrqClear_reachable {p : BitVec 8} {s : State} (h : reachable s p.toNat = true) (bits same : Word) :
    execIrqClear p bits same s = .next (irqClear p.toNat bits same s) := congrArg Host.Outcome.next (if_pos h)
theorem execErrCntClear_reachable {p : BitVec 8} {s : State} (h : reachable s p.toNat = true) (same : Option (BitVec 8)) :
    execErrCntClear p same s = .next (errCntClear p.toNat same s) := congrArg Host.Outcome.next (if_pos h)
/-- The error count of a page cleared in the cycle of an error: COUNT is 1 and LAST_CODE the error's (R32). -/
theorem errCntClear_same (p : Nat) (c : BitVec 8) (s : State) :
    (rget (errCntClear p (some c) s).regs (hdrErr p)).toNat = 1 + 65536 * c.toNat := by
  have hc : c.toNat < 256 := c.isLt
  have hcount : satAdd 0xFFFF ((0 : Word).toNat % 65536) 1 = 1 := rfl
  show (rget (regErr (rset s.regs (hdrErr p) 0) p c.toNat) (hdrErr p)).toNat = _
  rw [rget_regErr_cnt, rget_rset_same, hcount, Nat.mod_eq_of_lt hc, BitVec.toNat_ofNat, Nat.mod_eq_of_lt (by omega)]
theorem execBusErrClear_open {s : State} (h : s.locked 0 = false) : execBusErrClear s = .next (s.setFld F.SYS_BUS_ERR_COUNT 0) :=
  congrArg Host.Outcome.next (if_neg (by rw [h]; decide))

/-! ### What a bus error shows (R47) -/

section
variable (s : State) (a : Nat) (write : Bool)

theorem busErr_count : (busErr s a write).fld F.SYS_BUS_ERR_COUNT =
    if s.fld F.SYS_BUS_ERR_COUNT + 1 > 65535 then 65535 else s.fld F.SYS_BUS_ERR_COUNT + 1 := by
  have hcount : (s.satFld F.SYS_BUS_ERR_COUNT 1).fld F.SYS_BUS_ERR_COUNT = min 65535 (s.fld F.SYS_BUS_ERR_COUNT + 1) :=
    fld_satFld_same s 1 (by decide)
  unfold busErr
  rw [State.fld_setFld_other _ F.SYS_BUS_ERR_ADDR_WRITE _ _ (by decide), State.fld_setFld_other _ F.SYS_BUS_ERR_ADDR_ADDR _ _ (by decide), hcount]
  split <;> omega
theorem busErr_addr (h : a < 2 ^ 20) : (busErr s a write).fld F.SYS_BUS_ERR_ADDR_ADDR = a := by
  unfold busErr
  rw [State.fld_setFld_beside _ F.SYS_BUS_ERR_ADDR_WRITE F.SYS_BUS_ERR_ADDR_ADDR _ rfl (by decide) (by decide)]
  exact (State.fld_setFld_same _ _ _ (by decide)).trans (Nat.mod_eq_of_lt h)
theorem busErr_write : (busErr s a write).fld F.SYS_BUS_ERR_ADDR_WRITE = b2n write := by
  unfold busErr
  rw [State.fld_setFld_same _ _ _ (by decide)]
  cases write <;> rfl
end

theorem busErr_frame (s : State) (a : Nat) (write : Bool) : busErr s a write = { s with regs := (busErr s a write).regs } := rfl
theorem rdData_of_frame {s u : State} {rf : RegFile} (h : u = { s with regs := rf }) (n : Nat) :
    ({ u with rdData := n } : State) = { s with regs := rf, rdData := n } := by subst h; rfl
theorem execBusTimeout_eq (a : BitVec 20) (write : Bool) (s : State) : execBusTimeout a write s =
    .next { s with regs := (busErr s a.toNat write).regs, rdData := if write then s.rdData else 0 } :=
  congrArg Host.Outcome.next (rdData_of_frame (busErr_frame s a.toNat write) _)
theorem fld_regs_rdData (s u : State) (n : Nat) (f : Fld) : State.fld { s with regs := u.regs, rdData := n } f = u.fld f := rfl
/-- An access that timed out is counted with its address and direction; a read returns 0 (R47). -/
theorem execBusTimeout_spec (a : BitVec 20) (write : Bool) (s : State) : ∃ t, execBusTimeout a write s = .next t ∧
    t.rdData = (if write then s.rdData else 0) ∧
    t.fld F.SYS_BUS_ERR_COUNT = (if s.fld F.SYS_BUS_ERR_COUNT + 1 > 65535 then 65535 else s.fld F.SYS_BUS_ERR_COUNT + 1) ∧
    t.fld F.SYS_BUS_ERR_ADDR_ADDR = a.toNat ∧ t.fld F.SYS_BUS_ERR_ADDR_WRITE = b2n write ∧
    t = { s with regs := t.regs, rdData := if write then s.rdData else 0 } :=
  ⟨_, execBusTimeout_eq a write s, rfl, (fld_regs_rdData ..).trans (busErr_count s a.toNat write),
    (fld_regs_rdData ..).trans (busErr_addr s a.toNat write a.isLt), (fld_regs_rdData ..).trans (busErr_write s a.toNat write), rfl⟩

/-! ### One naturally aligned 32-bit access (R28, R29, R38) -/

theorem pageOf_aperture (a : BitVec 20) : a.toNat / 0x1000 % 256 = a.toNat / 0x1000 := by
  have ha : a.toNat < 1048576 := a.isLt
  omega
theorem regRead_word {a : Nat} (s : State) (h : a % 4 = 0) : regRead a .b4 s = { (read32 s a).2 with rdData := (read32 s a).1 } := by
  unfold regRead accessKind
  simp only [h, if_true]
theorem regWrite_word {a : Nat} (d : Nat) (s : State) (h : a % 4 = 0) : regWrite a .b4 d s = write32 a (d % 2 ^ 32) s := by
  unfold regWrite accessKind
  simp only [h, if_true]

/-- A read of the lower word of a wide register latches its upper word (R29). -/
def hiLatched (s : State) (p o : Nat) : State := { s with hilo := tset none s.hilo (p * 0x1000 + o + 4) (some (pageWord s p (o + 4))) }
theorem readWide_lower {s : State} {p o : Nat} (h : wideLo p o = true) : readWide s p o = (pageWord s p o, hiLatched s p o) := if_pos h
/-- A free value moves the counter of free values alone. -/
theorem readFree_frame (p o v : Nat) (s : State) : ∃ w n, readFree p o v s = (w, { s with freeCtr := n }) := by
  unfold readFree
  split
  · exact ⟨_, _, rfl⟩
  · split
    · exact ⟨_, _, rfl⟩
    · exact ⟨v, s.freeCtr, rfl⟩
/-- A 32-bit read of the lower word of a wide register: the upper one is latched, and beside it only the answer and free values move (R29). -/
theorem regRead_lower {s : State} {a p : Nat} (ha : a % 4 = 0) (hp : a / 0x1000 % 256 = p) (hi : (pageInfo p).isSome = true)
    (hr : reachable s p = true) (hw : wideLo p (a % 0x1000) = true) (hb : p ≠ 0xB0) :
    ∃ w n, regRead a .b4 s = { hiLatched s p (a % 0x1000) with freeCtr := n, rdData := w } := by
  obtain ⟨w, n, hfree⟩ := readFree_frame p (a % 0x1000) (pageWord s p (a % 0x1000)) (hiLatched s p (a % 0x1000))
  have hanswers : ¬ (((pageInfo p).isNone || !reachable s p) = true) := by rw [hr, Option.isNone_eq_false_iff.2 hi]; decide
  have hread : read32 s a = (w, { hiLatched s p (a % 0x1000) with freeCtr := n }) := by
    unfold read32
    dsimp only
    rw [hp, if_neg hanswers, readWide_lower hw, hfree]
    exact if_neg (fun h => hb h.1)
  exact ⟨w, n, by rw [regRead_word s ha, hread]⟩

/-- A direct write of PG_IRQ_EN (R31). -/
theorem write32_irqEn {s : State} {p : Nat} (d : Nat) (hp : p < 256) (hi : (pageInfo p).isSome = true) (hr : reachable s p = true)
    (hl : s.locked p = false) (hv : lanePageReserved p = false) :
    write32 (p * 0x1000 + 0x14) d s = { s with regs := rset s.regs (p * 0x1000 + 0x14) (BitVec.ofNat 32 d) } := by
  obtain ⟨i, hi⟩ := Option.isSome_iff_exists.1 hi
  have hpage : (p * 0x1000 + 0x14) / 0x1000 % 256 = p := by omega
  have hoff : (p * 0x1000 + 0x14) % 0x1000 = 0x14 := by omega
  unfold write32
  dsimp only
  rw [hpage, hoff, hi]
  dsimp only
  rw [hr, hl]
  unfold writeHeader
  rw [hv]
  rfl

/-- Settles O9: each command's own function, with what a bus error shows and one aligned access of a page that answers. -/
theorem headerAndBusCommands : Obligations.HeaderAndBusCommands := by
  unfold Obligations.HeaderAndBusCommands
  intro s
  refine ⟨fun p bits same h => execIrqClear_reachable h bits same,
    fun p h => ⟨execErrCntClear_reachable h none, fun c => ⟨_, execErrCntClear_reachable h (some c), errCntClear_same p.toNat c s, rfl⟩⟩,
    fun h => ⟨_, execBusErrClear_open h, State.fld_setFld_same s _ 0 (by decide), fun off ho => rget_fset_other s.regs _ 0 ho, rfl⟩,
    fun a => execBusTimeout_spec a false s, fun a => ?late, ?lower, ?irqEn⟩
  case late =>
    obtain ⟨t, hrun, -, hspec⟩ := execBusTimeout_spec a true s
    exact ⟨t, hrun, hspec⟩
  case lower =>
    intro a ha hi hr hw hb _ _
    obtain ⟨w, n, hread⟩ := regRead_lower ha (pageOf_aperture a) hi hr hw hb
    have haddr : a.toNat / 0x1000 * 0x1000 + a.toNat % 0x1000 = a.toNat := by omega
    refine ⟨_, congrArg Host.Outcome.next hread, ?_, rfl, rfl, rfl, rfl, rfl⟩
    dsimp only [hiLatched]
    rw [haddr, tget_tset_same]
  case irqEn =>
    intro p d hi hr hl hv
    have hp : p.toNat < 256 := p.isLt
    have haddr : (BitVec.ofNat 20 (p.toNat * 0x1000 + 0x14)).toNat = p.toNat * 0x1000 + 0x14 := by
      rw [BitVec.toNat_ofNat, Nat.mod_eq_of_lt (by omega)]
    have hdata : (d.setWidth 64).toNat % 2 ^ 32 = d.toNat := by
      rw [BitVec.toNat_setWidth, Nat.mod_mod_of_dvd _ (by decide), Nat.mod_eq_of_lt d.isLt]
    refine congrArg Host.Outcome.next ?_
    rw [haddr, regWrite_word _ _ (by omega), hdata, write32_irqEn _ hp hi hr hl hv, BitVec.ofNat_toNat, BitVec.setWidth_eq]

end Sys2Proof.Machine

namespace Sys2Proof.Machine
open Sys2Proof

/-! ### The recorder stays on while it works its queue off (R347) -/

theorem mainInsert_running (o : Occ) (t : TimeSt) (locked : Bool) (vin : Nat) (m : MainRec) : (mainInsert o t locked vin m).1.running = m.running := by
  unfold mainInsert mainPush
  dsimp only
  split
  · split <;> rfl
  · split <;> rfl
theorem mainProcess_mrec (o : Occ) (t : TimeSt) (s : State) :
    (mainProcess o t s).mrec = (mainInsert o t (s.fld F.PTP_STAT_LOCKED == 1) s.vin s.mrec).1 := by
  unfold mainProcess
  dsimp only
  rw [apply_ite State.mrec, State.irq_mrec, ite_self, apply_ite State.mrec, State.irq_mrec, ite_self]
  split <;> rfl
theorem mainProcess_running (o : Occ) (t : TimeSt) (s : State) : (mainProcess o t s).mrec.running = s.mrec.running := by
  rw [mainProcess_mrec, mainInsert_running]
theorem mainDrain_running (s : State) : (mainDrain s).mrec.running = s.mrec.running := by
  unfold mainDrain
  split
  · exact foldl_keeps (fun s => s.mrec.running) (fun s (x : Occ × TimeSt) => mainProcess x.1 x.2 s) (fun s x => mainProcess_running x.1 x.2 s) ..
  · rfl
theorem recShow_running (s : State) : (recShow s).mrec.running = s.mrec.running := recShow_keeps (fun s => s.mrec.running) (fun _ _ => rfl) s
theorem mainTake_running (o : Occ) (s : State) : (mainTake o s).mrec.running = s.mrec.running := by
  unfold mainTake
  dsimp only
  split <;> rfl
theorem note_running (s : State) (og cls u sub code arg : Nat) : (s.note og cls u sub code arg).mrec.running = s.mrec.running := by
  unfold State.note State.occ
  rw [recShow_running, mainDrain_running, mainTake_running]
theorem recorderStart_running (s : State) : (recorderStart s).mrec.running = true := by
  unfold recorderStart
  dsimp only
  rw [recShow_running, mainDrain_running]

/-! ### Hervi stops (R44, R358) -/

theorem rget_clearPage (rf : RegFile) {p off : Nat} (h : p * 0x1000 ≤ off ∧ off < p * 0x1000 + 0x1000) : rget (clearPage rf p) off = resetWord off :=
  tget_tclear _ rf h
/-- Hervi's record once its cores have stopped. -/
def herviStopped (h : HerviSt) : HerviSt := { h with up := false, redfish := false, reqs := [], status := 0, answer := [], sent := [] }
theorem hervDown_spec (s : State) : (hervDown s).herv = herviStopped s.herv ∧ (hervDown s).fld F.SYS_MBOX_STAT_BUSY = 0 ∧
    (hervDown s).fld F.SEC_STAT_ATT_BUSY = 0 ∧
    hervDown s = { s with herv := (hervDown s).herv, sec := { s.sec with att := none }, regs := (hervDown s).regs } := by
  refine ⟨rfl, ?_, State.fld_setFld_same _ _ 0 (by decide), rfl⟩
  have hclear : fget (clearPage s.regs 0) F.SYS_MBOX_STAT_BUSY = 0 := by
    unfold fget
    rw [rget_clearPage _ (by decide)]
    rfl
  exact (State.fld_setFld_other _ F.SEC_STAT_ATT_BUSY F.SYS_MBOX_STAT_BUSY 0 (by decide)).trans hclear

/-- A trial bank that has run 60 s without Redfish: the other bank is next, and the change is recorded (R363). -/
theorem hervTrialTimeout_expired {s : State} {t : Nat} (ht : s.herv.trial = some t) (hc : t + 491520 ≤ s.time.count) (hr : s.herv.redfish = false) :
    hervTrialTimeout s =
      ((hervDown s).onHerv (fun h => { h with bank := 1 - h.bank, trial := none })).note 0 7 0xA0 0xFFFF Ev.herviBank s.herv.bank := by
  unfold hervTrialTimeout
  rw [ht]
  exact if_pos ⟨hc, hr⟩
theorem hervTrialTimeout_waits {s : State} {t : Nat} (ht : s.herv.trial = some t) (h : s.time.count < t + 491520 ∨ s.herv.redfish = true) :
    hervTrialTimeout s = s := by
  unfold hervTrialTimeout
  rw [ht]
  refine if_neg (fun hx => ?_)
  obtain ⟨hc, hr⟩ := hx
  rcases h with h | h
  · omega
  · rw [h] at hr; exact Bool.noConfusion hr
theorem hervTrialTimeout_none {s : State} (ht : s.herv.trial = none) : hervTrialTimeout s = s := by
  unfold hervTrialTimeout
  rw [ht]

/-! ### Hervi runs (R328, R351, R353) -/

theorem lget_lset_same {α : Type} (d : α) {l : List α} {k : Nat} (x : α) (h : k < l.length) : lget d (lset l k x) k = x := by
  induction l generalizing k with
  | nil => exact absurd h (Nat.not_lt_zero k)
  | cons a l ih =>
    cases k with
    | zero => rfl
    | succ k => exact ih (Nat.lt_of_succ_lt_succ h)

/-- A view that sees nothing that follows a boot of Hervi: registers, recorders, operating points and blocks. -/
def OffBoot {β : Type} (v : State → β) : Prop := ∀ (s : State) rf m ra rb xo ho b,
  v { s with regs := rf, mrec := m, laneA := { s.laneA with recd := ra }, laneB := { s.laneB with recd := rb }, xopp := xo, hopp := ho, blk := b } = v s

section
variable {β : Type} {v : State → β} (h : OffBoot v)
include h

theorem OffBoot.regs : OffRegs v := fun s rf => h s rf s.mrec s.laneA.recd s.laneB.recd s.xopp s.hopp s.blk
theorem OffBoot.opp : OffOpp v := fun s xo ho => h s s.regs s.mrec s.laneA.recd s.laneB.recd xo ho s.blk
theorem OffBoot.recorder (s : State) (rf : RegFile) (m : MainRec) : v { s with regs := rf, mrec := m } = v s :=
  h s rf m s.laneA.recd s.laneB.recd s.xopp s.hopp s.blk
theorem OffBoot.oppMove (s : State) : v (oppMove s) = v s := by
  unfold Machine.oppMove
  rw [h.regs.oppShow]
  unfold hStep
  dsimp only
  split
  · rfl
  · split <;> exact h.opp s s.xopp _
theorem OffBoot.recorderStart (s : State) : v (recorderStart s) = v s := by
  unfold Machine.recorderStart
  dsimp only
  rw [recShow_keeps v (fun s rf => h.regs s rf), mainDrain_keeps v h.recorder]
  exact h s s.regs { s.mrec with running := true } _ _ s.xopp s.hopp s.blk
end

/-- The registers of a block's own beyond those of the operating points and of the recorder: pages 001, 080–089 and 0B0 hold these. -/
def OffBootShow (f : Fld) : Prop := OffReport f ∧ f.off / 0x1000 ≠ 1 ∧ (f.off / 0x1000 < 0x80 ∨ 0x89 < f.off / 0x1000)

section
variable {f : Fld} (h : OffBootShow f)
include h

theorem fld_oppShow (s : State) : (oppShow s).fld f = s.fld f := by
  obtain ⟨-, h1, h2⟩ := h
  have hset : ∀ (s : State) (g : Fld) (n : Nat), g.off / 0x1000 = 1 ∨ (0x80 ≤ g.off / 0x1000 ∧ g.off / 0x1000 ≤ 0x89) →
      (s.setFld g n).fld f = s.fld f :=
    fun s g n hg => State.fld_setFld_other s g f n (by rintro e; rw [e] at h1 h2; omega)
  unfold oppShow
  dsimp only
  rw [hset _ F.CLK_HERVI_DROOP_EVENTS _ (by decide), hset _ F.CLK_HERVI_OPP_CUR _ (by decide), foldl_keeps_mem (fun s => s.fld f)]
  · rw [hset _ F.XPWR_DROOP_EVENTS _ (by decide), hset _ F.XPWR_THERM_T_MAX _ (by decide), hset _ F.XPWR_OPP_CUR _ (by decide),
      hset _ F.XPWR_OPP_SUPPLY_LIM _ (by decide), hset _ F.XPWR_OPP_THERM_LIM _ (by decide), hset _ F.XPWR_OPP_CAP_LIM _ (by decide)]
  · intro s n hn
    have hn8 : n < 8 := List.mem_range.1 hn
    exact hset s (F.ERG_STAT_OPP n) _ (.inr (by dsimp only [F.ERG_STAT_OPP]; omega))
theorem fld_oppMove (s : State) : (oppMove s).fld f = s.fld f := by
  have hstep : (hStep s).fld f = s.fld f := by
    unfold hStep
    dsimp only
    split
    · rfl
    · split <;> rfl
  exact (fld_oppShow h _).trans hstep
theorem fld_recorderStart (s : State) : (recorderStart s).fld f = s.fld f := by
  unfold recorderStart
  dsimp only
  rw [fld_recShow h.1, fld_mainDrain h.1]
  rfl
end

/-! ### Blocks enabled at a boot (R33, R353, R359) -/

/-- A block with a STATE of its own whose EN takes effect at once: no pump, no Caravan or Ethernet port, no valve bank. -/
def plainBlock (k : Nat) : Bool := decide (k < 0x100) && !([0x48, 0x70, 0x78, 0x79].contains k) && !isBank k && blkHasState k
theorem cableBad_plain {k : Nat} (s : State) (h : k ≠ 0x78 ∧ k ≠ 0x79) : cableBad s k = false := by
  unfold cableBad
  rw [beq_false_of_ne h.1, beq_false_of_ne h.2]
  rfl
/-- EN of a plain block: one that is OFF starts, and no other block moves. -/
theorem blockEnable_plain {k : Nat} (h : plainBlock k = true) (s : State) : ∃ m,
    (∀ j, (blkGet { s with blk := m } j).state = (blkGet s j).state) ∧
    blockEnable k s = if (blkGet s k).state = .off then blkMove { s with blk := m } k .starting else { s with blk := m } := by
  have hk : k < 0x100 ∧ k ≠ 0x48 ∧ k ≠ 0x70 ∧ k ≠ 0x78 ∧ k ≠ 0x79 ∧ isBank k = false ∧ blkHasState k = true := by
    simpa [plainBlock, and_assoc] using h
  obtain ⟨hlt, hpump, hcrvn, heth0, heth1, hbank, hstate⟩ := hk
  have hen : blockEnable k s = blockOn k (blkSet s k { blkGet s k with en := true }) := by
    unfold blockEnable
    rw [if_neg (by omega), if_neg hcrvn, if_neg (by omega)]
    dsimp only
    rw [hbank, hstate]
    rfl
  have hset : ∀ j, (blkGet (blkSet s k { blkGet s k with en := true }) j).state = (blkGet s j).state := state_blkSet s k _ rfl
  rw [hen]
  generalize hu : blkSet s k { blkGet s k with en := true } = u at hset
  have hframe : ∀ b : Blk, blkSet u k b = { s with blk := (blkSet u k b).blk } := by rw [← hu]; intro b; rfl
  have hset2 : ∀ b : Blk, b.state = (blkGet u k).state → ∀ j, (blkGet (blkSet u k b) j).state = (blkGet s j).state :=
    fun b hb j => (state_blkSet u k b hb j).trans (hset j)
  have hsame : u = { s with blk := u.blk } := by rw [← hu]; rfl
  unfold blockOn
  dsimp only
  rw [cableBad_plain u ⟨heth0, heth1⟩, ← hset k]
  cases hs : (blkGet u k).state with
  | off =>
    refine ⟨_, hset2 { blkGet u k with state := .off, granted := false, pend := false } hs.symm, ?_⟩
    rw [← hframe]
    rfl
  | stopping =>
    refine ⟨_, hset2 { blkGet u k with state := .stopping, pend := true } hs.symm, ?_⟩
    rw [← hframe]
    rfl
  | _ =>
    refine ⟨u.blk, hset, ?_⟩
    rw [← hsame]
    rfl

/-! ### Hervi's own boot (R328, R351, R353) -/

/-- Hervi brings the UCIe link up where it is OFF. -/
def linkBrought (s : State) : State := if (blkGet s 0x90).state = .off then blockEnable 0x90 s else s
/-- Bringing the link up moves the blocks' states and the link's page header. -/
theorem linkBrought_cases (s : State) : linkBrought s = s ∨ ∃ b, linkBrought s = ({ s with blk := b } : State).irq 0x90 0 := by
  unfold linkBrought
  split
  · next h =>
    obtain ⟨m, hm, hen⟩ := blockEnable_plain (k := 0x90) (by decide) s
    have hoff : (blkGet { s with blk := m } 0x90).state ≠ .starting := by rw [hm, h]; decide
    rw [hen, if_pos h]
    unfold blkMove
    dsimp only
    rw [if_neg hoff]
    exact .inr ⟨_, rfl⟩
  · exact .inl rfl
theorem OffBoot.linkBrought {β : Type} {v : State → β} (h : OffBoot v) (s : State) : v (linkBrought s) = v s := by
  obtain hs | ⟨b, hs⟩ := linkBrought_cases s
  · rw [hs]
  · rw [hs]
    exact h s _ s.mrec s.laneA.recd s.laneB.recd s.xopp s.hopp b
theorem fld_linkBrought (s : State) {f : Fld} (h : 0x100 ≤ f.off % 0x1000) : (linkBrought s).fld f = s.fld f := by
  obtain hs | ⟨b, hs⟩ := linkBrought_cases s
  · rw [hs]
  · rw [hs]
    exact fld_irq _ _ _ h
theorem linkBrought_mrec (s : State) : (linkBrought s).mrec = s.mrec := by
  obtain hs | ⟨b, hs⟩ := linkBrought_cases s <;> rw [hs]
  rfl

/-- Hervi's record once it runs from a bank. -/
def herviUp (b : Nat) (h : HerviSt) : HerviSt :=
  { h with up := true, redfish := true, halted := false, bank := b, trial := none, relayed := 0, binds := [], verdicts := 0 }
/-- Hervi runs from a bank: its image is measured, the package rail holds and the boot is counted. -/
def herviBooted (b : Nat) (s : State) : State :=
  dieBoot 0 { s with herv := herviUp b s.herv, pwr := { s.pwr with pkgRail := true },
                     sec := { s.sec with meas := lset s.sec.meas 0 (match hervImg s.herv b with | some i => imgDigest i | none => 0) } }
/-- The registers that show the bank and CDU_ID. -/
def herviShown (b : Nat) (s : State) : State :=
  ((herviBooted b s).setFld F.SEC_STAT_HERVI_BANK b).setFld F.CRVN_CFG_CDU_ID (tget {} (herviBooted b s).inv.live (6 * 256)).aux
/-- The recorder starts where it does not run. -/
def recorderOn (s : State) : State := if s.mrec.running then s else recorderStart s
theorem hervRun_eq (b : Nat) (s : State) : hervRun b s = linkBrought (recorderOn (oppMove (herviShown b s))) := rfl
theorem recorderOn_running (s : State) : (recorderOn s).mrec.running = true := by
  unfold recorderOn
  split
  · next h => exact h
  · exact recorderStart_running s

/-- What follows the boot moves nothing else of the state. -/
theorem hervRun_view {β : Type} {v : State → β} (h : OffBoot v) (b : Nat) (s : State) : v (hervRun b s) = v (herviBooted b s) := by
  have hrec : ∀ s, v (recorderOn s) = v s := by
    intro s
    unfold recorderOn
    split
    · rfl
    · exact h.recorderStart s
  rw [hervRun_eq, h.linkBrought, hrec, h.oppMove]
  unfold herviShown
  rw [h.regs.setFld, h.regs.setFld]
theorem fld_hervRun {f : Fld} (h : OffBootShow f) (b : Nat) (s : State) : (hervRun b s).fld f = (herviShown b s).fld f := by
  have hrec : ∀ s, (recorderOn s).fld f = s.fld f := by
    intro s
    unfold recorderOn
    split
    · rfl
    · exact fld_recorderStart h s
  rw [hervRun_eq, fld_linkBrought _ h.1.1, hrec, fld_oppMove h]
theorem hervRun_running (b : Nat) (s : State) : (hervRun b s).mrec.running = true := by
  rw [hervRun_eq, linkBrought_mrec, recorderOn_running]

/-- What holds once Hervi runs image `i` from bank `b`, up to its recorder and registers (R328, R353). -/
structure HerviRuns (s : State) (b : Nat) (i : List Nat) (u : State) : Prop where
  herv : u.herv = herviUp b s.herv
  running : u.mrec.running = true
  measured : 0 < s.sec.meas.length → lget 0 u.sec.meas 0 = imgDigest i
  bank : u.fld F.SEC_STAT_HERVI_BANK = b % 2
  cduId : u.fld F.CRVN_CFG_CDU_ID = (tget {} s.inv.live 1536).aux % 65536
  pkgRail : u.pwr.pkgRail = true
  x : u.x = s.x
  time : u.time = s.time
  coreA : u.laneA.core = s.laneA.core
  coreB : u.laneB.core = s.laneB.core

/-- A boot counts a cycle of its die's own inventory record and leaves the records of other kinds (R351). -/
theorem herviBooted_inventory (b : Nat) (s : State) : tget {} (herviBooted b s).inv.live 1536 = tget {} s.inv.live 1536 :=
  tget_tset_other {} s.inv.live _ (by decide)

theorem hervRun_runs {s : State} {b : Nat} {i : List Nat} (h : hervImg s.herv b = some i) : HerviRuns s b i (hervRun b s) where
  herv := hervRun_view (v := State.herv) (fun _ _ _ _ _ _ _ _ => rfl) b s
  running := hervRun_running b s
  measured := fun hlen => by
    have hmeas : (hervRun b s).sec.meas = (herviBooted b s).sec.meas := hervRun_view (v := fun s => s.sec.meas) (fun _ _ _ _ _ _ _ _ => rfl) b s
    have himg : (herviBooted b s).sec.meas = lset s.sec.meas 0 (match hervImg s.herv b with | some i => imgDigest i | none => 0) := rfl
    rw [hmeas, himg, h, lget_lset_same _ _ hlen]
  bank := by
    rw [fld_hervRun (by unfold OffBootShow OffReport; decide)]
    exact (State.fld_setFld_other _ F.CRVN_CFG_CDU_ID F.SEC_STAT_HERVI_BANK _ (by decide)).trans (State.fld_setFld_same _ _ b (by decide))
  cduId := by
    rw [fld_hervRun (by unfold OffBootShow OffReport; decide), ← herviBooted_inventory b s]
    exact State.fld_setFld_same _ _ _ (by decide)
  pkgRail := hervRun_view (v := fun s => s.pwr.pkgRail) (fun _ _ _ _ _ _ _ _ => rfl) b s
  x := hervRun_view (v := State.x) (fun _ _ _ _ _ _ _ _ => rfl) b s
  time := hervRun_view (v := State.time) (fun _ _ _ _ _ _ _ _ => rfl) b s
  coreA := hervRun_view (v := fun s => s.laneA.core) (fun _ _ _ _ _ _ _ _ => rfl) b s
  coreB := hervRun_view (v := fun s => s.laneB.core) (fun _ _ _ _ _ _ _ _ => rfl) b s
/-- An event of the boot's is beside all of it. -/
theorem HerviRuns.note {s u : State} {b : Nat} {i : List Nat} (h : HerviRuns s b i u) (og cls p sub code arg : Nat) :
    HerviRuns s b i (u.note og cls p sub code arg) where
  herv := by rw [State.note_herv, h.herv]
  running := by rw [note_running, h.running]
  measured := by rw [State.note_sec]; exact h.measured
  bank := by rw [fld_note (by unfold OffReport; decide), h.bank]
  cduId := by rw [fld_note (by unfold OffReport; decide), h.cduId]
  pkgRail := by rw [State.note_pwr, h.pkgRail]
  x := by rw [State.note_x, h.x]
  time := by rw [State.note_time, h.time]
  coreA := by rw [State.note_laneA, h.coreA]
  coreB := by rw [State.note_laneB, h.coreB]

/-- HERVI_BOOT_COMPLETE acts while Hervi is down and its rail can come. -/
def bootable (s : State) : Prop := s.herv.up = false ∧ (s.pwr.pkgRail = true ∨ (s.pwr.laneRail = true ∧ s.pwr.holdup = false))
theorem hervBoot_idle {s : State} (h : s.herv.up = true ∨ (s.pwr.pkgRail = false ∧ (s.pwr.laneRail = false ∨ s.pwr.holdup = true))) : hervBoot s = s := by
  unfold hervBoot
  refine if_pos (h.imp_right (fun hp => ?_))
  obtain ⟨hpkg, hlane | hhold⟩ := hp
  · rw [hpkg, hlane]; rfl
  · rw [hpkg, hhold, Bool.not_true, Bool.and_false]; rfl

section
variable {s : State} (h : bootable s)
include h

/-- The three ways a boot can go (R328). -/
theorem hervBoot_bootable : hervBoot s = if imgTaken s 0 (hervImg s.herv s.herv.bank) then hervRun s.herv.bank s
    else if imgTaken s 0 (hervImg s.herv (1 - s.herv.bank)) then (hervRun (1 - s.herv.bank) s).note 0 7 0xA0 0xFFFF Ev.herviBank s.herv.bank
    else s.onHerv (fun h => { h with halted := true, trial := none }) := by
  obtain ⟨hup, hrail⟩ := h
  have hsupply : (s.pwr.pkgRail || (s.pwr.laneRail && !s.pwr.holdup)) = true := by
    rcases hrail with hpkg | ⟨hlane, hhold⟩
    · rw [hpkg, Bool.true_or]
    · rw [hlane, hhold, Bool.or_comm]; rfl
  exact if_neg (by rw [hup, hsupply]; decide)
theorem hervBoot_running {i : List Nat} (hi : hervImg s.herv s.herv.bank = some i) (hok : imgOk s 0 i = true) :
    HerviRuns s s.herv.bank i (hervBoot s) := by
  have htaken : imgTaken s 0 (hervImg s.herv s.herv.bank) = true := by rw [hi]; exact hok
  rw [hervBoot_bootable h, if_pos htaken]
  exact hervRun_runs hi
theorem hervBoot_other (hr : imgTaken s 0 (hervImg s.herv s.herv.bank) = false) {i : List Nat} (hi : hervImg s.herv (1 - s.herv.bank) = some i)
    (hok : imgOk s 0 i = true) : HerviRuns s (1 - s.herv.bank) i (hervBoot s) := by
  have htaken : imgTaken s 0 (hervImg s.herv (1 - s.herv.bank)) = true := by rw [hi]; exact hok
  rw [hervBoot_bootable h, hr, if_neg Bool.false_ne_true, if_pos htaken]
  exact (hervRun_runs hi).note ..
theorem hervBoot_halts (hr : imgTaken s 0 (hervImg s.herv s.herv.bank) = false) (ho : imgTaken s 0 (hervImg s.herv (1 - s.herv.bank)) = false) :
    hervBoot s = s.onHerv (fun h => { h with halted := true, trial := none }) := by
  rw [hervBoot_bootable h, hr, ho, if_neg Bool.false_ne_true, if_neg Bool.false_ne_true]
end

/-! ### Xoide's boot starts its quadrants and ergs (R359, R364) -/

/-- The quadrants and ergs Hervi enables once Xoide runs. -/
def xBlocks : List Nat := (upto 5).map (fun q => 0x8A + q) ++ (upto 8).map (fun n => 0x80 + n)
theorem xBlocks_plain {k : Nat} (h : k ∈ xBlocks) : plainBlock k = true := by
  revert k
  decide
theorem xBlocks_range {k : Nat} (h : k ∈ xBlocks) : (0x80 ≤ k ∧ k ≤ 0x87) ∨ (0x8A ≤ k ∧ k ≤ 0x8E) := by
  revert k
  decide
theorem xBlocks_quad (q : Fin 5) : 0x8A + q.val ∈ xBlocks :=
  List.mem_append_left _ (List.mem_map.2 ⟨q.val, List.mem_range.2 q.isLt, rfl⟩)
theorem xBlocks_erg (n : Fin 8) : 0x80 + n.val ∈ xBlocks :=
  List.mem_append_right _ (List.mem_map.2 ⟨n.val, List.mem_range.2 n.isLt, rfl⟩)

/-- A view that sees nothing an erg or a quadrant touches as it starts: page headers, the registers of pages 080–08E, blocks' states, inventory
counts, tiles and codewords' errors. -/
structure OffXStart {β : Type} (v : State → β) : Prop where
  irq : ∀ (s : State) p b, v (s.irq p b) = v s
  setFld : ∀ (s : State) f n, 0x80 ≤ f.off / 0x1000 ∧ f.off / 0x1000 ≤ 0x8E → v (s.setFld f n) = v s
  beside : ∀ (s : State) b i t e, v { s with blk := b, inv := i, x := { s.x with tiles := t, errs := e } } = v s
theorem offXStart_of_offRegs {β : Type} {v : State → β} (h : OffRegs v)
    (hb : ∀ (s : State) b i t e, v { s with blk := b, inv := i, x := { s.x with tiles := t, errs := e } } = v s) : OffXStart v :=
  ⟨h.irq, fun s f n _ => h.setFld s f n, hb⟩
/-- A register of a page beside 080–08E is such a view. -/
theorem offXStart_fld {f : Fld} (h : 0x100 ≤ f.off % 0x1000) (hp : ¬ (0x80 ≤ f.off / 0x1000 ∧ f.off / 0x1000 ≤ 0x8E)) :
    OffXStart (fun s => s.fld f) where
  irq := fun s p b => fld_irq s p b h
  setFld := fun s g n hg => State.fld_setFld_other s g f n (fun e => hp (e ▸ hg))
  beside := fun _ _ _ _ _ => rfl

section
variable {β : Type} {v : State → β} (h : OffXStart v)
include h

theorem OffXStart.blkSet (s : State) (k : Nat) (b : Blk) : v (blkSet s k b) = v s := h.beside s _ s.inv s.x.tiles s.x.errs
theorem OffXStart.invMove (k : Nat) (st : BState) (s : State) : v (invMove k st s) = v s := by
  have hcycle : ∀ (s : State) key, v (invCycle key s) = v s := fun s key => h.beside s s.blk _ s.x.tiles s.x.errs
  unfold Machine.invMove
  split
  · exact foldl_keeps v _ (fun s i => hcycle s _) _ s
  · split
    · exact hcycle s _
    · rfl
theorem OffXStart.xEnter {k : Nat} (hk : k ∈ xBlocks) (s : State) : v (xEnter k .starting s) = v s := by
  unfold Machine.xEnter
  obtain ⟨hlo, hhi⟩ | ⟨hlo, hhi⟩ := xBlocks_range hk
  · obtain ⟨n, rfl⟩ := Nat.exists_eq_add_of_le hlo
    have hpage : 0x80 ≤ (0x80100 + 0x1000 * n) / 0x1000 ∧ (0x80100 + 0x1000 * n) / 0x1000 ≤ 0x8E := by omega
    rw [if_pos (by omega)]
    dsimp only
    rw [Nat.add_sub_cancel_left, h.setFld _ (F.ERG_STAT_FAULT_CAUSE n) _ hpage, h.setFld _ (F.ERG_STAT_BAD_TILE n) _ hpage,
      h.setFld _ (F.ERG_STAT_START_FAIL n) _ hpage]
    exact h.beside s s.blk s.inv _ _
  · obtain ⟨q, rfl⟩ := Nat.exists_eq_add_of_le hlo
    have hpage : 0x80 ≤ (0x8A104 + 0x1000 * q) / 0x1000 ∧ (0x8A104 + 0x1000 * q) / 0x1000 ≤ 0x8E := by omega
    rw [if_neg (by omega), if_pos (by omega)]
    dsimp only
    rw [Nat.add_sub_cancel_left, h.setFld _ (F.XMEM_STAT_FAULT_PKG q) _ hpage, h.setFld _ (F.XMEM_STAT_TRAINED q) _ hpage]
theorem OffXStart.blkMove {k : Nat} (hk : k ∈ xBlocks) (s : State) : v (blkMove s k .starting) = v s := by
  have hrange := xBlocks_range hk
  unfold Machine.blkMove
  dsimp only
  split
  · rfl
  · rw [if_neg (by decide), if_neg (by omega), if_neg (by omega), if_neg (by omega), if_neg (by omega), h.xEnter hk, h.irq, h.invMove, h.blkSet]
theorem OffXStart.blockEnable {k : Nat} (hk : k ∈ xBlocks) (s : State) : v (blockEnable k s) = v s := by
  obtain ⟨m, -, hen⟩ := blockEnable_plain (xBlocks_plain hk) s
  have hblk : v { s with blk := m } = v s := h.beside s m s.inv s.x.tiles s.x.errs
  rw [hen]
  split
  · rw [h.blkMove hk, hblk]
  · exact hblk
end

/-- EN of a quadrant or erg: one that is OFF starts, and no other block moves. -/
theorem blockEnable_xBlock_state {k : Nat} (hk : k ∈ xBlocks) (s : State) (j : Nat) :
    (blkGet (blockEnable k s) j).state = if j = k ∧ (blkGet s j).state = .off then .starting else (blkGet s j).state := by
  have hport : ¬ (k = 0x110 ∨ k = 0x111) := by have := xBlocks_range hk; omega
  obtain ⟨m, hm, hen⟩ := blockEnable_plain (xBlocks_plain hk) s
  rw [hen]
  by_cases hoff : (blkGet s k).state = .off
  · rw [if_pos hoff, blkMove_state _ _ _ _ hport, hm]
    by_cases hj : j = k
    · rw [if_pos hj, if_pos ⟨hj, hj ▸ hoff⟩]
    · rw [if_neg hj, if_neg (fun hc => hj hc.1)]
  · have hnot : ¬ (j = k ∧ (blkGet s j).state = .off) := fun hc => hoff (hc.1 ▸ hc.2)
    rw [if_neg hoff, hm, if_neg hnot]

/-- Blocks enabled one after the other. -/
def blocksEnabled (l : List Nat) (s : State) : State := l.foldl (fun s k => blockEnable k s) s
theorem OffXStart.blocksEnabled {β : Type} {v : State → β} (h : OffXStart v) (s : State) : v (blocksEnabled xBlocks s) = v s :=
  foldl_keeps_mem v _ xBlocks (fun s _ hk => h.blockEnable hk s) s
/-- Each block of the list that was OFF has started. -/
theorem blocksEnabled_starting {l : List Nat} (hl : ∀ k ∈ l, k ∈ xBlocks) {j : Nat} (s : State)
    (h : (j ∈ l ∧ (blkGet s j).state = .off) ∨ (blkGet s j).state = .starting) : (blkGet (blocksEnabled l s) j).state = .starting := by
  induction l generalizing s with
  | nil => exact h.resolve_left (fun hc => List.not_mem_nil hc.1)
  | cons k l ih =>
    have hstep := blockEnable_xBlock_state (hl k (List.mem_cons_self ..)) s j
    refine ih (fun i hi => hl i (List.mem_cons_of_mem _ hi)) _ ?_
    rw [hstep]
    obtain ⟨hmem, hoff⟩ | hst := h
    · by_cases hj : j = k
      · exact .inr (if_pos ⟨hj, hoff⟩)
      · rw [if_neg (fun hc => hj hc.1)]
        exact .inl ⟨(List.mem_cons.1 hmem).resolve_left hj, hoff⟩
    · rw [if_neg (by rw [hst]; exact fun hc => BState.noConfusion hc.2)]
      exact .inr hst

/-! ### Xoide's own boot (R328, R364) -/

/-- Xoide runs an image, measured and counted; the next boot finds it as the old one. -/
def xoideBooted (img : Option (List Nat)) (s : State) : State :=
  let u := (s.onHerv (fun h => { h with xOld := img, xNew := none })).onX (fun x => { x with up := true })
  (dieBoot 1 { u with sec := { u.sec with meas := lset u.sec.meas 1 (img.elim 0 imgDigest) } }).setFld F.SEC_STAT_XOIDE_BOOT 0
/-- The image is the new one, or the old one while there is none; a refusal is shown and drops the new one. -/
theorem xoideBoot_eq (s : State) : xoideBoot s = if s.x.up = true ∨ (!s.herv.up) = true then s
    else if imgTaken s 1 (s.herv.xNew.or s.herv.xOld) = true then blocksEnabled xBlocks (xoideBooted (s.herv.xNew.or s.herv.xOld) s)
    else (s.setFld F.SEC_STAT_XOIDE_BOOT 1).onHerv (fun h => { h with xNew := none }) := by
  unfold xoideBoot
  cases s.herv.xNew with
  | some i => rfl
  | none => cases s.herv.xOld <;> rfl
theorem xoideBoot_idle {s : State} (h : s.x.up = true ∨ s.herv.up = false) : xoideBoot s = s := by
  rw [xoideBoot_eq]
  refine if_pos (h.imp_right (fun hh => ?_))
  rw [hh]
  rfl

section
variable {s : State} (hx : s.x.up = false) (hh : s.herv.up = true)
include hx hh

theorem xoideBoot_taken {i : List Nat} (hi : s.herv.xNew.or s.herv.xOld = some i) (hok : imgOk s 1 i = true) :
    xoideBoot s = blocksEnabled xBlocks (xoideBooted (some i) s) := by
  rw [xoideBoot_eq, if_neg (by rw [hx, hh]; decide), hi]
  exact if_pos hok
theorem xoideBoot_refused (hr : imgTaken s 1 (s.herv.xNew.or s.herv.xOld) = false) :
    xoideBoot s = (s.setFld F.SEC_STAT_XOIDE_BOOT 1).onHerv (fun h => { h with xNew := none }) := by
  rw [xoideBoot_eq, if_neg (by rw [hx, hh]; decide), hr]
  exact if_neg Bool.false_ne_true
end

/-- What holds once Xoide runs an image (R359, R364). -/
theorem xoideBooted_spec (i : List Nat) {s u : State} (hu : blocksEnabled xBlocks (xoideBooted (some i) s) = u) : u.x.up = true ∧
    u.herv = { s.herv with xOld := some i, xNew := none } ∧ u.fld F.SEC_STAT_XOIDE_BOOT = 0 ∧
    (1 < s.sec.meas.length → lget 0 u.sec.meas 1 = imgDigest i) ∧
    (∀ q : Fin 5, (blkGet s (0x8A + q.val)).state = .off → (blkGet u (0x8A + q.val)).state = .starting) ∧
    (∀ n : Fin 8, (blkGet s (0x80 + n.val)).state = .off → (blkGet u (0x80 + n.val)).state = .starting) ∧
    u.x.lp = s.x.lp ∧ u.laneA = s.laneA ∧ u.laneB = s.laneB ∧ u.time = s.time := by
  subst hu
  have hkeep : ∀ {β : Type} (v : State → β), OffXStart v → v (blocksEnabled xBlocks (xoideBooted (some i) s)) = v (xoideBooted (some i) s) :=
    fun v h => h.blocksEnabled _
  have hblk : ∀ j, (blkGet (xoideBooted (some i) s) j).state = (blkGet s j).state := fun j => rfl
  have hshown : (xoideBooted (some i) s).fld F.SEC_STAT_XOIDE_BOOT = 0 := State.fld_setFld_same _ _ 0 (by decide)
  refine ⟨hkeep (fun s => s.x.up) (offXStart_of_offRegs (fun _ _ => rfl) (fun _ _ _ _ _ => rfl)),
    hkeep State.herv (offXStart_of_offRegs (fun _ _ => rfl) (fun _ _ _ _ _ => rfl)),
    (hkeep (fun s => s.fld F.SEC_STAT_XOIDE_BOOT) (offXStart_fld (by decide) (by decide))).trans hshown, fun hlen => ?_,
    fun q hq => blocksEnabled_starting (fun _ h => h) _ (.inl ⟨xBlocks_quad q, (hblk _).trans hq⟩),
    fun n hn => blocksEnabled_starting (fun _ h => h) _ (.inl ⟨xBlocks_erg n, (hblk _).trans hn⟩),
    hkeep (fun s => s.x.lp) (offXStart_of_offRegs (fun _ _ => rfl) (fun _ _ _ _ _ => rfl)),
    hkeep State.laneA (offXStart_of_offRegs (fun _ _ => rfl) (fun _ _ _ _ _ => rfl)),
    hkeep State.laneB (offXStart_of_offRegs (fun _ _ => rfl) (fun _ _ _ _ _ => rfl)),
    hkeep State.time (offXStart_of_offRegs (fun _ _ => rfl) (fun _ _ _ _ _ => rfl))⟩
  have hmeas := hkeep (fun s => s.sec.meas) (offXStart_of_offRegs (fun _ _ => rfl) (fun _ _ _ _ _ => rfl))
  exact (congrArg (fun l => lget 0 l 1) hmeas).trans (lget_lset_same 0 _ hlen)

/-- Settles O46: the two boots are followed through the views that see nothing of what a boot starts, and the restart and its timeout by their
cases. -/
theorem herviAndXoideBoot : Obligations.HerviAndXoideBoot := by
  unfold Obligations.HerviAndXoideBoot
  intro s
  refine ⟨⟨_, rfl, hervDown_spec s⟩, fun hup hrail => ⟨fun i hi hok => ?running, fun hr => ⟨fun i hi hok => ?other, fun ho => ?halts⟩⟩,
    fun h => congrArg Host.Outcome.next (hervBoot_idle h),
    fun t ht => ⟨fun hc hr => ?trial, fun h => congrArg Host.Outcome.next (hervTrialTimeout_waits ht h)⟩,
    fun ht => congrArg Host.Outcome.next (hervTrialTimeout_none ht), fun hx hh => ⟨fun i hi hok => ?taken, fun hr => ?refused⟩,
    fun h => congrArg Host.Outcome.next (xoideBoot_idle h)⟩
  case running =>
    obtain ⟨hherv, hrun, hmeas, hbank, hcdu, hpkg, hx, htime, hA, hB⟩ := hervBoot_running ⟨hup, hrail⟩ hi hok
    exact ⟨_, rfl, hherv, hrun, hmeas, hbank, hcdu, hpkg, hx, htime, hA, hB⟩
  case other =>
    obtain ⟨hherv, hrun, hmeas, hbank, -, -, hx, htime, hA, hB⟩ := hervBoot_other ⟨hup, hrail⟩ hr hi hok
    exact ⟨_, rfl, hherv, hrun, hmeas, hbank.trans (Nat.mod_eq_of_lt (by omega)), hx, htime, hA, hB⟩
  case halts => exact congrArg Host.Outcome.next (hervBoot_halts ⟨hup, hrail⟩ hr ho)
  case trial =>
    refine ⟨_, congrArg Host.Outcome.next (hervTrialTimeout_expired ht hc hr), ?_⟩
    rw [State.note_herv, State.note_x, State.note_laneA, State.note_laneB, State.note_time]
    exact ⟨rfl, rfl, rfl, rfl, rfl⟩
  case taken => exact ⟨_, congrArg Host.Outcome.next (xoideBoot_taken hx hh hi hok), xoideBooted_spec i rfl⟩
  case refused =>
    refine ⟨_, congrArg Host.Outcome.next (xoideBoot_refused hx hh hr), rfl, ?_, rfl⟩
    exact State.fld_setFld_same s F.SEC_STAT_XOIDE_BOOT 1 (by decide)

end Sys2Proof.Machine
